-- ==== Sys2Proof/Word.lean ====
section
/-!
DEFINITION. The words of the machine: bytes, 32-bit registers, 64-bit accumulators, and the canonical sparse map that
every indexed store of the state uses.
-/

namespace Sys2Proof

/-- One byte of the control space (R9). -/
abbrev Byte := BitVec 8

/-- A register word of the unit register space, an index register. -/
abbrev Word := BitVec 32

/-- A word accumulator, a value slot of an image (Table HXI-2). -/
abbrev DWord := BitVec 64

/-- A sparse map in canonical form: keys strictly rising, no entry equal to the default value of the store. -/
abbrev NMap (α : Type) := List (Nat × α)

end Sys2Proof
end

