-- ==== Sys2Proof/Machine/Maps.lean ====
section
/-!
DEFINITION. Reading and writing a canonical sparse map, and little-endian bytes (R9).
-/

namespace Sys2Proof.Machine

/-- The value a map holds at key `k`; `d` where it lists none. -/
def mget {α : Type} (m : NMap α) (k : Nat) (d : α) : α :=
  match m with
  | [] => d
  | (k', v) :: t => if k' = k then v else mget t k d

/-- The map `m` with `v` listed at key `k`: before the first higher key, or in place of the entry of `k`. -/
def minsert {α : Type} (m : NMap α) (k : Nat) (v : α) : NMap α :=
  match m with
  | [] => [(k, v)]
  | (k', v') :: t =>
    if k < k' then (k, v) :: (k', v') :: t
    else if k = k' then (k, v) :: t
    else (k', v') :: minsert t k v

/-- The map `m` with `v` at key `k`, in canonical form: an entry equal to the default `d` is not listed. -/
def mput {α : Type} [DecidableEq α] (d : α) (m : NMap α) (k : Nat) (v : α) : NMap α :=
  if v = d then m.filter (fun p => p.1 != k) else minsert m k v

/-- Canonical form: keys strictly rising, no entry equal to the default. -/
def mwf {α : Type} [DecidableEq α] (d : α) (m : NMap α) : Bool :=
  match m with
  | [] => true
  | [(_, v)] => !decide (v = d)
  | (k, v) :: (k', v') :: t => !decide (v = d) && decide (k < k') && mwf d ((k', v') :: t)

/-- The keys a map lists. -/
def mkeys {α : Type} (m : NMap α) : List Nat := m.map Prod.fst

/-- Apply `f` to every listed value; an image equal to the default drops out of the map. -/
def mmap {α : Type} [DecidableEq α] (d : α) (f : Nat → α → α) (m : NMap α) : NMap α :=
  m.foldl (fun acc p => mput d acc p.1 (f p.1 p.2)) []

/-- The little-endian bytes of `v`, `n` of them (R9). -/
def leBytes (n v : Nat) : List Byte :=
  match n with
  | 0 => []
  | n + 1 => BitVec.ofNat 8 (v % 256) :: leBytes n (v / 256)

/-- The number whose little-endian bytes are `bs` (R9). -/
def leNat (bs : List Byte) : Nat :=
  match bs with
  | [] => 0
  | b :: t => b.toNat + 256 * leNat t

/-- Bits [lsb + w − 1 : lsb] of `v`. -/
def bits (v lsb w : Nat) : Nat := (v >>> lsb) % 2 ^ w

/-- `v` with bits [lsb + w − 1 : lsb] replaced by `x`. -/
def setBits (v lsb w x : Nat) : Nat :=
  v - (bits v lsb w) * 2 ^ lsb + (x % 2 ^ w) * 2 ^ lsb

/-- Bit `n` of `v`. -/
def bitOf (v n : Nat) : Bool := (v >>> n) % 2 == 1

/-- `a` below `lim`, else `lim` itself: a saturating counter. -/
def sat (lim a : Nat) : Nat := if a ≤ lim then a else lim

/-- The signed value of the low `w` bits of `v`. -/
def sint (w v : Nat) : Int :=
  if 2 * (v % 2 ^ w) ≥ 2 ^ w then ((v % 2 ^ w : Nat) : Int) - ((2 ^ w : Nat) : Int) else ((v % 2 ^ w : Nat) : Int)

/-- The `w`-bit two's complement pattern of `i`. -/
def pat (w : Nat) (i : Int) : Nat := (i % ((2 ^ w : Nat) : Int)).toNat

/-- `i` kept between `lo` and `hi`. -/
def clampI (lo hi i : Int) : Int := if i < lo then lo else if hi < i then hi else i

/-- Signed `i` saturated to `w` bits and written as a pattern. -/
def satI (w : Nat) (i : Int) : Nat :=
  pat w (clampI (-((2 ^ (w - 1) : Nat) : Int)) (((2 ^ (w - 1) : Nat) : Int) - 1) i)

/-- 1 for true. -/
def b2n (b : Bool) : Nat := if b then 1 else 0

/-- The smallest whole number of steps of `t` that reaches `x`. -/
def ceilDiv (x t : Nat) : Nat := if t = 0 then 0 else (x + t - 1) / t

end Sys2Proof.Machine
end

