-- ==== Sys2Proof/Machine/Data.lean ====
section
/-!
DEFINITION. The parts of the state of the HX7 as plain data. Every field with a default value has its value after reset:
the Reset column of its table, or the value that the assumption log names.
-/

namespace Sys2Proof.Machine

/-! ## Register blocks -/

/-- A unit block or a kind of block that a unit repeats (Table MAP-2). -/
inductive Blk where
  | sys | pwr | tsk | chn | lnk | lnkPort | lio | saf | loop | loopCtx | prof | profCh | vax | vaxAx
  | bsn | bsnCtx | pair | time | can | canCh | host | rcd | pnl | trc
  deriving DecidableEq, Repr

/-- Base address of a block; of its first copy where the unit repeats it (Table MAP-2). -/
def Blk.base : Blk → Nat
  | .sys => 0x40000000 | .pwr => 0x40010000 | .tsk => 0x40020000 | .chn => 0x40030000
  | .lnk => 0x40100000 | .lnkPort => 0x40110000 | .lio => 0x40200000 | .saf => 0x40300000
  | .loop => 0x40400000 | .loopCtx => 0x40410000 | .prof => 0x40500000 | .profCh => 0x40510000
  | .vax => 0x40580000 | .vaxAx => 0x40590000 | .bsn => 0x40600000 | .bsnCtx => 0x40610000
  | .pair => 0x40700000 | .time => 0x40800000 | .can => 0x40900000 | .canCh => 0x40910000
  | .host => 0x40A00000 | .rcd => 0x40B00000 | .pnl => 0x40C00000 | .trc => 0x40D00000

/-- Distance between two copies of a repeated block; 0 for a global block (Table MAP-2). -/
def Blk.step : Blk → Nat
  | .lnkPort => 0x400 | .loopCtx => 0x100 | .profCh => 0x80 | .vaxAx => 0x100 | .bsnCtx => 0x1000
  | .canCh => 0x1000 | _ => 0

/-- Number of copies of a block on the HX7-P64 (Table SCP-2). -/
def Blk.count : Blk → Nat
  | .lnkPort => 64 | .loopCtx => 256 | .profCh => 128 | .vaxAx => 64 | .bsnCtx => 16 | .canCh => 4 | _ => 1

/-- True for a block that the unit repeats: INST of UNIT_ID (R474). -/
def Blk.rep (b : Blk) : Bool := b.step != 0

/-- Error-code high byte of the unit (Table MAP-9). -/
def Blk.code : Blk → Nat
  | .sys => 0x01 | .pwr => 0x02 | .tsk => 0x03 | .chn => 0x05 | .lnk => 0x06 | .lnkPort => 0x06
  | .lio => 0x07 | .saf => 0x08 | .loop => 0x09 | .loopCtx => 0x09 | .prof => 0x0A | .profCh => 0x0A
  | .vax => 0x0B | .vaxAx => 0x0B | .bsn => 0x0C | .bsnCtx => 0x0C | .pair => 0x0D | .time => 0x0E
  | .can => 0x0F | .canCh => 0x0F | .host => 0x10 | .rcd => 0x11 | .pnl => 0x12 | .trc => 0x13

/-- Access codes of a field (Table SCP-3). -/
inductive Acc where
  | rw | ro | wo | w1c | rc | ws | cfg
  deriving DecidableEq, Repr

/-- How the reset word of a register depends on its index in a row: not at all; the index itself in the lowest field
(LIO.AI_STATn.CONV); the VCOM table point −400 + 150 × i (PNL.VTi); the default budget of the task
(Table TSK-4); the standard table of the axis shapes (R314). -/
inductive RstKind where
  | const | index | vcom | budget | sine
  deriving DecidableEq, Repr

/-- One field of a register, or of each register of a row of registers: block, offset, stride and number of the row,
lowest bit, width, access code, and the reset value of the whole register word. -/
structure Fld where
  blk : Blk
  off : Nat
  stride : Nat
  cnt : Nat
  lsb : Nat
  width : Nat
  acc : Acc
  rst : Nat
  rk : RstKind := .const
  deriving DecidableEq, Repr

/-! ## Cores and segments -/

/-- The context of a segment (R45). `br` is the branch stack, top entry first, each (LB, PO); BSP is its length.
`calls` is the call stack, top first; CSP is its length. `cyc` is the CYC count of the segment. -/
structure Ctx where
  pc : Nat := 0
  lb : Bool := false
  br : List (Bool × Bool) := []
  wa : DWord := 0
  wb : DWord := 0
  x : NMap Word := []
  z : Bool := false
  n : Bool := false
  v : Bool := false
  c : Bool := false
  u : Bool := false
  calls : List Nat := []
  cyc : Nat := 0
  deriving DecidableEq, Repr

/-- LE_FAULT, FAULT_PC and FAULT_ADDR of a core (special registers 0x02 to 0x04). -/
structure LeFault where
  code : Nat := 0
  task : Nat := 0
  seg : Nat := 0
  core : Nat := 0
  ovr : Bool := false
  valid : Bool := false
  pc : Nat := 0
  addr : Nat := 0
  deriving DecidableEq, Repr

/-- One store-buffer entry: a 64-bit word of DATA or RETAIN, or the 64-bit OUT value slot of a channel, with the bits
written so far (`mask`) and their values (R43, R77, R494). `init` marks an OUT slot written by an INIT task (R130).
`since` is the TICK count at issue, `task` the writing task's number plus 1. -/
structure SbEntry where
  word : Nat
  mask : Nat
  val : Nat
  init : Bool
  since : Nat
  task : Nat := 0
  deriving DecidableEq, Repr

/-- One outstanding posted write to a unit register, CHTAB or DDRW (R77). `msk` other than 0 marks a bit store: the bits of
its one byte that it writes (R43). -/
structure Posted where
  addr : Nat
  bytes : List Byte
  since : Nat
  msk : Nat := 0
  deriving DecidableEq, Repr

/-- What a core is doing. `ready`: it executes instruction commands. `inEcall`: a core that runs no segment waits for a
synchronous engine call (R100): engine, ticket, descriptor address and the TICK time at which the wait bound passes.
`stopped`: a core that runs no segment stopped at a fault (R75), until the next segment starts on it. -/
inductive CoreMode where
  | ready
  | inEcall (unit ticket addr due : Nat)
  | stopped
  deriving DecidableEq, Repr

/-- One core: LC0 to LC5 are cores 0 to 5, SC-A is core 6 and SC-B core 7. `run` is the running segment as
task × 4 + segment. -/
structure Core where
  ctx : Ctx := {}
  le : LeFault := {}
  mode : CoreMode := .ready
  run : Option Nat := none
  sb : List SbEntry := []
  posted : List Posted := []
  deriving DecidableEq, Repr

/-- Where a segment of a released task stands (R111, R112, R114). -/
inductive SegPh where
  | idle
  | ready
  | running
  | atBarrier (n : Nat)
  | inEcall (unit ticket addr due : Nat)
  | ended
  deriving DecidableEq, Repr

/-- A segment: its phase, its context while it is not on its core, and its place among the ready segments of its band:
0 preempted, 1 released, from 2 on resumed, in the order of their resumption (R111, R112). -/
structure Seg where
  ph : SegPh := .idle
  ctx : Ctx := {}
  ord : Nat := 0
  deriving DecidableEq, Repr

/-- An entry of the event queue of TIME or of a USER task (Table TSK-3). -/
structure EvEntry where
  source : Nat := 0
  tag : Nat := 0
  dropped : Nat := 0
  stamp : Nat := 0
  cond : Nat := 0
  deriving DecidableEq, Repr

/-- A record of the fault queue (Table ORD-11). -/
structure FaultRec where
  fault : Nat := 0
  pc : Nat := 0
  addr : Nat := 0
  info : Nat := 0
  stamp : Nat := 0
  deriving DecidableEq, Repr

/-- The run of a task: released and not ended, time of its release, stopped by a fault since its last deadline (R120),
greatest CYC of its ended segments, its event queue, and drops not yet reported. -/
structure Task where
  live : Bool := false
  relAt : Nat := 0
  faulted : Bool := false
  exec : Nat := 0
  evq : List EvEntry := []
  evDrop : Nat := 0
  deriving DecidableEq, Repr

/-- A timer cell (R56): IN, Q, start stamp ST in ns of the TICK count, preset PT with its unit (0 µs, 1 ms, 2 s). -/
structure TCell where
  inp : Bool := false
  q : Bool := false
  st : Int := 0
  pt : Nat := 0
  unit : Nat := 0
  deriving DecidableEq, Repr

/-- An entry of a migration map (Table TSK-11). -/
structure MigEntry where
  dst : Nat
  src : Nat
  len : Nat
  op : Nat
  types : Nat
  rsv : Nat := 0
  deriving DecidableEq, Repr

/-- A migration map (Table TSK-10), its header fields as stored, its entries and its constant pool. -/
structure MigMap where
  magic : Nat := 0x0050414D
  fromGen : Nat := 0
  toGen : Nat := 0
  count : Nat := 0
  cost : Nat := 0
  poolOfs : Nat := 0
  pool : List Byte := []
  crc : Nat := 0
  entries : List MigEntry := []
  deriving DecidableEq, Repr

/-- A timer preset of a program image. -/
structure TPreset where
  cell : Nat
  pt : Nat
  unit : Nat
  deriving DecidableEq, Repr

/-- Timeline parameters that have no register (Table ARC-5), in ns: t_guard, t_sl, t_ao, t_fsl, t_fao. -/
structure Timeline where
  tGuard : Nat := 10000
  tSl : Nat := 200000
  tAo : Nat := 180000
  tFsl : Nat := 30000
  tFao : Nat := 40000
  deriving DecidableEq, Repr

/-- A Modbus point (R420): table (0 coils, 1 discrete inputs, 2 input registers, 3 holding registers), address, type (0 BIT,
1 I16, 2 U16, 3 I32, 4 U32, 5 F32), source (0 IN value, 1 OUT value, 2 DATA) with its channel or address, bit of a BIT in
DATA, writable. -/
structure MbPoint where
  tbl : Nat := 0
  addr : Nat := 0
  typ : Nat := 0
  src : Nat := 0
  ref : Nat := 0
  bit : Nat := 0
  wr : Bool := false
  deriving DecidableEq, Repr

/-- Configuration of HOST that has no register: trust anchors (R412), access list (fingerprint, privilege 1 READ, 2 OPERATE,
3 ENGINEER, 4 ADMIN), Modbus point map, talkers by sentence code, transmission groups (address, port). -/
structure HostCfg where
  anchors : List Nat := []
  acl : List (Nat × Nat) := []
  points : List MbPoint := []
  talkers : NMap Nat := []
  groups : List (Nat × Nat) := []
  deriving DecidableEq, Repr

/-- A safety map entry (Table SAF-3). -/
structure SMap where
  chan : Nat
  kind : Nat
  typ : Nat
  point : Nat
  sbyte : Nat
  sbit : Nat
  disc : Nat
  group : Nat
  stage : Nat
  deriving DecidableEq, Repr

/-- A gate table entry (R251). -/
structure GateE where
  chan : Nat
  group : Nat
  whn : Nat
  val : Nat
  deriving DecidableEq, Repr

/-- SS1 parameters of a group (Table SAF-9); `pg` lists the four profile channels. -/
structure Ss1Cfg where
  speed : Nat
  aMon : Nat
  vTol : Nat
  vSs : Nat
  tMax : Nat
  decProg : Bool
  pg : List Nat
  deriving DecidableEq, Repr

/-- Configuration of a trip group: reset input and its limits in ms, SS1 where configured (R253, R257, R258). -/
structure GrpCfg where
  reset : Nat := 0
  tMin : Nat := 50
  tMax : Nat := 3000
  ss1 : Option Ss1Cfg := none
  deriving DecidableEq, Repr

/-- A core image of the safety image: the core it names (0 SC-A, 1 SC-B), bytes of code, entry point, initial SDATA and
SKEEP, and its output-block declaration: output entries in block order and the extent of the cross-check area (R267,
R268). -/
structure CoreImg where
  core : Nat := 0
  codeLen : Nat := 0
  entry : Nat := 0
  sdata : List (Nat × Byte) := []
  skeep : List (Nat × Byte) := []
  decl : List Nat := []
  xlen : Nat := 0
  deriving DecidableEq, Repr

/-- A safety image (R267): whether there is one, its CRC-32, the key under which its signature verifies, T_S in µs, the map
as (index, entry), gates, configured groups, both core images. -/
structure SImage where
  there : Bool := false
  id : Nat := 0
  sig : Nat := 0
  ts : Nat := 0
  map : List (Nat × SMap) := []
  gates : List GateE := []
  groups : List (Nat × GrpCfg) := []
  imgA : CoreImg := {}
  imgB : CoreImg := { core := 1 }
  deriving DecidableEq, Repr

/-- A program image as a slot holds it (R35, R110): generation, CRC of the bytes it was loaded as, bytes of code, the entry point of each segment as
(task × 4 + segment, offset), initial data, timer presets, the fault record area, the event areas by task, the address
of the program parameter block, the configuration (register words, channel and station table bytes, HOST data, timeline
parameters), the migration maps of an online change, the fast ranges of R357, the safety section (R267), and the key under
which its signature verifies (R414). -/
structure Slot where
  gen : Nat := 0
  crc : Nat := 0
  sig : Nat := 0
  variant : Nat := 0
  size : Nat := 0
  codeLen : Nat := 0
  entries : NMap Nat := []
  dataInit : List (Nat × Byte) := []
  retainInit : List (Nat × Byte) := []
  presets : List TPreset := []
  faultArea : Nat := 0
  evAreas : NMap Nat := []
  paramAddr : Nat := 0
  cfgRegs : List (Nat × Nat) := []
  cfgMem : List (Nat × List Byte) := []
  host : HostCfg := {}
  tl : Timeline := {}
  map : MigMap := {}
  revMap : MigMap := {}
  fast : List (Nat × Nat) := []
  simg : SImage := {}
  deriving DecidableEq, Repr

/-- A call that an engine has accepted (R93, R495). -/
structure Call where
  unit : Nat
  fn : Nat
  inst : Nat
  ticket : Nat
  addr : Nat
  len : Nat
  since : Nat
  deriving DecidableEq, Repr

/-- An event entry held back while no cyclic task is released (R480): block address of the source's EVT_LAT, bits,
target task, entry. -/
structure HeldEv where
  lat : Nat
  task : Nat
  entry : EvEntry
  deriving DecidableEq, Repr

/-! ## Channels -/

/-- A copy of a channel table entry as the channel unit holds it (Table CHN-1). -/
structure ChEntry where
  src : Nat := 0
  mode : Nat := 0
  point : Nat := 0
  byteOfs : Nat := 0
  bitOfs : Nat := 0
  types : Nat := 0
  ownKind : Nat := 0
  ownInst : Nat := 0
  gain : Nat := 0
  offset : Nat := 0
  limLo : Nat := 0
  limHi : Nat := 0
  subst : Nat := 0
  opt : Nat := 0
  deriving DecidableEq, Repr

/-- The state of one channel: cached and latched entry (R148 to R151), the values and status words of its image slots
(Table CHN-5, R155), and what the conversions keep. `inv`: the cached copy is invalid and awaits its re-read. `bad`: the refusal of this cached version is recorded (R151). `inVal`/`inSt`: latest
input close; `tkVal`/`tkSt`: the class task's own IN buffer; `finVal`/`finSt`: latest fast buffer close.
`outVal`: OUT slot as its owner wrote it; `lnkVal`: OUT value handed to the link engine; `dueVal`: the value handed over at
the latest output deadline of the owner class (R25); `outSt`: status at the latest launch. `seen`: a value was received
since the restart; `last`: last value; `good`: last valid value for SUBST_MODE 1; `srcAt`: instant of the source's value
at the latest input close, by which AGE knows a new one; `readAt`: TICK count + 1 at which the latest re-read completed
(R150). -/
structure Chan where
  cached : ChEntry := {}
  inv : Bool := false
  bad : Bool := false
  latched : ChEntry := {}
  inVal : Nat := 0
  inSt : Nat := 0
  tkVal : Nat := 0
  tkSt : Nat := 0
  finVal : Nat := 0
  finSt : Nat := 0
  outVal : Nat := 0
  lnkVal : Nat := 0
  dueVal : Nat := 0
  outSt : Nat := 0
  seen : Bool := false
  last : Nat := 0
  good : Option Nat := none
  age : Nat := 0
  raw : Nat := 0
  wire : Bool := false
  dev : Bool := false
  srcAt : Nat := 0
  readAt : Nat := 0
  deriving DecidableEq, Repr

/-- An entry of the force table (R163): kind 0 free, 1 FORCE, 2 SIM. -/
structure Force where
  kind : Nat := 0
  chan : Nat := 0
  val : Nat := 0
  deriving DecidableEq, Repr

/-! ## Program, restart and non-volatile memory -/

/-- Where the restart of the program stands (R127, R131): no restart yet, units on their way to RUN (W5) and an INIT task
running, with their type (true = WARM), cyclic tasks running, halted under R124, or abandoned with INIT_FAIL. -/
inductive RunPh where
  | none
  | units (warm : Bool)
  | init (warm : Bool)
  | running
  | halted
  | failed
  deriving DecidableEq, Repr

/-- A stored profile (R139): the settings as register writes, and the program parameter block. -/
structure Profile where
  stored : Bool := false
  sets : List (Nat × Nat) := []
  param : List Byte := []
  deriving DecidableEq, Repr

/-- A profile switch in progress (Table TSK-14): target, the copies taken to STOP, and whether the new configuration is
written. -/
structure ProfSw where
  target : Nat
  insts : List (Blk × Nat)
  tb : Nat
  deriving DecidableEq, Repr

/-- The state of TSK besides its registers: released tasks and segments, timer cells (core × 4096 + cell for the safety
cores, 0 + cell for TSK), program slots, fault queue with its unreported drops, engine queues and ticket counters by
UNIT code, held event entries, restart phase, whether cyclic tasks are released, station bitmaps awaiting ERROR, classes
past their first output close, key position accepted, HALT awaiting its deadline, a restart that is due (WARM, CAUSE,
FELLBACK), the end of a migration, releases that wait for it, profile channels that take a profile late, ST of the timer cells that are not listed, SRAM shadow intact, stored profiles, the
profile asked for, the one held, the switch in progress, a STORE held, and the pin value. -/
structure TskSt where
  tasks : NMap Task := []
  segs : NMap Seg := []
  timers : NMap TCell := []
  slotA : Slot := {}
  slotB : Slot := {}
  fq : List FaultRec := []
  fqDrop : Nat := 0
  engq : NMap (List Call) := []
  tickets : NMap Nat := []
  held : List HeldEv := []
  ph : RunPh := .none
  rel : Bool := false
  errMap : Nat := 0
  errDown : Nat := 0
  closed : NMap Nat := []
  keyAcc : Bool := false
  haltPend : Bool := false
  due : Option (Bool × Nat × Bool) := none
  migTo : Nat := 0
  migPend : Bool := false
  profLate : List Nat := []
  timerBase : Int := 0
  shadow : Bool := false
  profiles : NMap Profile := []
  profReq : Option Nat := none
  profHeld : Option Nat := none
  profSw : Option ProfSw := none
  profStore : Option Nat := none
  pinVal : Nat := 0
  deriving DecidableEq, Repr

/-- The state of CHN besides its registers: channels and force entries. -/
structure ChnSt where
  chans : NMap Chan := []
  forces : NMap Force := []
  deriving DecidableEq, Repr

/-- A request in the recorder's write queue (R431): record type, key, source number, origin, stamps and body data. -/
structure RecReq where
  typ : Nat
  key : Nat
  inst : Nat := 0
  origin : Nat := 0
  ptp : Nat := 0
  unsync : Bool := false
  detail : List Byte := []
  kind : Nat := 0
  opsec : Nat := 0
  sub : Nat := 0
  call : Option Call := none
  deriving DecidableEq, Repr

/-! ## Scaty links -/

/-- A fault entry of an IN frame (Table LNK-6). -/
structure Flt where
  ref : Nat
  mask : Nat
  kind : Nat
  deriving DecidableEq, Repr

/-- A received IN frame (Tables LNK-3 and LNK-6), with `t4` the module's stamp of its SFD and `corr` its CORR at
arrival. -/
structure InFrame where
  cyc : Nat := 0
  epoch : Nat := 0
  corr : Nat := 0
  t2c : Nat := 0
  t3 : Nat := 0
  t4 : Nat := 0
  ack : Nat := 0
  sstat : Nat := 0
  acredit : Nat := 0
  ureq : Nat := 0
  cfgId : Nat := 0
  corrDn : Nat := 0
  flts : List Flt := []
  data : List Byte := []
  cont : Option (List Byte) := none
  deriving DecidableEq, Repr

/-- Where the INIT sequence of a station stands (R187): none, IDENT, PARAM chunk from an offset, START, or complete. -/
inductive InitPh where
  | none
  | ident
  | param (ofs : Nat)
  | start
  | done
  deriving DecidableEq, Repr

/-- What the module keeps of a station beside its station table entry. `got`: valid IN frame for the coming input close;
`fgot`: valid FIN data for the coming fast close; `inData`, `finData`: data of the last valid frames; `flts`, `fltOvf`:
faults the station lists; `ffresh`: the latest fast close had valid FIN data; `initAt`: start of the INIT timer; `cfgId`, `record`: expected CFG_ID and INIT record;
`credit`, `sent`: ACREDIT and the TICK times of requests sent since the launch it acknowledges; `avg`: average delay in 1/65,536 ns over
`nSamp` samples, `accum` the sum of the first 16, `rej` the consecutive rejections; `reinit`: a pending REINIT call; `rcv`: a
valid IN frame was received since the restart. -/
structure Sta where
  got : Option InFrame := none
  fgot : Option (List Byte) := none
  inData : List Byte := []
  finData : List Byte := []
  flts : List Flt := []
  fltOvf : Bool := false
  ffresh : Bool := false
  ph : InitPh := .none
  initAt : Nat := 0
  identAt : Nat := 0
  polled : Bool := false
  cfgId : Nat := 0
  record : List Byte := []
  credit : Nat := 0
  sent : List Nat := []
  ureq : Nat := 0
  avg : Int := 0
  nSamp : Nat := 0
  accum : Int := 0
  rej : Nat := 0
  dly : Int := 0
  reinit : Option Call := none
  fresh : Bool := false
  rcv : Bool := false
  deriving DecidableEq, Repr

/-- An acyclic request of a port (R192): target position, service, token, arguments, data, class, enqueue time, timeout,
whether and when it was sent, the response parts received, and who waits for it: an engine call or an axis. -/
structure AReq where
  pos : Nat
  svc : Nat
  token : Nat
  arg1 : Nat := 0
  arg2 : Nat := 0
  data : List Byte := []
  cls : Nat
  since : Nat
  tmo : Nat
  sent : Bool := false
  sentAt : Nat := 0
  part : Nat := 0
  rsp : List Byte := []
  call : Option Call := none
  axis : Option Nat := none
  deriving DecidableEq, Repr

/-- An OUTNOW call waiting for its frame (R195). -/
structure IoutReq where
  call : Call
  pos : Nat
  chans : List Nat
  deriving DecidableEq, Repr

/-- What the module keeps of a port beside its registers: acyclic queue, waiting IOUT frames, next token, rotation of
the grant, the grants of the latest launches (window start, position, wire bytes left), CYC and T_TX of the latest
launches, CYC and TICK time of them, the length of the upstream acyclic window in ns, frames last sent, the instant up to which its line is busy downstream, the slots of R182 (position, start after the sample, ns), a step not yet announced, whether
the next launch is the last (STOP), and whether the port has left RUN since the last input close. -/
structure PortSt where
  aq : List AReq := []
  iout : List IoutReq := []
  token : Nat := 0
  rot : Nat := 0
  grants : List (Nat × Nat × Nat) := []
  ttx : List (Nat × Nat) := []
  txAt : List (Nat × Nat) := []
  winLen : Nat := 0
  tx : List (List Byte) := []
  busyTo : Nat := 0
  slots : List (Nat × Nat) := []
  fslots : List (Nat × Nat) := []
  step : Bool := false
  left : Bool := false
  deriving DecidableEq, Repr

/-- The state of LNK besides its registers and the station table. -/
structure LnkSt where
  stas : NMap Sta := []
  ports : NMap PortSt := []
  deriving DecidableEq, Repr

/-! ## Recorder statistics -/

/-- The samples of one declared statistic in its running interval (Table REC-3): count, least and greatest sample and
their sum as F64 patterns, and the counts of the 16 bins. -/
structure StatAcc where
  count : Nat := 0
  lo : Nat := 0
  hi : Nat := 0
  sum : Nat := 0
  bins : NMap Nat := []
  deriving DecidableEq, Repr
/-! ## Safety engine -/

/-- A trip group beside its state in SAF.GSTATE and SAF.GPHASE. `next` is the state decided at t_end for the output
deadline that follows: 0 SAFE-RUN, 1 SS1 phase, 2 STO, 3 RESET-WAIT. `ev` holds event causes of the running cycle.
`tss1`, `v0`: SS1 start and speed (R254); `rwAt`, `runAt`: entry into RESET-WAIT and SAFE-RUN, each the output
deadline at which the state took effect (R245); `clearAt`: latest clearing of STUCK_RESET (R260); `reintAt`: apply instant of
the REINT that the stations got when the group last entered SAFE-RUN (R243). -/
structure Grp where
  next : Option Nat := none
  ev : Nat := 0
  tss1 : Nat := 0
  v0 : Nat := 0
  rwAt : Nat := 0
  runAt : Nat := 0
  clearAt : Nat := 0
  reintAt : Option Nat := none
  deriving DecidableEq, Repr

/-- A safety station at the engine: SSTAMP of the latest accepted container, its SFLAGS and SDATA, passivation, whether its
containers were missing at the latest close, whether a REINT of its group is due, and for a station without outputs the start of
the S cycle at whose close its containers were accepted again with PASSIVE (R242, R243). -/
structure SafSta where
  tAcc : Option Nat := none
  flags : Nat := 0
  data : List Byte := []
  pass : Bool := true
  back : Bool := true
  reint : Bool := false
  again : Option Nat := none
  deriving DecidableEq, Repr

/-- A reset input or a DI pair as the engine follows it: level and whether it is known, rising stamp of a pulse under way,
complete pulses (rise, fall) not yet judged, since when it has been 0; for a pair, since when it has not matched, and DISC; and
the instant of the latest valid sample of a reset input (R239, R258, R260). -/
structure SafIn where
  lvl : Bool := false
  known : Bool := false
  rise : Option Nat := none
  pulses : List (Nat × Nat) := []
  lowAt : Option Nat := none
  miss : Option Nat := none
  disc : Bool := false
  at_ : Nat := 0
  deriving DecidableEq, Repr

/-- An SSTATE frame on SYNC (R265): deadline of its content, and by group state code, first cause, t_ss1 and v0. -/
structure SstFrame where
  stamp : Nat := 0
  gst : NMap Nat := []
  first : NMap Nat := []
  tss1 : NMap Nat := []
  v0 : NMap Nat := []
  deriving DecidableEq, Repr

/-- The safety record of R264 as held from tier F and SSTATE frames: group states and phases (code as `Grp.next`), causes
(CAUSES, FIRST, INST and the stamp; CAUSES and FIRST alone where an SSTATE brought them), deadline of the content, the latest
deadline for which an SSTATE or a heartbeat brought it (R266), SS1 starts
and the instants of the groups, reset edge stamps, the stations (passivation and accepted container), SKEEP of both cores. -/
structure SafRec where
  valid : Bool := false
  stamp : Nat := 0
  known : Nat := 0
  gst : NMap Nat := []
  gcause : NMap (List Nat) := []
  grps : NMap Grp := []
  ins : NMap SafIn := []
  stuck : Nat := 0
  stas : NMap SafSta := []
  keepA : List (Nat × Byte) := []
  keepB : List (Nat × Byte) := []
  deriving DecidableEq, Repr

/-- The state of SAF besides its registers: the image in force and a section loaded for the next RUN, groups, stations,
followed inputs, the input image (value, status word) by map index, output values of each core by map index, the compared
output block of the latest cycle, the containers of the launch, whether the running cycle awaits its t_end, whether each core's
task runs and when it was released, the start of the running cycle and of the input image,
the latest SSTATE frame sent, and the held record. `tripAt`: an engine trip is in force since that instant, `wasTg` and `wasSs1`
are the group states before it (R251). `hold`: restored at a takeover, the engine waits for its first S cycle start (R266).
`seen`: at each sample of the local inputs, latest first, the DIs that were not valid and the map indices with DISC (R239). `chk`:
both black-channel checkers are available (R261). `relAt` is a count of the RC oscillator (R236). -/
structure SafSt where
  img : SImage := {}
  loaded : Option SImage := none
  groups : NMap Grp := []
  stas : NMap SafSta := []
  ins : NMap SafIn := []
  inImg : NMap (Nat × Nat) := []
  outA : NMap Nat := []
  outB : NMap Nat := []
  blk : NMap Nat := []
  cont : NMap (List Byte) := []
  pend : Bool := false
  busyA : Bool := false
  busyB : Bool := false
  relAt : Nat := 0
  cycAt : Nat := 0
  inAt : Nat := 0
  tripAt : Option Nat := none
  wasTg : Nat := 0
  wasSs1 : Nat := 0
  hold : Bool := false
  seen : List (Nat × Nat × List Nat) := []
  chk : Bool := true
  sst : Option SstFrame := none
  rcd : SafRec := {}
  deriving DecidableEq, Repr

/-! ## Profile channels and valve axes -/

/-- A segment of a plan: jerk and duration in seconds, F64 patterns (R304). -/
structure PSeg where
  jerk : Nat
  dur : Nat
  deriving DecidableEq, Repr

/-- A profile channel beside its registers: start instant and start state (F64) of its plan, its segments, the goal
(velocity or position), the limits in force (F32 patterns), arrival instant, the position at it, end of the first motion of
R306, planned
calls that wait for their sample with the instant their planning was complete, the STOP of an SS1 start with its instant,
the lock of R308, and the instant of the latest sample. -/
structure Gen where
  t0 : Nat := 0
  x0 : Nat := 0
  v0 : Nat := 0
  a0 : Nat := 0
  segs : List PSeg := []
  goalV : Bool := false
  goal : Nat := 0
  limV : Nat := 0
  limA : Nat := 0
  limD : Nat := 0
  limJ : Nat := 0
  tArr : Nat := 0
  rest : Nat := 0
  above : Option Nat := none
  wait : List (Nat × Call) := []
  ss1 : Option Nat := none
  lock : Bool := false
  at_ : Nat := 0
  deriving DecidableEq, Repr

/-- A valve axis beside its registers: the START and STOP calls in progress, whether the table download is confirmed,
whether the next word carries SYNC, the standstill start of R318, and the launches left with COIL = RUN before
streaming. -/
structure Axis where
  start : Option Call := none
  ready : Bool := false
  stop : Option Call := none
  still : Option Nat := none
  wake : Nat := 0
  deriving DecidableEq, Repr

/-! ## Loop contexts and trace -/

/-- An injection running on a context (R294, R295): kind, point, PRBS order, F32 parameters, duration in ms, steps, PRBS
hold, instant of its first sample, samples since it, and the shift register. -/
structure Inj where
  kind : Nat
  point : Nat
  order : Nat
  amp : Nat
  fStart : Nat
  fEnd : Nat
  dur : Nat
  steps : Nat
  div : Nat
  since : Nat
  n : Nat
  lfsr : Nat
  deriving DecidableEq, Repr

/-- What a context read at its sample instant (R273): the instant, feedback value and status of each law, the value of its
position channel where it is enabled, value and status of its track channel, and for each law position, velocity and
acceleration of its profile channel, none where that is not in RUN (R277). -/
structure LSample where
  t : Nat
  fb : List (Nat × Nat)
  px : Option Nat
  trk : Nat
  trkSt : Nat
  prof : List (Option (Nat × Nat × Nat))
  deriving DecidableEq, Repr

/-- A loop context beside its registers, F32 patterns: the kept values of R278, set-points of SETSP and Basin, the manual
value, the last r, the pending sample, the calls that wait for it, supervision timers, a FAULTRST target, a swap asked by
management with the instant of its acceptance, the hand-over due at entry to RUN, the injection, and p, d, ff and stamp of the latest sample. -/
structure LoopSt where
  uPrev : Nat := 0
  iPrev : Nat := 0
  dPrev : Nat := 0
  wPrev : Nat := 0
  yPrev : Nat := 0
  sp : Nat := 0
  vff : Nat := 0
  aff : Nat := 0
  bsp : Nat := 0
  rLast : Nat := 0
  man : Nat := 0
  smp : Option LSample := none
  lastAt : Option Nat := none
  wait : List Call := []
  bnext : List (Nat × Nat) := []
  feAt : Option Nat := none
  frAt : Option Nat := none
  frY : Nat := 0
  frE : Nat := 0
  rst : Option Nat := none
  swap : Option Nat := none
  enter : Bool := false
  inj : Option Inj := none
  p : Nat := 0
  d : Nat := 0
  ff : Nat := 0
  at_ : Nat := 0
  deriving DecidableEq, Repr

/-- The trace and capture unit beside its registers: ring and spill region entries by index, entries not yet copied to
the spill region, capture samples by signal × 65,536 + index, the previous value of each channel (plus 1, 0 none), the
samples of each capture signal, and the entries left after a trigger. -/
structure TrcSt where
  ring : NMap Nat := []
  spill : NMap Nat := []
  pend : List Nat := []
  cap : NMap Nat := []
  prev : NMap Nat := []
  capN : NMap Nat := []
  post : Nat := 0
  deriving DecidableEq, Repr

/-! ## Local field I/O -/

/-- A DI as the sequencer follows it: raw state of the latest sample, consecutive raw samples that differ from the filtered
state, consecutive samples in and outside BREAK, and DEV_FAULT from a cross-circuit (R206, R207, R209). -/
structure DiSt where
  raw : Bool := false
  cnt : Nat := 0
  wbIn : Nat := 0
  wbOut : Nat := 0
  xc : Bool := false
  deriving DecidableEq, Repr

/-- A DO beside its registers: value of the latest apply instant, protective switch-off with its instant and whether the
commanded value has been 0 since, consecutive readbacks of 1 while off, the instant of the latest test pulse, and the latest
nominal instant of its test with whether it was on then (R205, R210 to R213). -/
structure DoSt where
  cmd : Bool := false
  off : Bool := false
  offAt : Nat := 0
  zero : Bool := false
  extv : Nat := 0
  tested : Option Nat := none
  nom : Option (Nat × Bool) := none
  deriving DecidableEq, Repr

/-- An AO: the applied code, the latest readbacks as (instant, µV, nA), consecutive bad readbacks of each kind (short,
voltage, current loop), consecutive good ones, and the faults present (R225, R226). -/
structure AoSt where
  code : Int := 0
  rb : List (Nat × Int × Int) := []
  nShort : Nat := 0
  nDev : Nat := 0
  nOpen : Nat := 0
  good : Nat := 0
  dev : Bool := false
  wire : Bool := false
  deriving DecidableEq, Repr

/-- An AI: latest results as (conversion instant, code), consecutive conversions below 3.6 mA and above 21.0 mA, DEV_FAULT
of the latter, the open shunt switch with its instant, the instants between which results carry DEV_FAULT, and a channel
left without a converter (R219 to R223). -/
structure AiSt where
  res : List (Nat × Int) := []
  nLo : Nat := 0
  nHi : Nat := 0
  hi : Bool := false
  shunt : Option Nat := none
  deadFrom : Nat := 0
  deadTo : Nat := 0
  dead : Bool := false
  deriving DecidableEq, Repr

/-- A converter: instant of its calibration, consecutive failed calibrations and refused hand-overs (R221). -/
structure ConvSt where
  calAt : Nat := 0
  calFail : Nat := 0
  refused : Nat := 0
  deriving DecidableEq, Repr

/-- A test pulse from its start to the end of its check: of supply or DO `n`, what its samples have shown so far
(R209, R212): DIs seen ON, readback 1 too early, readback 1 after the pulse. -/
structure Pulse where
  vs : Bool
  n : Nat
  at_ : Nat
  on : Nat := 0
  bad : Bool := false
  back : Bool := false
  deriving DecidableEq, Repr

/-- The state of LIO besides its registers: points, sample history as (instant, DI word, readback word), converters, the
channel and spare of a hand-over refused in the previous step, the instants of the latest step and of the connection of its
spare, the running test pulse and
the end of the latest check window, class outputs taken for an apply instant as (instant, raw), values written by loop
contexts as (instant, value), latest retrigger of each armed watchdog (DO n: n, AO n: 16 + n), pair values taken and
applied, supplies off after a fault with the instant, end of the calibration at RUN, levels of TP pins. -/
structure LioSt where
  dis : NMap DiSt := []
  dos : NMap DoSt := []
  aos : NMap AoSt := []
  ais : NMap AiSt := []
  hist : List (Nat × Nat × Nat) := []
  conv : NMap ConvSt := []
  prevRef : Option (Nat × Nat) := none
  stepAt : Nat := 0
  ovAt : Nat := 0
  pulse : Option Pulse := none
  pulseEnd : Nat := 0
  taken : NMap (Nat × Nat) := []
  loopW : NMap (List (Nat × Nat)) := []
  wd : NMap (Option Nat) := []
  pairNext : NMap (Nat × Nat) := []
  pairVal : NMap Nat := []
  vsOff : NMap (Option Nat) := []
  vsTested : NMap (Option Nat) := []
  calEnd : Nat := 0
  deriving DecidableEq, Repr


/-! ## Basin -/

/-- An iterate of the interior-point method (R329): z, slacks, equality multipliers, multipliers of the upper and lower
row bounds and box bounds, all F64 patterns, with ‖r_p‖∞, ‖r_d‖∞ and μ of R332. -/
structure Iter where
  z : List Nat := []
  sl : List Nat := []
  y : List Nat := []
  lu : List Nat := []
  ll : List Nat := []
  nu : List Nat := []
  nl : List Nat := []
  rp : Nat := 0
  rd : Nat := 0
  mu : Nat := 0
  deriving DecidableEq, Repr

/-- The per-solve vectors of R324. -/
structure QVecs where
  f : List Nat := []
  beq : List Nat := []
  l : List Nat := []
  u : List Nat := []
  zmin : List Nat := []
  zmax : List Nat := []
  deriving DecidableEq, Repr

/-- An undecided solve: its call, deadline, instant taken, operands (addresses in the order of Table BSN-1, then OPT),
whether its setup has started and ended, iterations completed, its vectors, the present and the last completed iterate,
‖r_p‖∞ of the completed iterations (latest first), μ(1), pivots regularised, ILLPOSED, and the CANCEL that waits for the
end of its unit. -/
structure Solve where
  call : Call
  d : Nat
  at_ : Nat
  addrs : List Nat := []
  opt : Nat := 0
  started : Bool := false
  ready : Bool := false
  k : Nat := 0
  vecs : QVecs := {}
  cur : Iter := {}
  last : Option Iter := none
  rps : List Nat := []
  mu1 : Nat := 0
  nreg : Nat := 0
  ill : Bool := false
  cancel : List Call := []
  deriving DecidableEq, Repr

/-- A QP context beside its registers: its matrices in scratch (column-major), the vectors of the previous solve, running
and waiting solve. -/
structure QpSt where
  h : List Nat := []
  aeq : List Nat := []
  ain : List Nat := []
  prev : Option QVecs := none
  run : Option Solve := none
  wait : Option Solve := none
  deriving DecidableEq, Repr

/-- A decided result that is not yet written: context, call, deadline, code byte, flags, ITER, DECIDED, stamp, OBJ, RP, RD,
MU, NREG, z, y and λ. -/
structure QpRes where
  ctx : Nat
  call : Call
  d : Nat
  code : Nat
  flags : Nat
  iter : Nat
  why : Nat
  stamp : Nat
  obj : Nat
  rp : Nat
  rd : Nat
  mu : Nat
  nreg : Nat
  z : List Nat
  y : List Nat
  lam : List Nat
  deriving DecidableEq, Repr

/-- The state of BSN besides its registers: contexts, results awaiting their write, deliveries as (deadline, loop context,
F32), start of the unit in progress, and ns busy in the running second. -/
structure BsnSt where
  qps : NMap QpSt := []
  decided : List QpRes := []
  dlv : List (Nat × Nat × Nat) := []
  unitAt : Nat := 0
  busy : Nat := 0
  deriving DecidableEq, Repr

/-! ## Time base -/

/-- A PTP message (R385, R387): kind (0 Sync, 1 Follow_Up, 2 Delay_Req, 3 Delay_Resp, 4 Pdelay_Req, 5 Pdelay_Resp,
6 Pdelay_Resp_Follow_Up, 7 Announce), transport (0 UDP over IPv4, 1 IEEE 802.3), whether it needs an option outside Table TIME-3
(unicast negotiation, management, an alternate timescale TLV, security), domain, sequenceId, source clockIdentity and port, twoStepFlag, correction in
1/65,536 ns, the carried timestamp in ns, whether the requesting port is this one, and the fields of Announce. -/
structure PtpMsg where
  kind : Nat := 0
  tr : Nat := 0
  opt : Bool := false
  dom : Nat := 0
  seq : Nat := 0
  src : Nat := 0
  srcPort : Nat := 0
  twoStep : Bool := true
  corr : Int := 0
  ts : Nat := 0
  own : Bool := false
  prio1 : Nat := 0
  cls : Nat := 0
  acc : Nat := 0
  var : Nat := 0
  prio2 : Nat := 0
  gm : Nat := 0
  steps : Nat := 0
  tsrc : Nat := 0xA0
  utc : Nat := 0
  utcOk : Bool := false
  l61 : Bool := false
  l59 : Bool := false
  deriving DecidableEq, Repr

/-- A foreign master heard on a port: its latest Announce, how many were heard, and when. -/
structure Foreign where
  ann : PtpMsg := {}
  n : Nat := 0
  at_ : Nat := 0
  deriving DecidableEq, Repr

/-- A PTP port: foreign masters, the Sync that awaits its Follow_Up with its receive stamp, t2 − t1 of the latest Sync in
1/65,536 ns, the filtered path delay in 1/65,536 ns and the consecutive rejected measurements, the outstanding Delay_Req or
Pdelay_Req as (sequenceId, send stamp), the Pdelay_Resp that awaits its Follow_Up as (t2, t4, correction), next
sequenceIds, the messages last sent, and the instant from which the announce receipt timeout runs. -/
structure PtpPort where
  foreign : List Foreign := []
  sync : Option (PtpMsg × Nat) := none
  ms : Option Int := none
  dly : Option Int := none
  rej : Nat := 0
  req : Option (Nat × Nat) := none
  presp : Option (Nat × Nat × Int) := none
  seqSync : Nat := 0
  seqReq : Nat := 0
  seqAnn : Nat := 0
  tx : List PtpMsg := []
  since : Nat := 0
  deriving DecidableEq, Repr

/-- An offset source (R381): accepted samples counted up to 8, validity, instant of the latest accepted sample. -/
structure Source where
  n : Nat := 0
  valid : Bool := false
  at_ : Option Nat := none
  deriving DecidableEq, Repr

/-- A timed pulse output (R392): pending edges (instant, level), and the periodic schedule as (START, PERIOD, HIGH, COUNT)
with the number of its next edge, even numbers rising. -/
structure TpSt where
  edges : List (Nat × Bool) := []
  per : Option (Nat × Nat × Nat × Nat) := none
  k : Nat := 0
  deriving DecidableEq, Repr

/-- The state of TIME besides its registers and the counter: sources by code, rate correction y and integrator i as F64
(ppb), the latest 16 values of INC, consecutive samples within and beyond LOCK_THR, whether the next Δt is 0, entry into
HOLDOVER, a step waiting for its instant, acceptance of the latest OFFSET call, alarms (instant, period in µs), timed
outputs, capture FIFOs (stamp, level), the instant up to which releases are dropped after a step, PTP ports, and the own
clockIdentity. -/
structure TimeSt where
  srcs : NMap Source := []
  y : Nat := 0
  i : Nat := 0
  incs : List Nat := []
  nIn : Nat := 0
  nOut : Nat := 0
  fresh : Bool := true
  holdAt : Nat := 0
  step : Option (Int × Nat) := none
  prgAt : Option Nat := none
  alarms : NMap (Option (Nat × Nat)) := []
  tps : NMap TpSt := []
  tcs : NMap (List (Nat × Bool)) := []
  skipTo : Nat := 0
  ports : NMap PtpPort := []
  clockId : Nat := 0
  mapped : Bool := false
  deriving DecidableEq, Repr

/-! ## Redundant pair -/

/-- A tier record (Table PAIR-7). PROGRAM: online change state, profile in force, target of a profile switch in progress,
class FAULT bits, skip counters by task, ID of the safety section, generation. TICKETS by UNIT. LOOP: context, mode, law,
bank, u_prev, i_prev, d_prev, w_prev, y_prev, supervision timers, fault cause. VAX: axis, sub-state, m, OFS, REFOK, standstill
start. BSN: context, shift count, shift base flag. TIMER: cells with the elapsed time at the snapshot instant in `st`. A `region`
stands for the PAGE records of `n` pages from an address but those left out: its bytes that are not 0. -/
inductive TierRec where
  | program (olc prof : Nat) (sw : Option Nat) (flt : Nat) (skips : List (Nat × Nat)) (simg gen : Nat)
  | tickets (t : NMap Nat)
  | loop (c mode law bank u i d w y : Nat) (feAt frAt : Option Nat) (cause : Nat)
  | prof (g : Nat) (v : Gen) (status : Nat)
  | vax (a axst m ofs refok : Nat) (still : Option Nat)
  | bsn (q shifts base : Nat)
  | safety (r : SafRec)
  | fastvar (addr : Nat) (d : List Byte)
  | outdelta (first : Nat) (vals : List Nat)
  | page (addr : Nat) (d : List Byte)
  | region (addr n : Nat) (out : List Nat) (cells : List (Nat × Byte))
  | timer (first : Nat) (cells : List TCell)
  | force (f : NMap Force) (sims : NMap Nat)
  deriving DecidableEq, Repr

/-- The header of a SYNC frame (Table PAIR-4). `good`: FCS and CRC match. -/
structure SyncHdr where
  good : Bool := true
  ver : Nat := 1
  epoch : Nat := 0
  gen : Nat := 0
  tier : Nat := 3
  role : Nat := 0
  side : Nat := 0
  hs : Bool := false
  part : Nat := 0
  snap : Nat := 0
  len : Nat := 0
  mseq : Nat := 0
  deriving DecidableEq, Repr

/-- The body of a heartbeat (Table PAIR-5); `crcA`, `crcB`: CRCs of the images in both slots (log entry 144). -/
structure HbBody where
  key : Nat := 0
  healthy : Bool := false
  outpath : Bool := false
  abd : Bool := false
  cause : Nat := 0
  up : Nat := 0
  ackF : Nat := 0
  ackS : Nat := 0
  ackB : Nat := 0
  warm : Nat := 0
  pairId : Nat := 0
  variant : Nat := 0
  proto : Nat := 1
  fwMaj : Nat := 0
  fwMin : Nat := 0
  cfgCrc : Nat := 0
  simg : Nat := 0
  genA : Nat := 0
  genB : Nat := 0
  crcA : Nat := 0
  crcB : Nat := 0
  olc : Nat := 0
  gst : NMap Nat := []
  unsync : Bool := false
  resync : Bool := false
  deriving DecidableEq, Repr

/-- The body of a CTRL frame (Table PAIR-5). -/
inductive CtrlMsg where
  | olcImage (img : Slot)
  | olcAck (gen : Nat)
  | commit
  | revert
  | profStore (k : Nat) (p : Profile)
  | force (f : NMap Force) (sims : NMap Nat)
  | hsMove
  | resyncReq
  deriving DecidableEq, Repr

/-- The body of an IMG frame (R371): configuration (register words, channel and station table bytes, profiles), a program
image for a slot, the safety section, or the full tier. -/
inductive ImgBody where
  | config (regs : List (Nat × Nat)) (mem : List (Nat × List Byte)) (profs : NMap Profile)
  | image (slot : Nat) (img : Slot)
  | safety (im : SImage)
  | tier (recs : List TierRec)
  deriving DecidableEq, Repr

/-- One value of a host write: address, bit of a BIT point (8: whole bytes), bytes. -/
structure WPart where
  addr : Nat
  bit : Nat := 8
  data : List Byte
  deriving DecidableEq, Repr

/-- A relayed host write (R370): request number, values, the epoch of the request. -/
structure RelayW where
  id : Nat
  parts : List WPart
  epoch : Nat := 0
  deriving DecidableEq, Repr

/-- The body of a RELAY frame (R370): from the owner, point values and alarm and event entries (condition records) with the
replies to host writes (request number, applied); from the server, host writes and IEC 61162-450 fields (number, raw value,
valid). -/
structure RelayMsg where
  points : NMap Nat := []
  entries : List (List Byte) := []
  replies : List (Nat × Bool) := []
  writes : List RelayW := []
  fields : List (Nat × Nat × Bool) := []
  deriving DecidableEq, Repr

/-- The body of a SYNC frame (Table PAIR-5). MARK: FRAMES, BYTES, DCRC. -/
inductive SyncBody where
  | hb (b : HbBody)
  | data (recs : List TierRec)
  | mark (frames bytes dcrc : Nat)
  | ctrl (m : CtrlMsg)
  | relay (m : RelayMsg)
  | img (b : ImgBody)
  | sstate (f : SstFrame)
  deriving DecidableEq, Repr

/-- A SYNC frame as it is sent: FTYPE, header, and the body with the first frame of it; the frames that follow carry the rest
of its bytes, 8,192 each (R352). -/
structure SyncFrame where
  ftype : Nat
  hdr : SyncHdr
  body : Option SyncBody
  deriving DecidableEq, Repr

/-- A staging set of a tier at the partner: snapshot instant, generation, frames and bytes received, records. -/
structure Stage where
  snap : Nat := 0
  gen : Nat := 0
  frames : Nat := 0
  bytes : Nat := 0
  recs : List TierRec := []
  deriving DecidableEq, Repr

/-- The pair unit beside its registers. Heartbeats: stamp of the latest on each path, consecutive ones, the
path whose silence latched PATH_DEGRADED, since when the SYNC link is down, the owner's active generation, the latest body
heard, whether one was heard in the listen window. Interlock: TICK time since which ILK_IN is clear, side A waiting for
ILK_IN after a claim. Roles: partner refused, end of the listen window, claim due (1 after a listen window, 2 a
takeover whose claim collided, 3 after the key left HALT), ABDICATE received and when, fault abdication due with its cause, planned switchover due (1 key, 0 command) with
its failed deadlines, output deadline of an abdication whose ILK_OUT is still up and whether it is planned, causes already
judged, error found in DATA, RETAIN or IMAGE. Owner: change stamps of pages, OUT slots and timer cells, pre-images by task × 2^20 + page,
the tiers of the latest snapshots and their codes, the latest heartbeat, CTRL and IMG messages to send, the latest RELAY,
transfers that will not end in time, generation acknowledged by the partner, full tier due. Sending: the SYNC frames sent at the
latest output deadline or t_end in their order, the next frame number, instant of the latest path 2 pulse. Partner:
staging sets, item stamps by kind × 2^40 + ID, held state records, held timer cells with their snapshot instants, whether
the first F and S after the full tier are applied, the output deadline of the ABDICATE heartbeat. After a takeover: h, channels
that the new owner has written (1 in its task's buffer, 2 at the output close, 3 handed over), first launch due, what launches
wait for (2 the first C0 cycle start, 1 the output deadline that follows it), classes whose watchdogs re-arm at their first
output close. Host service: since when this module qualifies for takeback, entries to relay. -/
structure PairSt where
  h1 : Option Nat := none
  h2 : Option Nat := none
  n1 : Nat := 0
  n2 : Nat := 0
  degPath : Nat := 0
  downAt : Option Nat := none
  ogen : Nat := 0
  hb : Option HbBody := none
  heard : Bool := false
  clearAt : Nat := 0
  ownWait : Bool := false
  refused : Bool := false
  listenTo : Nat := 0
  claim : Option Nat := none
  abdRx : Bool := false
  abdRxAt : Nat := 0
  abd : Option Nat := none
  planned : Option (Nat × Nat) := none
  abdAt : Option (Nat × Bool) := none
  seen : Nat := 0
  memErr : Bool := false
  pageAt : NMap Nat := []
  outAt : NMap Nat := []
  timerAt : NMap Nat := []
  pre : NMap (List Byte) := []
  txF : List TierRec := []
  txS : List TierRec := []
  txB : List TierRec := []
  txTiers : List Nat := []
  hbTx : Option (SyncHdr × HbBody) := none
  ctrlTx : List CtrlMsg := []
  imgTx : List ImgBody := []
  relayTx : Option RelayMsg := none
  frames : List SyncFrame := []
  mseq : Nat := 0
  pulseAt : Option Nat := none
  lateS : Bool := false
  lateB : Bool := false
  pgen : Nat := 0
  fullDue : Bool := false
  stage : NMap Stage := []
  stamps : NMap Nat := []
  held : NMap (Option TierRec) := []
  hTimers : NMap (Option (TCell × Nat)) := []
  gotF : Bool := false
  gotS : Bool := false
  abdD : Nat := 0
  tko : Option Nat := none
  written : NMap Nat := []
  gapPend : Bool := false
  hush : Nat := 0
  rearm : List Nat := []
  settle : Option Nat := none
  norPend : Bool := false
  deriving DecidableEq, Repr

/-! ## CAN -/

/-- A CAN frame (Table CAN-3): identifier, IDE, RTR, FDF, BRS, ESI, number of data bytes, data, and its DLC where that is not
the number of data bytes (9 to 15 of a classical frame of 8 bytes). -/
structure CanFrame where
  id : Nat := 0
  ide : Bool := false
  rtr : Bool := false
  fdf : Bool := false
  brs : Bool := false
  esi : Bool := false
  len : Nat := 0
  data : List Byte := []
  dlc : Option Nat := none
  deriving DecidableEq, Repr

/-- A frame to transmit: its call, attempts made, and ABORT calls that wait for the end of the attempt (R402). -/
structure CanTx where
  call : Call
  frame : CanFrame
  n : Nat := 0
  abort : List Call := []
  deriving DecidableEq, Repr

/-- A received frame: filter, conflict flag, stamp (Table CAN-3). -/
structure CanRx where
  frame : CanFrame
  filter : Nat
  conflict : Bool
  stamp : Nat
  deriving DecidableEq, Repr

/-- A CAN channel beside its registers: transmit FIFO, express mailboxes, the frame in transmission (none the FIFO head,
some m mailbox m) with the counter stamp of its start of frame, receive FIFO, SLEEP calls that wait for the transceiver,
whether a wake is under way and the calls that wait for it, error counters before saturation to their fields. -/
structure CanCh where
  fifo : List CanTx := []
  mbox : NMap (Option CanTx) := []
  cur : Option (Option Nat) := none
  sof : Nat := 0
  rx : List CanRx := []
  sleep : List Call := []
  waking : Bool := false
  wake : List Call := []
  tec : Nat := 0
  rec_ : Nat := 0
  deriving DecidableEq, Repr

/-- The state of CAN besides its registers: channels, and snapshot pairs 1 and 0 as (counter, unit time stamp). -/
structure CanSt where
  chs : NMap CanCh := []
  p1 : Nat × Nat := (0, 0)
  p0 : Option (Nat × Nat) := none
  deriving DecidableEq, Repr

/-- How a transmission attempt ends (R402): in success, in lost arbitration, or in an error; `up`: the transmit error
counter rises under ISO 11898-1; `conflict`: a bit error in the data or DLC field after won arbitration (R407). -/
inductive CanEnd where
  | ok
  | lost
  | err (up conflict : Bool)
  deriving DecidableEq, Repr

/-- What the transceiver of a sleeping channel sees (R409): a dominant phase of a length in ns, a classical frame decoded at
WK_RATE, or a frame error counter beyond 31. -/
inductive CanWakeEv where
  | dominant (ns : Nat)
  | frame (f : CanFrame)
  | frameErrors
  deriving DecidableEq, Repr

/-! ## Recorder, panel, power -/

/-- The recorder beside its registers and its MRAM areas: slot, KEY and INST of the last condition record written in this
power cycle (R430). -/
structure RecSt where
  last : Option (Nat × Nat × Nat) := none
  deriving DecidableEq, Repr

/-- The panel beside its registers: update queue (region, full), the words taken by the running update, instants of the
latest manager redraw by region, TICK time at which the queue last became empty, whether the handling of R441 is due, TICK
time at which the waiting temperature was last read, and TICK time at which the frames of the running update end. -/
structure PnlSt where
  q : List (Nat × Bool) := []
  run : Option (NMap Nat) := none
  drawAt : NMap Nat := []
  emptyAt : Nat := 0
  boot : Bool := false
  coldAt : Nat := 0
  doneAt : Nat := 0
  deriving DecidableEq, Repr

/-- A firmware image in its NOR device, the key under which its signature verifies, and its marks in the warm-restart header
(R414, R451). -/
structure FwImg where
  ok : Bool := false
  sig : Nat := 0
  version : Nat := 0
  trial : Bool := false
  failed : Bool := false
  deriving DecidableEq, Repr

/-- The power manager beside its registers: `inRst`: the module is held in reset, waiting for a feed or for the junction to
cool (TEMP); `hot`; TICK times at which an idle state of the units of PWR.IDLE was entered, by bit position; the measured
hold-up in 0.1 ms; since which TICK time S6 waits for LOCKED; S4 fell back to the other slot, so that the start-up restart is
COLD (R452); the reset has marked the image on trial FAILED (R451). -/
structure PwrSt where
  inRst : Bool := false
  hot : Bool := false
  pf : Bool := false
  idleAt : NMap Nat := []
  holdup : Nat := 200
  waitS6 : Option Nat := none
  progFb : Bool := false
  trialOut : Bool := false
  deriving DecidableEq, Repr

/-! ## Host unit -/

/-- What LOAD_END finds in the bytes received (R418): a program image with the place and length of its safety section among
the bytes (length 0: none), a safety section, or a firmware image with its version. -/
inductive LoadImg where
  | program (p : Slot) (secAt secLen : Nat)
  | safety (im : SImage)
  | firmware (version : Nat)
  deriving DecidableEq, Repr

/-- What a management request names besides its EPOCH and LEN (Table HOST-2): OP, REQ_ID, and the reserved bits of FLAGS with
the fields that a request holds at 0. -/
structure MgHead where
  op : Nat := 0
  id : Nat := 0
  rsv : Nat := 0
  deriving DecidableEq, Repr

/-- The header of a management request (Table HOST-2): OP, REQ_ID, EPOCH, LEN, and the reserved bits of FLAGS with the fields
that a request holds at 0. -/
structure MgHdr where
  op : Nat := 0
  id : Nat := 0
  epoch : Nat := 0
  rsv : Nat := 0
  len : Nat := 0
  deriving DecidableEq, Repr

/-- The body of a management request (Table HOST-3). `sig` names the key under which a signature verifies. -/
inductive MgReq where
  | hello
  | read (a n : Nat)
  | write (a : Nat) (bs : List Byte)
  | lwrite (a : Nat) (bs : List Byte)
  | loadBegin (kind total : Nat)
  | loadData (ofs : Nat) (bs : List Byte)
  | loadEnd (sig : Nat) (img : LoadImg)
  | subscribe (on : Bool)
  | keyset (slot key : Nat) (safety : Bool) (sig : Nat)
  deriving DecidableEq, Repr

/-- What a management connection presents (R412): TCP port, TLS version, cipher suite, kind of the certificate's key (1 Ed25519, 2 ECDSA
P-256), the anchor to which its chain leads. -/
structure TlsHello where
  tcp : Nat := 0
  ver : Nat := 0x0304
  suite : Nat := 0x1301
  keyKind : Nat := 1
  anchor : Nat := 0
  deriving DecidableEq, Repr

/-- What a Modbus request comes with (R419): number of its connection, unit identifier, function code. -/
structure MbHdr where
  conn : Nat := 0
  unit : Nat := 255
  fn : Nat := 0
  deriving DecidableEq, Repr

/-- A management session: host port, client address, fingerprint, privilege (0: no session), TICK time of its latest
request, requests received and not yet begun (R415), subscription, the sequence of its notifications and the record of the
latest one. -/
structure Sess where
  port : Nat := 0
  addr : Nat := 0
  fp : Nat := 0
  priv : Nat := 0
  last : Nat := 0
  q : List (MgHdr × MgReq) := []
  sub : Bool := false
  seq : Nat := 0
  note : List Byte := []
  deriving DecidableEq, Repr

/-- A load in progress (R418): session, kind, total size, bytes received. -/
structure LoadSt where
  sess : Nat
  kind : Nat
  total : Nat
  data : List Byte
  deriving DecidableEq, Repr

/-- A response of the management protocol (Table HOST-2), with the REQ_ID that it echoes. -/
structure Rsp where
  op : Nat
  id : Nat
  status : Nat
  role : Nat
  hso : Bool
  epoch : Nat
  detail : Nat
  data : List Byte
  deriving DecidableEq, Repr

/-- A host write that waits for its application or its answer: number, Modbus or management, session or connection, its
REQ_ID, function code, TICK time of receipt, the write. -/
structure HostW where
  id : Nat
  mb : Bool
  who : Nat
  rid : Nat := 0
  fn : Nat
  at_ : Nat
  w : RelayW
  deriving DecidableEq, Repr

/-- A received IEC 61162-450 field: raw value, validity, TICK time of receipt; `seen` false: never received. -/
structure NmeaF where
  raw : Nat := 0
  ok : Bool := false
  at_ : Nat := 0
  seen : Bool := false
  deriving DecidableEq, Repr

/-- A sentence as the receiver decodes it: sentence code of Table HOST-4, talker, length in characters, checksum correct, the
characters of its mode and status (of VBW the status of the water and of the ground speed), fields as (number, raw value),
none for an empty field. -/
structure NmeaSent where
  code : Nat
  talker : Nat
  len : Nat
  ok : Bool
  mode : Nat := 65
  stat : Nat := 65
  stat2 : Nat := 65
  fields : List (Nat × Option Nat)
  deriving DecidableEq, Repr

/-- The state of HOST besides its registers: configuration, sessions, failed authentications (address, TICK time), blocked
addresses with the end of the block, load, REQ_ID of the request that runs, last response, the ARP reply (4) or ICMP echo reply
(5) last sent with its port, Modbus: values of the latest C1 output deadline by point, last
answer (function, exception or 0, data); waiting writes, writes taken for the next C1 output deadline of this owner, next
number; fields; writes, replies, fields and condition records for the next RELAY frames. -/
structure HostSt where
  cfg : HostCfg := {}
  sess : NMap Sess := []
  fails : List (Nat × Nat) := []
  blocks : NMap Nat := []
  load : Option LoadSt := none
  reqId : Nat := 0
  rsp : Option Rsp := none
  echo : Option (Nat × Nat) := none
  mbVals : NMap Nat := []
  mbRsp : Option (Nat × Nat × List Nat) := none
  waits : List HostW := []
  due : List RelayW := []
  nextId : Nat := 0
  fields : NMap NmeaF := []
  outW : List RelayW := []
  outR : List (Nat × Bool) := []
  outF : List (Nat × Nat × Bool) := []
  entries : List (List Byte) := []
  deriving DecidableEq, Repr

/-! ## Non-volatile memory -/

/-- The MRAM areas of Table ARC-11 and the identity store: warm-restart header (valid, ORDERLY,
named bank, generation, snapshot instant of the copied data, slot B active),
the two retentive banks, changed RETAIN pages not yet copied, the timer image by byte (R129), the force
table and simulation bitmap kept for restarts, power-cycle count, operating seconds, role epoch, profile in force,
retired converters, the panel dirty map, the image that the panel
shows by frame buffer word, the recorder slots (fixed slot n at n, circulating slot k at 4,096 + k), PF_INCOMPLETE, the
word of PWR.LASTPF, the program slots as NOR holds them, firmware images A and B with their preference and the one that
runs, the public keys of the identity store (plus 1), and the latch of SYS.RSTCAUSE. -/
structure MramSt where
  valid : Bool := false
  orderly : Bool := false
  copied : Bool := false
  bank : Nat := 0
  gen : Nat := 0
  stamp : Nat := 0
  slotB : Bool := false
  bank0 : List (Nat × Byte) := []
  bank1 : List (Nat × Byte) := []
  dirty : List Nat := []
  timers : NMap Byte := []
  forces : NMap Force := []
  sims : NMap Nat := []
  pcc : Nat := 0
  opsec : Nat := 0
  epoch : Nat := 0
  profAct : Nat := 0
  convRet : Nat := 0
  panelDirty : Nat := 0
  panelDisch : Bool := false
  panelImg : NMap Nat := []
  recs : NMap (List Byte) := []
  pfInc : Bool := false
  lastpf : Nat := 0
  norA : Slot := {}
  norB : Slot := {}
  fwA : FwImg := { ok := true }
  fwB : FwImg := {}
  fwPref : Bool := false
  fwRun : Bool := false
  keys : NMap Nat := [(0, 1)]
  rstCause : Nat := 0
  rstCount : Nat := 0
  deriving DecidableEq, Repr

end Sys2Proof.Machine
end

