-- ==== Sys2Proof/Syntax.lean ====
section
/-!
DEFINITION. The commands of the block: one constructor per row of the opcode table, in its order.
Operands by name. Logic engine rows: `c` is the core, 0 to 5 for LC0 to LC5, 6 for SC-A, 7 for SC-B; the others are the fields of
Table HXI-4: `mode`, `xi`, `ofs`, `bit`, `ty` (TYPE), `ac` (ACC), `rsv` (reserved bits), `d` (D), `ty2` (TYPE2), `imm`, and so on.
Register and event rows: `b` a block and `i` its copy, `a` an address, `v` a value, `mg` a write of management access; `bs` and `data`
bytes; `p` a port; `k` an index; `h` the header of a received Tarn frame; times and other numbers under the name that their rule uses.
-/

namespace Sys2Proof

open Machine

/-- A command of the opcode table. -/
inductive Instr where
  /-- LD (R53). -/
  | ld (c mode xi ofs bit : Nat)
  /-- LDN (R53). -/
  | ldn (c mode xi ofs bit : Nat)
  /-- AND (R53). -/
  | and (c mode xi ofs bit : Nat)
  /-- ANDN (R53). -/
  | andn (c mode xi ofs bit : Nat)
  /-- OR (R53). -/
  | or (c mode xi ofs bit : Nat)
  /-- ORN (R53). -/
  | orn (c mode xi ofs bit : Nat)
  /-- XOR (R53). -/
  | xor (c mode xi ofs bit : Nat)
  /-- XORN (R53). -/
  | xorn (c mode xi ofs bit : Nat)
  /-- ST (R53). -/
  | st (c mode xi ofs bit : Nat)
  /-- STN (R53). -/
  | stn (c mode xi ofs bit : Nat)
  /-- SET (R53). -/
  | set (c mode xi ofs bit : Nat)
  /-- CLR (R53). -/
  | clr (c mode xi ofs bit : Nat)
  /-- EDR (R53). -/
  | edr (c mode xi ofs bit : Nat)
  /-- EDF (R53). -/
  | edf (c mode xi ofs bit : Nat)
  /-- LBOP_NOT (R54). -/
  | lbopNot (c rsv : Nat)
  /-- LBOP_LB0 (R54). -/
  | lbopLb0 (c rsv : Nat)
  /-- LBOP_LB1 (R54). -/
  | lbopLb1 (c rsv : Nat)
  /-- BOP (R54). -/
  | bop (c rsv : Nat)
  /-- BNX (R54). -/
  | bnx (c rsv : Nat)
  /-- BCL (R54). -/
  | bcl (c rsv : Nat)
  /-- LBW (R54). -/
  | lbw (c rsv : Nat)
  /-- WLB (R54). -/
  | wlb (c rsv : Nat)
  /-- TMR_TON (R56). -/
  | tmrTon (c : Nat) (i : Bool) (xi unit rsv cell : Nat)
  /-- TMR_TOF (R56). -/
  | tmrTof (c : Nat) (i : Bool) (xi unit rsv cell : Nat)
  /-- TMR_TP (R56). -/
  | tmrTp (c : Nat) (i : Bool) (xi unit rsv cell : Nat)
  /-- TMR_TRST (R56). -/
  | tmrTrst (c : Nat) (i : Bool) (xi unit rsv cell : Nat)
  /-- TMRX_PRESET (R57). -/
  | tmrxPreset (c : Nat) (i : Bool) (xi unit rsv cell : Nat)
  /-- TMRX_ELAPSED (R57). -/
  | tmrxElapsed (c : Nat) (i : Bool) (xi unit rsv cell : Nat)
  /-- TMRX_LOADQ (R57). -/
  | tmrxLoadq (c : Nat) (i : Bool) (xi unit rsv cell : Nat)
  /-- CTU (R58). -/
  | ctu (c mode xi ac ofs : Nat)
  /-- CTD (R58). -/
  | ctd (c mode xi ac ofs : Nat)
  /-- CTR_RESET (R58). -/
  | ctrReset (c mode xi ac ofs : Nat)
  /-- CTL (R58). -/
  | ctl (c mode xi ac ofs : Nat)
  /-- LW (R52). -/
  | lw (c mode xi ty : Nat) (ac : Bool) (ofs : Nat)
  /-- SW (R52). -/
  | sw (c mode xi ty : Nat) (ac : Bool) (ofs : Nat)
  /-- ADDM (R62). -/
  | addm (c mode xi ty : Nat) (ac : Bool) (ofs : Nat)
  /-- SUBM (R62). -/
  | subm (c mode xi ty : Nat) (ac : Bool) (ofs : Nat)
  /-- MULM (R62). -/
  | mulm (c mode xi ty : Nat) (ac : Bool) (ofs : Nat)
  /-- DIVM (R62). -/
  | divm (c mode xi ty : Nat) (ac : Bool) (ofs : Nat)
  /-- ALU_ADD (R59). -/
  | aluAdd (c ty : Nat) (d : Bool) (ty2 rsv : Nat)
  /-- ALU_SUB (R59). -/
  | aluSub (c ty : Nat) (d : Bool) (ty2 rsv : Nat)
  /-- ALU_MUL (R59). -/
  | aluMul (c ty : Nat) (d : Bool) (ty2 rsv : Nat)
  /-- ALU_DIV (R60). -/
  | aluDiv (c ty : Nat) (d : Bool) (ty2 rsv : Nat)
  /-- ALU_MOD (R60). -/
  | aluMod (c ty : Nat) (d : Bool) (ty2 rsv : Nat)
  /-- ALU_NEG (R59). -/
  | aluNeg (c ty : Nat) (d : Bool) (ty2 rsv : Nat)
  /-- ALU_ABS (R59). -/
  | aluAbs (c ty : Nat) (d : Bool) (ty2 rsv : Nat)
  /-- ALU_MIN (R61). -/
  | aluMin (c ty : Nat) (d : Bool) (ty2 rsv : Nat)
  /-- ALU_MAX (R61). -/
  | aluMax (c ty : Nat) (d : Bool) (ty2 rsv : Nat)
  /-- ALU_SQRT (R61). -/
  | aluSqrt (c ty : Nat) (d : Bool) (ty2 rsv : Nat)
  /-- ALU_AND (R59). -/
  | aluAnd (c ty : Nat) (d : Bool) (ty2 rsv : Nat)
  /-- ALU_OR (R59). -/
  | aluOr (c ty : Nat) (d : Bool) (ty2 rsv : Nat)
  /-- ALU_XOR (R59). -/
  | aluXor (c ty : Nat) (d : Bool) (ty2 rsv : Nat)
  /-- ALU_NOT (R59). -/
  | aluNot (c ty : Nat) (d : Bool) (ty2 rsv : Nat)
  /-- ALU_SHL (R60). -/
  | aluShl (c ty : Nat) (d : Bool) (ty2 rsv : Nat)
  /-- ALU_SHR (R60). -/
  | aluShr (c ty : Nat) (d : Bool) (ty2 rsv : Nat)
  /-- ALU_SAR (R60). -/
  | aluSar (c ty : Nat) (d : Bool) (ty2 rsv : Nat)
  /-- ALU_ROL (R59). -/
  | aluRol (c ty : Nat) (d : Bool) (ty2 rsv : Nat)
  /-- ALU_CVT (R61). -/
  | aluCvt (c ty : Nat) (d : Bool) (ty2 rsv : Nat)
  /-- ALU_TRUNC (R61). -/
  | aluTrunc (c ty : Nat) (d : Bool) (ty2 rsv : Nat)
  /-- ALU_MOV (R59). -/
  | aluMov (c ty : Nat) (d : Bool) (ty2 rsv : Nat)
  /-- ALU_SWP (R59). -/
  | aluSwp (c ty : Nat) (d : Bool) (ty2 rsv : Nat)
  /-- ALU_CLRW (R59). -/
  | aluClrw (c ty : Nat) (d : Bool) (ty2 rsv : Nat)
  /-- ALU_SEXTB (R59). -/
  | aluSextb (c ty : Nat) (d : Bool) (ty2 rsv : Nat)
  /-- ALU_SEXTH (R59). -/
  | aluSexth (c ty : Nat) (d : Bool) (ty2 rsv : Nat)
  /-- LDI (R62). -/
  | ldi (c : Nat) (ac : Bool) (pos : Nat) (keep : Bool) (rsv imm : Nat)
  /-- ADDI (R62). -/
  | addi (c : Nat) (ac w : Bool) (rsv imm : Nat)
  /-- CMP (R63). -/
  | cmp (c cond ty comb rsv : Nat)
  /-- LXI (R69). -/
  | lxi (c xd : Nat) (hi keep : Bool) (rsv imm : Nat)
  /-- XALU_MOV (R69). -/
  | xaluMov (c xd xs imm : Nat)
  /-- XALU_ADD (R69). -/
  | xaluAdd (c xd xs imm : Nat)
  /-- XALU_SUB (R69). -/
  | xaluSub (c xd xs imm : Nat)
  /-- XALU_AND (R69). -/
  | xaluAnd (c xd xs imm : Nat)
  /-- XALU_OR (R69). -/
  | xaluOr (c xd xs imm : Nat)
  /-- XALU_SHL (R69). -/
  | xaluShl (c xd xs imm : Nat)
  /-- XALU_SHR (R69). -/
  | xaluShr (c xd xs imm : Nat)
  /-- XALU_ADDI (R69). -/
  | xaluAddi (c xd xs imm : Nat)
  /-- XALU_FROMWA (R69). -/
  | xaluFromwa (c xd xs imm : Nat)
  /-- XALU_TOWA (R69). -/
  | xaluTowa (c xd xs imm : Nat)
  /-- CHR (R65). -/
  | chr (c : Nat) (i : Bool) (xi ty : Nat) (all : Bool) (rsv chan : Nat)
  /-- CHW (R65). -/
  | chw (c : Nat) (i : Bool) (xi ty : Nat) (all : Bool) (rsv chan : Nat)
  /-- CHINV (R65). -/
  | chinv (c : Nat) (i : Bool) (xi : Nat) (all : Bool) (rsv chan : Nat)
  /-- MOVB (R66). -/
  | movb (c xd xs rsv cnt : Nat)
  /-- TBL (R67). -/
  | tbl (c xb xi ty : Nat) (ac : Bool) (lim : Nat)
  /-- JMP (R68). -/
  | jmp (c ofs : Nat)
  /-- JLB (R68). -/
  | jlb (c ofs : Nat)
  /-- JLBN (R68). -/
  | jlbn (c ofs : Nat)
  /-- JF (R68). -/
  | jf (c fc ofs : Nat)
  /-- CALL (R68). -/
  | call (c ofs : Nat)
  /-- RET (R68). -/
  | ret (c rsv : Nat)
  /-- DJNZ (R68). -/
  | djnz (c xd ofs : Nat)
  /-- CALLX (R68). -/
  | callx (c xi rsv : Nat)
  /-- ECALL (R94). -/
  | ecall (c unit fn : Nat) (sync : Bool) (xp rsv inst : Nat)
  /-- FENCE_M (R83). -/
  | fenceM (c rsv : Nat)
  /-- FENCE_U (R83). -/
  | fenceU (c rsv : Nat)
  /-- FENCE_IO (R83). -/
  | fenceIo (c rsv : Nat)
  /-- FENCE_X (R83). -/
  | fenceX (c rsv : Nat)
  /-- TASK_END (R114). -/
  | taskEnd (c rsv : Nat)
  /-- YIELD (R72). -/
  | yield (c rsv : Nat)
  /-- RAISE (R72). -/
  | raise (c rsv evt tag : Nat)
  /-- BAR (R114). -/
  | bar (c rsv evt tag : Nat)
  /-- TASK_NOP (R72). -/
  | taskNop (c rsv : Nat)
  /-- MFS (R73). -/
  | mfs (c xr : Nat) (t : Bool) (rsv sr : Nat)
  /-- MTS (R73). -/
  | mts (c xr : Nat) (t : Bool) (rsv sr : Nat)
  /-- ILLEGAL_OPCODE (R74). -/
  | illegalOpcode (c word : Nat)
  /-- BARRIER_OPEN (R114). -/
  | barrierOpen (t : Nat)
  /-- SYNC_ECALL_COMPLETE (R100). -/
  | syncEcallComplete (key : Nat)
  /-- FAULT_TASK_RELEASE (R107). -/
  | faultTaskRelease
  /-- EVENT_TASK_RELEASE (R115). -/
  | eventTaskRelease (t : Nat)
  /-- TASK_BUDGET_EXPIRY (R117). -/
  | taskBudgetExpiry (t : Nat)
  /-- INPUT_CLOSE (R22). -/
  | inputClose
  /-- CYCLE_RELEASE (R22). -/
  | cycleRelease
  /-- OUTPUT_DEADLINE (R23). -/
  | outputDeadline
  /-- FAST_BUFFER_CLOSE (R22). -/
  | fastBufferClose (p : Nat)
  /-- FAST_OUT_LAUNCH (R22). -/
  | fastOutLaunch (p : Nat)
  /-- KEY_POSITION_ACCEPT (R121). -/
  | keyPositionAccept (code : Nat)
  /-- KEY_FAULT_DETECT (R121). -/
  | keyFaultDetect (code : Nat)
  /-- PROGRAM_HALT (R124). -/
  | programHalt
  /-- RESTART_WARM (R127). -/
  | restartWarm
  /-- RESTART_COLD (R128). -/
  | restartCold
  /-- CYCLIC_FIRST_RELEASE (R127). -/
  | cyclicFirstRelease
  /-- TSK_RESTART_WARM (R126). -/
  | tskRestartWarm
  /-- TSK_RESTART_COLD (R126). -/
  | tskRestartCold
  /-- TSK_SWITCH (R132). -/
  | tskSwitch
  /-- TSK_COMMIT (R138). -/
  | tskCommit
  /-- TSK_REVERT (R138). -/
  | tskRevert
  /-- TSK_SELECT (R141). -/
  | tskSelect (n : Nat)
  /-- TSK_CANCEL (R132). -/
  | tskCancel
  /-- TSK_STORE (R140). -/
  | tskStore (n : Nat)
  /-- OLC_SWITCH_POINT (R135). -/
  | olcSwitchPoint
  /-- OLC_REVERT_POINT (R138). -/
  | olcRevertPoint
  /-- PROFILE_PIN_REQUEST (R141). -/
  | profilePinRequest (v : Nat)
  /-- PROFILE_SWITCH_START (R142). -/
  | profileSwitchStart
  /-- PROFILE_SWITCH_RUN (R142). -/
  | profileSwitchRun
  /-- UNIT_REQ_STOP (R143). -/
  | unitReqStop (b : Blk) (i : Nat) (mg : Bool)
  /-- UNIT_REQ_CONFIG (R143). -/
  | unitReqConfig (b : Blk) (i : Nat) (mg : Bool)
  /-- UNIT_REQ_RUN (R143). -/
  | unitReqRun (b : Blk) (i : Nat) (mg : Bool)
  /-- UNIT_BOUNDARY_TRANSITION (R143). -/
  | unitBoundaryTransition (b : Blk) (i : Nat)
  /-- CHTAB_WRITE (R148). -/
  | chtabWrite (mg : Bool) (ofs : Nat) (bs : List Byte)
  /-- CHN_INV (R149). -/
  | chnInv (v : Nat)
  /-- CACHE_REREAD_DONE (R149). -/
  | cacheRereadDone (n : Nat)
  /-- MF_CTL_FREE (R163). -/
  | mfCtlFree (chan : Nat)
  /-- MF_CTL_FORCE (R163). -/
  | mfCtlForce (chan : Nat)
  /-- MF_CTL_SIM (R163). -/
  | mfCtlSim (chan : Nat)
  /-- PF_CTL_FREE (R163). -/
  | pfCtlFree (chan : Nat)
  /-- PF_CTL_SIM (R163). -/
  | pfCtlSim (chan : Nat)
  /-- PF_CTL_FORCE (R163). -/
  | pfCtlForce (chan : Nat)
  /-- SIM_BITMAP_WRITE (R165). -/
  | simBitmapWrite (i v : Nat)
  /-- IN_FRAME_RX (R184). -/
  | inFrameRx (p : Nat) (fr : List Byte)
  /-- FIN_FRAME_RX (R184). -/
  | finFrameRx (p : Nat) (fr : List Byte)
  /-- ARSP_RX (R196). -/
  | arspRx (p : Nat) (fr : List Byte)
  /-- AREQ_SEND (R193). -/
  | areqSend (p : Nat)
  /-- IOUT_SEND (R195). -/
  | ioutSend (p : Nat)
  /-- IDENT_POLL (R187). -/
  | identPoll (p : Nat)
  /-- INIT_TIMEOUT (R185). -/
  | initTimeout (i : Nat)
  /-- ACYC_TIMEOUT (R194). -/
  | acycTimeout (p : Nat)
  /-- PORT_LINK_DOWN (R168). -/
  | portLinkDown (p : Nat)
  /-- PORT_LINK_UP (R168). -/
  | portLinkUp (p : Nat)
  /-- PHY_FAULT (R168). -/
  | phyFault (p : Nat)
  /-- BUF_UNCORR (R168). -/
  | bufUncorr (p : Nat)
  /-- LNK_ACYC (R201). -/
  | lnkAcyc (i : Nat)
  /-- LNK_OUTNOW (R201). -/
  | lnkOutnow (i : Nat)
  /-- LNK_REINIT (R201). -/
  | lnkReinit (i : Nat)
  /-- LNK_READ (R201). -/
  | lnkRead (i : Nat)
  /-- LIO_SAMPLE (R204). -/
  | lioSample (di : List (Nat × Nat)) (rb : Nat)
  /-- LOCAL_OUTPUT_APPLY (R205). -/
  | localOutputApply
  /-- LOCAL_AO_UPDATE (R205). -/
  | localAoUpdate
  /-- VS_OVERLOAD_TRIP (R208). -/
  | vsOverloadTrip (v : Nat)
  /-- VS_RETRY (R208). -/
  | vsRetry (v : Nat)
  /-- VS_TEST_PULSE (R209). -/
  | vsTestPulse (v : Nat)
  /-- DO_TEST_PULSE (R212). -/
  | doTestPulse (n : Nat)
  /-- DO_OVERLOAD (R210). -/
  | doOverload (n : Nat)
  /-- DO_OVERTEMP (R210). -/
  | doOvertemp (n : Nat)
  /-- DO_OPEN_LOAD (R210). -/
  | doOpenLoad (n : Nat)
  /-- DO_EXTV (R210). -/
  | doExtv (n : Nat)
  /-- DO_RETRY (R211). -/
  | doRetry (n : Nat) (cool : Bool)
  /-- WD_EXPIRED (R216). -/
  | wdExpired (k : Nat)
  /-- AI_CONVERSION (R219). -/
  | aiConversion (n : Nat) (code : Int)
  /-- AI_OVERLOAD (R220). -/
  | aiOverload (n : Nat)
  /-- AI_SHUNT_RETEST (R220). -/
  | aiShuntRetest (n : Nat) (still : Bool)
  /-- ROTATION_STEP (R221). -/
  | rotationStep
  /-- ROTATION_CAL_DONE (R221). -/
  | rotationCalDone (off gain : Int)
  /-- ROTATION_HANDOVER (R221). -/
  | rotationHandover (d : Int)
  /-- CONVERTER_SELFCHECK_FAIL (R222). -/
  | converterSelfcheckFail (c : Nat)
  /-- AO_READBACK (R226). -/
  | aoReadback (n : Nat) (uv na : Int)
  /-- SAFETY_TASK_RELEASE (R233). -/
  | safetyTaskRelease
  /-- SAFETY_TEND (R245). -/
  | safetyTend
  /-- STUCK_RESET (R260). -/
  | stuckReset
  /-- RELEASE_WATCHDOG_EXPIRY (R236). -/
  | releaseWatchdogExpiry (core : Nat)
  /-- WELLHEAD_CHECK (R33). -/
  | wellheadCheck (dev : Int)
  /-- ENGINE_TRIP (R261). -/
  | engineTrip (code info : Nat)
  /-- LOOP_SAMPLE (R273). -/
  | loopSample (c : Nat)
  /-- LOOP_UPDATE (R274). -/
  | loopUpdate
  /-- CTX_UNCORR (R271). -/
  | ctxUncorr (c : Nat)
  /-- SETSP (R277). -/
  | setsp (c : Nat)
  /-- LOOP_MODE (R285). -/
  | loopMode (c : Nat)
  /-- BANKSWAP (R284). -/
  | bankswap (c : Nat)
  /-- FAULTRST (R292). -/
  | faultrst (c : Nat)
  /-- LOOP_READ (R300). -/
  | loopRead (c : Nat)
  /-- INJECT_START (R294). -/
  | injectStart (c : Nat)
  /-- INJECT_STOP (R294). -/
  | injectStop (c : Nat)
  /-- INJECTION_END (R294). -/
  | injectionEnd (c : Nat)
  /-- TRIG_ARM (R297). -/
  | trigArm (c : Nat)
  /-- TRIG_FORCE (R297). -/
  | trigForce (c : Nat)
  /-- TRIG_STOP (R298). -/
  | trigStop (c : Nat)
  /-- COEFF_BANK_WRITE (R283). -/
  | coeffBankWrite (mgmt : Bool) (o v : Nat)
  /-- TABLE_STORE_WRITE (R281). -/
  | tableStoreWrite (o v : Nat)
  /-- L_BSWAP_WRITE (R284). -/
  | lBswapWrite (c : Nat)
  /-- TRC_CTL_ARM (R297). -/
  | trcCtlArm
  /-- TRC_CTL_FORCE (R297). -/
  | trcCtlForce
  /-- TRC_CTL_STOP (R297). -/
  | trcCtlStop
  /-- TRACE_SPILL_COPY (R297). -/
  | traceSpillCopy
  /-- PROF_PLAN (R302). -/
  | profPlan
  /-- PROF_SAMPLE (R302). -/
  | profSample (g : Nat)
  /-- MOVE (R305). -/
  | move (g : Nat)
  /-- LIMITS (R305). -/
  | limits (g : Nat)
  /-- PROF_STOP (R307). -/
  | profStop (g : Nat)
  /-- PROF_READ (R310). -/
  | profRead (g : Nat)
  /-- AXIS_LAUNCH (R312). -/
  | axisLaunch (a : Nat)
  /-- VAX_START (R315). -/
  | vaxStart (a : Nat)
  /-- VAX_STOP (R315). -/
  | vaxStop (a : Nat)
  /-- SETREF (R315). -/
  | setref (a : Nat)
  /-- SHAPE (R314). -/
  | shape (a : Nat)
  /-- VAX_READ (R315). -/
  | vaxRead (a : Nat)
  /-- VAX_SHAPE_WRITE (R314). -/
  | vaxShapeWrite (o v : Nat)
  /-- SOLVE (R324). -/
  | solve (q : Nat)
  /-- BSN_CANCEL (R342). -/
  | bsnCancel (q : Nat)
  /-- BSN_READ (R346). -/
  | bsnRead (q : Nat)
  /-- BSN_UNIT (R339). -/
  | bsnUnit
  /-- BSN_DEADLINE_DECISION (R340). -/
  | bsnDeadlineDecision (q : Nat)
  /-- BSN_RESULT_WRITE (R327). -/
  | bsnResultWrite
  /-- BSN_DELIVERY (R344). -/
  | bsnDelivery
  /-- SCRATCH_UNCORR (R338). -/
  | scratchUncorr (q : Nat)
  /-- BSN_MATRIX_COPY_DONE (R323). -/
  | bsnMatrixCopyDone (q : Nat)
  /-- HB_RX (R353). -/
  | hbRx (h : SyncHdr) (b : HbBody)
  /-- HB_PULSE_RX (R353). -/
  | hbPulseRx
  /-- HB_PATH_SILENT (R353). -/
  | hbPathSilent (p : Nat)
  /-- LISTEN_WINDOW_END (R350). -/
  | listenWindowEnd
  /-- CLAIM (R356). -/
  | claim (lvl : Nat)
  /-- TAKEOVER (R363). -/
  | takeover (lvl : Nat)
  /-- ABDICATION (R362). -/
  | abdication
  /-- SWITCHOVER (R362). -/
  | switchover
  /-- RESYNC (R371). -/
  | resync
  /-- HS_MOVE (R370). -/
  | hsMove
  /-- HS_SETTLE_EXPIRY (R370). -/
  | hsSettleExpiry
  /-- SYNC_DATA_RX (R360). -/
  | syncDataRx (h : SyncHdr) (recs : List TierRec)
  /-- SYNC_MARK_RX (R360). -/
  | syncMarkRx (h : SyncHdr) (frames bytes : Nat) (dcrcOk : Bool)
  /-- SYNC_CTRL_RX (R372). -/
  | syncCtrlRx (h : SyncHdr) (m : CtrlMsg)
  /-- SYNC_RELAY_RX (R370). -/
  | syncRelayRx (h : SyncHdr) (m : RelayMsg)
  /-- SYNC_IMG_RX (R371). -/
  | syncImgRx (h : SyncHdr) (b : ImgBody)
  /-- SSTATE_RX (R265). -/
  | sstateRx (h : SyncHdr) (f : SstFrame)
  /-- ILK_IN_CHANGE (R354). -/
  | ilkInChange (lvl : Nat)
  /-- SYNC_LINK_DOWN (R349). -/
  | syncLinkDown
  /-- RETAIN_PAGE_COPY (R36). -/
  | retainPageCopy (p : Nat)
  /-- TPEDGE_LIST (R392). -/
  | tpedgeList (n : Nat)
  /-- TPEDGE_PERIODIC (R392). -/
  | tpedgePeriodic (n : Nat)
  /-- TPEDGE_CANCEL (R393). -/
  | tpedgeCancel (n : Nat)
  /-- TCREAD (R395). -/
  | tcread (n : Nat)
  /-- OFFSET (R390). -/
  | offset
  /-- ALARM_ARM (R391). -/
  | alarmArm (n : Nat)
  /-- ALARM_CANCEL (R391). -/
  | alarmCancel (n : Nat)
  /-- ALARM_EXPIRY (R391). -/
  | alarmExpiry (n : Nat)
  /-- TP_EDGE_OUT (R392). -/
  | tpEdgeOut (n : Nat)
  /-- TC_CAPTURE (R395). -/
  | tcCapture (n : Nat) (lvl : Bool)
  /-- TIME_STEP (R383). -/
  | timeStep
  /-- SOURCE_TIMEOUT (R381). -/
  | sourceTimeout (k : Nat)
  /-- HOLDOVER_TIMEOUT (R379). -/
  | holdoverTimeout
  /-- PTP_SYNC_RX (R387). -/
  | ptpSyncRx (p : Nat) (m : PtpMsg)
  /-- PTP_FOLLOW_UP_RX (R387). -/
  | ptpFollowUpRx (p : Nat) (m : PtpMsg)
  /-- PTP_DELAY_RESP_RX (R387). -/
  | ptpDelayRespRx (p : Nat) (m : PtpMsg)
  /-- PTP_PDELAY_RX (R387). -/
  | ptpPdelayRx (p : Nat) (m : PtpMsg)
  /-- PTP_ANNOUNCE_RX (R385). -/
  | ptpAnnounceRx (p : Nat) (m : PtpMsg)
  /-- PTP_SYNC_TX (R387). -/
  | ptpSyncTx (p : Nat)
  /-- NOW_SEC_LO_READ (R377). -/
  | nowSecLoRead
  /-- CAN_TX (R399). -/
  | canTx (k : Nat)
  /-- EXPRESS (R401). -/
  | express (k : Nat)
  /-- CAN_ABORT (R402). -/
  | canAbort (k : Nat)
  /-- RXREAD (R404). -/
  | rxread (k : Nat)
  /-- CAN_SLEEP (R408). -/
  | canSleep (k : Nat)
  /-- CAN_WAKE_LOCAL (R408). -/
  | canWakeLocal (k : Nat)
  /-- CAN_ARBITRATION (R399). -/
  | canArbitration (k : Nat)
  /-- CAN_TX_DONE (R402). -/
  | canTxDone (k : Nat) (e : CanEnd)
  /-- CAN_FRAME_RX (R403). -/
  | canFrameRx (k : Nat) (f : CanFrame) (ago : Nat)
  /-- BUS_OFF_RECOVERY (R397). -/
  | busOffRecovery (k : Nat)
  /-- CAN_WAKE (R409). -/
  | canWake (k : Nat) (e : CanWakeEv)
  /-- CAN_SNAPSHOT (R406). -/
  | canSnapshot
  /-- SNAP_CNT1_READ (R406). -/
  | snapCnt1Read
  /-- SESSION_CONNECT (R412). -/
  | sessionConnect (n addr : Nat) (tls : TlsHello) (fp : Nat)
  /-- SESSION_IDLE_CLOSE (R413). -/
  | sessionIdleClose (k : Nat)
  /-- AUTH_BLOCK_EXPIRY (R413). -/
  | authBlockExpiry (addr : Nat)
  /-- HELLO (R417). -/
  | hello (k : Nat) (h : MgHead) (len : Nat)
  /-- READ (R415). -/
  | read (k : Nat) (h : MgHead) (len a n : Nat)
  /-- WRITE (R416). -/
  | write (k epoch : Nat) (h : MgHead) (len a : Nat) (bs : List Byte)
  /-- LWRITE (R416). -/
  | lwrite (k : Nat) (h : MgHead) (len a : Nat) (bs : List Byte)
  /-- LOAD_BEGIN (R418). -/
  | loadBegin (k epoch : Nat) (h : MgHead) (len kind total : Nat)
  /-- LOAD_DATA (R418). -/
  | loadData (k epoch : Nat) (h : MgHead) (len ofs : Nat) (bs : List Byte)
  /-- LOAD_END (R418). -/
  | loadEnd (k epoch : Nat) (h : MgHead) (len sig : Nat) (img : LoadImg)
  /-- SUBSCRIBE (R417). -/
  | subscribe (k : Nat) (h : MgHead) (len : Nat) (on : Bool)
  /-- KEYSET (R414). -/
  | keyset (k : Nat) (h : MgHead) (len slot key : Nat) (safety : Bool) (sig : Nat)
  /-- RELAY_TIMEOUT (R417). -/
  | relayTimeout (id : Nat)
  /-- MODBUS_READ_COILS (R420). -/
  | modbusReadCoils (h : MbHdr) (a n : Nat)
  /-- MODBUS_READ_DISCRETE (R420). -/
  | modbusReadDiscrete (h : MbHdr) (a n : Nat)
  /-- MODBUS_READ_HOLDING (R420). -/
  | modbusReadHolding (h : MbHdr) (a n : Nat)
  /-- MODBUS_READ_INPUT (R420). -/
  | modbusReadInput (h : MbHdr) (a n : Nat)
  /-- MODBUS_WRITE_COIL (R422). -/
  | modbusWriteCoil (h : MbHdr) (a v : Nat)
  /-- MODBUS_WRITE_REGISTER (R422). -/
  | modbusWriteRegister (h : MbHdr) (a v : Nat)
  /-- MODBUS_WRITE_MULTIPLE (R422). -/
  | modbusWriteMultiple (h : MbHdr) (a : Nat) (vs : List Nat)
  /-- NMEA_DATAGRAM_RX (R423). -/
  | nmeaDatagramRx (g : Nat) (hdr : Bool) (len : Nat) (tags : Bool) (xs : List NmeaSent)
  /-- COND (R435). -/
  | cond
  /-- STAT (R435). -/
  | stat
  /-- RECORD_WRITE (R429). -/
  | recordWrite
  /-- STAT_INTERVAL_END (R433). -/
  | statIntervalEnd
  /-- PNL_UPD (R438). -/
  | pnlUpd (v : Nat)
  /-- PANEL_UPDATE (R439). -/
  | panelUpdate (t : Int)
  /-- PANEL_REDRAW (R436). -/
  | panelRedraw (r : Nat)
  /-- PANEL_DISCHARGE (R440). -/
  | panelDischarge
  /-- PANEL_COLD_RECHECK (R439). -/
  | panelColdRecheck (t : Int)
  /-- FEED_LOST (R442). -/
  | feedLost (f : Nat)
  /-- FEED_GOOD (R442). -/
  | feedGood (f : Nat)
  /-- POWERFAIL (R443). -/
  | powerfail
  /-- TEMP_HIGH (R446). -/
  | tempHigh (t : Nat)
  /-- TEMP_TRIP (R446). -/
  | tempTrip (t : Nat)
  /-- IDLE_ENTRY (R448). -/
  | idleEntry (u : Nat)
  /-- IDLE_EXIT (R448). -/
  | idleExit (u : Nat)
  /-- MODULE_RESET (R454). -/
  | moduleReset (cause : Nat)
  /-- FW_WDOG (R455). -/
  | fwWdog
  /-- PLL_LOSS (R456). -/
  | pllLoss (p : Nat)
  /-- SERDES_PLL_LOSS (R456). -/
  | serdesPllLoss
  /-- SYS_MODULE_RESET (R454). -/
  | sysModuleReset (mg : Bool)
  /-- CONV_CLEAR (R223). -/
  | convClear (mg : Bool)
  /-- FW_SELECT_A (R451). -/
  | fwSelectA (mg : Bool)
  /-- FW_SELECT_B (R451). -/
  | fwSelectB (mg : Bool)
  /-- FW_CLEAR (R451). -/
  | fwClear (mg : Bool)
  /-- EVT_LAT_WRITE (R478). -/
  | evtLatWrite (b : Blk) (i v : Nat)
  /-- EVENT_LATCH (R477). -/
  | eventLatch (b : Blk) (i mask : Nat)
  /-- UNIT_ERR_READ (R475). -/
  | unitErrRead (b : Blk) (i : Nat)
  /-- RC_REGISTER_READ (R12). -/
  | rcRegisterRead (a : Nat)
  /-- REGISTER_WRITE (R12). -/
  | registerWrite (mg : Bool) (a v : Nat)
  /-- CAN_BUS_ERROR (R397). -/
  | canBusError (k kind : Nat)
  /-- CAN_BUS_INTEGRATED (R408). -/
  | canBusIntegrated (k : Nat)
  /-- CAN_SLEEP_CONFIRMED (R408). -/
  | canSleepConfirmed (k : Nat)
  /-- HOST_LINK_DOWN (R411). -/
  | hostLinkDown (n : Nat)
  /-- HOST_LINK_UP (R411). -/
  | hostLinkUp (n : Nat)
  /-- HOST_FRAME_RX (R411). -/
  | hostFrameRx (n svc : Nat)
  /-- SYNC_LINK_LOST (R349). -/
  | syncLinkLost
  /-- SYNC_LINK_RESTORED (R349). -/
  | syncLinkRestored
  /-- ABDICATE_ILK_DROP (R362). -/
  | abdicateIlkDrop
  /-- SESSION_CLOSED (R418). -/
  | sessionClosed (k : Nat)
  /-- PTP_DELAY_REQ_TX (R387). -/
  | ptpDelayReqTx (p : Nat)
  /-- PTP_DELAY_REQ_RX (R387). -/
  | ptpDelayReqRx (p : Nat) (m : PtpMsg)
  /-- PTP_ANNOUNCE_TX (R385). -/
  | ptpAnnounceTx (p : Nat)
  /-- SYNC_WAIT_EXPIRY (R450). -/
  | syncWaitExpiry
  /-- JUNCTION_COOLED (R446). -/
  | junctionCooled (t : Nat)
  /-- OPERATING_SECOND (R426). -/
  | operatingSecond
  /-- PANEL_UPDATE_DONE (R439). -/
  | panelUpdateDone
  /-- PANEL_SUPPLY_FAULT (R439). -/
  | panelSupplyFault
  /-- PARTNER_NOR_WRITE_DONE (R371). -/
  | partnerNorWriteDone
  deriving DecidableEq, Repr

end Sys2Proof
end

