-- ==== Sys2Proof/Decode.lean ====
section
/-!
DEFINITION. Words. The opcode table gives its rows no bits, so no word spells a command (`decodeTableWord`). The instruction words
of Tables HXI-4 and HXI-16 are read by `decodeHxi` and written by `encodeHxi`: R40, R49, R74.
-/

namespace Sys2Proof

open Machine

/-- The command that a word of the opcode table spells: the table gives no row any bits (log entry 3). -/
def decodeTableWord (_nbits _w : Nat) : Option Instr := none

/-- The format of LD (Table HXI-4). -/
def wordLd (op : Nat) (mode : Nat) (xi : Nat) (ofs : Nat) (bit : Nat) : Nat :=
  op * 2 ^ 26 + mode * 2 ^ 23 + xi * 2 ^ 19 + ofs * 2 ^ 3 + bit

/-- The format of LBOP_NOT (Table HXI-4). -/
def wordLbopNot (op sub : Nat) (rsv : Nat) : Nat :=
  op * 2 ^ 26 + sub * 2 ^ 20 + rsv

/-- The format of TMR_TON (Table HXI-4). -/
def wordTmrTon (op sub : Nat) (i : Bool) (xi : Nat) (unit : Nat) (rsv : Nat) (cell : Nat) : Nat :=
  op * 2 ^ 26 + sub * 2 ^ 24 + b2n i * 2 ^ 23 + xi * 2 ^ 19 + unit * 2 ^ 17 + rsv * 2 ^ 12 + cell

/-- The format of CTU (Table HXI-4). -/
def wordCtu (op sub : Nat) (mode : Nat) (xi : Nat) (ac : Nat) (ofs : Nat) : Nat :=
  op * 2 ^ 26 + sub * 2 ^ 16 + mode * 2 ^ 23 + xi * 2 ^ 19 + ac * 2 ^ 15 + ofs

/-- The format of LW (Table HXI-4). -/
def wordLw (op : Nat) (mode : Nat) (xi : Nat) (ty : Nat) (ac : Bool) (ofs : Nat) : Nat :=
  op * 2 ^ 26 + mode * 2 ^ 23 + xi * 2 ^ 19 + ty * 2 ^ 16 + b2n ac * 2 ^ 15 + ofs

/-- The format of ALU_ADD (Table HXI-4). -/
def wordAluAdd (op sub : Nat) (ty : Nat) (d : Bool) (ty2 : Nat) (rsv : Nat) : Nat :=
  op * 2 ^ 26 + sub * 2 ^ 21 + ty * 2 ^ 18 + b2n d * 2 ^ 17 + ty2 * 2 ^ 14 + rsv

/-- The format of LDI (Table HXI-4). -/
def wordLdi (op : Nat) (ac : Bool) (pos : Nat) (keep : Bool) (rsv : Nat) (imm : Nat) : Nat :=
  op * 2 ^ 26 + b2n ac * 2 ^ 25 + pos * 2 ^ 23 + b2n keep * 2 ^ 22 + rsv * 2 ^ 16 + imm

/-- The format of ADDI (Table HXI-4). -/
def wordAddi (op : Nat) (ac : Bool) (w : Bool) (rsv : Nat) (imm : Nat) : Nat :=
  op * 2 ^ 26 + b2n ac * 2 ^ 25 + b2n w * 2 ^ 24 + rsv * 2 ^ 16 + imm

/-- The format of CMP (Table HXI-4). -/
def wordCmp (op : Nat) (cond : Nat) (ty : Nat) (comb : Nat) (rsv : Nat) : Nat :=
  op * 2 ^ 26 + cond * 2 ^ 23 + ty * 2 ^ 20 + comb * 2 ^ 18 + rsv

/-- The format of LXI (Table HXI-4). -/
def wordLxi (op : Nat) (xd : Nat) (hi : Bool) (keep : Bool) (rsv : Nat) (imm : Nat) : Nat :=
  op * 2 ^ 26 + xd * 2 ^ 22 + b2n hi * 2 ^ 21 + b2n keep * 2 ^ 20 + rsv * 2 ^ 16 + imm

/-- The format of XALU_MOV (Table HXI-4). -/
def wordXaluMov (op sub : Nat) (xd : Nat) (xs : Nat) (imm : Nat) : Nat :=
  op * 2 ^ 26 + sub * 2 ^ 14 + xd * 2 ^ 22 + xs * 2 ^ 18 + imm

/-- The format of CHR (Table HXI-4). -/
def wordChr (op : Nat) (i : Bool) (xi : Nat) (ty : Nat) (all : Bool) (rsv : Nat) (chan : Nat) : Nat :=
  op * 2 ^ 26 + b2n i * 2 ^ 25 + xi * 2 ^ 21 + ty * 2 ^ 18 + b2n all * 2 ^ 17 + rsv * 2 ^ 14 + chan

/-- The format of CHINV (Table HXI-4). -/
def wordChinv (op : Nat) (i : Bool) (xi : Nat) (all : Bool) (rsv : Nat) (chan : Nat) : Nat :=
  op * 2 ^ 26 + b2n i * 2 ^ 25 + xi * 2 ^ 21 + b2n all * 2 ^ 17 + rsv * 2 ^ 14 + chan

/-- The format of MOVB (Table HXI-4). -/
def wordMovb (op : Nat) (xd : Nat) (xs : Nat) (rsv : Nat) (cnt : Nat) : Nat :=
  op * 2 ^ 26 + xd * 2 ^ 22 + xs * 2 ^ 18 + rsv * 2 ^ 12 + cnt

/-- The format of TBL (Table HXI-4). -/
def wordTbl (op : Nat) (xb : Nat) (xi : Nat) (ty : Nat) (ac : Bool) (lim : Nat) : Nat :=
  op * 2 ^ 26 + xb * 2 ^ 22 + xi * 2 ^ 18 + ty * 2 ^ 15 + b2n ac * 2 ^ 14 + lim

/-- The format of JMP (Table HXI-4). -/
def wordJmp (op : Nat) (ofs : Nat) : Nat :=
  op * 2 ^ 26 + ofs

/-- The format of JF (Table HXI-4). -/
def wordJf (op : Nat) (fc : Nat) (ofs : Nat) : Nat :=
  op * 2 ^ 26 + fc * 2 ^ 22 + ofs

/-- The format of RET (Table HXI-4). -/
def wordRet (op : Nat) (rsv : Nat) : Nat :=
  op * 2 ^ 26 + rsv

/-- The format of DJNZ (Table HXI-4). -/
def wordDjnz (op : Nat) (xd : Nat) (ofs : Nat) : Nat :=
  op * 2 ^ 26 + xd * 2 ^ 22 + ofs

/-- The format of CALLX (Table HXI-4). -/
def wordCallx (op : Nat) (xi : Nat) (rsv : Nat) : Nat :=
  op * 2 ^ 26 + xi * 2 ^ 22 + rsv

/-- The format of ECALL (Table HXI-4). -/
def wordEcall (op : Nat) (unit : Nat) (fn : Nat) (sync : Bool) (xp : Nat) (rsv : Nat) (inst : Nat) : Nat :=
  op * 2 ^ 26 + unit * 2 ^ 22 + fn * 2 ^ 16 + b2n sync * 2 ^ 15 + xp * 2 ^ 11 + rsv * 2 ^ 9 + inst

/-- The format of FENCE_M (Table HXI-4). -/
def wordFenceM (op sub : Nat) (rsv : Nat) : Nat :=
  op * 2 ^ 26 + sub * 2 ^ 24 + rsv

/-- The format of TASK_END (Table HXI-4). -/
def wordTaskEnd (op sub : Nat) (rsv : Nat) : Nat :=
  op * 2 ^ 26 + sub * 2 ^ 22 + rsv * 2 ^ 19

/-- The format of RAISE (Table HXI-4). -/
def wordRaise (op sub : Nat) (rsv : Nat) (evt : Nat) (tag : Nat) : Nat :=
  op * 2 ^ 26 + sub * 2 ^ 22 + rsv * 2 ^ 19 + evt * 2 ^ 16 + tag

/-- The format of MFS (Table HXI-4). -/
def wordMfs (op : Nat) (xr : Nat) (t : Bool) (rsv : Nat) (sr : Nat) : Nat :=
  op * 2 ^ 26 + xr * 2 ^ 22 + b2n t * 2 ^ 21 + rsv * 2 ^ 8 + sr

/-- The word of an instruction of the logic cores (Table HXI-4); other commands have none. Fields that an instruction does
not use (TYPE of CHINV, EVT and TAG of END, YIELD and NOP) are written 0. -/
def encodeHxi (i : Instr) : Option Nat :=
  match i with
  | .ld _ mode xi ofs bit => some (wordLd 1 mode xi ofs bit)
  | .ldn _ mode xi ofs bit => some (wordLd 2 mode xi ofs bit)
  | .and _ mode xi ofs bit => some (wordLd 3 mode xi ofs bit)
  | .andn _ mode xi ofs bit => some (wordLd 4 mode xi ofs bit)
  | .or _ mode xi ofs bit => some (wordLd 5 mode xi ofs bit)
  | .orn _ mode xi ofs bit => some (wordLd 6 mode xi ofs bit)
  | .xor _ mode xi ofs bit => some (wordLd 7 mode xi ofs bit)
  | .xorn _ mode xi ofs bit => some (wordLd 8 mode xi ofs bit)
  | .st _ mode xi ofs bit => some (wordLd 9 mode xi ofs bit)
  | .stn _ mode xi ofs bit => some (wordLd 10 mode xi ofs bit)
  | .set _ mode xi ofs bit => some (wordLd 11 mode xi ofs bit)
  | .clr _ mode xi ofs bit => some (wordLd 12 mode xi ofs bit)
  | .edr _ mode xi ofs bit => some (wordLd 13 mode xi ofs bit)
  | .edf _ mode xi ofs bit => some (wordLd 14 mode xi ofs bit)
  | .lbopNot _ rsv => some (wordLbopNot 15 0 rsv)
  | .lbopLb0 _ rsv => some (wordLbopNot 15 1 rsv)
  | .lbopLb1 _ rsv => some (wordLbopNot 15 2 rsv)
  | .bop _ rsv => some (wordLbopNot 15 4 rsv)
  | .bnx _ rsv => some (wordLbopNot 15 5 rsv)
  | .bcl _ rsv => some (wordLbopNot 15 6 rsv)
  | .lbw _ rsv => some (wordLbopNot 15 8 rsv)
  | .wlb _ rsv => some (wordLbopNot 15 9 rsv)
  | .tmrTon _ i xi unit rsv cell => some (wordTmrTon 16 0 i xi unit rsv cell)
  | .tmrTof _ i xi unit rsv cell => some (wordTmrTon 16 1 i xi unit rsv cell)
  | .tmrTp _ i xi unit rsv cell => some (wordTmrTon 16 2 i xi unit rsv cell)
  | .tmrTrst _ i xi unit rsv cell => some (wordTmrTon 16 3 i xi unit rsv cell)
  | .tmrxPreset _ i xi unit rsv cell => some (wordTmrTon 17 0 i xi unit rsv cell)
  | .tmrxElapsed _ i xi unit rsv cell => some (wordTmrTon 17 1 i xi unit rsv cell)
  | .tmrxLoadq _ i xi unit rsv cell => some (wordTmrTon 17 2 i xi unit rsv cell)
  | .ctu _ mode xi ac ofs => some (wordCtu 18 0 mode xi ac ofs)
  | .ctd _ mode xi ac ofs => some (wordCtu 18 1 mode xi ac ofs)
  | .ctrReset _ mode xi ac ofs => some (wordCtu 18 2 mode xi ac ofs)
  | .ctl _ mode xi ac ofs => some (wordCtu 18 3 mode xi ac ofs)
  | .lw _ mode xi ty ac ofs => some (wordLw 20 mode xi ty ac ofs)
  | .sw _ mode xi ty ac ofs => some (wordLw 21 mode xi ty ac ofs)
  | .addm _ mode xi ty ac ofs => some (wordLw 22 mode xi ty ac ofs)
  | .subm _ mode xi ty ac ofs => some (wordLw 23 mode xi ty ac ofs)
  | .mulm _ mode xi ty ac ofs => some (wordLw 24 mode xi ty ac ofs)
  | .divm _ mode xi ty ac ofs => some (wordLw 25 mode xi ty ac ofs)
  | .aluAdd _ ty d ty2 rsv => some (wordAluAdd 28 0 ty d ty2 rsv)
  | .aluSub _ ty d ty2 rsv => some (wordAluAdd 28 1 ty d ty2 rsv)
  | .aluMul _ ty d ty2 rsv => some (wordAluAdd 28 2 ty d ty2 rsv)
  | .aluDiv _ ty d ty2 rsv => some (wordAluAdd 28 3 ty d ty2 rsv)
  | .aluMod _ ty d ty2 rsv => some (wordAluAdd 28 4 ty d ty2 rsv)
  | .aluNeg _ ty d ty2 rsv => some (wordAluAdd 28 5 ty d ty2 rsv)
  | .aluAbs _ ty d ty2 rsv => some (wordAluAdd 28 6 ty d ty2 rsv)
  | .aluMin _ ty d ty2 rsv => some (wordAluAdd 28 7 ty d ty2 rsv)
  | .aluMax _ ty d ty2 rsv => some (wordAluAdd 28 8 ty d ty2 rsv)
  | .aluSqrt _ ty d ty2 rsv => some (wordAluAdd 28 9 ty d ty2 rsv)
  | .aluAnd _ ty d ty2 rsv => some (wordAluAdd 28 10 ty d ty2 rsv)
  | .aluOr _ ty d ty2 rsv => some (wordAluAdd 28 11 ty d ty2 rsv)
  | .aluXor _ ty d ty2 rsv => some (wordAluAdd 28 12 ty d ty2 rsv)
  | .aluNot _ ty d ty2 rsv => some (wordAluAdd 28 13 ty d ty2 rsv)
  | .aluShl _ ty d ty2 rsv => some (wordAluAdd 28 14 ty d ty2 rsv)
  | .aluShr _ ty d ty2 rsv => some (wordAluAdd 28 15 ty d ty2 rsv)
  | .aluSar _ ty d ty2 rsv => some (wordAluAdd 28 16 ty d ty2 rsv)
  | .aluRol _ ty d ty2 rsv => some (wordAluAdd 28 17 ty d ty2 rsv)
  | .aluCvt _ ty d ty2 rsv => some (wordAluAdd 28 18 ty d ty2 rsv)
  | .aluTrunc _ ty d ty2 rsv => some (wordAluAdd 28 19 ty d ty2 rsv)
  | .aluMov _ ty d ty2 rsv => some (wordAluAdd 28 20 ty d ty2 rsv)
  | .aluSwp _ ty d ty2 rsv => some (wordAluAdd 28 21 ty d ty2 rsv)
  | .aluClrw _ ty d ty2 rsv => some (wordAluAdd 28 22 ty d ty2 rsv)
  | .aluSextb _ ty d ty2 rsv => some (wordAluAdd 28 23 ty d ty2 rsv)
  | .aluSexth _ ty d ty2 rsv => some (wordAluAdd 28 24 ty d ty2 rsv)
  | .ldi _ ac pos keep rsv imm => some (wordLdi 29 ac pos keep rsv imm)
  | .addi _ ac w rsv imm => some (wordAddi 30 ac w rsv imm)
  | .cmp _ cond ty comb rsv => some (wordCmp 31 cond ty comb rsv)
  | .lxi _ xd hi keep rsv imm => some (wordLxi 32 xd hi keep rsv imm)
  | .xaluMov _ xd xs imm => some (wordXaluMov 33 0 xd xs imm)
  | .xaluAdd _ xd xs imm => some (wordXaluMov 33 1 xd xs imm)
  | .xaluSub _ xd xs imm => some (wordXaluMov 33 2 xd xs imm)
  | .xaluAnd _ xd xs imm => some (wordXaluMov 33 3 xd xs imm)
  | .xaluOr _ xd xs imm => some (wordXaluMov 33 4 xd xs imm)
  | .xaluShl _ xd xs imm => some (wordXaluMov 33 5 xd xs imm)
  | .xaluShr _ xd xs imm => some (wordXaluMov 33 6 xd xs imm)
  | .xaluAddi _ xd xs imm => some (wordXaluMov 33 7 xd xs imm)
  | .xaluFromwa _ xd xs imm => some (wordXaluMov 33 8 xd xs imm)
  | .xaluTowa _ xd xs imm => some (wordXaluMov 33 9 xd xs imm)
  | .chr _ i xi ty all rsv chan => some (wordChr 36 i xi ty all rsv chan)
  | .chw _ i xi ty all rsv chan => some (wordChr 37 i xi ty all rsv chan)
  | .chinv _ i xi all rsv chan => some (wordChinv 38 i xi all rsv chan)
  | .movb _ xd xs rsv cnt => some (wordMovb 40 xd xs rsv cnt)
  | .tbl _ xb xi ty ac lim => some (wordTbl 41 xb xi ty ac lim)
  | .jmp _ ofs => some (wordJmp 48 ofs)
  | .jlb _ ofs => some (wordJmp 49 ofs)
  | .jlbn _ ofs => some (wordJmp 50 ofs)
  | .jf _ fc ofs => some (wordJf 51 fc ofs)
  | .call _ ofs => some (wordJmp 52 ofs)
  | .ret _ rsv => some (wordRet 53 rsv)
  | .djnz _ xd ofs => some (wordDjnz 54 xd ofs)
  | .callx _ xi rsv => some (wordCallx 55 xi rsv)
  | .ecall _ unit fn sync xp rsv inst => some (wordEcall 56 unit fn sync xp rsv inst)
  | .fenceM _ rsv => some (wordFenceM 57 0 rsv)
  | .fenceU _ rsv => some (wordFenceM 57 1 rsv)
  | .fenceIo _ rsv => some (wordFenceM 57 2 rsv)
  | .fenceX _ rsv => some (wordFenceM 57 3 rsv)
  | .taskEnd _ rsv => some (wordTaskEnd 58 0 rsv)
  | .yield _ rsv => some (wordTaskEnd 58 1 rsv)
  | .raise _ rsv evt tag => some (wordRaise 58 2 rsv evt tag)
  | .bar _ rsv evt tag => some (wordRaise 58 3 rsv evt tag)
  | .taskNop _ rsv => some (wordTaskEnd 58 4 rsv)
  | .mfs _ xr t rsv sr => some (wordMfs 59 xr t rsv sr)
  | .mts _ xr t rsv sr => some (wordMfs 60 xr t rsv sr)
  | .illegalOpcode _ word => some word
  | _ => none

/-- Sub-operations of LBOP (Table HXI-9). A reserved code is read as a sub-operation with
its reserved field nonzero: both are refused with ILLEGAL_OPERAND (R49). -/
def decodeLbop (c w : Nat) : Instr :=
  match bits w 20 6 with
  | 0 => .lbopNot c (bits w 0 20)
  | 1 => .lbopLb0 c (bits w 0 20)
  | 2 => .lbopLb1 c (bits w 0 20)
  | 4 => .bop c (bits w 0 20)
  | 5 => .bnx c (bits w 0 20)
  | 6 => .bcl c (bits w 0 20)
  | 8 => .lbw c (bits w 0 20)
  | 9 => .wlb c (bits w 0 20)
  | _ => .lbopNot c (bits w 0 20 + 2 ^ 20)

/-- TMR (R56). -/
def decodeTmr (c w : Nat) : Instr :=
  match bits w 24 2 with
  | 0 => .tmrTon c (bitOf w 23) (bits w 19 4) (bits w 17 2) (bits w 12 5) (bits w 0 12)
  | 1 => .tmrTof c (bitOf w 23) (bits w 19 4) (bits w 17 2) (bits w 12 5) (bits w 0 12)
  | 2 => .tmrTp c (bitOf w 23) (bits w 19 4) (bits w 17 2) (bits w 12 5) (bits w 0 12)
  | _ => .tmrTrst c (bitOf w 23) (bits w 19 4) (bits w 17 2) (bits w 12 5) (bits w 0 12)

/-- TMRX (R57). A reserved code is read as a sub-operation with
its reserved field nonzero: both are refused with ILLEGAL_OPERAND (R49). -/
def decodeTmrx (c w : Nat) : Instr :=
  match bits w 24 2 with
  | 0 => .tmrxPreset c (bitOf w 23) (bits w 19 4) (bits w 17 2) (bits w 12 5) (bits w 0 12)
  | 1 => .tmrxElapsed c (bitOf w 23) (bits w 19 4) (bits w 17 2) (bits w 12 5) (bits w 0 12)
  | 2 => .tmrxLoadq c (bitOf w 23) (bits w 19 4) (bits w 17 2) (bits w 12 5) (bits w 0 12)
  | _ => .tmrxLoadq c (bitOf w 23) (bits w 19 4) (bits w 17 2) (bits w 12 5 + 2 ^ 5) (bits w 0 12)

/-- CTR by TYPE (R58). A reserved code is read as a sub-operation with
its reserved field nonzero: both are refused with ILLEGAL_OPERAND (R49). -/
def decodeCtr (c w : Nat) : Instr :=
  match bits w 16 3 with
  | 0 => .ctu c (bits w 23 3) (bits w 19 4) (bits w 15 1) (bits w 0 15)
  | 1 => .ctd c (bits w 23 3) (bits w 19 4) (bits w 15 1) (bits w 0 15)
  | 2 => .ctrReset c (bits w 23 3) (bits w 19 4) (bits w 15 1) (bits w 0 15)
  | 3 => .ctl c (bits w 23 3) (bits w 19 4) (bits w 15 1) (bits w 0 15)
  | _ => .ctu c (bits w 23 3) (bits w 19 4) 2 (bits w 0 15)

/-- ALU by FN (Table HXI-12). A reserved code is read as a sub-operation with
its reserved field nonzero: both are refused with ILLEGAL_OPERAND (R49). -/
def decodeAlu (c w : Nat) : Instr :=
  match bits w 21 5 with
  | 0 => .aluAdd c (bits w 18 3) (bitOf w 17) (bits w 14 3) (bits w 0 14)
  | 1 => .aluSub c (bits w 18 3) (bitOf w 17) (bits w 14 3) (bits w 0 14)
  | 2 => .aluMul c (bits w 18 3) (bitOf w 17) (bits w 14 3) (bits w 0 14)
  | 3 => .aluDiv c (bits w 18 3) (bitOf w 17) (bits w 14 3) (bits w 0 14)
  | 4 => .aluMod c (bits w 18 3) (bitOf w 17) (bits w 14 3) (bits w 0 14)
  | 5 => .aluNeg c (bits w 18 3) (bitOf w 17) (bits w 14 3) (bits w 0 14)
  | 6 => .aluAbs c (bits w 18 3) (bitOf w 17) (bits w 14 3) (bits w 0 14)
  | 7 => .aluMin c (bits w 18 3) (bitOf w 17) (bits w 14 3) (bits w 0 14)
  | 8 => .aluMax c (bits w 18 3) (bitOf w 17) (bits w 14 3) (bits w 0 14)
  | 9 => .aluSqrt c (bits w 18 3) (bitOf w 17) (bits w 14 3) (bits w 0 14)
  | 10 => .aluAnd c (bits w 18 3) (bitOf w 17) (bits w 14 3) (bits w 0 14)
  | 11 => .aluOr c (bits w 18 3) (bitOf w 17) (bits w 14 3) (bits w 0 14)
  | 12 => .aluXor c (bits w 18 3) (bitOf w 17) (bits w 14 3) (bits w 0 14)
  | 13 => .aluNot c (bits w 18 3) (bitOf w 17) (bits w 14 3) (bits w 0 14)
  | 14 => .aluShl c (bits w 18 3) (bitOf w 17) (bits w 14 3) (bits w 0 14)
  | 15 => .aluShr c (bits w 18 3) (bitOf w 17) (bits w 14 3) (bits w 0 14)
  | 16 => .aluSar c (bits w 18 3) (bitOf w 17) (bits w 14 3) (bits w 0 14)
  | 17 => .aluRol c (bits w 18 3) (bitOf w 17) (bits w 14 3) (bits w 0 14)
  | 18 => .aluCvt c (bits w 18 3) (bitOf w 17) (bits w 14 3) (bits w 0 14)
  | 19 => .aluTrunc c (bits w 18 3) (bitOf w 17) (bits w 14 3) (bits w 0 14)
  | 20 => .aluMov c (bits w 18 3) (bitOf w 17) (bits w 14 3) (bits w 0 14)
  | 21 => .aluSwp c (bits w 18 3) (bitOf w 17) (bits w 14 3) (bits w 0 14)
  | 22 => .aluClrw c (bits w 18 3) (bitOf w 17) (bits w 14 3) (bits w 0 14)
  | 23 => .aluSextb c (bits w 18 3) (bitOf w 17) (bits w 14 3) (bits w 0 14)
  | 24 => .aluSexth c (bits w 18 3) (bitOf w 17) (bits w 14 3) (bits w 0 14)
  | _ => .aluAdd c (bits w 18 3) (bitOf w 17) (bits w 14 3) (bits w 0 14 + 2 ^ 14)

/-- XALU by FN (R69). A reserved code is read as a sub-operation with
its reserved field nonzero: both are refused with ILLEGAL_OPERAND (R49). -/
def decodeXalu (c w : Nat) : Instr :=
  match bits w 14 4 with
  | 0 => .xaluMov c (bits w 22 4) (bits w 18 4) (bits w 0 14)
  | 1 => .xaluAdd c (bits w 22 4) (bits w 18 4) (bits w 0 14)
  | 2 => .xaluSub c (bits w 22 4) (bits w 18 4) (bits w 0 14)
  | 3 => .xaluAnd c (bits w 22 4) (bits w 18 4) (bits w 0 14)
  | 4 => .xaluOr c (bits w 22 4) (bits w 18 4) (bits w 0 14)
  | 5 => .xaluShl c (bits w 22 4) (bits w 18 4) (bits w 0 14)
  | 6 => .xaluShr c (bits w 22 4) (bits w 18 4) (bits w 0 14)
  | 7 => .xaluAddi c (bits w 22 4) (bits w 18 4) (bits w 0 14)
  | 8 => .xaluFromwa c (bits w 22 4) (bits w 18 4) (bits w 0 14)
  | 9 => .xaluTowa c (bits w 22 4) (bits w 18 4) (bits w 0 14)
  | _ => .xaluMov c (bits w 22 4) (bits w 18 4) (bits w 0 14 + 2 ^ 14)

/-- FENCE by KIND (R71). -/
def decodeFence (c w : Nat) : Instr :=
  match bits w 24 2 with
  | 0 => .fenceM c (bits w 0 24)
  | 1 => .fenceU c (bits w 0 24)
  | 2 => .fenceIo c (bits w 0 24)
  | _ => .fenceX c (bits w 0 24)

/-- TASK by SUB (Table HXI-15b). A reserved code is read as a sub-operation with
its reserved field nonzero: both are refused with ILLEGAL_OPERAND (R49). -/
def decodeTask (c w : Nat) : Instr :=
  match bits w 22 4 with
  | 0 => .taskEnd c (bits w 19 3)
  | 1 => .yield c (bits w 19 3)
  | 2 => .raise c (bits w 19 3) (bits w 16 3) (bits w 0 16)
  | 3 => .bar c (bits w 19 3) (bits w 16 3) (bits w 0 16)
  | 4 => .taskNop c (bits w 19 3)
  | _ => .taskNop c (bits w 19 3 + 2 ^ 3)

/-- The instruction that a word is to core `c` (Table HXI-16). -/
def decodeHxi (c w : Nat) : Instr :=
  match bits w 26 6 with
  | 1 => .ld c (bits w 23 3) (bits w 19 4) (bits w 3 16) (bits w 0 3)
  | 2 => .ldn c (bits w 23 3) (bits w 19 4) (bits w 3 16) (bits w 0 3)
  | 3 => .and c (bits w 23 3) (bits w 19 4) (bits w 3 16) (bits w 0 3)
  | 4 => .andn c (bits w 23 3) (bits w 19 4) (bits w 3 16) (bits w 0 3)
  | 5 => .or c (bits w 23 3) (bits w 19 4) (bits w 3 16) (bits w 0 3)
  | 6 => .orn c (bits w 23 3) (bits w 19 4) (bits w 3 16) (bits w 0 3)
  | 7 => .xor c (bits w 23 3) (bits w 19 4) (bits w 3 16) (bits w 0 3)
  | 8 => .xorn c (bits w 23 3) (bits w 19 4) (bits w 3 16) (bits w 0 3)
  | 9 => .st c (bits w 23 3) (bits w 19 4) (bits w 3 16) (bits w 0 3)
  | 10 => .stn c (bits w 23 3) (bits w 19 4) (bits w 3 16) (bits w 0 3)
  | 11 => .set c (bits w 23 3) (bits w 19 4) (bits w 3 16) (bits w 0 3)
  | 12 => .clr c (bits w 23 3) (bits w 19 4) (bits w 3 16) (bits w 0 3)
  | 13 => .edr c (bits w 23 3) (bits w 19 4) (bits w 3 16) (bits w 0 3)
  | 14 => .edf c (bits w 23 3) (bits w 19 4) (bits w 3 16) (bits w 0 3)
  | 15 => decodeLbop c w
  | 16 => decodeTmr c w
  | 17 => decodeTmrx c w
  | 18 => decodeCtr c w
  | 20 => .lw c (bits w 23 3) (bits w 19 4) (bits w 16 3) (bitOf w 15) (bits w 0 15)
  | 21 => .sw c (bits w 23 3) (bits w 19 4) (bits w 16 3) (bitOf w 15) (bits w 0 15)
  | 22 => .addm c (bits w 23 3) (bits w 19 4) (bits w 16 3) (bitOf w 15) (bits w 0 15)
  | 23 => .subm c (bits w 23 3) (bits w 19 4) (bits w 16 3) (bitOf w 15) (bits w 0 15)
  | 24 => .mulm c (bits w 23 3) (bits w 19 4) (bits w 16 3) (bitOf w 15) (bits w 0 15)
  | 25 => .divm c (bits w 23 3) (bits w 19 4) (bits w 16 3) (bitOf w 15) (bits w 0 15)
  | 28 => decodeAlu c w
  | 29 => .ldi c (bitOf w 25) (bits w 23 2) (bitOf w 22) (bits w 16 6) (bits w 0 16)
  | 30 => .addi c (bitOf w 25) (bitOf w 24) (bits w 16 8) (bits w 0 16)
  | 31 => .cmp c (bits w 23 3) (bits w 20 3) (bits w 18 2) (bits w 0 18)
  | 32 => .lxi c (bits w 22 4) (bitOf w 21) (bitOf w 20) (bits w 16 4) (bits w 0 16)
  | 33 => decodeXalu c w
  | 36 => .chr c (bitOf w 25) (bits w 21 4) (bits w 18 3) (bitOf w 17) (bits w 14 3) (bits w 0 14)
  | 37 => .chw c (bitOf w 25) (bits w 21 4) (bits w 18 3) (bitOf w 17) (bits w 14 3) (bits w 0 14)
  | 38 => .chinv c (bitOf w 25) (bits w 21 4) (bitOf w 17) (bits w 14 3) (bits w 0 14)
  | 40 => .movb c (bits w 22 4) (bits w 18 4) (bits w 12 6) (bits w 0 12)
  | 41 => .tbl c (bits w 22 4) (bits w 18 4) (bits w 15 3) (bitOf w 14) (bits w 0 14)
  | 48 => .jmp c (bits w 0 26)
  | 49 => .jlb c (bits w 0 26)
  | 50 => .jlbn c (bits w 0 26)
  | 51 => .jf c (bits w 22 4) (bits w 0 22)
  | 52 => .call c (bits w 0 26)
  | 53 => .ret c (bits w 0 26)
  | 54 => .djnz c (bits w 22 4) (bits w 0 22)
  | 55 => .callx c (bits w 22 4) (bits w 0 22)
  | 56 => .ecall c (bits w 22 4) (bits w 16 6) (bitOf w 15) (bits w 11 4) (bits w 9 2) (bits w 0 9)
  | 57 => decodeFence c w
  | 58 => decodeTask c w
  | 59 => .mfs c (bits w 22 4) (bitOf w 21) (bits w 8 13) (bits w 0 8)
  | 60 => .mts c (bits w 22 4) (bitOf w 21) (bits w 8 13) (bits w 0 8)
  | _ => .illegalOpcode c (w % 2 ^ 32)

end Sys2Proof
end

