-- ==== Sys2Proof/Config.lean ====
section
/-!
DEFINITION. The values that the spec leaves open. Each is an opaque constant without a body: no proof can see a value
of it, so a statement about it holds for every choice.
-/

namespace Sys2Proof

/-- DESIGN CHOICE (log entry 1). The k-th free value of a run: a number the spec does not fix. The state's counter
`free` gives k and rises at each use, so two uses are never tied together. -/
opaque Config.freeNat : Nat → Nat

/-- DESIGN CHOICE (log entry 1). The k-th free choice between two behaviours that the spec allows. -/
opaque Config.freeBool : Nat → Bool

/-- DESIGN CHOICE (log entry 105). The phase of the SAFE clock of a safety core against TICK, in fifths of a SAFE cycle. -/
opaque Config.safePhase : Nat → Nat

/-- DESIGN CHOICE (log entry 105). How many nanoseconds the RC oscillator of the safety engine measures during the TICK
period of a given number. -/
opaque Config.rcNs : Nat → Nat

end Sys2Proof
end

