-- ==== Sys2Proof/Machine/Float.lean ====
section
/-!
DEFINITION. Binary32 and binary64 arithmetic of R61: round to nearest, ties to even, subnormals kept, one quiet NaN.
A format is given by its precision `p` (24 or 53) and its width; values are exact dyadic numbers m × 2^e.
-/

namespace Sys2Proof.Machine

/-- A float format: significand bits with the hidden bit, exponent field bits. -/
structure FFmt where
  p : Nat
  eb : Nat
  deriving DecidableEq, Repr

/-- binary32 and binary64. -/
def f32 : FFmt := ⟨24, 8⟩
/-- binary64. -/
def f64 : FFmt := ⟨53, 11⟩

/-- A decoded float: NaN, signed infinity, or (−1)^s × m × 2^e. -/
inductive FVal where
  | nan
  | inf (s : Bool)
  | fin (s : Bool) (m : Nat) (e : Int)
  deriving DecidableEq, Repr

/-- The exponent of the least significant bit of a subnormal. -/
def FFmt.emin (f : FFmt) : Int := 3 - ((2 ^ (f.eb - 1) : Nat) : Int) - (f.p : Int)

/-- All ones of the exponent field. -/
def FFmt.emax (f : FFmt) : Nat := 2 ^ f.eb - 1

/-- The quiet NaN of R61: 0x7FC0_0000 or 0x7FF8_0000_0000_0000. -/
def fqnan (f : FFmt) : Nat := f.emax * 2 ^ (f.p - 1) + 2 ^ (f.p - 2)

/-- The value a bit pattern stands for. -/
def fdec (f : FFmt) (x : Nat) : FVal :=
  let fr := x % 2 ^ (f.p - 1)
  let ex := (x / 2 ^ (f.p - 1)) % 2 ^ f.eb
  let s := (x / 2 ^ (f.p - 1 + f.eb)) % 2 == 1
  if ex = f.emax then (if fr = 0 then .inf s else .nan)
  else if ex = 0 then .fin s fr f.emin
  else .fin s (fr + 2 ^ (f.p - 1)) (f.emin + (ex : Int) - 1)

/-- The sign bit in place. -/
def fsign (f : FFmt) (s : Bool) : Nat := if s then 2 ^ (f.p - 1 + f.eb) else 0

/-- Signed infinity. -/
def finf (f : FFmt) (s : Bool) : Nat := fsign f s + f.emax * 2 ^ (f.p - 1)

/-- (−1)^s × m × 2^e rounded to the format, to nearest, ties to even. -/
def fround (f : FFmt) (s : Bool) (m : Nat) (e : Int) : Nat :=
  if m = 0 then fsign f s else
  let len : Int := (Nat.log2 m : Int) + 1
  let te : Int := max (e + len - (f.p : Int)) f.emin
  let q : Nat :=
    if te ≤ e then m * 2 ^ (e - te).toNat
    else
      let k := (te - e).toNat
      let q := m / 2 ^ k
      let r := m % 2 ^ k
      let half := 2 ^ (k - 1)
      if r > half ∨ (r = half ∧ q % 2 = 1) then q + 1 else q
  let (q, te) := if q = 2 ^ f.p then (2 ^ (f.p - 1), te + 1) else (q, te)
  if q < 2 ^ (f.p - 1) then fsign f s + q
  else
    let ex := (te - f.emin + 1).toNat
    if ex ≥ f.emax then finf f s else fsign f s + ex * 2 ^ (f.p - 1) + (q - 2 ^ (f.p - 1))

/-- The pattern of a decoded value. -/
def fenc (f : FFmt) : FVal → Nat
  | .nan => fqnan f
  | .inf s => finf f s
  | .fin s m e => fround f s m e

/-- True for a NaN pattern. -/
def fisNan (f : FFmt) (x : Nat) : Bool := match fdec f x with | .nan => true | _ => false

/-- True for a finite pattern. -/
def fisFin (f : FFmt) (x : Nat) : Bool := match fdec f x with | .fin _ _ _ => true | _ => false

/-- True for ±0. -/
def fisZero (f : FFmt) (x : Nat) : Bool := match fdec f x with | .fin _ 0 _ => true | _ => false

/-- Signed significands of two finite values brought to one exponent. -/
def falign (s1 : Bool) (m1 : Nat) (e1 : Int) (s2 : Bool) (m2 : Nat) (e2 : Int) : Int × Int × Int :=
  let e := min e1 e2
  let a : Int := ((m1 * 2 ^ (e1 - e).toNat : Nat) : Int)
  let b : Int := ((m2 * 2 ^ (e2 - e).toNat : Nat) : Int)
  (if s1 then -a else a, if s2 then -b else b, e)

/-- Sum (R61). An exact zero sum of operands of opposite sign is +0. -/
def fadd (f : FFmt) (x y : Nat) : Nat :=
  match fdec f x, fdec f y with
  | .nan, _ => fqnan f
  | _, .nan => fqnan f
  | .inf s, .inf t => if s = t then finf f s else fqnan f
  | .inf s, _ => finf f s
  | _, .inf t => finf f t
  | .fin s1 m1 e1, .fin s2 m2 e2 =>
    let (a, b, e) := falign s1 m1 e1 s2 m2 e2
    let t := a + b
    if t = 0 then fsign f (s1 && s2) else fround f (decide (t < 0)) t.natAbs e

/-- The value with its sign bit inverted; a NaN stays the quiet NaN. -/
def fneg (f : FFmt) (x : Nat) : Nat :=
  if fisNan f x then fqnan f
  else if x ≥ 2 ^ (f.p - 1 + f.eb) then x - 2 ^ (f.p - 1 + f.eb) else x + 2 ^ (f.p - 1 + f.eb)

/-- The value with its sign bit cleared; a NaN stays the quiet NaN. -/
def fabs (f : FFmt) (x : Nat) : Nat := if fisNan f x then fqnan f else x % 2 ^ (f.p - 1 + f.eb)

/-- Difference (R61). -/
def fsub (f : FFmt) (x y : Nat) : Nat := if fisNan f y then fqnan f else fadd f x (fneg f y)

/-- Product (R61). -/
def fmul (f : FFmt) (x y : Nat) : Nat :=
  match fdec f x, fdec f y with
  | .nan, _ => fqnan f
  | _, .nan => fqnan f
  | .inf s, .inf t => finf f (s != t)
  | .inf s, .fin t m _ => if m = 0 then fqnan f else finf f (s != t)
  | .fin t m _, .inf s => if m = 0 then fqnan f else finf f (s != t)
  | .fin s1 m1 e1, .fin s2 m2 e2 => fround f (s1 != s2) (m1 * m2) (e1 + e2)

/-- Quotient (R61). Finite nonzero by zero gives a signed infinity; 0 by 0 the quiet NaN. -/
def fdiv (f : FFmt) (x y : Nat) : Nat :=
  match fdec f x, fdec f y with
  | .nan, _ => fqnan f
  | _, .nan => fqnan f
  | .inf _, .inf _ => fqnan f
  | .inf s, .fin t _ _ => finf f (s != t)
  | .fin s _ _, .inf t => fsign f (s != t)
  | .fin s1 m1 e1, .fin s2 m2 e2 =>
    if m2 = 0 then (if m1 = 0 then fqnan f else finf f (s1 != s2))
    else if m1 = 0 then fsign f (s1 != s2)
    else
      let k := 2 * f.p + 4 + Nat.log2 m2
      let n := m1 * 2 ^ k
      let q := n / m2
      let st := if n % m2 = 0 then 0 else 1
      fround f (s1 != s2) (2 * q + st) (e1 - e2 - (k : Int) - 1)

/-- The integer square root of `n`, bit by bit from bit `k` down: `r` is the root so far. -/
def isqrtGo (n : Nat) : Nat → Nat → Nat
  | 0, r => r
  | k + 1, r => let r' := r + 2 ^ k; isqrtGo n k (if r' * r' ≤ n then r' else r)

/-- The integer square root. -/
def isqrt (n : Nat) : Nat := isqrtGo n (Nat.log2 n / 2 + 1) 0

/-- Square root (R61). −0 gives −0, a negative value the quiet NaN. -/
def fsqrt (f : FFmt) (x : Nat) : Nat :=
  match fdec f x with
  | .nan => fqnan f
  | .inf s => if s then fqnan f else finf f false
  | .fin s m e =>
    if m = 0 then fsign f s else if s then fqnan f
    else
      let k := 2 * (f.p + 2) + (if e % 2 = 0 then 0 else 1)
      let n := m * 2 ^ k
      let r := isqrt n
      let st := if r * r = n then 0 else 1
      fround f false (2 * r + st) ((e - (k : Int)) / 2 - 1)

/-- Comparison of two patterns: none when either is a NaN (R63). -/
def fcmp (f : FFmt) (x y : Nat) : Option Ordering :=
  match fdec f x, fdec f y with
  | .nan, _ => none
  | _, .nan => none
  | .inf s, .inf t => some (if s = t then .eq else if s then .lt else .gt)
  | .inf s, _ => some (if s then .lt else .gt)
  | _, .inf t => some (if t then .gt else .lt)
  | .fin s1 m1 e1, .fin s2 m2 e2 =>
    let (a, b, _) := falign s1 m1 e1 s2 m2 e2
    some (compare a b)

/-- x < y. -/
def flt (f : FFmt) (x y : Nat) : Bool := fcmp f x y == some .lt
/-- x ≤ y. -/
def fle (f : FFmt) (x y : Nat) : Bool := fcmp f x y == some .lt || fcmp f x y == some .eq
/-- x = y. -/
def feq (f : FFmt) (x y : Nat) : Bool := fcmp f x y == some .eq

/-- Sign bit of a pattern. -/
def fneg? (f : FFmt) (x : Nat) : Bool := decide (x % 2 ^ (f.p + f.eb) ≥ 2 ^ (f.p - 1 + f.eb))

/-- Minimum of R61: a NaN gives the quiet NaN, −0 is less than +0. -/
def fmin (f : FFmt) (x y : Nat) : Nat :=
  match fcmp f x y with
  | none => fqnan f
  | some .lt => x
  | some .gt => y
  | some .eq => if fneg? f x then x else y

/-- Maximum of R61. -/
def fmax (f : FFmt) (x y : Nat) : Nat :=
  match fcmp f x y with
  | none => fqnan f
  | some .lt => y
  | some .gt => x
  | some .eq => if fneg? f x then y else x

/-- An integer as a float, rounded to nearest. -/
def fofInt (f : FFmt) (i : Int) : Nat := fround f (decide (i < 0)) i.natAbs 0

/-- The integer nearest to (−1)^s × m × 2^e, ties to even. -/
def dyRne (s : Bool) (m : Nat) (e : Int) : Int :=
  let a : Nat :=
    if 0 ≤ e then m * 2 ^ e.toNat
    else
      let k := (-e).toNat
      let q := m / 2 ^ k
      let r := m % 2 ^ k
      let half := 2 ^ (k - 1)
      if r > half ∨ (r = half ∧ q % 2 = 1) then q + 1 else q
  if s then -(a : Int) else (a : Int)

/-- (−1)^s × m × 2^e truncated toward zero. -/
def dyTrunc (s : Bool) (m : Nat) (e : Int) : Int :=
  let a : Nat := if 0 ≤ e then m * 2 ^ e.toNat else m / 2 ^ (-e).toNat
  if s then -(a : Int) else (a : Int)

/-- A float as an integer in [lo, hi], with the saturation flag and the NaN flag (R61). -/
def ftoInt (f : FFmt) (rnd : Bool) (lo hi : Int) (x : Nat) : Int × Bool × Bool :=
  match fdec f x with
  | .nan => (0, false, true)
  | .inf s => (if s then lo else hi, true, false)
  | .fin s m e =>
    let i := if rnd then dyRne s m e else dyTrunc s m e
    let c := clampI lo hi i
    (c, !decide (c = i), false)

/-- A float of one format in another. -/
def fcvt (f g : FFmt) (x : Nat) : Nat := fenc g (fdec f x)

/-- binary64 of an integer. -/
def f64i (i : Int) : Nat := fofInt f64 i
/-- binary64 of a binary32. -/
def f64of32 (x : Nat) : Nat := fcvt f32 f64 x
/-- binary32 of a binary64, rounded. -/
def f32of64 (x : Nat) : Nat := fcvt f64 f32 x

end Sys2Proof.Machine
end

