-- ==== Sys2Proof/Machine/State.lean ====
section
/-!
DEFINITION. Faults, refusals, the whole state, and the state after reset.
-/

namespace Sys2Proof.Machine

/-- Why the machine stops. No command of the table stops the machine: its faults are states (LE_FAULT, unit FAULT). -/
inductive Fault where
  /-- An access that no rule of the spec gives any effect. Raised by no command; safe. -/
  | unspecified
  deriving DecidableEq, Repr

/-- Why a command is refused. -/
inductive Refusal where
  /-- The command has no meaning in this model. Raised only by an arm of `exec`; safe. -/
  | notModelled (mnemonic : String)
  deriving DecidableEq, Repr


/-! ## The whole state -/

/-- The machine. `pending` is the queue of waiting commands, first in first out. `free` counts the free values used so
far (the model's own field, log entry 1). `regs` holds every unit register that differs from its reset word, by address.
`mem` holds DATA, RETAIN, CHTAB, STTAB and DDRW by address,
and the private stores of SC-A and SC-B from 0x1_0000_0000 and 0x1_0002_0000 on (R228). `bad` lists the 64-bit words, by
address divided by 8, with an uncorrectable error (R34). `ticks` counts TICK edges since start-up; `sec`, `ns`,
`frac` are the time counter (R376). `done` keeps, by the number of an action of the timeline, the TICK count plus 1 at which
the action was carried out last, so that one TICK edge carries it out once (R30, R31). `loopFree` is the instant from which
the loop engine is free (R274). `lateCfg` keeps configuration words
written, in order, while their instance waits in CONFIG for its boundary, and `lat` the register words latched by address, of
those that differ from reset (R140, R143). `safeA` and `safeB` count cycles of the SAFE clock of SC-A and SC-B (R230), `rcNs` the
nanoseconds that the independent RC oscillator of the safety engine has measured (R236). -/
structure State where
  pending : List Instr := []
  free : Nat := 0
  regs : NMap Word := []
  mem : List Host.Cell := []
  bad : List Nat := []
  ticks : Nat := 0
  sec : Nat := 0
  ns : Nat := 0
  frac : Nat := 0
  done : NMap Nat := []
  lateCfg : List (Nat × Nat) := []
  lat : NMap Word := []
  safeA : Nat := 0
  safeB : Nat := 0
  rcNs : Nat := 0
  tl : Timeline := {}
  cores : NMap Core := []
  tsk : TskSt := {}
  chn : ChnSt := {}
  mram : MramSt := {}
  recQ : List RecReq := []
  recDrop : Nat := 0
  opAt : Nat := 0
  lnk : LnkSt := {}
  stats : NMap StatAcc := []
  saf : SafSt := {}
  gens : NMap Gen := []
  axes : NMap Axis := []
  loops : NMap LoopSt := []
  loopFree : Nat := 0
  trc : TrcSt := {}
  lio : LioSt := {}
  bsn : BsnSt := {}
  time : TimeSt := {}
  pair : PairSt := {}
  statAt : NMap Nat := []
  can : CanSt := {}
  rcd : RecSt := {}
  pnl : PnlSt := {}
  pwr : PwrSt := {}
  host : HostSt := {}
  deriving DecidableEq, Repr

/-- The machine right after a module reset: every register at the Reset column of its table, memory with nothing
listed, no command waiting. -/
def State.reset : State := {}

/-- What a command answers. -/
abbrev Res := Host.Outcome State Fault Refusal

end Sys2Proof.Machine
end

