-- ==== Sys2Proof/Machine/RegTable.lean ====
section
/-!
DEFINITION. The register fields of every unit block, written from the register tables of the unit chapters
(Bits, Field, Access, Reset) at the offsets of Table MAP-8. Each field is one `Fld`; the value of a register that the
state does not list is its reset word. A dash in a Reset column is a value the spec leaves to configuration or
measurement: the value used here is named in the assumption log (entry 2).
-/

namespace Sys2Proof.Machine.R

/-- TSK.KEY.POS bits [1:0] (chapter 04). -/
def TSK_KEY_POS : Fld := ⟨.tsk, 0x40, 0, 1, 0, 2, .ro, 0xA, .const⟩
/-- TSK.KEY.RAW bits [3:2] (chapter 04). -/
def TSK_KEY_RAW : Fld := ⟨.tsk, 0x40, 0, 1, 2, 2, .ro, 0xA, .const⟩
/-- TSK.KEY.KFAULT bits [4] (chapter 04). -/
def TSK_KEY_KFAULT : Fld := ⟨.tsk, 0x40, 0, 1, 4, 1, .ro, 0xA, .const⟩
/-- TSK.KEY.WIPED bits [5] (chapter 04). -/
def TSK_KEY_WIPED : Fld := ⟨.tsk, 0x40, 0, 1, 5, 1, .ro, 0xA, .const⟩
/-- TSK.RESTART.TYPE bits [0] (chapter 04). -/
def TSK_RESTART_TYPE : Fld := ⟨.tsk, 0x44, 0, 1, 0, 1, .ro, 0x0, .const⟩
/-- TSK.RESTART.CAUSE bits [2:1] (chapter 04). -/
def TSK_RESTART_CAUSE : Fld := ⟨.tsk, 0x44, 0, 1, 1, 2, .ro, 0x0, .const⟩
/-- TSK.RESTART.SRC bits [3] (chapter 04). -/
def TSK_RESTART_SRC : Fld := ⟨.tsk, 0x44, 0, 1, 3, 1, .ro, 0x0, .const⟩
/-- TSK.RESTART.FELLBACK bits [4] (chapter 04). -/
def TSK_RESTART_FELLBACK : Fld := ⟨.tsk, 0x44, 0, 1, 4, 1, .ro, 0x0, .const⟩
/-- TSK.CMD.OP bits [3:0] (chapter 04). -/
def TSK_CMD_OP : Fld := ⟨.tsk, 0x48, 0, 1, 0, 4, .wo, 0x0, .const⟩
/-- TSK.CMD.ARG bits [5:4] (chapter 04). -/
def TSK_CMD_ARG : Fld := ⟨.tsk, 0x48, 0, 1, 4, 2, .wo, 0x0, .const⟩
/-- TSK.CMD_RES.CODE bits [15:0] (chapter 04). -/
def TSK_CMD_RES_CODE : Fld := ⟨.tsk, 0x4C, 0, 1, 0, 16, .ro, 0x300, .const⟩
/-- TSK.CMD_RES.OP bits [19:16] (chapter 04). -/
def TSK_CMD_RES_OP : Fld := ⟨.tsk, 0x4C, 0, 1, 16, 4, .ro, 0x300, .const⟩
/-- TSK.SLOT.ACTIVE bits [0] (chapter 04). -/
def TSK_SLOT_ACTIVE : Fld := ⟨.tsk, 0x50, 0, 1, 0, 1, .ro, 0x0, .const⟩
/-- TSK.SLOT.OLC bits [3:1] (chapter 04). -/
def TSK_SLOT_OLC : Fld := ⟨.tsk, 0x50, 0, 1, 1, 3, .ro, 0x0, .const⟩
/-- TSK.SLOT.POSTP bits [7:4] (chapter 04). -/
def TSK_SLOT_POSTP : Fld := ⟨.tsk, 0x50, 0, 1, 4, 4, .ro, 0x0, .const⟩
/-- TSK.GEN_A bits [31:0] (chapter 04). -/
def TSK_GEN_A_GEN : Fld := ⟨.tsk, 0x54, 0, 1, 0, 32, .ro, 0x0, .const⟩
/-- TSK.GEN_B bits [31:0] (chapter 04). -/
def TSK_GEN_B_GEN : Fld := ⟨.tsk, 0x58, 0, 1, 0, 32, .ro, 0x0, .const⟩
/-- TSK.PROF.ACT bits [1:0] (chapter 04). -/
def TSK_PROF_ACT : Fld := ⟨.tsk, 0x5C, 0, 1, 0, 2, .ro, 0x0, .const⟩
/-- TSK.PROF.SRCSEL bits [2] (chapter 04). -/
def TSK_PROF_SRCSEL : Fld := ⟨.tsk, 0x5C, 0, 1, 2, 1, .cfg, 0x0, .const⟩
/-- TSK.PROF.PINS bits [4:3] (chapter 04). -/
def TSK_PROF_PINS : Fld := ⟨.tsk, 0x5C, 0, 1, 3, 2, .ro, 0x0, .const⟩
/-- TSK.PROF.CMDVAL bits [6:5] (chapter 04). -/
def TSK_PROF_CMDVAL : Fld := ⟨.tsk, 0x5C, 0, 1, 5, 2, .ro, 0x0, .const⟩
/-- TSK.PROF.BUSY bits [7] (chapter 04). -/
def TSK_PROF_BUSY : Fld := ⟨.tsk, 0x5C, 0, 1, 7, 1, .ro, 0x0, .const⟩
/-- TSK.PROF.HELD bits [8] (chapter 04). -/
def TSK_PROF_HELD : Fld := ⟨.tsk, 0x5C, 0, 1, 8, 1, .ro, 0x0, .const⟩
/-- TSK.PERIOD_C0 bits [23:0] (chapter 04). -/
def TSK_PERIOD_C0_US : Fld := ⟨.tsk, 0x60, 0, 1, 0, 24, .cfg, 0xFA, .const⟩
/-- TSK.PERIOD_C1 bits [23:0] (chapter 04). -/
def TSK_PERIOD_C1_US : Fld := ⟨.tsk, 0x64, 0, 1, 0, 24, .cfg, 0x2710, .const⟩
/-- TSK.PERIOD_C2 bits [23:0] (chapter 04). -/
def TSK_PERIOD_C2_US : Fld := ⟨.tsk, 0x68, 0, 1, 0, 24, .cfg, 0x186A0, .const⟩
/-- TSK.PERIOD_S bits [23:0] (chapter 04). -/
def TSK_PERIOD_S_US : Fld := ⟨.tsk, 0x6C, 0, 1, 0, 24, .cfg, 0x2710, .const⟩
/-- TSK.OVR.POL_C0 bits [0] (chapter 04). -/
def TSK_OVR_POL_C0 : Fld := ⟨.tsk, 0x70, 0, 1, 0, 1, .cfg, 0x3030300, .const⟩
/-- TSK.OVR.POL_C1 bits [1] (chapter 04). -/
def TSK_OVR_POL_C1 : Fld := ⟨.tsk, 0x70, 0, 1, 1, 1, .cfg, 0x3030300, .const⟩
/-- TSK.OVR.POL_C2 bits [2] (chapter 04). -/
def TSK_OVR_POL_C2 : Fld := ⟨.tsk, 0x70, 0, 1, 2, 1, .cfg, 0x3030300, .const⟩
/-- TSK.OVR.SKIPMAX_C0 bits [15:8] (chapter 04). -/
def TSK_OVR_SKIPMAX_C0 : Fld := ⟨.tsk, 0x70, 0, 1, 8, 8, .cfg, 0x3030300, .const⟩
/-- TSK.OVR.SKIPMAX_C1 bits [23:16] (chapter 04). -/
def TSK_OVR_SKIPMAX_C1 : Fld := ⟨.tsk, 0x70, 0, 1, 16, 8, .cfg, 0x3030300, .const⟩
/-- TSK.OVR.SKIPMAX_C2 bits [31:24] (chapter 04). -/
def TSK_OVR_SKIPMAX_C2 : Fld := ⟨.tsk, 0x70, 0, 1, 24, 8, .cfg, 0x3030300, .const⟩
/-- TSK.RESTART_CFG.PWRON bits [0] (chapter 04). -/
def TSK_RESTART_CFG_PWRON : Fld := ⟨.tsk, 0x74, 0, 1, 0, 1, .cfg, 0x1, .const⟩
/-- TSK.RESTART_CFG.WARM_FAIL bits [1] (chapter 04). -/
def TSK_RESTART_CFG_WARM_FAIL : Fld := ⟨.tsk, 0x74, 0, 1, 1, 1, .cfg, 0x1, .const⟩
/-- TSK.FQ.COUNT bits [3:0] (chapter 04). -/
def TSK_FQ_COUNT : Fld := ⟨.tsk, 0x78, 0, 1, 0, 4, .ro, 0x0, .const⟩
/-- TSK.FQ.DROPPED bits [19:4] (chapter 04). -/
def TSK_FQ_DROPPED : Fld := ⟨.tsk, 0x78, 0, 1, 4, 16, .rc, 0x0, .const⟩
/-- TSK.FQ.NESTED bits [27:20] (chapter 04). -/
def TSK_FQ_NESTED : Fld := ⟨.tsk, 0x78, 0, 1, 20, 8, .rc, 0x0, .const⟩
/-- TSK.T_CFG.NSEG bits [1:0] (chapter 04). -/
def TSK_T_CFG_NSEG : Fld := ⟨.tsk, 0x100, 32, 16, 0, 2, .cfg, 0x0, .const⟩
/-- TSK.T_CFG.CORE0 bits [4:2] (chapter 04). -/
def TSK_T_CFG_CORE0 : Fld := ⟨.tsk, 0x100, 32, 16, 2, 3, .cfg, 0x0, .const⟩
/-- TSK.T_CFG.CORE1 bits [7:5] (chapter 04). -/
def TSK_T_CFG_CORE1 : Fld := ⟨.tsk, 0x100, 32, 16, 5, 3, .cfg, 0x0, .const⟩
/-- TSK.T_CFG.CORE2 bits [10:8] (chapter 04). -/
def TSK_T_CFG_CORE2 : Fld := ⟨.tsk, 0x100, 32, 16, 8, 3, .cfg, 0x0, .const⟩
/-- TSK.T_CFG.CORE3 bits [13:11] (chapter 04). -/
def TSK_T_CFG_CORE3 : Fld := ⟨.tsk, 0x100, 32, 16, 11, 3, .cfg, 0x0, .const⟩
/-- TSK.T_CFG.BAND bits [16:14] (chapter 04). -/
def TSK_T_CFG_BAND : Fld := ⟨.tsk, 0x100, 32, 16, 14, 3, .cfg, 0x0, .const⟩
/-- TSK.T_BUDGET bits [31:0] (chapter 04). -/
def TSK_T_BUDGET_NS : Fld := ⟨.tsk, 0x104, 32, 16, 0, 32, .cfg, 0, .budget⟩
/-- TSK.T_STAT.ST bits [1:0] (chapter 04). -/
def TSK_T_STAT_ST : Fld := ⟨.tsk, 0x108, 32, 16, 0, 2, .ro, 0x0, .const⟩
/-- TSK.T_STAT.QLEN bits [6:2] (chapter 04). -/
def TSK_T_STAT_QLEN : Fld := ⟨.tsk, 0x108, 32, 16, 2, 5, .ro, 0x0, .const⟩
/-- TSK.T_STAT.SKIPPING bits [7] (chapter 04). -/
def TSK_T_STAT_SKIPPING : Fld := ⟨.tsk, 0x108, 32, 16, 7, 1, .ro, 0x0, .const⟩
/-- TSK.T_STAT.SKIPRUN bits [15:8] (chapter 04). -/
def TSK_T_STAT_SKIPRUN : Fld := ⟨.tsk, 0x108, 32, 16, 8, 8, .ro, 0x0, .const⟩
/-- TSK.T_STAT.LASTCODE bits [31:16] (chapter 04). -/
def TSK_T_STAT_LASTCODE : Fld := ⟨.tsk, 0x108, 32, 16, 16, 16, .ro, 0x0, .const⟩
/-- TSK.T_RELS bits [31:0] (chapter 04). -/
def TSK_T_RELS_COUNT : Fld := ⟨.tsk, 0x10C, 32, 16, 0, 32, .ro, 0x0, .const⟩
/-- TSK.T_SKIPS.OVERRUNS bits [15:0] (chapter 04). -/
def TSK_T_SKIPS_OVERRUNS : Fld := ⟨.tsk, 0x110, 32, 16, 0, 16, .rc, 0x0, .const⟩
/-- TSK.T_SKIPS.SKIPS bits [31:16] (chapter 04). -/
def TSK_T_SKIPS_SKIPS : Fld := ⟨.tsk, 0x110, 32, 16, 16, 16, .rc, 0x0, .const⟩
/-- TSK.T_EXEC bits [31:0] (chapter 04). -/
def TSK_T_EXEC_LAST : Fld := ⟨.tsk, 0x114, 32, 16, 0, 32, .ro, 0x0, .const⟩
/-- TSK.T_EXMAX bits [31:0] (chapter 04). -/
def TSK_T_EXMAX_MAX : Fld := ⟨.tsk, 0x118, 32, 16, 0, 32, .rc, 0x0, .const⟩
/-- CHN.INV.CHAN bits [13:0] (chapter 05). -/
def CHN_INV_CHAN : Fld := ⟨.chn, 0x40, 0, 1, 0, 14, .wo, 0x0, .const⟩
/-- CHN.INV.ALL bits [31] (chapter 05). -/
def CHN_INV_ALL : Fld := ⟨.chn, 0x40, 0, 1, 31, 1, .wo, 0x0, .const⟩
/-- CHN.REFILL.PEND bits [14:0] (chapter 05). -/
def CHN_REFILL_PEND : Fld := ⟨.chn, 0x44, 0, 1, 0, 15, .ro, 0x0, .const⟩
/-- CHN.REFILL.ALLBUSY bits [31] (chapter 05). -/
def CHN_REFILL_ALLBUSY : Fld := ⟨.chn, 0x44, 0, 1, 31, 1, .ro, 0x0, .const⟩
/-- CHN.BAD_ENTRY.CHAN bits [13:0] (chapter 05). -/
def CHN_BAD_ENTRY_CHAN : Fld := ⟨.chn, 0x48, 0, 1, 0, 14, .ro, 0x0, .const⟩
/-- CHN.BAD_ENTRY.OVR bits [30] (chapter 05). -/
def CHN_BAD_ENTRY_OVR : Fld := ⟨.chn, 0x48, 0, 1, 30, 1, .ro, 0x0, .const⟩
/-- CHN.BAD_ENTRY.VALID bits [31] (chapter 05). -/
def CHN_BAD_ENTRY_VALID : Fld := ⟨.chn, 0x48, 0, 1, 31, 1, .w1c, 0x0, .const⟩
/-- CHN.REF_WR.OFS bits [19:0] (chapter 05). -/
def CHN_REF_WR_OFS : Fld := ⟨.chn, 0x4C, 0, 1, 0, 20, .ro, 0x0, .const⟩
/-- CHN.REF_WR.VALID bits [31] (chapter 05). -/
def CHN_REF_WR_VALID : Fld := ⟨.chn, 0x4C, 0, 1, 31, 1, .w1c, 0x0, .const⟩
/-- CHN.MF_SEL bits [8:0] (chapter 05). -/
def CHN_MF_SEL_ENTRY : Fld := ⟨.chn, 0x50, 0, 1, 0, 9, .rw, 0x0, .const⟩
/-- CHN.PF_SEL bits [8:0] (chapter 05). -/
def CHN_PF_SEL_ENTRY : Fld := ⟨.chn, 0x60, 0, 1, 0, 9, .rw, 0x0, .const⟩
/-- CHN.MF_CTL.CHAN bits [13:0] (chapter 05). -/
def CHN_MF_CTL_CHAN : Fld := ⟨.chn, 0x54, 0, 1, 0, 14, .rw, 0x0, .const⟩
/-- CHN.MF_CTL.KIND bits [17:16] (chapter 05). -/
def CHN_MF_CTL_KIND : Fld := ⟨.chn, 0x54, 0, 1, 16, 2, .rw, 0x0, .const⟩
/-- CHN.PF_CTL.CHAN bits [13:0] (chapter 05). -/
def CHN_PF_CTL_CHAN : Fld := ⟨.chn, 0x64, 0, 1, 0, 14, .rw, 0x0, .const⟩
/-- CHN.PF_CTL.KIND bits [17:16] (chapter 05). -/
def CHN_PF_CTL_KIND : Fld := ⟨.chn, 0x64, 0, 1, 16, 2, .rw, 0x0, .const⟩
/-- CHN.MF_VLO bits [31:0] (chapter 05). -/
def CHN_MF_VLO_VAL : Fld := ⟨.chn, 0x58, 0, 1, 0, 32, .rw, 0x0, .const⟩
/-- CHN.MF_VHI bits [31:0] (chapter 05). -/
def CHN_MF_VHI_VAL : Fld := ⟨.chn, 0x5C, 0, 1, 0, 32, .rw, 0x0, .const⟩
/-- CHN.PF_VLO bits [31:0] (chapter 05). -/
def CHN_PF_VLO_VAL : Fld := ⟨.chn, 0x68, 0, 1, 0, 32, .rw, 0x0, .const⟩
/-- CHN.PF_VHI bits [31:0] (chapter 05). -/
def CHN_PF_VHI_VAL : Fld := ⟨.chn, 0x6C, 0, 1, 0, 32, .rw, 0x0, .const⟩
/-- CHN.FCNT.FORCES bits [9:0] (chapter 05). -/
def CHN_FCNT_FORCES : Fld := ⟨.chn, 0x70, 0, 1, 0, 10, .ro, 0x0, .const⟩
/-- CHN.FCNT.SIMS bits [25:16] (chapter 05). -/
def CHN_FCNT_SIMS : Fld := ⟨.chn, 0x70, 0, 1, 16, 10, .ro, 0x0, .const⟩
/-- CHN.SIM bits [31:0] (chapter 05). -/
def CHN_SIM_SIM : Fld := ⟨.chn, 0x80, 4, 8, 0, 32, .rw, 0x0, .const⟩
/-- CHN.OWNREF.COUNT bits [15:0] (chapter 05). -/
def CHN_OWNREF_COUNT : Fld := ⟨.chn, 0xA0, 0, 1, 0, 16, .rc, 0x0, .const⟩
/-- CHN.OWNREF.CHAN bits [29:16] (chapter 05). -/
def CHN_OWNREF_CHAN : Fld := ⟨.chn, 0xA0, 0, 1, 16, 14, .ro, 0x0, .const⟩
/-- CHN.ECC bits [15:0] (chapter 05). -/
def CHN_ECC_COUNT : Fld := ⟨.chn, 0xA4, 0, 1, 0, 16, .rc, 0x0, .const⟩
/-- LNK.EPOCH_MAX bits [31:0] (chapter 06). -/
def LNK_EPOCH_MAX_EPOCH : Fld := ⟨.lnk, 0x40, 0, 1, 0, 32, .ro, 0x0, .const⟩
/-- LNK.UPMAP bits [31:0] (chapter 06). -/
def LNK_UPMAP_MAP : Fld := ⟨.lnk, 0x80, 4, 8, 0, 32, .ro, 0x0, .const⟩
/-- LNK.DOWNMAP bits [31:0] (chapter 06). -/
def LNK_DOWNMAP_MAP : Fld := ⟨.lnk, 0xA0, 4, 8, 0, 32, .ro, 0x0, .const⟩
/-- LNK.P_CFG.NF bits [1:0] (chapter 06). -/
def LNK_P_CFG_NF : Fld := ⟨.lnkPort, 0x40, 0, 1, 0, 2, .cfg, 0x641404, .const⟩
/-- LNK.P_CFG.AUTO_REINIT bits [2] (chapter 06). -/
def LNK_P_CFG_AUTO_REINIT : Fld := ⟨.lnkPort, 0x40, 0, 1, 2, 1, .cfg, 0x641404, .const⟩
/-- LNK.P_CFG.T_INIT bits [15:8] (chapter 06). -/
def LNK_P_CFG_T_INIT : Fld := ⟨.lnkPort, 0x40, 0, 1, 8, 8, .cfg, 0x641404, .const⟩
/-- LNK.P_CFG.T_ACYC bits [31:16] (chapter 06). -/
def LNK_P_CFG_T_ACYC : Fld := ⟨.lnkPort, 0x40, 0, 1, 16, 16, .cfg, 0x641404, .const⟩
/-- LNK.P_STA.T_PIN_MAX bits [7:0] (chapter 06). -/
def LNK_P_STA_T_PIN_MAX : Fld := ⟨.lnkPort, 0x44, 0, 1, 0, 8, .cfg, 0x8081414, .const⟩
/-- LNK.P_STA.T_POUT_MAX bits [15:8] (chapter 06). -/
def LNK_P_STA_T_POUT_MAX : Fld := ⟨.lnkPort, 0x44, 0, 1, 8, 8, .cfg, 0x8081414, .const⟩
/-- LNK.P_STA.T_PINF_MAX bits [23:16] (chapter 06). -/
def LNK_P_STA_T_PINF_MAX : Fld := ⟨.lnkPort, 0x44, 0, 1, 16, 8, .cfg, 0x8081414, .const⟩
/-- LNK.P_STA.T_POUTF_MAX bits [31:24] (chapter 06). -/
def LNK_P_STA_T_POUTF_MAX : Fld := ⟨.lnkPort, 0x44, 0, 1, 24, 8, .cfg, 0x8081414, .const⟩
/-- LNK.P_LINE.HOP_NS bits [11:0] (chapter 06). -/
def LNK_P_LINE_HOP_NS : Fld := ⟨.lnkPort, 0x48, 0, 1, 0, 12, .cfg, 0x7D001F4, .const⟩
/-- LNK.P_LINE.T_RES_MAX bits [27:16] (chapter 06). -/
def LNK_P_LINE_T_RES_MAX : Fld := ⟨.lnkPort, 0x48, 0, 1, 16, 12, .cfg, 0x7D001F4, .const⟩
/-- LNK.P_LINK.UP bits [0] (chapter 06). -/
def LNK_P_LINK_UP : Fld := ⟨.lnkPort, 0x4C, 0, 1, 0, 1, .ro, 0x0, .const⟩
/-- LNK.P_LINK.PHYF bits [1] (chapter 06). -/
def LNK_P_LINK_PHYF : Fld := ⟨.lnkPort, 0x4C, 0, 1, 1, 1, .ro, 0x0, .const⟩
/-- LNK.P_LINK.DOWNS bits [31:16] (chapter 06). -/
def LNK_P_LINK_DOWNS : Fld := ⟨.lnkPort, 0x4C, 0, 1, 16, 16, .rc, 0x0, .const⟩
/-- LNK.P_BUDGET.W_OUT bits [15:0] (chapter 06). -/
def LNK_P_BUDGET_W_OUT : Fld := ⟨.lnkPort, 0x50, 0, 1, 0, 16, .ro, 0x0, .const⟩
/-- LNK.P_BUDGET.W_IN bits [31:16] (chapter 06). -/
def LNK_P_BUDGET_W_IN : Fld := ⟨.lnkPort, 0x50, 0, 1, 16, 16, .ro, 0x0, .const⟩
/-- LNK.P_TXFER.T_IN bits [15:0] (chapter 06). -/
def LNK_P_TXFER_T_IN : Fld := ⟨.lnkPort, 0x54, 0, 1, 0, 16, .ro, 0x0, .const⟩
/-- LNK.P_TXFER.T_OUT bits [31:16] (chapter 06). -/
def LNK_P_TXFER_T_OUT : Fld := ⟨.lnkPort, 0x54, 0, 1, 16, 16, .ro, 0x0, .const⟩
/-- LNK.P_ACAP.A_UP bits [15:0] (chapter 06). -/
def LNK_P_ACAP_A_UP : Fld := ⟨.lnkPort, 0x58, 0, 1, 0, 16, .ro, 0x0, .const⟩
/-- LNK.P_ACAP.A_DN bits [31:16] (chapter 06). -/
def LNK_P_ACAP_A_DN : Fld := ⟨.lnkPort, 0x58, 0, 1, 16, 16, .ro, 0x0, .const⟩
/-- LNK.P_AWIN.AWIN bits [15:0] (chapter 06). -/
def LNK_P_AWIN_AWIN : Fld := ⟨.lnkPort, 0x5C, 0, 1, 0, 16, .ro, 0x0, .const⟩
/-- LNK.P_AWIN.LEN bits [31:16] (chapter 06). -/
def LNK_P_AWIN_LEN : Fld := ⟨.lnkPort, 0x5C, 0, 1, 16, 16, .ro, 0x0, .const⟩
/-- LNK.P_AQ.ENTRIES bits [6:0] (chapter 06). -/
def LNK_P_AQ_ENTRIES : Fld := ⟨.lnkPort, 0x60, 0, 1, 0, 7, .ro, 0x0, .const⟩
/-- LNK.P_AQ.BYTES bits [22:7] (chapter 06). -/
def LNK_P_AQ_BYTES : Fld := ⟨.lnkPort, 0x60, 0, 1, 7, 16, .ro, 0x0, .const⟩
/-- LNK.P_SPILL.C0 bits [7:0] (chapter 06). -/
def LNK_P_SPILL_C0 : Fld := ⟨.lnkPort, 0x64, 0, 1, 0, 8, .rc, 0x0, .const⟩
/-- LNK.P_SPILL.C1 bits [15:8] (chapter 06). -/
def LNK_P_SPILL_C1 : Fld := ⟨.lnkPort, 0x64, 0, 1, 8, 8, .rc, 0x0, .const⟩
/-- LNK.P_SPILL.C2 bits [23:16] (chapter 06). -/
def LNK_P_SPILL_C2 : Fld := ⟨.lnkPort, 0x64, 0, 1, 16, 8, .rc, 0x0, .const⟩
/-- LNK.P_SPILL.C3 bits [31:24] (chapter 06). -/
def LNK_P_SPILL_C3 : Fld := ⟨.lnkPort, 0x64, 0, 1, 24, 8, .rc, 0x0, .const⟩
/-- LNK.P_CNT.LATE_FRM bits [10:0] (chapter 06). -/
def LNK_P_CNT_LATE_FRM : Fld := ⟨.lnkPort, 0x68, 0, 1, 0, 11, .rc, 0x0, .const⟩
/-- LNK.P_CNT.OVERSEND bits [21:11] (chapter 06). -/
def LNK_P_CNT_OVERSEND : Fld := ⟨.lnkPort, 0x68, 0, 1, 11, 11, .rc, 0x0, .const⟩
/-- LNK.P_CNT.BADFRM bits [31:22] (chapter 06). -/
def LNK_P_CNT_BADFRM : Fld := ⟨.lnkPort, 0x68, 0, 1, 22, 10, .rc, 0x0, .const⟩
/-- LNK.P_EPOCH bits [31:0] (chapter 06). -/
def LNK_P_EPOCH_EPOCH : Fld := ⟨.lnkPort, 0x6C, 0, 1, 0, 32, .ro, 0x0, .const⟩
/-- LNK.P_OUTLIER bits [15:0] (chapter 06). -/
def LNK_P_OUTLIER_COUNT : Fld := ⟨.lnkPort, 0x70, 0, 1, 0, 16, .rc, 0x0, .const⟩
/-- LNK.P_MAC_LO bits [31:0] (chapter 06). -/
def LNK_P_MAC_LO_MAC : Fld := ⟨.lnkPort, 0x74, 0, 1, 0, 32, .ro, 0x0, .const⟩
/-- LNK.P_MAC_HI bits [15:0] (chapter 06). -/
def LNK_P_MAC_HI_MAC : Fld := ⟨.lnkPort, 0x78, 0, 1, 0, 16, .ro, 0x0, .const⟩
/-- LIO.DI_STATE bits [31:0] (chapter 07). -/
def LIO_DI_STATE_STATE : Fld := ⟨.lio, 0x40, 0, 1, 0, 32, .ro, 0x0, .const⟩
/-- LIO.DI_WB bits [31:0] (chapter 07). -/
def LIO_DI_WB_WB : Fld := ⟨.lio, 0x44, 0, 1, 0, 32, .ro, 0x0, .const⟩
/-- LIO.DI_XC bits [31:0] (chapter 07). -/
def LIO_DI_XC_XC : Fld := ⟨.lio, 0x48, 0, 1, 0, 32, .w1c, 0x0, .const⟩
/-- LIO.DO_STATE.PIN bits [15:0] (chapter 07). -/
def LIO_DO_STATE_PIN : Fld := ⟨.lio, 0x4C, 0, 1, 0, 16, .ro, 0x0, .const⟩
/-- LIO.DO_STATE.RB bits [31:16] (chapter 07). -/
def LIO_DO_STATE_RB : Fld := ⟨.lio, 0x4C, 0, 1, 16, 16, .ro, 0x0, .const⟩
/-- LIO.DO_DIAG0 bits [31:0] (chapter 07). -/
def LIO_DO_DIAG0_DIAG : Fld := ⟨.lio, 0x50, 0, 1, 0, 32, .w1c, 0x0, .const⟩
/-- LIO.DO_DIAG1 bits [31:0] (chapter 07). -/
def LIO_DO_DIAG1_DIAG : Fld := ⟨.lio, 0x54, 0, 1, 0, 32, .w1c, 0x0, .const⟩
/-- LIO.WD_STAT.DO bits [15:0] (chapter 07). -/
def LIO_WD_STAT_DO : Fld := ⟨.lio, 0x58, 0, 1, 0, 16, .ro, 0x0, .const⟩
/-- LIO.WD_STAT.AO bits [19:16] (chapter 07). -/
def LIO_WD_STAT_AO : Fld := ⟨.lio, 0x58, 0, 1, 16, 4, .ro, 0x0, .const⟩
/-- LIO.VS_STAT.ON bits [3:0] (chapter 07). -/
def LIO_VS_STAT_ON : Fld := ⟨.lio, 0x5C, 0, 1, 0, 4, .ro, 0x0, .const⟩
/-- LIO.VS_STAT.FAULT bits [7:4] (chapter 07). -/
def LIO_VS_STAT_FAULT : Fld := ⟨.lio, 0x5C, 0, 1, 4, 4, .w1c, 0x0, .const⟩
/-- LIO.ROT_CFG.STEP bits [7:0] (chapter 07). -/
def LIO_ROT_CFG_STEP : Fld := ⟨.lio, 0x60, 0, 1, 0, 8, .cfg, 0x200A, .const⟩
/-- LIO.ROT_CFG.N_OV bits [15:8] (chapter 07). -/
def LIO_ROT_CFG_N_OV : Fld := ⟨.lio, 0x60, 0, 1, 8, 8, .cfg, 0x200A, .const⟩
/-- LIO.ROT_TOL.TOL_HO bits [15:0] (chapter 07). -/
def LIO_ROT_TOL_TOL_HO : Fld := ⟨.lio, 0x64, 0, 1, 0, 16, .cfg, 0x3D710625, .const⟩
/-- LIO.ROT_TOL.TOL_MAX bits [31:16] (chapter 07). -/
def LIO_ROT_TOL_TOL_MAX : Fld := ⟨.lio, 0x64, 0, 1, 16, 16, .cfg, 0x3D710625, .const⟩
/-- LIO.ROT_STAT.SPARE bits [4:0] (chapter 07). -/
def LIO_ROT_STAT_SPARE : Fld := ⟨.lio, 0x68, 0, 1, 0, 5, .ro, 0x3F0, .const⟩
/-- LIO.ROT_STAT.CHAN bits [9:5] (chapter 07). -/
def LIO_ROT_STAT_CHAN : Fld := ⟨.lio, 0x68, 0, 1, 5, 5, .ro, 0x3F0, .const⟩
/-- LIO.ROT_STAT.PHASE bits [11:10] (chapter 07). -/
def LIO_ROT_STAT_PHASE : Fld := ⟨.lio, 0x68, 0, 1, 10, 2, .ro, 0x3F0, .const⟩
/-- LIO.ROT_STAT.RETIRED bits [16:12] (chapter 07). -/
def LIO_ROT_STAT_RETIRED : Fld := ⟨.lio, 0x68, 0, 1, 12, 5, .ro, 0x3F0, .const⟩
/-- LIO.CONV_RET bits [16:0] (chapter 07). -/
def LIO_CONV_RET_RET : Fld := ⟨.lio, 0x6C, 0, 1, 0, 17, .ro, 0x0, .const⟩
/-- LIO.AO_STAT bits [15:0] (chapter 07). -/
def LIO_AO_STAT_DIAG : Fld := ⟨.lio, 0x70, 0, 1, 0, 16, .w1c, 0x0, .const⟩
/-- LIO.TIO_CFG.DO_TP bits [3:0] (chapter 07). -/
def LIO_TIO_CFG_DO_TP : Fld := ⟨.lio, 0x74, 0, 1, 0, 4, .ro, 0x0, .const⟩
/-- LIO.TIO_CFG.TC_MODE bits [11:8] (chapter 07). -/
def LIO_TIO_CFG_TC_MODE : Fld := ⟨.lio, 0x74, 0, 1, 8, 4, .cfg, 0x0, .const⟩
/-- LIO.DI_CFG.FILT bits [7:0] (chapter 07). -/
def LIO_DI_CFG_FILT : Fld := ⟨.lio, 0x100, 4, 32, 0, 8, .cfg, 0x30, .const⟩
/-- LIO.DI_CFG.VS bits [10:8] (chapter 07). -/
def LIO_DI_CFG_VS : Fld := ⟨.lio, 0x100, 4, 32, 8, 3, .cfg, 0x30, .const⟩
/-- LIO.DI_CFG.WB_EN bits [11] (chapter 07). -/
def LIO_DI_CFG_WB_EN : Fld := ⟨.lio, 0x100, 4, 32, 11, 1, .cfg, 0x30, .const⟩
/-- LIO.VS_CFG.EN bits [0] (chapter 07). -/
def LIO_VS_CFG_EN : Fld := ⟨.lio, 0x180, 4, 4, 0, 1, .cfg, 0x14B3, .const⟩
/-- LIO.VS_CFG.TP_EN bits [1] (chapter 07). -/
def LIO_VS_CFG_TP_EN : Fld := ⟨.lio, 0x180, 4, 4, 1, 1, .cfg, 0x14B3, .const⟩
/-- LIO.VS_CFG.TPW bits [10:2] (chapter 07). -/
def LIO_VS_CFG_TPW : Fld := ⟨.lio, 0x180, 4, 4, 2, 9, .cfg, 0x14B3, .const⟩
/-- LIO.VS_CFG.TPI bits [14:11] (chapter 07). -/
def LIO_VS_CFG_TPI : Fld := ⟨.lio, 0x180, 4, 4, 11, 4, .cfg, 0x14B3, .const⟩
/-- LIO.DO_CFG.TP_EN bits [0] (chapter 07). -/
def LIO_DO_CFG_TP_EN : Fld := ⟨.lio, 0x200, 4, 16, 0, 1, .cfg, 0x19850A59, .const⟩
/-- LIO.DO_CFG.TPW bits [9:1] (chapter 07). -/
def LIO_DO_CFG_TPW : Fld := ⟨.lio, 0x200, 4, 16, 1, 9, .cfg, 0x19850A59, .const⟩
/-- LIO.DO_CFG.TPI bits [13:10] (chapter 07). -/
def LIO_DO_CFG_TPI : Fld := ⟨.lio, 0x200, 4, 16, 10, 4, .cfg, 0x19850A59, .const⟩
/-- LIO.DO_CFG.SAFE bits [14] (chapter 07). -/
def LIO_DO_CFG_SAFE : Fld := ⟨.lio, 0x200, 4, 16, 14, 1, .cfg, 0x19850A59, .const⟩
/-- LIO.DO_CFG.WD_TMO bits [21:15] (chapter 07). -/
def LIO_DO_CFG_WD_TMO : Fld := ⟨.lio, 0x200, 4, 16, 15, 7, .cfg, 0x19850A59, .const⟩
/-- LIO.DO_CFG.RETRY bits [22] (chapter 07). -/
def LIO_DO_CFG_RETRY : Fld := ⟨.lio, 0x200, 4, 16, 22, 1, .cfg, 0x19850A59, .const⟩
/-- LIO.DO_CFG.OL_EN bits [23] (chapter 07). -/
def LIO_DO_CFG_OL_EN : Fld := ⟨.lio, 0x200, 4, 16, 23, 1, .cfg, 0x19850A59, .const⟩
/-- LIO.DO_CFG.TFALL bits [30:24] (chapter 07). -/
def LIO_DO_CFG_TFALL : Fld := ⟨.lio, 0x200, 4, 16, 24, 7, .cfg, 0x19850A59, .const⟩
/-- LIO.AI_CFG.RANGE bits [1:0] (chapter 07). -/
def LIO_AI_CFG_RANGE : Fld := ⟨.lio, 0x280, 4, 16, 0, 2, .cfg, 0x10, .const⟩
/-- LIO.AI_CFG.RATE bits [5:2] (chapter 07). -/
def LIO_AI_CFG_RATE : Fld := ⟨.lio, 0x280, 4, 16, 2, 4, .cfg, 0x10, .const⟩
/-- LIO.AI_CFG.WB_EN bits [6] (chapter 07). -/
def LIO_AI_CFG_WB_EN : Fld := ⟨.lio, 0x280, 4, 16, 6, 1, .cfg, 0x10, .const⟩
/-- LIO.AI_STAT.CONV bits [4:0] (chapter 07). -/
def LIO_AI_STAT_CONV : Fld := ⟨.lio, 0x2C0, 4, 16, 0, 5, .ro, 0x0, .index⟩
/-- LIO.AI_STAT.DELTA bits [20:5] (chapter 07). -/
def LIO_AI_STAT_DELTA : Fld := ⟨.lio, 0x2C0, 4, 16, 5, 16, .ro, 0x0, .index⟩
/-- LIO.AI_STAT.DRIFT bits [21] (chapter 07). -/
def LIO_AI_STAT_DRIFT : Fld := ⟨.lio, 0x2C0, 4, 16, 21, 1, .w1c, 0x0, .index⟩
/-- LIO.AI_STAT.WB bits [22] (chapter 07). -/
def LIO_AI_STAT_WB : Fld := ⟨.lio, 0x2C0, 4, 16, 22, 1, .ro, 0x0, .index⟩
/-- LIO.AI_STAT.OVL bits [23] (chapter 07). -/
def LIO_AI_STAT_OVL : Fld := ⟨.lio, 0x2C0, 4, 16, 23, 1, .w1c, 0x0, .index⟩
/-- LIO.AI_STAT.CAL_AGE bits [31:24] (chapter 07). -/
def LIO_AI_STAT_CAL_AGE : Fld := ⟨.lio, 0x2C0, 4, 16, 24, 8, .ro, 0x0, .index⟩
/-- LIO.AO_CFG.MODE bits [0] (chapter 07). -/
def LIO_AO_CFG_MODE : Fld := ⟨.lio, 0x300, 4, 4, 0, 1, .cfg, 0x28, .const⟩
/-- LIO.AO_CFG.SAFE bits [1] (chapter 07). -/
def LIO_AO_CFG_SAFE : Fld := ⟨.lio, 0x300, 4, 4, 1, 1, .cfg, 0x28, .const⟩
/-- LIO.AO_CFG.WD_TMO bits [8:2] (chapter 07). -/
def LIO_AO_CFG_WD_TMO : Fld := ⟨.lio, 0x300, 4, 4, 2, 7, .cfg, 0x28, .const⟩
/-- SAF.SIMG_ID bits [31:0] (chapter 08). -/
def SAF_SIMG_ID_ID : Fld := ⟨.saf, 0x40, 0, 1, 0, 32, .ro, 0x0, .const⟩
/-- SAF.ENG.ACTIVE bits [0] (chapter 08). -/
def SAF_ENG_ACTIVE : Fld := ⟨.saf, 0x44, 0, 1, 0, 1, .ro, 0x0, .const⟩
/-- SAF.ENG.OUTPATH bits [1] (chapter 08). -/
def SAF_ENG_OUTPATH : Fld := ⟨.saf, 0x44, 0, 1, 1, 1, .ro, 0x0, .const⟩
/-- SAF.ENG.EN_A bits [2] (chapter 08). -/
def SAF_ENG_EN_A : Fld := ⟨.saf, 0x44, 0, 1, 2, 1, .ro, 0x0, .const⟩
/-- SAF.ENG.EN_B bits [3] (chapter 08). -/
def SAF_ENG_EN_B : Fld := ⟨.saf, 0x44, 0, 1, 3, 1, .ro, 0x0, .const⟩
/-- SAF.TRIP bits [15:0] (chapter 08). -/
def SAF_TRIP_CODE : Fld := ⟨.saf, 0x48, 0, 1, 0, 16, .ro, 0x800, .const⟩
/-- SAF.TRIP_INFO bits [31:0] (chapter 08). -/
def SAF_TRIP_INFO_INFO : Fld := ⟨.saf, 0x4C, 0, 1, 0, 32, .ro, 0x0, .const⟩
/-- SAF.CYC bits [31:0] (chapter 08). -/
def SAF_CYC_COUNT : Fld := ⟨.saf, 0x50, 0, 1, 0, 32, .ro, 0x0, .const⟩
/-- SAF.EXEC_A bits [31:0] (chapter 08). -/
def SAF_EXEC_A_NS : Fld := ⟨.saf, 0x54, 0, 1, 0, 32, .ro, 0x0, .const⟩
/-- SAF.EXEC_B bits [31:0] (chapter 08). -/
def SAF_EXEC_B_NS : Fld := ⟨.saf, 0x58, 0, 1, 0, 32, .ro, 0x0, .const⟩
/-- SAF.EXMAX bits [31:0] (chapter 08). -/
def SAF_EXMAX_MAX : Fld := ⟨.saf, 0x5C, 0, 1, 0, 32, .rc, 0x0, .const⟩
/-- SAF.WELL bits [15:0] (chapter 08). -/
def SAF_WELL_DEV : Fld := ⟨.saf, 0x60, 0, 1, 0, 16, .ro, 0x0, .const⟩
/-- SAF.GSTATE bits [31:0] (chapter 08). -/
def SAF_GSTATE_TG : Fld := ⟨.saf, 0x64, 0, 1, 0, 32, .ro, 0xFFFFFFFF, .const⟩
/-- SAF.GPHASE.SS1 bits [15:0] (chapter 08). -/
def SAF_GPHASE_SS1 : Fld := ⟨.saf, 0x68, 0, 1, 0, 16, .ro, 0x0, .const⟩
/-- SAF.GPHASE.STO bits [31:16] (chapter 08). -/
def SAF_GPHASE_STO : Fld := ⟨.saf, 0x68, 0, 1, 16, 16, .ro, 0x0, .const⟩
/-- SAF.RST.STUCK bits [15:0] (chapter 08). -/
def SAF_RST_STUCK : Fld := ⟨.saf, 0x6C, 0, 1, 0, 16, .ro, 0x0, .const⟩
/-- SAF.RST.ACC bits [23:16] (chapter 08). -/
def SAF_RST_ACC : Fld := ⟨.saf, 0x6C, 0, 1, 16, 8, .rc, 0x0, .const⟩
/-- SAF.RST.REF bits [31:24] (chapter 08). -/
def SAF_RST_REF : Fld := ⟨.saf, 0x6C, 0, 1, 24, 8, .rc, 0x0, .const⟩
/-- SAF.PASS bits [31:0] (chapter 08). -/
def SAF_PASS_PASS : Fld := ⟨.saf, 0x80, 4, 8, 0, 32, .ro, 0x0, .const⟩
/-- SAF.BC_ERR.CRC bits [7:0] (chapter 08). -/
def SAF_BC_ERR_CRC : Fld := ⟨.saf, 0xA0, 0, 1, 0, 8, .rc, 0x0, .const⟩
/-- SAF.BC_ERR.ADDR bits [15:8] (chapter 08). -/
def SAF_BC_ERR_ADDR : Fld := ⟨.saf, 0xA0, 0, 1, 8, 8, .rc, 0x0, .const⟩
/-- SAF.BC_ERR.SEQ bits [23:16] (chapter 08). -/
def SAF_BC_ERR_SEQ : Fld := ⟨.saf, 0xA0, 0, 1, 16, 8, .rc, 0x0, .const⟩
/-- SAF.BC_ERR.MISSING bits [31:24] (chapter 08). -/
def SAF_BC_ERR_MISSING : Fld := ⟨.saf, 0xA0, 0, 1, 24, 8, .rc, 0x0, .const⟩
/-- SAF.GCAUSE.CAUSES bits [8:0] (chapter 08). -/
def SAF_GCAUSE_CAUSES : Fld := ⟨.saf, 0x100, 16, 16, 0, 9, .ro, 0x0, .const⟩
/-- SAF.GCAUSE.FIRST bits [19:16] (chapter 08). -/
def SAF_GCAUSE_FIRST : Fld := ⟨.saf, 0x100, 16, 16, 16, 4, .ro, 0x0, .const⟩
/-- SAF.GINFO bits [15:0] (chapter 08). -/
def SAF_GINFO_INST : Fld := ⟨.saf, 0x104, 16, 16, 0, 16, .ro, 0x0, .const⟩
/-- SAF.GSTAMP_LO bits [31:0] (chapter 08). -/
def SAF_GSTAMP_LO_STAMP : Fld := ⟨.saf, 0x108, 16, 16, 0, 32, .ro, 0x0, .const⟩
/-- SAF.GSTAMP_HI bits [31:0] (chapter 08). -/
def SAF_GSTAMP_HI_STAMP : Fld := ⟨.saf, 0x10C, 16, 16, 0, 32, .ro, 0x0, .const⟩
/-- LOOP.LOAD bits [20:0] (chapter 09). -/
def LOOP_LOAD_RATE : Fld := ⟨.loop, 0x40, 0, 1, 0, 21, .ro, 0x0, .const⟩
/-- LOOP.LATMAX bits [31:0] (chapter 09). -/
def LOOP_LATMAX_NS : Fld := ⟨.loop, 0x44, 0, 1, 0, 32, .rc, 0x0, .const⟩
/-- LOOP.TBLUSE_LO bits [31:0] (chapter 09). -/
def LOOP_TBLUSE_LO_BUSY : Fld := ⟨.loop, 0x48, 0, 1, 0, 32, .ro, 0x0, .const⟩
/-- LOOP.TBLUSE_HI bits [31:0] (chapter 09). -/
def LOOP_TBLUSE_HI_BUSY : Fld := ⟨.loop, 0x4C, 0, 1, 0, 32, .ro, 0x0, .const⟩
/-- LOOP.INJ bits [3:0] (chapter 09). -/
def LOOP_INJ_COUNT : Fld := ⟨.loop, 0x50, 0, 1, 0, 4, .ro, 0x0, .const⟩
/-- LOOP.FLTMAP bits [31:0] (chapter 09). -/
def LOOP_FLTMAP_MAP : Fld := ⟨.loop, 0x80, 4, 8, 0, 32, .ro, 0x0, .const⟩
/-- LOOP.L_CFG.TL bits [7:0] (chapter 09). -/
def LOOP_L_CFG_TL : Fld := ⟨.loopCtx, 0x40, 0, 1, 0, 8, .cfg, 0xA0, .const⟩
/-- LOOP.L_CFG.START_MODE bits [10:8] (chapter 09). -/
def LOOP_L_CFG_START_MODE : Fld := ⟨.loopCtx, 0x40, 0, 1, 8, 3, .cfg, 0xA0, .const⟩
/-- LOOP.L_CFG.START_LAW bits [12:11] (chapter 09). -/
def LOOP_L_CFG_START_LAW : Fld := ⟨.loopCtx, 0x40, 0, 1, 11, 2, .cfg, 0xA0, .const⟩
/-- LOOP.L_CFG.SAFETY bits [13] (chapter 09). -/
def LOOP_L_CFG_SAFETY : Fld := ⟨.loopCtx, 0x40, 0, 1, 13, 1, .cfg, 0xA0, .const⟩
/-- LOOP.L_CFG.GROUP bits [17:14] (chapter 09). -/
def LOOP_L_CFG_GROUP : Fld := ⟨.loopCtx, 0x40, 0, 1, 14, 4, .cfg, 0xA0, .const⟩
/-- LOOP.L_OUT bits [13:0] (chapter 09). -/
def LOOP_L_OUT_CHAN : Fld := ⟨.loopCtx, 0x44, 0, 1, 0, 14, .cfg, 0x0, .const⟩
/-- LOOP.L_POS.CHAN bits [13:0] (chapter 09). -/
def LOOP_L_POS_CHAN : Fld := ⟨.loopCtx, 0x48, 0, 1, 0, 14, .cfg, 0x0, .const⟩
/-- LOOP.L_POS.FAST bits [14] (chapter 09). -/
def LOOP_L_POS_FAST : Fld := ⟨.loopCtx, 0x48, 0, 1, 14, 1, .cfg, 0x0, .const⟩
/-- LOOP.L_POS.EN bits [15] (chapter 09). -/
def LOOP_L_POS_EN : Fld := ⟨.loopCtx, 0x48, 0, 1, 15, 1, .cfg, 0x0, .const⟩
/-- LOOP.L_TRK.CHAN bits [13:0] (chapter 09). -/
def LOOP_L_TRK_CHAN : Fld := ⟨.loopCtx, 0x4C, 0, 1, 0, 14, .cfg, 0x0, .const⟩
/-- LOOP.L_TRK.EN bits [15] (chapter 09). -/
def LOOP_L_TRK_EN : Fld := ⟨.loopCtx, 0x4C, 0, 1, 15, 1, .cfg, 0x0, .const⟩
/-- LOOP.L_LAW.FB_CHAN bits [13:0] (chapter 09). -/
def LOOP_L_LAW_FB_CHAN : Fld := ⟨.loopCtx, 0x50, 4, 4, 0, 14, .cfg, 0x0, .const⟩
/-- LOOP.L_LAW.FB_FAST bits [14] (chapter 09). -/
def LOOP_L_LAW_FB_FAST : Fld := ⟨.loopCtx, 0x50, 4, 4, 14, 1, .cfg, 0x0, .const⟩
/-- LOOP.L_LAW.DEF bits [15] (chapter 09). -/
def LOOP_L_LAW_DEF : Fld := ⟨.loopCtx, 0x50, 4, 4, 15, 1, .cfg, 0x0, .const⟩
/-- LOOP.L_LAW.SP_SRC bits [17:16] (chapter 09). -/
def LOOP_L_LAW_SP_SRC : Fld := ⟨.loopCtx, 0x50, 4, 4, 16, 2, .cfg, 0x0, .const⟩
/-- LOOP.L_LAW.PG bits [24:18] (chapter 09). -/
def LOOP_L_LAW_PG : Fld := ⟨.loopCtx, 0x50, 4, 4, 18, 7, .cfg, 0x0, .const⟩
/-- LOOP.L_FACT.FACT bits [1:0] (chapter 09). -/
def LOOP_L_FACT_FACT : Fld := ⟨.loopCtx, 0x60, 0, 1, 0, 2, .cfg, 0x104, .const⟩
/-- LOOP.L_FACT.FE_ACT bits [2] (chapter 09). -/
def LOOP_L_FACT_FE_ACT : Fld := ⟨.loopCtx, 0x60, 0, 1, 2, 1, .cfg, 0x104, .const⟩
/-- LOOP.L_FACT.MAX_AGE bits [15:8] (chapter 09). -/
def LOOP_L_FACT_MAX_AGE : Fld := ⟨.loopCtx, 0x60, 0, 1, 8, 8, .cfg, 0x104, .const⟩
/-- LOOP.L_SAFEOUT bits [31:0] (chapter 09). -/
def LOOP_L_SAFEOUT_VAL : Fld := ⟨.loopCtx, 0x64, 0, 1, 0, 32, .cfg, 0x0, .const⟩
/-- LOOP.L_RAMP bits [31:0] (chapter 09). -/
def LOOP_L_RAMP_VAL : Fld := ⟨.loopCtx, 0x68, 0, 1, 0, 32, .cfg, 0x0, .const⟩
/-- LOOP.L_FE_LIM bits [31:0] (chapter 09). -/
def LOOP_L_FE_LIM_VAL : Fld := ⟨.loopCtx, 0x6C, 0, 1, 0, 32, .cfg, 0x0, .const⟩
/-- LOOP.L_FRZ_BAND bits [31:0] (chapter 09). -/
def LOOP_L_FRZ_BAND_VAL : Fld := ⟨.loopCtx, 0x74, 0, 1, 0, 32, .cfg, 0x0, .const⟩
/-- LOOP.L_FRZ_DRIVE bits [31:0] (chapter 09). -/
def LOOP_L_FRZ_DRIVE_VAL : Fld := ⟨.loopCtx, 0x7C, 0, 1, 0, 32, .cfg, 0x0, .const⟩
/-- LOOP.L_FE_TIME bits [31:0] (chapter 09). -/
def LOOP_L_FE_TIME_US : Fld := ⟨.loopCtx, 0x70, 0, 1, 0, 32, .cfg, 0x0, .const⟩
/-- LOOP.L_FRZ_TIME bits [31:0] (chapter 09). -/
def LOOP_L_FRZ_TIME_US : Fld := ⟨.loopCtx, 0x78, 0, 1, 0, 32, .cfg, 0x0, .const⟩
/-- LOOP.L_STAT.MODE bits [2:0] (chapter 09). -/
def LOOP_L_STAT_MODE : Fld := ⟨.loopCtx, 0x80, 0, 1, 0, 3, .ro, 0x0, .const⟩
/-- LOOP.L_STAT.LAW bits [4:3] (chapter 09). -/
def LOOP_L_STAT_LAW : Fld := ⟨.loopCtx, 0x80, 0, 1, 3, 2, .ro, 0x0, .const⟩
/-- LOOP.L_STAT.ACTBANK bits [5] (chapter 09). -/
def LOOP_L_STAT_ACTBANK : Fld := ⟨.loopCtx, 0x80, 0, 1, 5, 1, .ro, 0x0, .const⟩
/-- LOOP.L_STAT.HANDOVER bits [6] (chapter 09). -/
def LOOP_L_STAT_HANDOVER : Fld := ⟨.loopCtx, 0x80, 0, 1, 6, 1, .ro, 0x0, .const⟩
/-- LOOP.L_STAT.SAT_HI bits [7] (chapter 09). -/
def LOOP_L_STAT_SAT_HI : Fld := ⟨.loopCtx, 0x80, 0, 1, 7, 1, .ro, 0x0, .const⟩
/-- LOOP.L_STAT.SAT_LO bits [8] (chapter 09). -/
def LOOP_L_STAT_SAT_LO : Fld := ⟨.loopCtx, 0x80, 0, 1, 8, 1, .ro, 0x0, .const⟩
/-- LOOP.L_STAT.SLEWING bits [9] (chapter 09). -/
def LOOP_L_STAT_SLEWING : Fld := ⟨.loopCtx, 0x80, 0, 1, 9, 1, .ro, 0x0, .const⟩
/-- LOOP.L_STAT.INT_HELD bits [10] (chapter 09). -/
def LOOP_L_STAT_INT_HELD : Fld := ⟨.loopCtx, 0x80, 0, 1, 10, 1, .ro, 0x0, .const⟩
/-- LOOP.L_STAT.FE_WARN bits [11] (chapter 09). -/
def LOOP_L_STAT_FE_WARN : Fld := ⟨.loopCtx, 0x80, 0, 1, 11, 1, .ro, 0x0, .const⟩
/-- LOOP.L_STAT.FCAUSE bits [13:12] (chapter 09). -/
def LOOP_L_STAT_FCAUSE : Fld := ⟨.loopCtx, 0x80, 0, 1, 12, 2, .ro, 0x0, .const⟩
/-- LOOP.L_STAT.RST_PEND bits [14] (chapter 09). -/
def LOOP_L_STAT_RST_PEND : Fld := ⟨.loopCtx, 0x80, 0, 1, 14, 1, .ro, 0x0, .const⟩
/-- LOOP.L_STAT.SRC_FAULT bits [15] (chapter 09). -/
def LOOP_L_STAT_SRC_FAULT : Fld := ⟨.loopCtx, 0x80, 0, 1, 15, 1, .ro, 0x0, .const⟩
/-- LOOP.L_STAT.FB_LOSS bits [16] (chapter 09). -/
def LOOP_L_STAT_FB_LOSS : Fld := ⟨.loopCtx, 0x80, 0, 1, 16, 1, .ro, 0x0, .const⟩
/-- LOOP.L_STAT.TRK_LOSS bits [17] (chapter 09). -/
def LOOP_L_STAT_TRK_LOSS : Fld := ⟨.loopCtx, 0x80, 0, 1, 17, 1, .ro, 0x0, .const⟩
/-- LOOP.L_STAT.SS1_REQ bits [18] (chapter 09). -/
def LOOP_L_STAT_SS1_REQ : Fld := ⟨.loopCtx, 0x80, 0, 1, 18, 1, .ro, 0x0, .const⟩
/-- LOOP.L_STAT.INJ bits [19] (chapter 09). -/
def LOOP_L_STAT_INJ : Fld := ⟨.loopCtx, 0x80, 0, 1, 19, 1, .ro, 0x0, .const⟩
/-- LOOP.L_STAT.SP_DISCARD bits [20] (chapter 09). -/
def LOOP_L_STAT_SP_DISCARD : Fld := ⟨.loopCtx, 0x80, 0, 1, 20, 1, .w1c, 0x0, .const⟩
/-- LOOP.L_U bits [31:0] (chapter 09). -/
def LOOP_L_U_VAL : Fld := ⟨.loopCtx, 0x84, 0, 1, 0, 32, .ro, 0x0, .const⟩
/-- LOOP.L_E bits [31:0] (chapter 09). -/
def LOOP_L_E_VAL : Fld := ⟨.loopCtx, 0x88, 0, 1, 0, 32, .ro, 0x0, .const⟩
/-- LOOP.L_I bits [31:0] (chapter 09). -/
def LOOP_L_I_VAL : Fld := ⟨.loopCtx, 0x8C, 0, 1, 0, 32, .ro, 0x0, .const⟩
/-- LOOP.L_SP bits [31:0] (chapter 09). -/
def LOOP_L_SP_VAL : Fld := ⟨.loopCtx, 0x90, 0, 1, 0, 32, .ro, 0x0, .const⟩
/-- LOOP.L_Y bits [31:0] (chapter 09). -/
def LOOP_L_Y_VAL : Fld := ⟨.loopCtx, 0x94, 0, 1, 0, 32, .ro, 0x0, .const⟩
/-- LOOP.L_SAMPLES bits [31:0] (chapter 09). -/
def LOOP_L_SAMPLES_COUNT : Fld := ⟨.loopCtx, 0x98, 0, 1, 0, 32, .ro, 0x0, .const⟩
/-- LOOP.L_BSWAP.SWAP bits [0] (chapter 09). -/
def LOOP_L_BSWAP_SWAP : Fld := ⟨.loopCtx, 0xA0, 0, 1, 0, 1, .wo, 0x0, .const⟩
/-- LOOP.L_BSWAP.RES bits [2:1] (chapter 09). -/
def LOOP_L_BSWAP_RES : Fld := ⟨.loopCtx, 0xA0, 0, 1, 1, 2, .ro, 0x0, .const⟩
/-- TRC.STAT.STATE bits [2:0] (chapter 09). -/
def TRC_STAT_STATE : Fld := ⟨.trc, 0x40, 0, 1, 0, 3, .ro, 0x8, .const⟩
/-- TRC.STAT.VAR bits [3] (chapter 09). -/
def TRC_STAT_VAR : Fld := ⟨.trc, 0x40, 0, 1, 3, 1, .ro, 0x8, .const⟩
/-- TRC.STAT.SPILLING bits [4] (chapter 09). -/
def TRC_STAT_SPILLING : Fld := ⟨.trc, 0x40, 0, 1, 4, 1, .ro, 0x8, .const⟩
/-- TRC.STAT.SPILL_FULL bits [5] (chapter 09). -/
def TRC_STAT_SPILL_FULL : Fld := ⟨.trc, 0x40, 0, 1, 5, 1, .ro, 0x8, .const⟩
/-- TRC.CTL bits [1:0] (chapter 09). -/
def TRC_CTL_CMD : Fld := ⟨.trc, 0x44, 0, 1, 0, 2, .wo, 0x0, .const⟩
/-- TRC.CFG.MODE bits [0] (chapter 09). -/
def TRC_CFG_MODE : Fld := ⟨.trc, 0x48, 0, 1, 0, 1, .cfg, 0x0, .const⟩
/-- TRC.CFG.SPILL_EN bits [1] (chapter 09). -/
def TRC_CFG_SPILL_EN : Fld := ⟨.trc, 0x48, 0, 1, 1, 1, .cfg, 0x0, .const⟩
/-- TRC.CFG.SPILL_WRAP bits [2] (chapter 09). -/
def TRC_CFG_SPILL_WRAP : Fld := ⟨.trc, 0x48, 0, 1, 2, 1, .cfg, 0x0, .const⟩
/-- TRC.CFG.TSRC bits [6:4] (chapter 09). -/
def TRC_CFG_TSRC : Fld := ⟨.trc, 0x48, 0, 1, 4, 3, .cfg, 0x0, .const⟩
/-- TRC.CFG.TCH bits [10:7] (chapter 09). -/
def TRC_CFG_TCH : Fld := ⟨.trc, 0x48, 0, 1, 7, 4, .cfg, 0x0, .const⟩
/-- TRC.CFG.TCTX bits [18:11] (chapter 09). -/
def TRC_CFG_TCTX : Fld := ⟨.trc, 0x48, 0, 1, 11, 8, .cfg, 0x0, .const⟩
/-- TRC.CFG.TBIT bits [22:19] (chapter 09). -/
def TRC_CFG_TBIT : Fld := ⟨.trc, 0x48, 0, 1, 19, 4, .cfg, 0x0, .const⟩
/-- TRC.LEVEL bits [31:0] (chapter 09). -/
def TRC_LEVEL_VAL : Fld := ⟨.trc, 0x4C, 0, 1, 0, 32, .cfg, 0x0, .const⟩
/-- TRC.POST bits [31:0] (chapter 09). -/
def TRC_POST_VAL : Fld := ⟨.trc, 0x50, 0, 1, 0, 32, .cfg, 0x0, .const⟩
/-- TRC.WR bits [31:0] (chapter 09). -/
def TRC_WR_IDX : Fld := ⟨.trc, 0x54, 0, 1, 0, 32, .ro, 0x0, .const⟩
/-- TRC.TRIGPOS bits [31:0] (chapter 09). -/
def TRC_TRIGPOS_IDX : Fld := ⟨.trc, 0x58, 0, 1, 0, 32, .ro, 0x0, .const⟩
/-- TRC.SPILL_WR bits [31:0] (chapter 09). -/
def TRC_SPILL_WR_IDX : Fld := ⟨.trc, 0x5C, 0, 1, 0, 32, .ro, 0x0, .const⟩
/-- TRC.WIN.DDR bits [0] (chapter 09). -/
def TRC_WIN_DDR : Fld := ⟨.trc, 0x60, 0, 1, 0, 1, .rw, 0x0, .const⟩
/-- TRC.WIN.PAGE bits [27:12] (chapter 09). -/
def TRC_WIN_PAGE : Fld := ⟨.trc, 0x60, 0, 1, 12, 16, .rw, 0x0, .const⟩
/-- TRC.CH_CFG.CTX bits [7:0] (chapter 09). -/
def TRC_CH_CFG_CTX : Fld := ⟨.trc, 0x80, 4, 16, 0, 8, .cfg, 0x0, .const⟩
/-- TRC.CH_CFG.NODE bits [10:8] (chapter 09). -/
def TRC_CH_CFG_NODE : Fld := ⟨.trc, 0x80, 4, 16, 8, 3, .cfg, 0x0, .const⟩
/-- TRC.CH_CFG.EN bits [11] (chapter 09). -/
def TRC_CH_CFG_EN : Fld := ⟨.trc, 0x80, 4, 16, 11, 1, .cfg, 0x0, .const⟩
/-- TRC.CAP_CFG.CTX bits [7:0] (chapter 09). -/
def TRC_CAP_CFG_CTX : Fld := ⟨.trc, 0xC0, 4, 4, 0, 8, .cfg, 0x0, .const⟩
/-- TRC.CAP_CFG.NODE bits [10:8] (chapter 09). -/
def TRC_CAP_CFG_NODE : Fld := ⟨.trc, 0xC0, 4, 4, 8, 3, .cfg, 0x0, .const⟩
/-- TRC.CAP_CFG.EN bits [11] (chapter 09). -/
def TRC_CAP_CFG_EN : Fld := ⟨.trc, 0xC0, 4, 4, 11, 1, .cfg, 0x0, .const⟩
/-- TRC.WINDATA bits [31:0] (chapter 09). -/
def TRC_WINDATA_DATA : Fld := ⟨.trc, 0x1000, 4, 1024, 0, 32, .ro, 0x0, .const⟩
/-- PROF.PLANQ bits [6:0] (chapter 10). -/
def PROF_PLANQ_PEND : Fld := ⟨.prof, 0x40, 0, 1, 0, 7, .ro, 0x0, .const⟩
/-- PROF.EFFMAX bits [31:0] (chapter 10). -/
def PROF_EFFMAX_NS : Fld := ⟨.prof, 0x44, 0, 1, 0, 32, .rc, 0x0, .const⟩
/-- PROF.P_CFG.TP bits [7:0] (chapter 10). -/
def PROF_P_CFG_TP : Fld := ⟨.profCh, 0x40, 0, 1, 0, 8, .cfg, 0x10, .const⟩
/-- PROF.P_CFG.INIT_SRC bits [9:8] (chapter 10). -/
def PROF_P_CFG_INIT_SRC : Fld := ⟨.profCh, 0x40, 0, 1, 8, 2, .cfg, 0x10, .const⟩
/-- PROF.P_VMAX bits [31:0] (chapter 10). -/
def PROF_P_VMAX_VAL : Fld := ⟨.profCh, 0x44, 0, 1, 0, 32, .cfg, 0x0, .const⟩
/-- PROF.P_AACC bits [31:0] (chapter 10). -/
def PROF_P_AACC_VAL : Fld := ⟨.profCh, 0x48, 0, 1, 0, 32, .cfg, 0x0, .const⟩
/-- PROF.P_ADEC bits [31:0] (chapter 10). -/
def PROF_P_ADEC_VAL : Fld := ⟨.profCh, 0x4C, 0, 1, 0, 32, .cfg, 0x0, .const⟩
/-- PROF.P_JERK bits [31:0] (chapter 10). -/
def PROF_P_JERK_VAL : Fld := ⟨.profCh, 0x50, 0, 1, 0, 32, .cfg, 0x0, .const⟩
/-- PROF.P_X0 bits [31:0] (chapter 10). -/
def PROF_P_X0_VAL : Fld := ⟨.profCh, 0x54, 0, 1, 0, 32, .cfg, 0x0, .const⟩
/-- PROF.P_INITCH bits [13:0] (chapter 10). -/
def PROF_P_INITCH_CHAN : Fld := ⟨.profCh, 0x58, 0, 1, 0, 14, .cfg, 0x0, .const⟩
/-- PROF.P_STAT.MOVING bits [0] (chapter 10). -/
def PROF_P_STAT_MOVING : Fld := ⟨.profCh, 0x5C, 0, 1, 0, 1, .ro, 0x0, .const⟩
/-- PROF.P_STAT.ARRIVED bits [1] (chapter 10). -/
def PROF_P_STAT_ARRIVED : Fld := ⟨.profCh, 0x5C, 0, 1, 1, 1, .ro, 0x0, .const⟩
/-- PROF.P_STAT.VELMODE bits [2] (chapter 10). -/
def PROF_P_STAT_VELMODE : Fld := ⟨.profCh, 0x5C, 0, 1, 2, 1, .ro, 0x0, .const⟩
/-- PROF.P_STAT.REVERSAL bits [3] (chapter 10). -/
def PROF_P_STAT_REVERSAL : Fld := ⟨.profCh, 0x5C, 0, 1, 3, 1, .ro, 0x0, .const⟩
/-- PROF.P_STAT.OVERSHOOT bits [4] (chapter 10). -/
def PROF_P_STAT_OVERSHOOT : Fld := ⟨.profCh, 0x5C, 0, 1, 4, 1, .ro, 0x0, .const⟩
/-- PROF.P_STAT.ABOVE_LIM bits [5] (chapter 10). -/
def PROF_P_STAT_ABOVE_LIM : Fld := ⟨.profCh, 0x5C, 0, 1, 5, 1, .ro, 0x0, .const⟩
/-- PROF.P_STAT.SS1_LOCK bits [6] (chapter 10). -/
def PROF_P_STAT_SS1_LOCK : Fld := ⟨.profCh, 0x5C, 0, 1, 6, 1, .ro, 0x0, .const⟩
/-- PROF.P_STAT.FEEDS_AXIS bits [7] (chapter 10). -/
def PROF_P_STAT_FEEDS_AXIS : Fld := ⟨.profCh, 0x5C, 0, 1, 7, 1, .ro, 0x0, .const⟩
/-- PROF.P_X_LO bits [31:0] (chapter 10). -/
def PROF_P_X_LO_VAL : Fld := ⟨.profCh, 0x60, 0, 1, 0, 32, .ro, 0x0, .const⟩
/-- PROF.P_X_HI bits [31:0] (chapter 10). -/
def PROF_P_X_HI_VAL : Fld := ⟨.profCh, 0x64, 0, 1, 0, 32, .ro, 0x0, .const⟩
/-- PROF.P_TGT_LO bits [31:0] (chapter 10). -/
def PROF_P_TGT_LO_VAL : Fld := ⟨.profCh, 0x70, 0, 1, 0, 32, .ro, 0x0, .const⟩
/-- PROF.P_TGT_HI bits [31:0] (chapter 10). -/
def PROF_P_TGT_HI_VAL : Fld := ⟨.profCh, 0x74, 0, 1, 0, 32, .ro, 0x0, .const⟩
/-- PROF.P_TARR_LO bits [31:0] (chapter 10). -/
def PROF_P_TARR_LO_VAL : Fld := ⟨.profCh, 0x78, 0, 1, 0, 32, .ro, 0x0, .const⟩
/-- PROF.P_TARR_HI bits [31:0] (chapter 10). -/
def PROF_P_TARR_HI_VAL : Fld := ⟨.profCh, 0x7C, 0, 1, 0, 32, .ro, 0x0, .const⟩
/-- PROF.P_V bits [31:0] (chapter 10). -/
def PROF_P_V_VAL : Fld := ⟨.profCh, 0x68, 0, 1, 0, 32, .ro, 0x0, .const⟩
/-- PROF.P_A bits [31:0] (chapter 10). -/
def PROF_P_A_VAL : Fld := ⟨.profCh, 0x6C, 0, 1, 0, 32, .ro, 0x0, .const⟩
/-- VAX.SHAPE_USE bits [7:0] (chapter 10). -/
def VAX_SHAPE_USE_USE : Fld := ⟨.vax, 0x40, 0, 1, 0, 8, .ro, 0x0, .const⟩
/-- VAX.SHAPE.T_LO bits [15:0] (chapter 10). -/
def VAX_SHAPE_T_LO : Fld := ⟨.vax, 0x1000, 4, 1024, 0, 16, .rw, 0x0, .sine⟩
/-- VAX.SHAPE.T_HI bits [31:16] (chapter 10). -/
def VAX_SHAPE_T_HI : Fld := ⟨.vax, 0x1000, 4, 1024, 16, 16, .rw, 0x0, .sine⟩
/-- VAX.A_CFG.STATION bits [7:0] (chapter 10). -/
def VAX_A_CFG_STATION : Fld := ⟨.vaxAx, 0x40, 0, 1, 0, 8, .cfg, 0x2000000, .const⟩
/-- VAX.A_CFG.SAX bits [11:8] (chapter 10). -/
def VAX_A_CFG_SAX : Fld := ⟨.vaxAx, 0x40, 0, 1, 8, 4, .cfg, 0x2000000, .const⟩
/-- VAX.A_CFG.SHAPE bits [14:12] (chapter 10). -/
def VAX_A_CFG_SHAPE : Fld := ⟨.vaxAx, 0x40, 0, 1, 12, 3, .cfg, 0x2000000, .const⟩
/-- VAX.A_CFG.PG bits [21:15] (chapter 10). -/
def VAX_A_CFG_PG : Fld := ⟨.vaxAx, 0x40, 0, 1, 15, 7, .cfg, 0x2000000, .const⟩
/-- VAX.A_CFG.STILL bits [22] (chapter 10). -/
def VAX_A_CFG_STILL : Fld := ⟨.vaxAx, 0x40, 0, 1, 22, 1, .cfg, 0x2000000, .const⟩
/-- VAX.A_CFG.HRED bits [23] (chapter 10). -/
def VAX_A_CFG_HRED : Fld := ⟨.vaxAx, 0x40, 0, 1, 23, 1, .cfg, 0x2000000, .const⟩
/-- VAX.A_CFG.WAKE bits [27:24] (chapter 10). -/
def VAX_A_CFG_WAKE : Fld := ⟨.vaxAx, 0x40, 0, 1, 24, 4, .cfg, 0x2000000, .const⟩
/-- VAX.A_CH.POSW bits [13:0] (chapter 10). -/
def VAX_A_CH_POSW : Fld := ⟨.vaxAx, 0x44, 0, 1, 0, 14, .cfg, 0x0, .const⟩
/-- VAX.A_CH.CTL bits [29:16] (chapter 10). -/
def VAX_A_CH_CTL : Fld := ⟨.vaxAx, 0x44, 0, 1, 16, 14, .cfg, 0x0, .const⟩
/-- VAX.A_SCALE bits [31:0] (chapter 10). -/
def VAX_A_SCALE_SCALE : Fld := ⟨.vaxAx, 0x48, 0, 1, 0, 32, .cfg, 0x0, .const⟩
/-- VAX.A_LIM.DMAX bits [11:0] (chapter 10). -/
def VAX_A_LIM_DMAX : Fld := ⟨.vaxAx, 0x4C, 0, 1, 0, 12, .cfg, 0x4000100, .const⟩
/-- VAX.A_LIM.LAG_MAX bits [31:16] (chapter 10). -/
def VAX_A_LIM_LAG_MAX : Fld := ⟨.vaxAx, 0x4C, 0, 1, 16, 16, .cfg, 0x4000100, .const⟩
/-- VAX.A_STILL.T_STILL bits [15:0] (chapter 10). -/
def VAX_A_STILL_T_STILL : Fld := ⟨.vaxAx, 0x50, 0, 1, 0, 16, .cfg, 0x3E801F4, .const⟩
/-- VAX.A_STILL.T_HRED bits [31:16] (chapter 10). -/
def VAX_A_STILL_T_HRED : Fld := ⟨.vaxAx, 0x50, 0, 1, 16, 16, .cfg, 0x3E801F4, .const⟩
/-- VAX.A_STAT.AXST bits [1:0] (chapter 10). -/
def VAX_A_STAT_AXST : Fld := ⟨.vaxAx, 0x54, 0, 1, 0, 2, .ro, 0x0, .const⟩
/-- VAX.A_STAT.COIL bits [3:2] (chapter 10). -/
def VAX_A_STAT_COIL : Fld := ⟨.vaxAx, 0x54, 0, 1, 2, 2, .ro, 0x0, .const⟩
/-- VAX.A_STAT.REFOK bits [4] (chapter 10). -/
def VAX_A_STAT_REFOK : Fld := ⟨.vaxAx, 0x54, 0, 1, 4, 1, .ro, 0x0, .const⟩
/-- VAX.A_STAT.CLAMPED bits [5] (chapter 10). -/
def VAX_A_STAT_CLAMPED : Fld := ⟨.vaxAx, 0x54, 0, 1, 5, 1, .ro, 0x0, .const⟩
/-- VAX.A_STAT.SRC bits [6] (chapter 10). -/
def VAX_A_STAT_SRC : Fld := ⟨.vaxAx, 0x54, 0, 1, 6, 1, .ro, 0x0, .const⟩
/-- VAX.A_STAT.FCAUSE bits [9:7] (chapter 10). -/
def VAX_A_STAT_FCAUSE : Fld := ⟨.vaxAx, 0x54, 0, 1, 7, 3, .ro, 0x0, .const⟩
/-- VAX.A_M bits [31:0] (chapter 10). -/
def VAX_A_M_VAL : Fld := ⟨.vaxAx, 0x58, 0, 1, 0, 32, .ro, 0x0, .const⟩
/-- VAX.A_LAG bits [31:0] (chapter 10). -/
def VAX_A_LAG_VAL : Fld := ⟨.vaxAx, 0x5C, 0, 1, 0, 32, .ro, 0x0, .const⟩
/-- VAX.A_OFS bits [31:0] (chapter 10). -/
def VAX_A_OFS_VAL : Fld := ⟨.vaxAx, 0x60, 0, 1, 0, 32, .ro, 0x0, .const⟩
/-- VAX.A_TAPP_LO bits [31:0] (chapter 10). -/
def VAX_A_TAPP_LO_STAMP : Fld := ⟨.vaxAx, 0x64, 0, 1, 0, 32, .ro, 0x0, .const⟩
/-- VAX.A_TAPP_HI bits [31:0] (chapter 10). -/
def VAX_A_TAPP_HI_STAMP : Fld := ⟨.vaxAx, 0x68, 0, 1, 0, 32, .ro, 0x0, .const⟩
/-- VAX.A_CLAMPS bits [15:0] (chapter 10). -/
def VAX_A_CLAMPS_COUNT : Fld := ⟨.vaxAx, 0x6C, 0, 1, 0, 16, .rc, 0x0, .const⟩
/-- BSN.SCRATCH bits [10:0] (chapter 11). -/
def BSN_SCRATCH_USED : Fld := ⟨.bsn, 0x40, 0, 1, 0, 11, .ro, 0x0, .const⟩
/-- BSN.RUNNING.CTX bits [3:0] (chapter 11). -/
def BSN_RUNNING_CTX : Fld := ⟨.bsn, 0x44, 0, 1, 0, 4, .ro, 0x0, .const⟩
/-- BSN.RUNNING.BUSY bits [4] (chapter 11). -/
def BSN_RUNNING_BUSY : Fld := ⟨.bsn, 0x44, 0, 1, 4, 1, .ro, 0x0, .const⟩
/-- BSN.RUNNING.UNDEC bits [10:5] (chapter 11). -/
def BSN_RUNNING_UNDEC : Fld := ⟨.bsn, 0x44, 0, 1, 5, 6, .ro, 0x0, .const⟩
/-- BSN.UTIL bits [31:0] (chapter 11). -/
def BSN_UTIL_NS : Fld := ⟨.bsn, 0x48, 0, 1, 0, 32, .ro, 0x0, .const⟩
/-- BSN.UNITMAX bits [31:0] (chapter 11). -/
def BSN_UNITMAX_NS : Fld := ⟨.bsn, 0x4C, 0, 1, 0, 32, .rc, 0x0, .const⟩
/-- BSN.Q_DIM.NV bits [8:0] (chapter 11). -/
def BSN_Q_DIM_NV : Fld := ⟨.bsnCtx, 0x40, 0, 1, 0, 9, .cfg, 0x0, .const⟩
/-- BSN.Q_DIM.ME bits [16:9] (chapter 11). -/
def BSN_Q_DIM_ME : Fld := ⟨.bsnCtx, 0x40, 0, 1, 9, 8, .cfg, 0x0, .const⟩
/-- BSN.Q_DIM.MI bits [26:17] (chapter 11). -/
def BSN_Q_DIM_MI : Fld := ⟨.bsnCtx, 0x40, 0, 1, 17, 10, .cfg, 0x0, .const⟩
/-- BSN.Q_H bits [31:0] (chapter 11). -/
def BSN_Q_H_ADDR : Fld := ⟨.bsnCtx, 0x44, 0, 1, 0, 32, .cfg, 0x0, .const⟩
/-- BSN.Q_AEQ bits [31:0] (chapter 11). -/
def BSN_Q_AEQ_ADDR : Fld := ⟨.bsnCtx, 0x48, 0, 1, 0, 32, .cfg, 0x0, .const⟩
/-- BSN.Q_AIN bits [31:0] (chapter 11). -/
def BSN_Q_AIN_ADDR : Fld := ⟨.bsnCtx, 0x4C, 0, 1, 0, 32, .cfg, 0x0, .const⟩
/-- BSN.Q_RES bits [31:0] (chapter 11). -/
def BSN_Q_RES_ADDR : Fld := ⟨.bsnCtx, 0x50, 0, 1, 0, 32, .cfg, 0x0, .const⟩
/-- BSN.Q_FB bits [31:0] (chapter 11). -/
def BSN_Q_FB_ADDR : Fld := ⟨.bsnCtx, 0x54, 0, 1, 0, 32, .cfg, 0x0, .const⟩
/-- BSN.Q_ITER.CAP bits [6:0] (chapter 11). -/
def BSN_Q_ITER_CAP : Fld := ⟨.bsnCtx, 0x58, 0, 1, 0, 7, .cfg, 0x30819, .const⟩
/-- BSN.Q_ITER.N_ILL bits [15:8] (chapter 11). -/
def BSN_Q_ITER_N_ILL : Fld := ⟨.bsnCtx, 0x58, 0, 1, 8, 8, .cfg, 0x30819, .const⟩
/-- BSN.Q_ITER.K_SHIFT bits [19:16] (chapter 11). -/
def BSN_Q_ITER_K_SHIFT : Fld := ⟨.bsnCtx, 0x58, 0, 1, 16, 4, .cfg, 0x30819, .const⟩
/-- BSN.Q_SHIFT.OFS bits [7:0] (chapter 11). -/
def BSN_Q_SHIFT_OFS : Fld := ⟨.bsnCtx, 0x5C, 0, 1, 0, 8, .cfg, 0x100, .const⟩
/-- BSN.Q_SHIFT.STRIDE bits [16:8] (chapter 11). -/
def BSN_Q_SHIFT_STRIDE : Fld := ⟨.bsnCtx, 0x5C, 0, 1, 8, 9, .cfg, 0x100, .const⟩
/-- BSN.Q_SHIFT.STEPS bits [25:17] (chapter 11). -/
def BSN_Q_SHIFT_STEPS : Fld := ⟨.bsnCtx, 0x5C, 0, 1, 17, 9, .cfg, 0x100, .const⟩
/-- BSN.Q_TOLP bits [31:0] (chapter 11). -/
def BSN_Q_TOLP_VAL : Fld := ⟨.bsnCtx, 0x60, 0, 1, 0, 32, .cfg, 0x358637BD, .const⟩
/-- BSN.Q_TOLD bits [31:0] (chapter 11). -/
def BSN_Q_TOLD_VAL : Fld := ⟨.bsnCtx, 0x64, 0, 1, 0, 32, .cfg, 0x358637BD, .const⟩
/-- BSN.Q_TOLMU bits [31:0] (chapter 11). -/
def BSN_Q_TOLMU_VAL : Fld := ⟨.bsnCtx, 0x68, 0, 1, 0, 32, .cfg, 0x322BCC77, .const⟩
/-- BSN.Q_TOLACC bits [31:0] (chapter 11). -/
def BSN_Q_TOLACC_VAL : Fld := ⟨.bsnCtx, 0x6C, 0, 1, 0, 32, .cfg, 0x3A83126F, .const⟩
/-- BSN.Q_EPSPIV bits [31:0] (chapter 11). -/
def BSN_Q_EPSPIV_VAL : Fld := ⟨.bsnCtx, 0x70, 0, 1, 0, 32, .cfg, 0x2B8CBCCC, .const⟩
/-- BSN.Q_DREG bits [31:0] (chapter 11). -/
def BSN_Q_DREG_VAL : Fld := ⟨.bsnCtx, 0x74, 0, 1, 0, 32, .cfg, 0x322BCC77, .const⟩
/-- BSN.Q_STAT.PHASE bits [1:0] (chapter 11). -/
def BSN_Q_STAT_PHASE : Fld := ⟨.bsnCtx, 0x80, 0, 1, 0, 2, .ro, 0x0, .const⟩
/-- BSN.Q_STAT.WAITING bits [2] (chapter 11). -/
def BSN_Q_STAT_WAITING : Fld := ⟨.bsnCtx, 0x80, 0, 1, 2, 1, .ro, 0x0, .const⟩
/-- BSN.Q_STAT.HAVE_BASE bits [3] (chapter 11). -/
def BSN_Q_STAT_HAVE_BASE : Fld := ⟨.bsnCtx, 0x80, 0, 1, 3, 1, .ro, 0x0, .const⟩
/-- BSN.Q_STAT.SHIFTS bits [7:4] (chapter 11). -/
def BSN_Q_STAT_SHIFTS : Fld := ⟨.bsnCtx, 0x80, 0, 1, 4, 4, .ro, 0x0, .const⟩
/-- BSN.Q_STAT.ITER bits [14:8] (chapter 11). -/
def BSN_Q_STAT_ITER : Fld := ⟨.bsnCtx, 0x80, 0, 1, 8, 7, .ro, 0x0, .const⟩
/-- BSN.Q_STAT.FOOT bits [25:16] (chapter 11). -/
def BSN_Q_STAT_FOOT : Fld := ⟨.bsnCtx, 0x80, 0, 1, 16, 10, .ro, 0x0, .const⟩
/-- BSN.Q_LAST.FLAGS bits [8:0] (chapter 11). -/
def BSN_Q_LAST_FLAGS : Fld := ⟨.bsnCtx, 0x84, 0, 1, 0, 9, .ro, 0x0, .const⟩
/-- BSN.Q_LAST.ITER bits [15:9] (chapter 11). -/
def BSN_Q_LAST_ITER : Fld := ⟨.bsnCtx, 0x84, 0, 1, 9, 7, .ro, 0x0, .const⟩
/-- BSN.Q_LAST.DECIDED bits [17:16] (chapter 11). -/
def BSN_Q_LAST_DECIDED : Fld := ⟨.bsnCtx, 0x84, 0, 1, 16, 2, .ro, 0x0, .const⟩
/-- BSN.Q_LASTSEQ bits [31:0] (chapter 11). -/
def BSN_Q_LASTSEQ_VAL : Fld := ⟨.bsnCtx, 0x88, 0, 1, 0, 32, .ro, 0x0, .const⟩
/-- BSN.Q_DEC_LO bits [31:0] (chapter 11). -/
def BSN_Q_DEC_LO_VAL : Fld := ⟨.bsnCtx, 0x8C, 0, 1, 0, 32, .ro, 0x0, .const⟩
/-- BSN.Q_DEC_HI bits [31:0] (chapter 11). -/
def BSN_Q_DEC_HI_VAL : Fld := ⟨.bsnCtx, 0x90, 0, 1, 0, 32, .ro, 0x0, .const⟩
/-- BSN.Q_NREG bits [31:0] (chapter 11). -/
def BSN_Q_NREG_COUNT : Fld := ⟨.bsnCtx, 0x94, 0, 1, 0, 32, .rc, 0x0, .const⟩
/-- BSN.Q_CNT0.A bits [15:0] (chapter 11). -/
def BSN_Q_CNT0_A : Fld := ⟨.bsnCtx, 0x98, 0, 1, 0, 16, .rc, 0x0, .const⟩
/-- BSN.Q_CNT0.B bits [31:16] (chapter 11). -/
def BSN_Q_CNT0_B : Fld := ⟨.bsnCtx, 0x98, 0, 1, 16, 16, .rc, 0x0, .const⟩
/-- BSN.Q_CNT1.A bits [15:0] (chapter 11). -/
def BSN_Q_CNT1_A : Fld := ⟨.bsnCtx, 0x9C, 0, 1, 0, 16, .rc, 0x0, .const⟩
/-- BSN.Q_CNT1.B bits [31:16] (chapter 11). -/
def BSN_Q_CNT1_B : Fld := ⟨.bsnCtx, 0x9C, 0, 1, 16, 16, .rc, 0x0, .const⟩
/-- BSN.Q_TMAX bits [31:0] (chapter 11). -/
def BSN_Q_TMAX_NS : Fld := ⟨.bsnCtx, 0xA0, 0, 1, 0, 32, .rc, 0x0, .const⟩
/-- BSN.Q_DLV.IDX bits [7:0] (chapter 11). -/
def BSN_Q_DLV_IDX : Fld := ⟨.bsnCtx, 0x100, 4, 16, 0, 8, .cfg, 0x0, .const⟩
/-- BSN.Q_DLV.LPC bits [15:8] (chapter 11). -/
def BSN_Q_DLV_LPC : Fld := ⟨.bsnCtx, 0x100, 4, 16, 8, 8, .cfg, 0x0, .const⟩
/-- BSN.Q_DLV.EN bits [16] (chapter 11). -/
def BSN_Q_DLV_EN : Fld := ⟨.bsnCtx, 0x100, 4, 16, 16, 1, .cfg, 0x0, .const⟩
/-- PAIR.ROLE.ROLE bits [2:0] (chapter 12). -/
def PAIR_ROLE_ROLE : Fld := ⟨.pair, 0x40, 0, 1, 0, 3, .ro, 0xD0000E0, .const⟩
/-- PAIR.ROLE.SIDE bits [3] (chapter 12). -/
def PAIR_ROLE_SIDE : Fld := ⟨.pair, 0x40, 0, 1, 3, 1, .ro, 0xD0000E0, .const⟩
/-- PAIR.ROLE.HS_OWN bits [4] (chapter 12). -/
def PAIR_ROLE_HS_OWN : Fld := ⟨.pair, 0x40, 0, 1, 4, 1, .ro, 0xD0000E0, .const⟩
/-- PAIR.ROLE.PARTNER bits [7:5] (chapter 12). -/
def PAIR_ROLE_PARTNER : Fld := ⟨.pair, 0x40, 0, 1, 5, 3, .ro, 0xD0000E0, .const⟩
/-- PAIR.ROLE.OUTPATH bits [8] (chapter 12). -/
def PAIR_ROLE_OUTPATH : Fld := ⟨.pair, 0x40, 0, 1, 8, 1, .ro, 0xD0000E0, .const⟩
/-- PAIR.ROLE.HEALTHY bits [9] (chapter 12). -/
def PAIR_ROLE_HEALTHY : Fld := ⟨.pair, 0x40, 0, 1, 9, 1, .ro, 0xD0000E0, .const⟩
/-- PAIR.ROLE.LISTEN bits [10] (chapter 12). -/
def PAIR_ROLE_LISTEN : Fld := ⟨.pair, 0x40, 0, 1, 10, 1, .ro, 0xD0000E0, .const⟩
/-- PAIR.ROLE.CODE bits [31:16] (chapter 12). -/
def PAIR_ROLE_CODE : Fld := ⟨.pair, 0x40, 0, 1, 16, 16, .ro, 0xD0000E0, .const⟩
/-- PAIR.EPOCH bits [31:0] (chapter 12). -/
def PAIR_EPOCH_EPOCH : Fld := ⟨.pair, 0x44, 0, 1, 0, 32, .ro, 0x0, .const⟩
/-- PAIR.CFG.PAIRED bits [0] (chapter 12). -/
def PAIR_CFG_PAIRED : Fld := ⟨.pair, 0x48, 0, 1, 0, 1, .cfg, 0x3C00, .const⟩
/-- PAIR.CFG.PROC_PREF bits [1] (chapter 12). -/
def PAIR_CFG_PROC_PREF : Fld := ⟨.pair, 0x48, 0, 1, 1, 1, .cfg, 0x3C00, .const⟩
/-- PAIR.CFG.HS_PREF bits [2] (chapter 12). -/
def PAIR_CFG_HS_PREF : Fld := ⟨.pair, 0x48, 0, 1, 2, 1, .cfg, 0x3C00, .const⟩
/-- PAIR.CFG.HS_SETTLE bits [17:8] (chapter 12). -/
def PAIR_CFG_HS_SETTLE : Fld := ⟨.pair, 0x48, 0, 1, 8, 10, .cfg, 0x3C00, .const⟩
/-- PAIR.ABD.ABD_CLASS bits [2:0] (chapter 12). -/
def PAIR_ABD_ABD_CLASS : Fld := ⟨.pair, 0x4C, 0, 1, 0, 3, .cfg, 0x8, .const⟩
/-- PAIR.ABD.ABD_SAF bits [3] (chapter 12). -/
def PAIR_ABD_ABD_SAF : Fld := ⟨.pair, 0x4C, 0, 1, 3, 1, .cfg, 0x8, .const⟩
/-- PAIR.ABD.ABD_STA bits [15:8] (chapter 12). -/
def PAIR_ABD_ABD_STA : Fld := ⟨.pair, 0x4C, 0, 1, 8, 8, .cfg, 0x8, .const⟩
/-- PAIR.ID bits [31:0] (chapter 12). -/
def PAIR_ID_ID : Fld := ⟨.pair, 0x50, 0, 1, 0, 32, .cfg, 0x0, .const⟩
/-- PAIR.HB.P1_OK bits [0] (chapter 12). -/
def PAIR_HB_P1_OK : Fld := ⟨.pair, 0x54, 0, 1, 0, 1, .ro, 0x0, .const⟩
/-- PAIR.HB.P2_OK bits [1] (chapter 12). -/
def PAIR_HB_P2_OK : Fld := ⟨.pair, 0x54, 0, 1, 1, 1, .ro, 0x0, .const⟩
/-- PAIR.HB.DEGRADED bits [2] (chapter 12). -/
def PAIR_HB_DEGRADED : Fld := ⟨.pair, 0x54, 0, 1, 2, 1, .ro, 0x0, .const⟩
/-- PAIR.HB.P1_MISS bits [15:8] (chapter 12). -/
def PAIR_HB_P1_MISS : Fld := ⟨.pair, 0x54, 0, 1, 8, 8, .rc, 0x0, .const⟩
/-- PAIR.HB.P2_MISS bits [23:16] (chapter 12). -/
def PAIR_HB_P2_MISS : Fld := ⟨.pair, 0x54, 0, 1, 16, 8, .rc, 0x0, .const⟩
/-- PAIR.ILK.OUT bits [0] (chapter 12). -/
def PAIR_ILK_OUT : Fld := ⟨.pair, 0x58, 0, 1, 0, 1, .ro, 0x0, .const⟩
/-- PAIR.ILK.IN bits [1] (chapter 12). -/
def PAIR_ILK_IN : Fld := ⟨.pair, 0x58, 0, 1, 1, 1, .ro, 0x0, .const⟩
/-- PAIR.ILK.IN_CLEAR bits [2] (chapter 12). -/
def PAIR_ILK_IN_CLEAR : Fld := ⟨.pair, 0x58, 0, 1, 2, 1, .ro, 0x0, .const⟩
/-- PAIR.ILK.FAULT bits [3] (chapter 12). -/
def PAIR_ILK_FAULT : Fld := ⟨.pair, 0x58, 0, 1, 3, 1, .w1c, 0x0, .const⟩
/-- PAIR.ILK.STRAP bits [4] (chapter 12). -/
def PAIR_ILK_STRAP : Fld := ⟨.pair, 0x58, 0, 1, 4, 1, .ro, 0x0, .const⟩
/-- PAIR.TIERS.F_VALID bits [0] (chapter 12). -/
def PAIR_TIERS_F_VALID : Fld := ⟨.pair, 0x5C, 0, 1, 0, 1, .ro, 0xFFFFFF00, .const⟩
/-- PAIR.TIERS.S_VALID bits [1] (chapter 12). -/
def PAIR_TIERS_S_VALID : Fld := ⟨.pair, 0x5C, 0, 1, 1, 1, .ro, 0xFFFFFF00, .const⟩
/-- PAIR.TIERS.B_VALID bits [2] (chapter 12). -/
def PAIR_TIERS_B_VALID : Fld := ⟨.pair, 0x5C, 0, 1, 2, 1, .ro, 0xFFFFFF00, .const⟩
/-- PAIR.TIERS.F_AGE bits [15:8] (chapter 12). -/
def PAIR_TIERS_F_AGE : Fld := ⟨.pair, 0x5C, 0, 1, 8, 8, .ro, 0xFFFFFF00, .const⟩
/-- PAIR.TIERS.S_AGE bits [23:16] (chapter 12). -/
def PAIR_TIERS_S_AGE : Fld := ⟨.pair, 0x5C, 0, 1, 16, 8, .ro, 0xFFFFFF00, .const⟩
/-- PAIR.TIERS.B_AGE bits [31:24] (chapter 12). -/
def PAIR_TIERS_B_AGE : Fld := ⟨.pair, 0x5C, 0, 1, 24, 8, .ro, 0xFFFFFF00, .const⟩
/-- PAIR.SNAPF_LO bits [31:0] (chapter 12). -/
def PAIR_SNAPF_LO_STAMP : Fld := ⟨.pair, 0x60, 0, 1, 0, 32, .ro, 0x0, .const⟩
/-- PAIR.SNAPF_HI bits [31:0] (chapter 12). -/
def PAIR_SNAPF_HI_STAMP : Fld := ⟨.pair, 0x64, 0, 1, 0, 32, .ro, 0x0, .const⟩
/-- PAIR.SNAPS_LO bits [31:0] (chapter 12). -/
def PAIR_SNAPS_LO_STAMP : Fld := ⟨.pair, 0x68, 0, 1, 0, 32, .ro, 0x0, .const⟩
/-- PAIR.SNAPS_HI bits [31:0] (chapter 12). -/
def PAIR_SNAPS_HI_STAMP : Fld := ⟨.pair, 0x6C, 0, 1, 0, 32, .ro, 0x0, .const⟩
/-- PAIR.SNAPB_LO bits [31:0] (chapter 12). -/
def PAIR_SNAPB_LO_STAMP : Fld := ⟨.pair, 0x70, 0, 1, 0, 32, .ro, 0x0, .const⟩
/-- PAIR.SNAPB_HI bits [31:0] (chapter 12). -/
def PAIR_SNAPB_HI_STAMP : Fld := ⟨.pair, 0x74, 0, 1, 0, 32, .ro, 0x0, .const⟩
/-- PAIR.XFER.F_BYTES bits [16:0] (chapter 12). -/
def PAIR_XFER_F_BYTES : Fld := ⟨.pair, 0x78, 0, 1, 0, 17, .ro, 0x0, .const⟩
/-- PAIR.XFER.S_PAGES bits [31:17] (chapter 12). -/
def PAIR_XFER_S_PAGES : Fld := ⟨.pair, 0x78, 0, 1, 17, 15, .ro, 0x0, .const⟩
/-- PAIR.CKCNT.F_CARRY bits [7:0] (chapter 12). -/
def PAIR_CKCNT_F_CARRY : Fld := ⟨.pair, 0x7C, 0, 1, 0, 8, .rc, 0x0, .const⟩
/-- PAIR.CKCNT.S_OVF bits [15:8] (chapter 12). -/
def PAIR_CKCNT_S_OVF : Fld := ⟨.pair, 0x7C, 0, 1, 8, 8, .rc, 0x0, .const⟩
/-- PAIR.CKCNT.S_LATE bits [23:16] (chapter 12). -/
def PAIR_CKCNT_S_LATE : Fld := ⟨.pair, 0x7C, 0, 1, 16, 8, .rc, 0x0, .const⟩
/-- PAIR.CKCNT.B_LATE bits [31:24] (chapter 12). -/
def PAIR_CKCNT_B_LATE : Fld := ⟨.pair, 0x7C, 0, 1, 24, 8, .rc, 0x0, .const⟩
/-- PAIR.CMD bits [2:0] (chapter 12). -/
def PAIR_CMD_OP : Fld := ⟨.pair, 0x80, 0, 1, 0, 3, .wo, 0x0, .const⟩
/-- PAIR.CMD_RES.CODE bits [15:0] (chapter 12). -/
def PAIR_CMD_RES_CODE : Fld := ⟨.pair, 0x84, 0, 1, 0, 16, .ro, 0xD00, .const⟩
/-- PAIR.CMD_RES.OP bits [18:16] (chapter 12). -/
def PAIR_CMD_RES_OP : Fld := ⟨.pair, 0x84, 0, 1, 16, 3, .ro, 0xD00, .const⟩
/-- PAIR.SYNC.LINK bits [0] (chapter 12). -/
def PAIR_SYNC_LINK : Fld := ⟨.pair, 0x88, 0, 1, 0, 1, .ro, 0x0, .const⟩
/-- PAIR.SYNC.SFP bits [1] (chapter 12). -/
def PAIR_SYNC_SFP : Fld := ⟨.pair, 0x88, 0, 1, 1, 1, .ro, 0x0, .const⟩
/-- PAIR.SYNC.LOS bits [2] (chapter 12). -/
def PAIR_SYNC_LOS : Fld := ⟨.pair, 0x88, 0, 1, 2, 1, .ro, 0x0, .const⟩
/-- PAIR.SYNC.DOWNS bits [31:16] (chapter 12). -/
def PAIR_SYNC_DOWNS : Fld := ⟨.pair, 0x88, 0, 1, 16, 16, .rc, 0x0, .const⟩
/-- PAIR.FRCNT.STALE bits [15:0] (chapter 12). -/
def PAIR_FRCNT_STALE : Fld := ⟨.pair, 0x8C, 0, 1, 0, 16, .rc, 0x0, .const⟩
/-- PAIR.FRCNT.CRCERR bits [31:16] (chapter 12). -/
def PAIR_FRCNT_CRCERR : Fld := ⟨.pair, 0x8C, 0, 1, 16, 16, .rc, 0x0, .const⟩
/-- PAIR.TKO_LO bits [31:0] (chapter 12). -/
def PAIR_TKO_LO_STAMP : Fld := ⟨.pair, 0x90, 0, 1, 0, 32, .ro, 0x0, .const⟩
/-- PAIR.TKO_HI bits [31:0] (chapter 12). -/
def PAIR_TKO_HI_STAMP : Fld := ⟨.pair, 0x94, 0, 1, 0, 32, .ro, 0x0, .const⟩
/-- PAIR.TKOH_LO bits [31:0] (chapter 12). -/
def PAIR_TKOH_LO_STAMP : Fld := ⟨.pair, 0x98, 0, 1, 0, 32, .ro, 0x0, .const⟩
/-- PAIR.TKOH_HI bits [31:0] (chapter 12). -/
def PAIR_TKOH_HI_STAMP : Fld := ⟨.pair, 0x9C, 0, 1, 0, 32, .ro, 0x0, .const⟩
/-- PAIR.TKO_GAP bits [31:0] (chapter 12). -/
def PAIR_TKO_GAP_NS : Fld := ⟨.pair, 0xA0, 0, 1, 0, 32, .ro, 0x0, .const⟩
/-- PAIR.GMAX bits [31:0] (chapter 12). -/
def PAIR_GMAX_NS : Fld := ⟨.pair, 0xA4, 0, 1, 0, 32, .ro, 0x0, .const⟩
/-- PAIR.MISMATCH.VARIANT bits [0] (chapter 12). -/
def PAIR_MISMATCH_VARIANT : Fld := ⟨.pair, 0xA8, 0, 1, 0, 1, .ro, 0x0, .const⟩
/-- PAIR.MISMATCH.ID bits [1] (chapter 12). -/
def PAIR_MISMATCH_ID : Fld := ⟨.pair, 0xA8, 0, 1, 1, 1, .ro, 0x0, .const⟩
/-- PAIR.MISMATCH.PROTO bits [2] (chapter 12). -/
def PAIR_MISMATCH_PROTO : Fld := ⟨.pair, 0xA8, 0, 1, 2, 1, .ro, 0x0, .const⟩
/-- PAIR.MISMATCH.FW bits [3] (chapter 12). -/
def PAIR_MISMATCH_FW : Fld := ⟨.pair, 0xA8, 0, 1, 3, 1, .ro, 0x0, .const⟩
/-- PAIR.MISMATCH.SIDE bits [4] (chapter 12). -/
def PAIR_MISMATCH_SIDE : Fld := ⟨.pair, 0xA8, 0, 1, 4, 1, .ro, 0x0, .const⟩
/-- PAIR.RESYNC.PHASE bits [1:0] (chapter 12). -/
def PAIR_RESYNC_PHASE : Fld := ⟨.pair, 0xAC, 0, 1, 0, 2, .ro, 0x0, .const⟩
/-- PAIR.RESYNC.PCT bits [14:8] (chapter 12). -/
def PAIR_RESYNC_PCT : Fld := ⟨.pair, 0xAC, 0, 1, 8, 7, .ro, 0x0, .const⟩
/-- PAIR.HOLD_CHK.COUNT bits [8:0] (chapter 12). -/
def PAIR_HOLD_CHK_COUNT : Fld := ⟨.pair, 0xB0, 0, 1, 0, 9, .ro, 0x0, .const⟩
/-- PAIR.HOLD_CHK.FIRST bits [23:16] (chapter 12). -/
def PAIR_HOLD_CHK_FIRST : Fld := ⟨.pair, 0xB0, 0, 1, 16, 8, .ro, 0x0, .const⟩
/-- PAIR.HOLD_CHK.GAP_SHORT bits [24] (chapter 12). -/
def PAIR_HOLD_CHK_GAP_SHORT : Fld := ⟨.pair, 0xB0, 0, 1, 24, 1, .ro, 0x0, .const⟩
/-- PAIR.HS.SIDE bits [0] (chapter 12). -/
def PAIR_HS_SIDE : Fld := ⟨.pair, 0xB4, 0, 1, 0, 1, .ro, 0x0, .const⟩
/-- PAIR.HS.RELAY bits [1] (chapter 12). -/
def PAIR_HS_RELAY : Fld := ⟨.pair, 0xB4, 0, 1, 1, 1, .ro, 0x0, .const⟩
/-- PAIR.HS.SETTLE bits [17:8] (chapter 12). -/
def PAIR_HS_SETTLE : Fld := ⟨.pair, 0xB4, 0, 1, 8, 10, .ro, 0x0, .const⟩
/-- PAIR.GPOL.POL bits [0] (chapter 12). -/
def PAIR_GPOL_POL : Fld := ⟨.pair, 0x100, 4, 16, 0, 1, .cfg, 0xC00, .const⟩
/-- PAIR.GPOL.SHORT bits [1] (chapter 12). -/
def PAIR_GPOL_SHORT : Fld := ⟨.pair, 0x100, 4, 16, 1, 1, .ro, 0xC00, .const⟩
/-- PAIR.GPOL.N bits [15:8] (chapter 12). -/
def PAIR_GPOL_N : Fld := ⟨.pair, 0x100, 4, 16, 8, 8, .cfg, 0xC00, .const⟩
/-- PAIR.GRNGA.FIRST bits [13:0] (chapter 12). -/
def PAIR_GRNGA_FIRST : Fld := ⟨.pair, 0x140, 8, 64, 0, 14, .cfg, 0x0, .const⟩
/-- PAIR.GRNGA.COUNT bits [30:16] (chapter 12). -/
def PAIR_GRNGA_COUNT : Fld := ⟨.pair, 0x140, 8, 64, 16, 15, .cfg, 0x0, .const⟩
/-- PAIR.GRNGB bits [3:0] (chapter 12). -/
def PAIR_GRNGB_GROUP : Fld := ⟨.pair, 0x144, 8, 64, 0, 4, .cfg, 0x0, .const⟩
/-- TIME.NOW_SEC_LO bits [31:0] (chapter 13). -/
def TIME_NOW_SEC_LO_VAL : Fld := ⟨.time, 0x40, 0, 1, 0, 32, .ro, 0x0, .const⟩
/-- TIME.NOW_SEC_HI bits [31:0] (chapter 13). -/
def TIME_NOW_SEC_HI_VAL : Fld := ⟨.time, 0x44, 0, 1, 0, 32, .ro, 0x0, .const⟩
/-- TIME.NOW_NS bits [31:0] (chapter 13). -/
def TIME_NOW_NS_VAL : Fld := ⟨.time, 0x48, 0, 1, 0, 32, .ro, 0x0, .const⟩
/-- TIME.NOW_FRAC bits [31:0] (chapter 13). -/
def TIME_NOW_FRAC_VAL : Fld := ⟨.time, 0x4C, 0, 1, 0, 32, .ro, 0x0, .const⟩
/-- TIME.INC_LO bits [31:0] (chapter 13). -/
def TIME_INC_LO_VAL : Fld := ⟨.time, 0x50, 0, 1, 0, 32, .ro, 0x0, .const⟩
/-- TIME.INC_HI bits [31:0] (chapter 13). -/
def TIME_INC_HI_VAL : Fld := ⟨.time, 0x54, 0, 1, 0, 32, .ro, 0x4, .const⟩
/-- TIME.STATE.SERVO bits [1:0] (chapter 13). -/
def TIME_STATE_SERVO : Fld := ⟨.time, 0x58, 0, 1, 0, 2, .ro, 0x4, .const⟩
/-- TIME.STATE.UNSYNC bits [2] (chapter 13). -/
def TIME_STATE_UNSYNC : Fld := ⟨.time, 0x58, 0, 1, 2, 1, .ro, 0x4, .const⟩
/-- TIME.STATE.SRC bits [4:3] (chapter 13). -/
def TIME_STATE_SRC : Fld := ⟨.time, 0x58, 0, 1, 3, 2, .ro, 0x4, .const⟩
/-- TIME.STATE.OFFSET_HIGH bits [5] (chapter 13). -/
def TIME_STATE_OFFSET_HIGH : Fld := ⟨.time, 0x58, 0, 1, 5, 1, .ro, 0x4, .const⟩
/-- TIME.STATE.STEP_PEND bits [6] (chapter 13). -/
def TIME_STATE_STEP_PEND : Fld := ⟨.time, 0x58, 0, 1, 6, 1, .ro, 0x4, .const⟩
/-- TIME.SRC_CFG.PRI_PTP bits [1:0] (chapter 13). -/
def TIME_SRC_CFG_PRI_PTP : Fld := ⟨.time, 0x5C, 0, 1, 0, 2, .cfg, 0xB, .const⟩
/-- TIME.SRC_CFG.PRI_PARTNER bits [3:2] (chapter 13). -/
def TIME_SRC_CFG_PRI_PARTNER : Fld := ⟨.time, 0x5C, 0, 1, 2, 2, .cfg, 0xB, .const⟩
/-- TIME.SRC_CFG.PRI_PROGRAM bits [5:4] (chapter 13). -/
def TIME_SRC_CFG_PRI_PROGRAM : Fld := ⟨.time, 0x5C, 0, 1, 4, 2, .cfg, 0xB, .const⟩
/-- TIME.KP bits [31:0] (chapter 13). -/
def TIME_KP_VAL : Fld := ⟨.time, 0x60, 0, 1, 0, 32, .cfg, 0x3F000000, .const⟩
/-- TIME.KI bits [31:0] (chapter 13). -/
def TIME_KI_VAL : Fld := ⟨.time, 0x64, 0, 1, 0, 32, .cfg, 0x3D4CCCCD, .const⟩
/-- TIME.STEP_CFG.STEP_THR bits [15:0] (chapter 13). -/
def TIME_STEP_CFG_STEP_THR : Fld := ⟨.time, 0x68, 0, 1, 0, 16, .cfg, 0x1F40064, .const⟩
/-- TIME.STEP_CFG.STEP_RUN bits [16] (chapter 13). -/
def TIME_STEP_CFG_STEP_RUN : Fld := ⟨.time, 0x68, 0, 1, 16, 1, .cfg, 0x1F40064, .const⟩
/-- TIME.STEP_CFG.LOCK_THR bits [31:17] (chapter 13). -/
def TIME_STEP_CFG_LOCK_THR : Fld := ⟨.time, 0x68, 0, 1, 17, 15, .cfg, 0x1F40064, .const⟩
/-- TIME.HOLD_CFG.HOLD_TMO bits [11:0] (chapter 13). -/
def TIME_HOLD_CFG_HOLD_TMO : Fld := ⟨.time, 0x6C, 0, 1, 0, 12, .cfg, 0x3C, .const⟩
/-- TIME.HOLD_CFG.SYNC_WAIT bits [23:16] (chapter 13). -/
def TIME_HOLD_CFG_SYNC_WAIT : Fld := ⟨.time, 0x6C, 0, 1, 16, 8, .cfg, 0x3C, .const⟩
/-- TIME.OFS bits [31:0] (chapter 13). -/
def TIME_OFS_VAL : Fld := ⟨.time, 0x70, 0, 1, 0, 32, .ro, 0x0, .const⟩
/-- TIME.FREQ bits [31:0] (chapter 13). -/
def TIME_FREQ_VAL : Fld := ⟨.time, 0x74, 0, 1, 0, 32, .ro, 0x0, .const⟩
/-- TIME.STEPS.STEPS bits [15:0] (chapter 13). -/
def TIME_STEPS_STEPS : Fld := ⟨.time, 0x78, 0, 1, 0, 16, .rc, 0x0, .const⟩
/-- TIME.STEPS.DROPPED bits [31:16] (chapter 13). -/
def TIME_STEPS_DROPPED : Fld := ⟨.time, 0x78, 0, 1, 16, 16, .rc, 0x0, .const⟩
/-- TIME.LASTSTEP_LO bits [31:0] (chapter 13). -/
def TIME_LASTSTEP_LO_VAL : Fld := ⟨.time, 0x7C, 0, 1, 0, 32, .ro, 0x0, .const⟩
/-- TIME.LASTSTEP_HI bits [31:0] (chapter 13). -/
def TIME_LASTSTEP_HI_VAL : Fld := ⟨.time, 0x80, 0, 1, 0, 32, .ro, 0x0, .const⟩
/-- TIME.UTC.OFFSET bits [15:0] (chapter 13). -/
def TIME_UTC_OFFSET : Fld := ⟨.time, 0x84, 0, 1, 0, 16, .ro, 0x0, .const⟩
/-- TIME.UTC.VALID bits [16] (chapter 13). -/
def TIME_UTC_VALID : Fld := ⟨.time, 0x84, 0, 1, 16, 1, .ro, 0x0, .const⟩
/-- TIME.UTC.LEAP61 bits [17] (chapter 13). -/
def TIME_UTC_LEAP61 : Fld := ⟨.time, 0x84, 0, 1, 17, 1, .ro, 0x0, .const⟩
/-- TIME.UTC.LEAP59 bits [18] (chapter 13). -/
def TIME_UTC_LEAP59 : Fld := ⟨.time, 0x84, 0, 1, 18, 1, .ro, 0x0, .const⟩
/-- TIME.PAIR_DLY bits [15:0] (chapter 13). -/
def TIME_PAIR_DLY_NS : Fld := ⟨.time, 0x88, 0, 1, 0, 16, .cfg, 0x32, .const⟩
/-- TIME.PTP_CFG.MODE bits [1:0] (chapter 13). -/
def TIME_PTP_CFG_MODE : Fld := ⟨.time, 0x90, 0, 1, 0, 2, .cfg, 0xF8F80020, .const⟩
/-- TIME.PTP_CFG.PTP_PORT bits [2] (chapter 13). -/
def TIME_PTP_CFG_PTP_PORT : Fld := ⟨.time, 0x90, 0, 1, 2, 1, .cfg, 0xF8F80020, .const⟩
/-- TIME.PTP_CFG.TRANSPORT bits [3] (chapter 13). -/
def TIME_PTP_CFG_TRANSPORT : Fld := ⟨.time, 0x90, 0, 1, 3, 1, .cfg, 0xF8F80020, .const⟩
/-- TIME.PTP_CFG.DELAY bits [4] (chapter 13). -/
def TIME_PTP_CFG_DELAY : Fld := ⟨.time, 0x90, 0, 1, 4, 1, .cfg, 0xF8F80020, .const⟩
/-- TIME.PTP_CFG.SLAVE_ONLY bits [5] (chapter 13). -/
def TIME_PTP_CFG_SLAVE_ONLY : Fld := ⟨.time, 0x90, 0, 1, 5, 1, .cfg, 0xF8F80020, .const⟩
/-- TIME.PTP_CFG.DOMAIN bits [12:6] (chapter 13). -/
def TIME_PTP_CFG_DOMAIN : Fld := ⟨.time, 0x90, 0, 1, 6, 7, .cfg, 0xF8F80020, .const⟩
/-- TIME.PTP_CFG.PRIO1 bits [23:16] (chapter 13). -/
def TIME_PTP_CFG_PRIO1 : Fld := ⟨.time, 0x90, 0, 1, 16, 8, .cfg, 0xF8F80020, .const⟩
/-- TIME.PTP_CFG.PRIO2 bits [31:24] (chapter 13). -/
def TIME_PTP_CFG_PRIO2 : Fld := ⟨.time, 0x90, 0, 1, 24, 8, .cfg, 0xF8F80020, .const⟩
/-- TIME.PTP_INT.LOG_SYNC bits [3:0] (chapter 13). -/
def TIME_PTP_INT_LOG_SYNC : Fld := ⟨.time, 0x94, 0, 1, 0, 4, .cfg, 0x3E83100, .const⟩
/-- TIME.PTP_INT.LOG_DREQ bits [7:4] (chapter 13). -/
def TIME_PTP_INT_LOG_DREQ : Fld := ⟨.time, 0x94, 0, 1, 4, 4, .cfg, 0x3E83100, .const⟩
/-- TIME.PTP_INT.LOG_ANN bits [11:8] (chapter 13). -/
def TIME_PTP_INT_LOG_ANN : Fld := ⟨.time, 0x94, 0, 1, 8, 4, .cfg, 0x3E83100, .const⟩
/-- TIME.PTP_INT.ANN_TMO bits [15:12] (chapter 13). -/
def TIME_PTP_INT_ANN_TMO : Fld := ⟨.time, 0x94, 0, 1, 12, 4, .cfg, 0x3E83100, .const⟩
/-- TIME.PTP_INT.DLY_GATE bits [31:16] (chapter 13). -/
def TIME_PTP_INT_DLY_GATE : Fld := ⟨.time, 0x94, 0, 1, 16, 16, .cfg, 0x3E83100, .const⟩
/-- TIME.PTP_STAT.HP0 bits [3:0] (chapter 13). -/
def TIME_PTP_STAT_HP0 : Fld := ⟨.time, 0x98, 0, 1, 0, 4, .ro, 0x0, .const⟩
/-- TIME.PTP_STAT.HP1 bits [7:4] (chapter 13). -/
def TIME_PTP_STAT_HP1 : Fld := ⟨.time, 0x98, 0, 1, 4, 4, .ro, 0x0, .const⟩
/-- TIME.PTP_STAT.GM_CLASS bits [15:8] (chapter 13). -/
def TIME_PTP_STAT_GM_CLASS : Fld := ⟨.time, 0x98, 0, 1, 8, 8, .ro, 0x0, .const⟩
/-- TIME.PTP_STAT.STEPS_RM bits [31:16] (chapter 13). -/
def TIME_PTP_STAT_STEPS_RM : Fld := ⟨.time, 0x98, 0, 1, 16, 16, .ro, 0x0, .const⟩
/-- TIME.PTP_DLY bits [31:0] (chapter 13). -/
def TIME_PTP_DLY_NS : Fld := ⟨.time, 0x9C, 0, 1, 0, 32, .ro, 0x0, .const⟩
/-- TIME.PTP_GM_LO bits [31:0] (chapter 13). -/
def TIME_PTP_GM_LO_ID : Fld := ⟨.time, 0xA0, 0, 1, 0, 32, .ro, 0x0, .const⟩
/-- TIME.PTP_GM_HI bits [31:0] (chapter 13). -/
def TIME_PTP_GM_HI_ID : Fld := ⟨.time, 0xA4, 0, 1, 0, 32, .ro, 0x0, .const⟩
/-- TIME.PTP_CNT.DISC bits [15:0] (chapter 13). -/
def TIME_PTP_CNT_DISC : Fld := ⟨.time, 0xA8, 0, 1, 0, 16, .rc, 0x0, .const⟩
/-- TIME.PTP_CNT.DLY_REJ bits [31:16] (chapter 13). -/
def TIME_PTP_CNT_DLY_REJ : Fld := ⟨.time, 0xA8, 0, 1, 16, 16, .rc, 0x0, .const⟩
/-- TIME.ALARMS bits [7:0] (chapter 13). -/
def TIME_ALARMS_ARMED : Fld := ⟨.time, 0xAC, 0, 1, 0, 8, .ro, 0x0, .const⟩
/-- TIME.TP_CFG bits [0] (chapter 13). -/
def TIME_TP_CFG_IDLE_LVL : Fld := ⟨.time, 0x100, 16, 4, 0, 1, .cfg, 0x0, .const⟩
/-- TIME.TP_STAT.PEND bits [4:0] (chapter 13). -/
def TIME_TP_STAT_PEND : Fld := ⟨.time, 0x104, 16, 4, 0, 5, .ro, 0x80, .const⟩
/-- TIME.TP_STAT.PERIODIC bits [5] (chapter 13). -/
def TIME_TP_STAT_PERIODIC : Fld := ⟨.time, 0x104, 16, 4, 5, 1, .ro, 0x80, .const⟩
/-- TIME.TP_STAT.LEVEL bits [6] (chapter 13). -/
def TIME_TP_STAT_LEVEL : Fld := ⟨.time, 0x104, 16, 4, 6, 1, .ro, 0x80, .const⟩
/-- TIME.TP_STAT.HIZ bits [7] (chapter 13). -/
def TIME_TP_STAT_HIZ : Fld := ⟨.time, 0x104, 16, 4, 7, 1, .ro, 0x80, .const⟩
/-- TIME.TP_STAT.LATE bits [31:16] (chapter 13). -/
def TIME_TP_STAT_LATE : Fld := ⟨.time, 0x104, 16, 4, 16, 16, .rc, 0x80, .const⟩
/-- TIME.TC_CFG bits [1:0] (chapter 13). -/
def TIME_TC_CFG_EDGE : Fld := ⟨.time, 0x180, 16, 4, 0, 2, .cfg, 0x1, .const⟩
/-- TIME.TC_STAT.FILL bits [4:0] (chapter 13). -/
def TIME_TC_STAT_FILL : Fld := ⟨.time, 0x184, 16, 4, 0, 5, .ro, 0x0, .const⟩
/-- TIME.TC_STAT.LEVEL bits [5] (chapter 13). -/
def TIME_TC_STAT_LEVEL : Fld := ⟨.time, 0x184, 16, 4, 5, 1, .ro, 0x0, .const⟩
/-- TIME.TC_STAT.DROPPED bits [31:16] (chapter 13). -/
def TIME_TC_STAT_DROPPED : Fld := ⟨.time, 0x184, 16, 4, 16, 16, .rc, 0x0, .const⟩
/-- CAN.SNAP_CNT1 bits [31:0] (chapter 14). -/
def CAN_SNAP_CNT1_VAL : Fld := ⟨.can, 0x40, 0, 1, 0, 32, .ro, 0x0, .const⟩
/-- CAN.SNAP_T1_LO bits [31:0] (chapter 14). -/
def CAN_SNAP_T1_LO_VAL : Fld := ⟨.can, 0x44, 0, 1, 0, 32, .ro, 0x0, .const⟩
/-- CAN.SNAP_T1_HI bits [31:0] (chapter 14). -/
def CAN_SNAP_T1_HI_VAL : Fld := ⟨.can, 0x48, 0, 1, 0, 32, .ro, 0x0, .const⟩
/-- CAN.SNAP_CNT0 bits [31:0] (chapter 14). -/
def CAN_SNAP_CNT0_VAL : Fld := ⟨.can, 0x4C, 0, 1, 0, 32, .ro, 0x0, .const⟩
/-- CAN.SNAP_T0_LO bits [31:0] (chapter 14). -/
def CAN_SNAP_T0_LO_VAL : Fld := ⟨.can, 0x50, 0, 1, 0, 32, .ro, 0x0, .const⟩
/-- CAN.SNAP_T0_HI bits [31:0] (chapter 14). -/
def CAN_SNAP_T0_HI_VAL : Fld := ⟨.can, 0x54, 0, 1, 0, 32, .ro, 0x0, .const⟩
/-- CAN.C_NBT.BRP bits [4:0] (chapter 14). -/
def CAN_C_NBT_BRP : Fld := ⟨.canCh, 0x40, 0, 1, 0, 5, .cfg, 0x1F3EFC0, .const⟩
/-- CAN.C_NBT.TSEG1 bits [12:5] (chapter 14). -/
def CAN_C_NBT_TSEG1 : Fld := ⟨.canCh, 0x40, 0, 1, 5, 8, .cfg, 0x1F3EFC0, .const⟩
/-- CAN.C_NBT.TSEG2 bits [19:13] (chapter 14). -/
def CAN_C_NBT_TSEG2 : Fld := ⟨.canCh, 0x40, 0, 1, 13, 7, .cfg, 0x1F3EFC0, .const⟩
/-- CAN.C_NBT.SJW bits [26:20] (chapter 14). -/
def CAN_C_NBT_SJW : Fld := ⟨.canCh, 0x40, 0, 1, 20, 7, .cfg, 0x1F3EFC0, .const⟩
/-- CAN.C_DBT.DBRP bits [2:0] (chapter 14). -/
def CAN_C_DBT_DBRP : Fld := ⟨.canCh, 0x44, 0, 1, 0, 3, .cfg, 0x9E99E0, .const⟩
/-- CAN.C_DBT.DTSEG1 bits [7:3] (chapter 14). -/
def CAN_C_DBT_DTSEG1 : Fld := ⟨.canCh, 0x44, 0, 1, 3, 5, .cfg, 0x9E99E0, .const⟩
/-- CAN.C_DBT.DTSEG2 bits [11:8] (chapter 14). -/
def CAN_C_DBT_DTSEG2 : Fld := ⟨.canCh, 0x44, 0, 1, 8, 4, .cfg, 0x9E99E0, .const⟩
/-- CAN.C_DBT.DSJW bits [15:12] (chapter 14). -/
def CAN_C_DBT_DSJW : Fld := ⟨.canCh, 0x44, 0, 1, 12, 4, .cfg, 0x9E99E0, .const⟩
/-- CAN.C_DBT.TDCO bits [22:16] (chapter 14). -/
def CAN_C_DBT_TDCO : Fld := ⟨.canCh, 0x44, 0, 1, 16, 7, .cfg, 0x9E99E0, .const⟩
/-- CAN.C_DBT.TDC_EN bits [23] (chapter 14). -/
def CAN_C_DBT_TDC_EN : Fld := ⟨.canCh, 0x44, 0, 1, 23, 1, .cfg, 0x9E99E0, .const⟩
/-- CAN.C_CFG.FD_EN bits [0] (chapter 14). -/
def CAN_C_CFG_FD_EN : Fld := ⟨.canCh, 0x48, 0, 1, 0, 1, .cfg, 0x1, .const⟩
/-- CAN.C_CFG.LISTEN bits [1] (chapter 14). -/
def CAN_C_CFG_LISTEN : Fld := ⟨.canCh, 0x48, 0, 1, 1, 1, .cfg, 0x1, .const⟩
/-- CAN.C_CFG.REST bits [2] (chapter 14). -/
def CAN_C_CFG_REST : Fld := ⟨.canCh, 0x48, 0, 1, 2, 1, .ro, 0x1, .const⟩
/-- CAN.C_ERR.TEC bits [7:0] (chapter 14). -/
def CAN_C_ERR_TEC : Fld := ⟨.canCh, 0x4C, 0, 1, 0, 8, .ro, 0x0, .const⟩
/-- CAN.C_ERR.REC bits [14:8] (chapter 14). -/
def CAN_C_ERR_REC : Fld := ⟨.canCh, 0x4C, 0, 1, 8, 7, .ro, 0x0, .const⟩
/-- CAN.C_ERR.RP bits [15] (chapter 14). -/
def CAN_C_ERR_RP : Fld := ⟨.canCh, 0x4C, 0, 1, 15, 1, .ro, 0x0, .const⟩
/-- CAN.C_ERR.STATE bits [17:16] (chapter 14). -/
def CAN_C_ERR_STATE : Fld := ⟨.canCh, 0x4C, 0, 1, 16, 2, .ro, 0x0, .const⟩
/-- CAN.C_ERR.ASLEEP bits [18] (chapter 14). -/
def CAN_C_ERR_ASLEEP : Fld := ⟨.canCh, 0x4C, 0, 1, 18, 1, .ro, 0x0, .const⟩
/-- CAN.C_ERR.WCAUSE bits [20:19] (chapter 14). -/
def CAN_C_ERR_WCAUSE : Fld := ⟨.canCh, 0x4C, 0, 1, 19, 2, .ro, 0x0, .const⟩
/-- CAN.C_ERR.BOFFS bits [31:24] (chapter 14). -/
def CAN_C_ERR_BOFFS : Fld := ⟨.canCh, 0x4C, 0, 1, 24, 8, .rc, 0x0, .const⟩
/-- CAN.C_Q.TXF bits [6:0] (chapter 14). -/
def CAN_C_Q_TXF : Fld := ⟨.canCh, 0x50, 0, 1, 0, 7, .ro, 0x0, .const⟩
/-- CAN.C_Q.MBX bits [10:7] (chapter 14). -/
def CAN_C_Q_MBX : Fld := ⟨.canCh, 0x50, 0, 1, 7, 4, .ro, 0x0, .const⟩
/-- CAN.C_Q.RXF bits [19:11] (chapter 14). -/
def CAN_C_Q_RXF : Fld := ⟨.canCh, 0x50, 0, 1, 11, 9, .ro, 0x0, .const⟩
/-- CAN.C_CNT.NOMATCH bits [15:0] (chapter 14). -/
def CAN_C_CNT_NOMATCH : Fld := ⟨.canCh, 0x54, 0, 1, 0, 16, .rc, 0x0, .const⟩
/-- CAN.C_CNT.OVF bits [31:16] (chapter 14). -/
def CAN_C_CNT_OVF : Fld := ⟨.canCh, 0x54, 0, 1, 16, 16, .rc, 0x0, .const⟩
/-- CAN.C_CONFLICT.ID bits [28:0] (chapter 14). -/
def CAN_C_CONFLICT_ID : Fld := ⟨.canCh, 0x58, 0, 1, 0, 29, .ro, 0x0, .const⟩
/-- CAN.C_CONFLICT.IDE bits [29] (chapter 14). -/
def CAN_C_CONFLICT_IDE : Fld := ⟨.canCh, 0x58, 0, 1, 29, 1, .ro, 0x0, .const⟩
/-- CAN.C_CONFLICT.DIR bits [30] (chapter 14). -/
def CAN_C_CONFLICT_DIR : Fld := ⟨.canCh, 0x58, 0, 1, 30, 1, .ro, 0x0, .const⟩
/-- CAN.C_CONFLICT.VALID bits [31] (chapter 14). -/
def CAN_C_CONFLICT_VALID : Fld := ⟨.canCh, 0x58, 0, 1, 31, 1, .w1c, 0x0, .const⟩
/-- CAN.C_WKCFG.WK_MODE bits [0] (chapter 14). -/
def CAN_C_WKCFG_WK_MODE : Fld := ⟨.canCh, 0x5C, 0, 1, 0, 1, .cfg, 0x114, .const⟩
/-- CAN.C_WKCFG.WK_FILT bits [6:1] (chapter 14). -/
def CAN_C_WKCFG_WK_FILT : Fld := ⟨.canCh, 0x5C, 0, 1, 1, 6, .cfg, 0x114, .const⟩
/-- CAN.C_WKCFG.WK_RATE bits [8:7] (chapter 14). -/
def CAN_C_WKCFG_WK_RATE : Fld := ⟨.canCh, 0x5C, 0, 1, 7, 2, .cfg, 0x114, .const⟩
/-- CAN.C_WKCFG.WK_IDE bits [9] (chapter 14). -/
def CAN_C_WKCFG_WK_IDE : Fld := ⟨.canCh, 0x5C, 0, 1, 9, 1, .cfg, 0x114, .const⟩
/-- CAN.C_WKCFG.WK_DLC bits [13:10] (chapter 14). -/
def CAN_C_WKCFG_WK_DLC : Fld := ⟨.canCh, 0x5C, 0, 1, 10, 4, .cfg, 0x114, .const⟩
/-- CAN.C_WKCFG.DLC_EN bits [14] (chapter 14). -/
def CAN_C_WKCFG_DLC_EN : Fld := ⟨.canCh, 0x5C, 0, 1, 14, 1, .cfg, 0x114, .const⟩
/-- CAN.C_WKID bits [28:0] (chapter 14). -/
def CAN_C_WKID_VAL : Fld := ⟨.canCh, 0x60, 0, 1, 0, 29, .cfg, 0x0, .const⟩
/-- CAN.C_WKMASK bits [28:0] (chapter 14). -/
def CAN_C_WKMASK_VAL : Fld := ⟨.canCh, 0x64, 0, 1, 0, 29, .cfg, 0x0, .const⟩
/-- CAN.C_WKDM_LO bits [31:0] (chapter 14). -/
def CAN_C_WKDM_LO_VAL : Fld := ⟨.canCh, 0x68, 0, 1, 0, 32, .cfg, 0x0, .const⟩
/-- CAN.C_WKDM_HI bits [31:0] (chapter 14). -/
def CAN_C_WKDM_HI_VAL : Fld := ⟨.canCh, 0x6C, 0, 1, 0, 32, .cfg, 0x0, .const⟩
/-- CAN.C_WAKE_LO bits [31:0] (chapter 14). -/
def CAN_C_WAKE_LO_STAMP : Fld := ⟨.canCh, 0x70, 0, 1, 0, 32, .ro, 0x0, .const⟩
/-- CAN.C_WAKE_HI bits [31:0] (chapter 14). -/
def CAN_C_WAKE_HI_STAMP : Fld := ⟨.canCh, 0x74, 0, 1, 0, 32, .ro, 0x0, .const⟩
/-- CAN.C_TXID.ID bits [28:0] (chapter 14). -/
def CAN_C_TXID_ID : Fld := ⟨.canCh, 0x100, 4, 32, 0, 29, .cfg, 0x0, .const⟩
/-- CAN.C_TXID.IDE bits [29] (chapter 14). -/
def CAN_C_TXID_IDE : Fld := ⟨.canCh, 0x100, 4, 32, 29, 1, .cfg, 0x0, .const⟩
/-- CAN.C_TXID.EN bits [31] (chapter 14). -/
def CAN_C_TXID_EN : Fld := ⟨.canCh, 0x100, 4, 32, 31, 1, .cfg, 0x0, .const⟩
/-- CAN.C_FID.VAL bits [28:0] (chapter 14). -/
def CAN_C_FID_VAL : Fld := ⟨.canCh, 0x400, 8, 128, 0, 29, .cfg, 0x0, .const⟩
/-- CAN.C_FID.IDE bits [29] (chapter 14). -/
def CAN_C_FID_IDE : Fld := ⟨.canCh, 0x400, 8, 128, 29, 1, .cfg, 0x0, .const⟩
/-- CAN.C_FID.EN bits [31] (chapter 14). -/
def CAN_C_FID_EN : Fld := ⟨.canCh, 0x400, 8, 128, 31, 1, .cfg, 0x0, .const⟩
/-- CAN.C_FMASK.VAL bits [28:0] (chapter 14). -/
def CAN_C_FMASK_VAL : Fld := ⟨.canCh, 0x404, 8, 128, 0, 29, .cfg, 0x0, .const⟩
/-- CAN.C_FMASK.ACT bits [30] (chapter 14). -/
def CAN_C_FMASK_ACT : Fld := ⟨.canCh, 0x404, 8, 128, 30, 1, .cfg, 0x0, .const⟩
/-- HOST.CFG.MGMT_PORT bits [15:0] (chapter 15). -/
def HOST_CFG_MGMT_PORT : Fld := ⟨.host, 0x40, 0, 1, 0, 16, .cfg, 0xA801D24, .const⟩
/-- HOST.CFG.ENG_PLANES bits [16] (chapter 15). -/
def HOST_CFG_ENG_PLANES : Fld := ⟨.host, 0x40, 0, 1, 16, 1, .cfg, 0xA801D24, .const⟩
/-- HOST.CFG.MB_EN bits [17] (chapter 15). -/
def HOST_CFG_MB_EN : Fld := ⟨.host, 0x40, 0, 1, 17, 1, .cfg, 0xA801D24, .const⟩
/-- HOST.CFG.NMEA_EN bits [18] (chapter 15). -/
def HOST_CFG_NMEA_EN : Fld := ⟨.host, 0x40, 0, 1, 18, 1, .cfg, 0xA801D24, .const⟩
/-- HOST.CFG.MAXSESS bits [23:20] (chapter 15). -/
def HOST_CFG_MAXSESS : Fld := ⟨.host, 0x40, 0, 1, 20, 4, .cfg, 0xA801D24, .const⟩
/-- HOST.CFG.NMEA_TMO bits [31:24] (chapter 15). -/
def HOST_CFG_NMEA_TMO : Fld := ⟨.host, 0x40, 0, 1, 24, 8, .cfg, 0xA801D24, .const⟩
/-- HOST.SESS.OPEN bits [3:0] (chapter 15). -/
def HOST_SESS_OPEN : Fld := ⟨.host, 0x44, 0, 1, 0, 4, .ro, 0x0, .const⟩
/-- HOST.SESS.AUTHFAIL bits [31:16] (chapter 15). -/
def HOST_SESS_AUTHFAIL : Fld := ⟨.host, 0x44, 0, 1, 16, 16, .rc, 0x0, .const⟩
/-- HOST.LOAD.STATE bits [1:0] (chapter 15). -/
def HOST_LOAD_STATE : Fld := ⟨.host, 0x48, 0, 1, 0, 2, .ro, 0x0, .const⟩
/-- HOST.LOAD.KIND bits [3:2] (chapter 15). -/
def HOST_LOAD_KIND : Fld := ⟨.host, 0x48, 0, 1, 2, 2, .ro, 0x0, .const⟩
/-- HOST.LOAD.PCT bits [10:4] (chapter 15). -/
def HOST_LOAD_PCT : Fld := ⟨.host, 0x48, 0, 1, 4, 7, .ro, 0x0, .const⟩
/-- HOST.MB_GATE bits [0] (chapter 15). -/
def HOST_MB_GATE_GATE : Fld := ⟨.host, 0x4C, 0, 1, 0, 1, .rw, 0x0, .const⟩
/-- HOST.MB_CNT.A bits [15:0] (chapter 15). -/
def HOST_MB_CNT_A : Fld := ⟨.host, 0x50, 0, 1, 0, 16, .rc, 0x0, .const⟩
/-- HOST.MB_CNT.B bits [31:16] (chapter 15). -/
def HOST_MB_CNT_B : Fld := ⟨.host, 0x50, 0, 1, 16, 16, .rc, 0x0, .const⟩
/-- HOST.NMEA_CNT.A bits [15:0] (chapter 15). -/
def HOST_NMEA_CNT_A : Fld := ⟨.host, 0x54, 0, 1, 0, 16, .rc, 0x0, .const⟩
/-- HOST.NMEA_CNT.B bits [31:16] (chapter 15). -/
def HOST_NMEA_CNT_B : Fld := ⟨.host, 0x54, 0, 1, 16, 16, .rc, 0x0, .const⟩
/-- HOST.KEYS.PRESENT bits [3:0] (chapter 15). -/
def HOST_KEYS_PRESENT : Fld := ⟨.host, 0x58, 0, 1, 0, 4, .ro, 0x0, .const⟩
/-- HOST.KEYS.SAFETY bits [7:4] (chapter 15). -/
def HOST_KEYS_SAFETY : Fld := ⟨.host, 0x58, 0, 1, 4, 4, .ro, 0x0, .const⟩
/-- HOST.Pn_CFG bits [0] (chapter 15). -/
def HOST_Pn_CFG_EN : Fld := ⟨.host, 0x100, 32, 4, 0, 1, .cfg, 0x0, .const⟩
/-- HOST.Pn_IP bits [31:0] (chapter 15). -/
def HOST_Pn_IP_ADDR : Fld := ⟨.host, 0x104, 32, 4, 0, 32, .cfg, 0x0, .const⟩
/-- HOST.Pn_MASK bits [31:0] (chapter 15). -/
def HOST_Pn_MASK_ADDR : Fld := ⟨.host, 0x108, 32, 4, 0, 32, .cfg, 0x0, .const⟩
/-- HOST.Pn_GW bits [31:0] (chapter 15). -/
def HOST_Pn_GW_ADDR : Fld := ⟨.host, 0x10C, 32, 4, 0, 32, .cfg, 0x0, .const⟩
/-- HOST.Pn_LINK.UP bits [0] (chapter 15). -/
def HOST_Pn_LINK_UP : Fld := ⟨.host, 0x110, 32, 4, 0, 1, .ro, 0x0, .const⟩
/-- HOST.Pn_LINK.DISC bits [15:1] (chapter 15). -/
def HOST_Pn_LINK_DISC : Fld := ⟨.host, 0x110, 32, 4, 1, 15, .rc, 0x0, .const⟩
/-- HOST.Pn_LINK.DOWNS bits [31:16] (chapter 15). -/
def HOST_Pn_LINK_DOWNS : Fld := ⟨.host, 0x110, 32, 4, 16, 16, .rc, 0x0, .const⟩
/-- HOST.Pn_MAC_LO bits [31:0] (chapter 15). -/
def HOST_Pn_MAC_LO_MAC : Fld := ⟨.host, 0x114, 32, 4, 0, 32, .ro, 0x0, .const⟩
/-- HOST.Pn_MAC_HI bits [15:0] (chapter 15). -/
def HOST_Pn_MAC_HI_MAC : Fld := ⟨.host, 0x118, 32, 4, 0, 16, .ro, 0x0, .const⟩
/-- REC.STAT.FIXNEXT bits [12:0] (chapter 16). -/
def REC_STAT_FIXNEXT : Fld := ⟨.rcd, 0x40, 0, 1, 0, 13, .ro, 0x0, .const⟩
/-- REC.STAT.WRAPPED bits [13] (chapter 16). -/
def REC_STAT_WRAPPED : Fld := ⟨.rcd, 0x40, 0, 1, 13, 1, .ro, 0x0, .const⟩
/-- REC.STAT.SCANNED bits [14] (chapter 16). -/
def REC_STAT_SCANNED : Fld := ⟨.rcd, 0x40, 0, 1, 14, 1, .ro, 0x0, .const⟩
/-- REC.STAT.MAPPED bits [15] (chapter 16). -/
def REC_STAT_MAPPED : Fld := ⟨.rcd, 0x40, 0, 1, 15, 1, .ro, 0x0, .const⟩
/-- REC.STAT.QLEN bits [23:16] (chapter 16). -/
def REC_STAT_QLEN : Fld := ⟨.rcd, 0x40, 0, 1, 16, 8, .ro, 0x0, .const⟩
/-- REC.CIRCNEXT bits [31:0] (chapter 16). -/
def REC_CIRCNEXT_VAL : Fld := ⟨.rcd, 0x44, 0, 1, 0, 32, .ro, 0x0, .const⟩
/-- REC.SEQ bits [31:0] (chapter 16). -/
def REC_SEQ_VAL : Fld := ⟨.rcd, 0x48, 0, 1, 0, 32, .ro, 0x0, .const⟩
/-- REC.PCC bits [23:0] (chapter 16). -/
def REC_PCC_VAL : Fld := ⟨.rcd, 0x4C, 0, 1, 0, 24, .ro, 0x0, .const⟩
/-- REC.OPSEC bits [31:0] (chapter 16). -/
def REC_OPSEC_VAL : Fld := ⟨.rcd, 0x50, 0, 1, 0, 32, .ro, 0x0, .const⟩
/-- REC.DROP.COUNT bits [15:0] (chapter 16). -/
def REC_DROP_COUNT : Fld := ⟨.rcd, 0x54, 0, 1, 0, 16, .rc, 0x0, .const⟩
/-- REC.DROP.TORN bits [31:16] (chapter 16). -/
def REC_DROP_TORN : Fld := ⟨.rcd, 0x54, 0, 1, 16, 16, .ro, 0x0, .const⟩
/-- REC.WIN.INDEX bits [17:0] (chapter 16). -/
def REC_WIN_INDEX : Fld := ⟨.rcd, 0x58, 0, 1, 0, 18, .rw, 0x0, .const⟩
/-- REC.WIN.AREA bits [31] (chapter 16). -/
def REC_WIN_AREA : Fld := ⟨.rcd, 0x58, 0, 1, 31, 1, .rw, 0x0, .const⟩
/-- REC.WINDATA bits [31:0] (chapter 16). -/
def REC_WINDATA_DATA : Fld := ⟨.rcd, 0x80, 4, 16, 0, 32, .ro, 0x0, .const⟩
/-- REC.S_SRC.ID bits [13:0] (chapter 16). -/
def REC_S_SRC_ID : Fld := ⟨.rcd, 0x100, 16, 64, 0, 14, .cfg, 0x0, .const⟩
/-- REC.S_SRC.KIND bits [19:16] (chapter 16). -/
def REC_S_SRC_KIND : Fld := ⟨.rcd, 0x100, 16, 64, 16, 4, .cfg, 0x0, .const⟩
/-- REC.S_SRC.EN bits [31] (chapter 16). -/
def REC_S_SRC_EN : Fld := ⟨.rcd, 0x100, 16, 64, 31, 1, .cfg, 0x0, .const⟩
/-- REC.S_INT bits [16:0] (chapter 16). -/
def REC_S_INT_SEC : Fld := ⟨.rcd, 0x104, 16, 64, 0, 17, .cfg, 0x3C, .const⟩
/-- REC.S_LO bits [31:0] (chapter 16). -/
def REC_S_LO_VAL : Fld := ⟨.rcd, 0x108, 16, 64, 0, 32, .cfg, 0x0, .const⟩
/-- REC.S_HI bits [31:0] (chapter 16). -/
def REC_S_HI_VAL : Fld := ⟨.rcd, 0x10C, 16, 64, 0, 32, .cfg, 0x0, .const⟩
/-- PNL.STAT.STATE bits [1:0] (chapter 16). -/
def PNL_STAT_STATE : Fld := ⟨.pnl, 0x40, 0, 1, 0, 2, .ro, 0x0, .const⟩
/-- PNL.STAT.REGION bits [4:2] (chapter 16). -/
def PNL_STAT_REGION : Fld := ⟨.pnl, 0x40, 0, 1, 2, 3, .ro, 0x0, .const⟩
/-- PNL.STAT.QLEN bits [8:5] (chapter 16). -/
def PNL_STAT_QLEN : Fld := ⟨.pnl, 0x40, 0, 1, 5, 4, .ro, 0x0, .const⟩
/-- PNL.STAT.BAND bits [11:9] (chapter 16). -/
def PNL_STAT_BAND : Fld := ⟨.pnl, 0x40, 0, 1, 9, 3, .ro, 0x0, .const⟩
/-- PNL.STAT.COLD bits [12] (chapter 16). -/
def PNL_STAT_COLD : Fld := ⟨.pnl, 0x40, 0, 1, 12, 1, .ro, 0x0, .const⟩
/-- PNL.TEMP bits [15:0] (chapter 16). -/
def PNL_TEMP_VAL : Fld := ⟨.pnl, 0x44, 0, 1, 0, 16, .ro, 0x0, .const⟩
/-- PNL.VCOM bits [15:0] (chapter 16). -/
def PNL_VCOM_VAL : Fld := ⟨.pnl, 0x48, 0, 1, 0, 16, .ro, 0x0, .const⟩
/-- PNL.UPD.REGION bits [2:0] (chapter 16). -/
def PNL_UPD_REGION : Fld := ⟨.pnl, 0x4C, 0, 1, 0, 3, .wo, 0x0, .const⟩
/-- PNL.UPD.FULL bits [3] (chapter 16). -/
def PNL_UPD_FULL : Fld := ⟨.pnl, 0x4C, 0, 1, 3, 1, .wo, 0x0, .const⟩
/-- PNL.UPD_RES.CODE bits [15:0] (chapter 16). -/
def PNL_UPD_RES_CODE : Fld := ⟨.pnl, 0x50, 0, 1, 0, 16, .ro, 0x1200, .const⟩
/-- PNL.UPD_RES.REPLACED bits [16] (chapter 16). -/
def PNL_UPD_RES_REPLACED : Fld := ⟨.pnl, 0x50, 0, 1, 16, 1, .ro, 0x1200, .const⟩
/-- PNL.DIRTY.LIVE bits [7:0] (chapter 16). -/
def PNL_DIRTY_LIVE : Fld := ⟨.pnl, 0x54, 0, 1, 0, 8, .ro, 0x0, .const⟩
/-- PNL.DIRTY.BOOT bits [15:8] (chapter 16). -/
def PNL_DIRTY_BOOT : Fld := ⟨.pnl, 0x54, 0, 1, 8, 8, .ro, 0x0, .const⟩
/-- PNL.DIRTY.DISCH bits [16] (chapter 16). -/
def PNL_DIRTY_DISCH : Fld := ⟨.pnl, 0x54, 0, 1, 16, 1, .ro, 0x0, .const⟩
/-- PNL.VT.T bits [15:0] (chapter 16). -/
def PNL_VT_T : Fld := ⟨.pnl, 0x60, 4, 8, 0, 16, .cfg, 0xF8300000, .vcom⟩
/-- PNL.VT.V bits [31:16] (chapter 16). -/
def PNL_VT_V : Fld := ⟨.pnl, 0x60, 4, 8, 16, 16, .cfg, 0xF8300000, .vcom⟩
/-- PNL.RPOS.X0 bits [8:0] (chapter 16). -/
def PNL_RPOS_X0 : Fld := ⟨.pnl, 0x100, 8, 8, 0, 9, .cfg, 0x0, .const⟩
/-- PNL.RPOS.Y0 bits [22:16] (chapter 16). -/
def PNL_RPOS_Y0 : Fld := ⟨.pnl, 0x100, 8, 8, 16, 7, .cfg, 0x0, .const⟩
/-- PNL.RSIZE.W bits [8:0] (chapter 16). -/
def PNL_RSIZE_W : Fld := ⟨.pnl, 0x104, 8, 8, 0, 9, .cfg, 0x7000000, .const⟩
/-- PNL.RSIZE.H bits [23:16] (chapter 16). -/
def PNL_RSIZE_H : Fld := ⟨.pnl, 0x104, 8, 8, 16, 8, .cfg, 0x7000000, .const⟩
/-- PNL.RSIZE.SRC bits [27:24] (chapter 16). -/
def PNL_RSIZE_SRC : Fld := ⟨.pnl, 0x104, 8, 8, 24, 4, .cfg, 0x7000000, .const⟩
/-- PNL.RSIZE.EN bits [31] (chapter 16). -/
def PNL_RSIZE_EN : Fld := ⟨.pnl, 0x104, 8, 8, 31, 1, .cfg, 0x7000000, .const⟩
/-- PNL.FB bits [31:0] (chapter 16). -/
def PNL_FB_PIX : Fld := ⟨.pnl, 0x1000, 4, 1280, 0, 32, .rw, 0x0, .const⟩
/-- SYS.ORDER.VARIANT bits [7:0] (chapter 17). -/
def SYS_ORDER_VARIANT : Fld := ⟨.sys, 0x40, 0, 1, 0, 8, .ro, 0x4100, .const⟩
/-- SYS.ORDER.HWREV bits [15:8] (chapter 17). -/
def SYS_ORDER_HWREV : Fld := ⟨.sys, 0x40, 0, 1, 8, 8, .ro, 0x4100, .const⟩
/-- SYS.SERIAL bits [31:0] (chapter 17). -/
def SYS_SERIAL_SERIAL : Fld := ⟨.sys, 0x44, 0, 1, 0, 32, .ro, 0x0, .const⟩
/-- SYS.FW.RUNNING bits [0] (chapter 17). -/
def SYS_FW_RUNNING : Fld := ⟨.sys, 0x48, 0, 1, 0, 1, .ro, 0x4, .const⟩
/-- SYS.FW.TRIAL bits [1] (chapter 17). -/
def SYS_FW_TRIAL : Fld := ⟨.sys, 0x48, 0, 1, 1, 1, .ro, 0x4, .const⟩
/-- SYS.FW.VALID bits [3:2] (chapter 17). -/
def SYS_FW_VALID : Fld := ⟨.sys, 0x48, 0, 1, 2, 2, .ro, 0x4, .const⟩
/-- SYS.FW.FAILED bits [5:4] (chapter 17). -/
def SYS_FW_FAILED : Fld := ⟨.sys, 0x48, 0, 1, 4, 2, .ro, 0x4, .const⟩
/-- SYS.FW.PREF bits [6] (chapter 17). -/
def SYS_FW_PREF : Fld := ⟨.sys, 0x48, 0, 1, 6, 1, .ro, 0x4, .const⟩
/-- SYS.FW.VERSION bits [31:16] (chapter 17). -/
def SYS_FW_VERSION : Fld := ⟨.sys, 0x48, 0, 1, 16, 16, .ro, 0x4, .const⟩
/-- SYS.RSTCAUSE.CAUSE bits [2:0] (chapter 17). -/
def SYS_RSTCAUSE_CAUSE : Fld := ⟨.sys, 0x4C, 0, 1, 0, 3, .ro, 0x0, .const⟩
/-- SYS.RSTCAUSE.COUNT bits [31:16] (chapter 17). -/
def SYS_RSTCAUSE_COUNT : Fld := ⟨.sys, 0x4C, 0, 1, 16, 16, .ro, 0x0, .const⟩
/-- SYS.BOOT.STEP bits [3:0] (chapter 17). -/
def SYS_BOOT_STEP : Fld := ⟨.sys, 0x50, 0, 1, 0, 4, .ro, 0x0, .const⟩
/-- SYS.BOOT.MS bits [31:8] (chapter 17). -/
def SYS_BOOT_MS : Fld := ⟨.sys, 0x50, 0, 1, 8, 24, .ro, 0x0, .const⟩
/-- SYS.PLL.A_LOCK bits [0] (chapter 17). -/
def SYS_PLL_A_LOCK : Fld := ⟨.sys, 0x54, 0, 1, 0, 1, .ro, 0x7, .const⟩
/-- SYS.PLL.B_LOCK bits [1] (chapter 17). -/
def SYS_PLL_B_LOCK : Fld := ⟨.sys, 0x54, 0, 1, 1, 1, .ro, 0x7, .const⟩
/-- SYS.PLL.SD_LOCK bits [2] (chapter 17). -/
def SYS_PLL_SD_LOCK : Fld := ⟨.sys, 0x54, 0, 1, 2, 1, .ro, 0x7, .const⟩
/-- SYS.PLL.SD_LOSS bits [15:8] (chapter 17). -/
def SYS_PLL_SD_LOSS : Fld := ⟨.sys, 0x54, 0, 1, 8, 8, .rc, 0x7, .const⟩
/-- SYS.CMD bits [2:0] (chapter 17). -/
def SYS_CMD_OP : Fld := ⟨.sys, 0x58, 0, 1, 0, 3, .wo, 0x0, .const⟩
/-- SYS.CMD_RES.CODE bits [15:0] (chapter 17). -/
def SYS_CMD_RES_CODE : Fld := ⟨.sys, 0x5C, 0, 1, 0, 16, .ro, 0x100, .const⟩
/-- SYS.CMD_RES.OP bits [18:16] (chapter 17). -/
def SYS_CMD_RES_OP : Fld := ⟨.sys, 0x5C, 0, 1, 16, 3, .ro, 0x100, .const⟩
/-- PWR.FEED.VA bits [11:0] (chapter 17). -/
def PWR_FEED_VA : Fld := ⟨.pwr, 0x40, 0, 1, 0, 12, .ro, 0x3960960, .const⟩
/-- PWR.FEED.VB bits [23:12] (chapter 17). -/
def PWR_FEED_VB : Fld := ⟨.pwr, 0x40, 0, 1, 12, 12, .ro, 0x3960960, .const⟩
/-- PWR.FEED.A_OK bits [24] (chapter 17). -/
def PWR_FEED_A_OK : Fld := ⟨.pwr, 0x40, 0, 1, 24, 1, .ro, 0x3960960, .const⟩
/-- PWR.FEED.B_OK bits [25] (chapter 17). -/
def PWR_FEED_B_OK : Fld := ⟨.pwr, 0x40, 0, 1, 25, 1, .ro, 0x3960960, .const⟩
/-- PWR.FEED.PFW bits [26] (chapter 17). -/
def PWR_FEED_PFW : Fld := ⟨.pwr, 0x40, 0, 1, 26, 1, .ro, 0x3960960, .const⟩
/-- PWR.FEEDLOSS.A bits [15:0] (chapter 17). -/
def PWR_FEEDLOSS_A : Fld := ⟨.pwr, 0x44, 0, 1, 0, 16, .rc, 0x0, .const⟩
/-- PWR.FEEDLOSS.B bits [31:16] (chapter 17). -/
def PWR_FEEDLOSS_B : Fld := ⟨.pwr, 0x44, 0, 1, 16, 16, .rc, 0x0, .const⟩
/-- PWR.HOLDUP.TIME bits [15:0] (chapter 17). -/
def PWR_HOLDUP_TIME : Fld := ⟨.pwr, 0x48, 0, 1, 0, 16, .ro, 0x0, .const⟩
/-- PWR.HOLDUP.FLAG bits [16] (chapter 17). -/
def PWR_HOLDUP_FLAG : Fld := ⟨.pwr, 0x48, 0, 1, 16, 1, .ro, 0x0, .const⟩
/-- PWR.LASTPF.TIME bits [15:0] (chapter 17). -/
def PWR_LASTPF_TIME : Fld := ⟨.pwr, 0x4C, 0, 1, 0, 16, .ro, 0x0, .const⟩
/-- PWR.LASTPF.FLAG bits [16] (chapter 17). -/
def PWR_LASTPF_FLAG : Fld := ⟨.pwr, 0x4C, 0, 1, 16, 1, .ro, 0x0, .const⟩
/-- PWR.LASTPF.ABD bits [17] (chapter 17). -/
def PWR_LASTPF_ABD : Fld := ⟨.pwr, 0x4C, 0, 1, 17, 1, .ro, 0x0, .const⟩
/-- PWR.POLICY.MODE bits [0] (chapter 17). -/
def PWR_POLICY_MODE : Fld := ⟨.pwr, 0x50, 0, 1, 0, 1, .cfg, 0x65, .const⟩
/-- PWR.POLICY.RESP bits [10:1] (chapter 17). -/
def PWR_POLICY_RESP : Fld := ⟨.pwr, 0x50, 0, 1, 1, 10, .cfg, 0x65, .const⟩
/-- PWR.IDLE.LC bits [11:0] (chapter 17). -/
def PWR_IDLE_LC : Fld := ⟨.pwr, 0x54, 0, 1, 0, 12, .ro, 0x0, .const⟩
/-- PWR.IDLE.LOOP bits [13:12] (chapter 17). -/
def PWR_IDLE_LOOP : Fld := ⟨.pwr, 0x54, 0, 1, 12, 2, .ro, 0x0, .const⟩
/-- PWR.IDLE.PROF bits [15:14] (chapter 17). -/
def PWR_IDLE_PROF : Fld := ⟨.pwr, 0x54, 0, 1, 14, 2, .ro, 0x0, .const⟩
/-- PWR.IDLE.VAX bits [17:16] (chapter 17). -/
def PWR_IDLE_VAX : Fld := ⟨.pwr, 0x54, 0, 1, 16, 2, .ro, 0x0, .const⟩
/-- PWR.IDLE.BSN bits [19:18] (chapter 17). -/
def PWR_IDLE_BSN : Fld := ⟨.pwr, 0x54, 0, 1, 18, 2, .ro, 0x0, .const⟩
/-- PWR.IDLE.TRC bits [21:20] (chapter 17). -/
def PWR_IDLE_TRC : Fld := ⟨.pwr, 0x54, 0, 1, 20, 2, .ro, 0x0, .const⟩
/-- PWR.NAPS bits [31:0] (chapter 17). -/
def PWR_NAPS_COUNT : Fld := ⟨.pwr, 0x58, 0, 1, 0, 32, .rc, 0x0, .const⟩
/-- PWR.TEMP bits [15:0] (chapter 17). -/
def PWR_TEMP_T : Fld := ⟨.pwr, 0x60, 4, 4, 0, 16, .ro, 0xFA, .const⟩
/-- SYS.RA_TIO bits [3:0] (chapter 17). -/
def SYS_RA_TIO_DO_TP : Fld := ⟨.sys, 0x60, 0, 1, 0, 4, .cfg, 0x0, .const⟩
/-- SYS.RA_REF.KIND bits [3:0] (chapter 17). -/
def SYS_RA_REF_KIND : Fld := ⟨.sys, 0x64, 0, 1, 0, 4, .ro, 0x0, .const⟩
/-- SYS.RA_REF.NUMBER bits [19:4] (chapter 17). -/
def SYS_RA_REF_NUMBER : Fld := ⟨.sys, 0x64, 0, 1, 4, 16, .ro, 0x0, .const⟩
/-- SYS.RA_REF.UNIT bits [27:20] (chapter 17). -/
def SYS_RA_REF_UNIT : Fld := ⟨.sys, 0x64, 0, 1, 20, 8, .ro, 0x0, .const⟩
/-- SYS.RA_REF.OVR bits [30] (chapter 17). -/
def SYS_RA_REF_OVR : Fld := ⟨.sys, 0x64, 0, 1, 30, 1, .ro, 0x0, .const⟩
/-- SYS.RA_REF.VALID bits [31] (chapter 17). -/
def SYS_RA_REF_VALID : Fld := ⟨.sys, 0x64, 0, 1, 31, 1, .w1c, 0x0, .const⟩

/-- The fields of the tsk block. -/
def fields_tsk : List Fld :=
  [TSK_KEY_POS, TSK_KEY_RAW, TSK_KEY_KFAULT, TSK_KEY_WIPED, TSK_RESTART_TYPE, TSK_RESTART_CAUSE, TSK_RESTART_SRC, TSK_RESTART_FELLBACK, TSK_CMD_OP, TSK_CMD_ARG, TSK_CMD_RES_CODE, TSK_CMD_RES_OP] ++
  [TSK_SLOT_ACTIVE, TSK_SLOT_OLC, TSK_SLOT_POSTP, TSK_GEN_A_GEN, TSK_GEN_B_GEN, TSK_PROF_ACT, TSK_PROF_SRCSEL, TSK_PROF_PINS, TSK_PROF_CMDVAL, TSK_PROF_BUSY, TSK_PROF_HELD, TSK_PERIOD_C0_US] ++
  [TSK_PERIOD_C1_US, TSK_PERIOD_C2_US, TSK_PERIOD_S_US, TSK_OVR_POL_C0, TSK_OVR_POL_C1, TSK_OVR_POL_C2, TSK_OVR_SKIPMAX_C0, TSK_OVR_SKIPMAX_C1, TSK_OVR_SKIPMAX_C2, TSK_RESTART_CFG_PWRON, TSK_RESTART_CFG_WARM_FAIL, TSK_FQ_COUNT] ++
  [TSK_FQ_DROPPED, TSK_FQ_NESTED, TSK_T_CFG_NSEG, TSK_T_CFG_CORE0, TSK_T_CFG_CORE1, TSK_T_CFG_CORE2, TSK_T_CFG_CORE3, TSK_T_CFG_BAND, TSK_T_BUDGET_NS, TSK_T_STAT_ST, TSK_T_STAT_QLEN, TSK_T_STAT_SKIPPING] ++
  [TSK_T_STAT_SKIPRUN, TSK_T_STAT_LASTCODE, TSK_T_RELS_COUNT, TSK_T_SKIPS_OVERRUNS, TSK_T_SKIPS_SKIPS, TSK_T_EXEC_LAST, TSK_T_EXMAX_MAX]
/-- The fields of the chn block. -/
def fields_chn : List Fld :=
  [CHN_INV_CHAN, CHN_INV_ALL, CHN_REFILL_PEND, CHN_REFILL_ALLBUSY, CHN_BAD_ENTRY_CHAN, CHN_BAD_ENTRY_OVR, CHN_BAD_ENTRY_VALID, CHN_REF_WR_OFS, CHN_REF_WR_VALID, CHN_MF_SEL_ENTRY, CHN_PF_SEL_ENTRY, CHN_MF_CTL_CHAN] ++
  [CHN_MF_CTL_KIND, CHN_PF_CTL_CHAN, CHN_PF_CTL_KIND, CHN_MF_VLO_VAL, CHN_MF_VHI_VAL, CHN_PF_VLO_VAL, CHN_PF_VHI_VAL, CHN_FCNT_FORCES, CHN_FCNT_SIMS, CHN_SIM_SIM, CHN_OWNREF_COUNT, CHN_OWNREF_CHAN] ++
  [CHN_ECC_COUNT]
/-- The fields of the lnk block. -/
def fields_lnk : List Fld :=
  [LNK_EPOCH_MAX_EPOCH, LNK_UPMAP_MAP, LNK_DOWNMAP_MAP]
/-- The fields of the lnkPort block. -/
def fields_lnkPort : List Fld :=
  [LNK_P_CFG_NF, LNK_P_CFG_AUTO_REINIT, LNK_P_CFG_T_INIT, LNK_P_CFG_T_ACYC, LNK_P_STA_T_PIN_MAX, LNK_P_STA_T_POUT_MAX, LNK_P_STA_T_PINF_MAX, LNK_P_STA_T_POUTF_MAX, LNK_P_LINE_HOP_NS, LNK_P_LINE_T_RES_MAX, LNK_P_LINK_UP, LNK_P_LINK_PHYF] ++
  [LNK_P_LINK_DOWNS, LNK_P_BUDGET_W_OUT, LNK_P_BUDGET_W_IN, LNK_P_TXFER_T_IN, LNK_P_TXFER_T_OUT, LNK_P_ACAP_A_UP, LNK_P_ACAP_A_DN, LNK_P_AWIN_AWIN, LNK_P_AWIN_LEN, LNK_P_AQ_ENTRIES, LNK_P_AQ_BYTES, LNK_P_SPILL_C0] ++
  [LNK_P_SPILL_C1, LNK_P_SPILL_C2, LNK_P_SPILL_C3, LNK_P_CNT_LATE_FRM, LNK_P_CNT_OVERSEND, LNK_P_CNT_BADFRM, LNK_P_EPOCH_EPOCH, LNK_P_OUTLIER_COUNT, LNK_P_MAC_LO_MAC, LNK_P_MAC_HI_MAC]
/-- The fields of the lio block. -/
def fields_lio : List Fld :=
  [LIO_DI_STATE_STATE, LIO_DI_WB_WB, LIO_DI_XC_XC, LIO_DO_STATE_PIN, LIO_DO_STATE_RB, LIO_DO_DIAG0_DIAG, LIO_DO_DIAG1_DIAG, LIO_WD_STAT_DO, LIO_WD_STAT_AO, LIO_VS_STAT_ON, LIO_VS_STAT_FAULT, LIO_ROT_CFG_STEP] ++
  [LIO_ROT_CFG_N_OV, LIO_ROT_TOL_TOL_HO, LIO_ROT_TOL_TOL_MAX, LIO_ROT_STAT_SPARE, LIO_ROT_STAT_CHAN, LIO_ROT_STAT_PHASE, LIO_ROT_STAT_RETIRED, LIO_CONV_RET_RET, LIO_AO_STAT_DIAG, LIO_TIO_CFG_DO_TP, LIO_TIO_CFG_TC_MODE, LIO_DI_CFG_FILT] ++
  [LIO_DI_CFG_VS, LIO_DI_CFG_WB_EN, LIO_VS_CFG_EN, LIO_VS_CFG_TP_EN, LIO_VS_CFG_TPW, LIO_VS_CFG_TPI, LIO_DO_CFG_TP_EN, LIO_DO_CFG_TPW, LIO_DO_CFG_TPI, LIO_DO_CFG_SAFE, LIO_DO_CFG_WD_TMO, LIO_DO_CFG_RETRY] ++
  [LIO_DO_CFG_OL_EN, LIO_DO_CFG_TFALL, LIO_AI_CFG_RANGE, LIO_AI_CFG_RATE, LIO_AI_CFG_WB_EN, LIO_AI_STAT_CONV, LIO_AI_STAT_DELTA, LIO_AI_STAT_DRIFT, LIO_AI_STAT_WB, LIO_AI_STAT_OVL, LIO_AI_STAT_CAL_AGE, LIO_AO_CFG_MODE] ++
  [LIO_AO_CFG_SAFE, LIO_AO_CFG_WD_TMO]
/-- The fields of the saf block. -/
def fields_saf : List Fld :=
  [SAF_SIMG_ID_ID, SAF_ENG_ACTIVE, SAF_ENG_OUTPATH, SAF_ENG_EN_A, SAF_ENG_EN_B, SAF_TRIP_CODE, SAF_TRIP_INFO_INFO, SAF_CYC_COUNT, SAF_EXEC_A_NS, SAF_EXEC_B_NS, SAF_EXMAX_MAX, SAF_WELL_DEV] ++
  [SAF_GSTATE_TG, SAF_GPHASE_SS1, SAF_GPHASE_STO, SAF_RST_STUCK, SAF_RST_ACC, SAF_RST_REF, SAF_PASS_PASS, SAF_BC_ERR_CRC, SAF_BC_ERR_ADDR, SAF_BC_ERR_SEQ, SAF_BC_ERR_MISSING, SAF_GCAUSE_CAUSES] ++
  [SAF_GCAUSE_FIRST, SAF_GINFO_INST, SAF_GSTAMP_LO_STAMP, SAF_GSTAMP_HI_STAMP]
/-- The fields of the loop block. -/
def fields_loop : List Fld :=
  [LOOP_LOAD_RATE, LOOP_LATMAX_NS, LOOP_TBLUSE_LO_BUSY, LOOP_TBLUSE_HI_BUSY, LOOP_INJ_COUNT, LOOP_FLTMAP_MAP]
/-- The fields of the loopCtx block. -/
def fields_loopCtx : List Fld :=
  [LOOP_L_CFG_TL, LOOP_L_CFG_START_MODE, LOOP_L_CFG_START_LAW, LOOP_L_CFG_SAFETY, LOOP_L_CFG_GROUP, LOOP_L_OUT_CHAN, LOOP_L_POS_CHAN, LOOP_L_POS_FAST, LOOP_L_POS_EN, LOOP_L_TRK_CHAN, LOOP_L_TRK_EN, LOOP_L_LAW_FB_CHAN] ++
  [LOOP_L_LAW_FB_FAST, LOOP_L_LAW_DEF, LOOP_L_LAW_SP_SRC, LOOP_L_LAW_PG, LOOP_L_FACT_FACT, LOOP_L_FACT_FE_ACT, LOOP_L_FACT_MAX_AGE, LOOP_L_SAFEOUT_VAL, LOOP_L_RAMP_VAL, LOOP_L_FE_LIM_VAL, LOOP_L_FRZ_BAND_VAL, LOOP_L_FRZ_DRIVE_VAL] ++
  [LOOP_L_FE_TIME_US, LOOP_L_FRZ_TIME_US, LOOP_L_STAT_MODE, LOOP_L_STAT_LAW, LOOP_L_STAT_ACTBANK, LOOP_L_STAT_HANDOVER, LOOP_L_STAT_SAT_HI, LOOP_L_STAT_SAT_LO, LOOP_L_STAT_SLEWING, LOOP_L_STAT_INT_HELD, LOOP_L_STAT_FE_WARN, LOOP_L_STAT_FCAUSE] ++
  [LOOP_L_STAT_RST_PEND, LOOP_L_STAT_SRC_FAULT, LOOP_L_STAT_FB_LOSS, LOOP_L_STAT_TRK_LOSS, LOOP_L_STAT_SS1_REQ, LOOP_L_STAT_INJ, LOOP_L_STAT_SP_DISCARD, LOOP_L_U_VAL, LOOP_L_E_VAL, LOOP_L_I_VAL, LOOP_L_SP_VAL, LOOP_L_Y_VAL] ++
  [LOOP_L_SAMPLES_COUNT, LOOP_L_BSWAP_SWAP, LOOP_L_BSWAP_RES]
/-- The fields of the trc block. -/
def fields_trc : List Fld :=
  [TRC_STAT_STATE, TRC_STAT_VAR, TRC_STAT_SPILLING, TRC_STAT_SPILL_FULL, TRC_CTL_CMD, TRC_CFG_MODE, TRC_CFG_SPILL_EN, TRC_CFG_SPILL_WRAP, TRC_CFG_TSRC, TRC_CFG_TCH, TRC_CFG_TCTX, TRC_CFG_TBIT] ++
  [TRC_LEVEL_VAL, TRC_POST_VAL, TRC_WR_IDX, TRC_TRIGPOS_IDX, TRC_SPILL_WR_IDX, TRC_WIN_DDR, TRC_WIN_PAGE, TRC_CH_CFG_CTX, TRC_CH_CFG_NODE, TRC_CH_CFG_EN, TRC_CAP_CFG_CTX, TRC_CAP_CFG_NODE] ++
  [TRC_CAP_CFG_EN, TRC_WINDATA_DATA]
/-- The fields of the prof block. -/
def fields_prof : List Fld :=
  [PROF_PLANQ_PEND, PROF_EFFMAX_NS]
/-- The fields of the profCh block. -/
def fields_profCh : List Fld :=
  [PROF_P_CFG_TP, PROF_P_CFG_INIT_SRC, PROF_P_VMAX_VAL, PROF_P_AACC_VAL, PROF_P_ADEC_VAL, PROF_P_JERK_VAL, PROF_P_X0_VAL, PROF_P_INITCH_CHAN, PROF_P_STAT_MOVING, PROF_P_STAT_ARRIVED, PROF_P_STAT_VELMODE, PROF_P_STAT_REVERSAL] ++
  [PROF_P_STAT_OVERSHOOT, PROF_P_STAT_ABOVE_LIM, PROF_P_STAT_SS1_LOCK, PROF_P_STAT_FEEDS_AXIS, PROF_P_X_LO_VAL, PROF_P_X_HI_VAL, PROF_P_TGT_LO_VAL, PROF_P_TGT_HI_VAL, PROF_P_TARR_LO_VAL, PROF_P_TARR_HI_VAL, PROF_P_V_VAL, PROF_P_A_VAL]
/-- The fields of the vax block. -/
def fields_vax : List Fld :=
  [VAX_SHAPE_USE_USE, VAX_SHAPE_T_LO, VAX_SHAPE_T_HI]
/-- The fields of the vaxAx block. -/
def fields_vaxAx : List Fld :=
  [VAX_A_CFG_STATION, VAX_A_CFG_SAX, VAX_A_CFG_SHAPE, VAX_A_CFG_PG, VAX_A_CFG_STILL, VAX_A_CFG_HRED, VAX_A_CFG_WAKE, VAX_A_CH_POSW, VAX_A_CH_CTL, VAX_A_SCALE_SCALE, VAX_A_LIM_DMAX, VAX_A_LIM_LAG_MAX] ++
  [VAX_A_STILL_T_STILL, VAX_A_STILL_T_HRED, VAX_A_STAT_AXST, VAX_A_STAT_COIL, VAX_A_STAT_REFOK, VAX_A_STAT_CLAMPED, VAX_A_STAT_SRC, VAX_A_STAT_FCAUSE, VAX_A_M_VAL, VAX_A_LAG_VAL, VAX_A_OFS_VAL, VAX_A_TAPP_LO_STAMP] ++
  [VAX_A_TAPP_HI_STAMP, VAX_A_CLAMPS_COUNT]
/-- The fields of the bsn block. -/
def fields_bsn : List Fld :=
  [BSN_SCRATCH_USED, BSN_RUNNING_CTX, BSN_RUNNING_BUSY, BSN_RUNNING_UNDEC, BSN_UTIL_NS, BSN_UNITMAX_NS]
/-- The fields of the bsnCtx block. -/
def fields_bsnCtx : List Fld :=
  [BSN_Q_DIM_NV, BSN_Q_DIM_ME, BSN_Q_DIM_MI, BSN_Q_H_ADDR, BSN_Q_AEQ_ADDR, BSN_Q_AIN_ADDR, BSN_Q_RES_ADDR, BSN_Q_FB_ADDR, BSN_Q_ITER_CAP, BSN_Q_ITER_N_ILL, BSN_Q_ITER_K_SHIFT, BSN_Q_SHIFT_OFS] ++
  [BSN_Q_SHIFT_STRIDE, BSN_Q_SHIFT_STEPS, BSN_Q_TOLP_VAL, BSN_Q_TOLD_VAL, BSN_Q_TOLMU_VAL, BSN_Q_TOLACC_VAL, BSN_Q_EPSPIV_VAL, BSN_Q_DREG_VAL, BSN_Q_STAT_PHASE, BSN_Q_STAT_WAITING, BSN_Q_STAT_HAVE_BASE, BSN_Q_STAT_SHIFTS] ++
  [BSN_Q_STAT_ITER, BSN_Q_STAT_FOOT, BSN_Q_LAST_FLAGS, BSN_Q_LAST_ITER, BSN_Q_LAST_DECIDED, BSN_Q_LASTSEQ_VAL, BSN_Q_DEC_LO_VAL, BSN_Q_DEC_HI_VAL, BSN_Q_NREG_COUNT, BSN_Q_CNT0_A, BSN_Q_CNT0_B, BSN_Q_CNT1_A] ++
  [BSN_Q_CNT1_B, BSN_Q_TMAX_NS, BSN_Q_DLV_IDX, BSN_Q_DLV_LPC, BSN_Q_DLV_EN]
/-- The fields of the pair block. -/
def fields_pair : List Fld :=
  [PAIR_ROLE_ROLE, PAIR_ROLE_SIDE, PAIR_ROLE_HS_OWN, PAIR_ROLE_PARTNER, PAIR_ROLE_OUTPATH, PAIR_ROLE_HEALTHY, PAIR_ROLE_LISTEN, PAIR_ROLE_CODE, PAIR_EPOCH_EPOCH, PAIR_CFG_PAIRED, PAIR_CFG_PROC_PREF, PAIR_CFG_HS_PREF] ++
  [PAIR_CFG_HS_SETTLE, PAIR_ABD_ABD_CLASS, PAIR_ABD_ABD_SAF, PAIR_ABD_ABD_STA, PAIR_ID_ID, PAIR_HB_P1_OK, PAIR_HB_P2_OK, PAIR_HB_DEGRADED, PAIR_HB_P1_MISS, PAIR_HB_P2_MISS, PAIR_ILK_OUT, PAIR_ILK_IN] ++
  [PAIR_ILK_IN_CLEAR, PAIR_ILK_FAULT, PAIR_ILK_STRAP, PAIR_TIERS_F_VALID, PAIR_TIERS_S_VALID, PAIR_TIERS_B_VALID, PAIR_TIERS_F_AGE, PAIR_TIERS_S_AGE, PAIR_TIERS_B_AGE, PAIR_SNAPF_LO_STAMP, PAIR_SNAPF_HI_STAMP, PAIR_SNAPS_LO_STAMP] ++
  [PAIR_SNAPS_HI_STAMP, PAIR_SNAPB_LO_STAMP, PAIR_SNAPB_HI_STAMP, PAIR_XFER_F_BYTES, PAIR_XFER_S_PAGES, PAIR_CKCNT_F_CARRY, PAIR_CKCNT_S_OVF, PAIR_CKCNT_S_LATE, PAIR_CKCNT_B_LATE, PAIR_CMD_OP, PAIR_CMD_RES_CODE, PAIR_CMD_RES_OP] ++
  [PAIR_SYNC_LINK, PAIR_SYNC_SFP, PAIR_SYNC_LOS, PAIR_SYNC_DOWNS, PAIR_FRCNT_STALE, PAIR_FRCNT_CRCERR, PAIR_TKO_LO_STAMP, PAIR_TKO_HI_STAMP, PAIR_TKOH_LO_STAMP, PAIR_TKOH_HI_STAMP, PAIR_TKO_GAP_NS, PAIR_GMAX_NS] ++
  [PAIR_MISMATCH_VARIANT, PAIR_MISMATCH_ID, PAIR_MISMATCH_PROTO, PAIR_MISMATCH_FW, PAIR_MISMATCH_SIDE, PAIR_RESYNC_PHASE, PAIR_RESYNC_PCT, PAIR_HOLD_CHK_COUNT, PAIR_HOLD_CHK_FIRST, PAIR_HOLD_CHK_GAP_SHORT, PAIR_HS_SIDE, PAIR_HS_RELAY] ++
  [PAIR_HS_SETTLE, PAIR_GPOL_POL, PAIR_GPOL_SHORT, PAIR_GPOL_N, PAIR_GRNGA_FIRST, PAIR_GRNGA_COUNT, PAIR_GRNGB_GROUP]
/-- The fields of the time block. -/
def fields_time : List Fld :=
  [TIME_NOW_SEC_LO_VAL, TIME_NOW_SEC_HI_VAL, TIME_NOW_NS_VAL, TIME_NOW_FRAC_VAL, TIME_INC_LO_VAL, TIME_INC_HI_VAL, TIME_STATE_SERVO, TIME_STATE_UNSYNC, TIME_STATE_SRC, TIME_STATE_OFFSET_HIGH, TIME_STATE_STEP_PEND, TIME_SRC_CFG_PRI_PTP] ++
  [TIME_SRC_CFG_PRI_PARTNER, TIME_SRC_CFG_PRI_PROGRAM, TIME_KP_VAL, TIME_KI_VAL, TIME_STEP_CFG_STEP_THR, TIME_STEP_CFG_STEP_RUN, TIME_STEP_CFG_LOCK_THR, TIME_HOLD_CFG_HOLD_TMO, TIME_HOLD_CFG_SYNC_WAIT, TIME_OFS_VAL, TIME_FREQ_VAL, TIME_STEPS_STEPS] ++
  [TIME_STEPS_DROPPED, TIME_LASTSTEP_LO_VAL, TIME_LASTSTEP_HI_VAL, TIME_UTC_OFFSET, TIME_UTC_VALID, TIME_UTC_LEAP61, TIME_UTC_LEAP59, TIME_PAIR_DLY_NS, TIME_PTP_CFG_MODE, TIME_PTP_CFG_PTP_PORT, TIME_PTP_CFG_TRANSPORT, TIME_PTP_CFG_DELAY] ++
  [TIME_PTP_CFG_SLAVE_ONLY, TIME_PTP_CFG_DOMAIN, TIME_PTP_CFG_PRIO1, TIME_PTP_CFG_PRIO2, TIME_PTP_INT_LOG_SYNC, TIME_PTP_INT_LOG_DREQ, TIME_PTP_INT_LOG_ANN, TIME_PTP_INT_ANN_TMO, TIME_PTP_INT_DLY_GATE, TIME_PTP_STAT_HP0, TIME_PTP_STAT_HP1, TIME_PTP_STAT_GM_CLASS] ++
  [TIME_PTP_STAT_STEPS_RM, TIME_PTP_DLY_NS, TIME_PTP_GM_LO_ID, TIME_PTP_GM_HI_ID, TIME_PTP_CNT_DISC, TIME_PTP_CNT_DLY_REJ, TIME_ALARMS_ARMED, TIME_TP_CFG_IDLE_LVL, TIME_TP_STAT_PEND, TIME_TP_STAT_PERIODIC, TIME_TP_STAT_LEVEL, TIME_TP_STAT_HIZ] ++
  [TIME_TP_STAT_LATE, TIME_TC_CFG_EDGE, TIME_TC_STAT_FILL, TIME_TC_STAT_LEVEL, TIME_TC_STAT_DROPPED]
/-- The fields of the can block. -/
def fields_can : List Fld :=
  [CAN_SNAP_CNT1_VAL, CAN_SNAP_T1_LO_VAL, CAN_SNAP_T1_HI_VAL, CAN_SNAP_CNT0_VAL, CAN_SNAP_T0_LO_VAL, CAN_SNAP_T0_HI_VAL]
/-- The fields of the canCh block. -/
def fields_canCh : List Fld :=
  [CAN_C_NBT_BRP, CAN_C_NBT_TSEG1, CAN_C_NBT_TSEG2, CAN_C_NBT_SJW, CAN_C_DBT_DBRP, CAN_C_DBT_DTSEG1, CAN_C_DBT_DTSEG2, CAN_C_DBT_DSJW, CAN_C_DBT_TDCO, CAN_C_DBT_TDC_EN, CAN_C_CFG_FD_EN, CAN_C_CFG_LISTEN] ++
  [CAN_C_CFG_REST, CAN_C_ERR_TEC, CAN_C_ERR_REC, CAN_C_ERR_RP, CAN_C_ERR_STATE, CAN_C_ERR_ASLEEP, CAN_C_ERR_WCAUSE, CAN_C_ERR_BOFFS, CAN_C_Q_TXF, CAN_C_Q_MBX, CAN_C_Q_RXF, CAN_C_CNT_NOMATCH] ++
  [CAN_C_CNT_OVF, CAN_C_CONFLICT_ID, CAN_C_CONFLICT_IDE, CAN_C_CONFLICT_DIR, CAN_C_CONFLICT_VALID, CAN_C_WKCFG_WK_MODE, CAN_C_WKCFG_WK_FILT, CAN_C_WKCFG_WK_RATE, CAN_C_WKCFG_WK_IDE, CAN_C_WKCFG_WK_DLC, CAN_C_WKCFG_DLC_EN, CAN_C_WKID_VAL] ++
  [CAN_C_WKMASK_VAL, CAN_C_WKDM_LO_VAL, CAN_C_WKDM_HI_VAL, CAN_C_WAKE_LO_STAMP, CAN_C_WAKE_HI_STAMP, CAN_C_TXID_ID, CAN_C_TXID_IDE, CAN_C_TXID_EN, CAN_C_FID_VAL, CAN_C_FID_IDE, CAN_C_FID_EN, CAN_C_FMASK_VAL] ++
  [CAN_C_FMASK_ACT]
/-- The fields of the host block. -/
def fields_host : List Fld :=
  [HOST_CFG_MGMT_PORT, HOST_CFG_ENG_PLANES, HOST_CFG_MB_EN, HOST_CFG_NMEA_EN, HOST_CFG_MAXSESS, HOST_CFG_NMEA_TMO, HOST_SESS_OPEN, HOST_SESS_AUTHFAIL, HOST_LOAD_STATE, HOST_LOAD_KIND, HOST_LOAD_PCT, HOST_MB_GATE_GATE] ++
  [HOST_MB_CNT_A, HOST_MB_CNT_B, HOST_NMEA_CNT_A, HOST_NMEA_CNT_B, HOST_KEYS_PRESENT, HOST_KEYS_SAFETY, HOST_Pn_CFG_EN, HOST_Pn_IP_ADDR, HOST_Pn_MASK_ADDR, HOST_Pn_GW_ADDR, HOST_Pn_LINK_UP, HOST_Pn_LINK_DISC] ++
  [HOST_Pn_LINK_DOWNS, HOST_Pn_MAC_LO_MAC, HOST_Pn_MAC_HI_MAC]
/-- The fields of the rcd block. -/
def fields_rcd : List Fld :=
  [REC_STAT_FIXNEXT, REC_STAT_WRAPPED, REC_STAT_SCANNED, REC_STAT_MAPPED, REC_STAT_QLEN, REC_CIRCNEXT_VAL, REC_SEQ_VAL, REC_PCC_VAL, REC_OPSEC_VAL, REC_DROP_COUNT, REC_DROP_TORN, REC_WIN_INDEX] ++
  [REC_WIN_AREA, REC_WINDATA_DATA, REC_S_SRC_ID, REC_S_SRC_KIND, REC_S_SRC_EN, REC_S_INT_SEC, REC_S_LO_VAL, REC_S_HI_VAL]
/-- The fields of the pnl block. -/
def fields_pnl : List Fld :=
  [PNL_STAT_STATE, PNL_STAT_REGION, PNL_STAT_QLEN, PNL_STAT_BAND, PNL_STAT_COLD, PNL_TEMP_VAL, PNL_VCOM_VAL, PNL_UPD_REGION, PNL_UPD_FULL, PNL_UPD_RES_CODE, PNL_UPD_RES_REPLACED, PNL_DIRTY_LIVE] ++
  [PNL_DIRTY_BOOT, PNL_DIRTY_DISCH, PNL_VT_T, PNL_VT_V, PNL_RPOS_X0, PNL_RPOS_Y0, PNL_RSIZE_W, PNL_RSIZE_H, PNL_RSIZE_SRC, PNL_RSIZE_EN, PNL_FB_PIX]
/-- The fields of the sys block. -/
def fields_sys : List Fld :=
  [SYS_ORDER_VARIANT, SYS_ORDER_HWREV, SYS_SERIAL_SERIAL, SYS_FW_RUNNING, SYS_FW_TRIAL, SYS_FW_VALID, SYS_FW_FAILED, SYS_FW_PREF, SYS_FW_VERSION, SYS_RSTCAUSE_CAUSE, SYS_RSTCAUSE_COUNT, SYS_BOOT_STEP] ++
  [SYS_BOOT_MS, SYS_PLL_A_LOCK, SYS_PLL_B_LOCK, SYS_PLL_SD_LOCK, SYS_PLL_SD_LOSS, SYS_CMD_OP, SYS_CMD_RES_CODE, SYS_CMD_RES_OP, SYS_RA_TIO_DO_TP, SYS_RA_REF_KIND, SYS_RA_REF_NUMBER, SYS_RA_REF_UNIT] ++
  [SYS_RA_REF_OVR, SYS_RA_REF_VALID]
/-- The fields of the pwr block. -/
def fields_pwr : List Fld :=
  [PWR_FEED_VA, PWR_FEED_VB, PWR_FEED_A_OK, PWR_FEED_B_OK, PWR_FEED_PFW, PWR_FEEDLOSS_A, PWR_FEEDLOSS_B, PWR_HOLDUP_TIME, PWR_HOLDUP_FLAG, PWR_LASTPF_TIME, PWR_LASTPF_FLAG, PWR_LASTPF_ABD] ++
  [PWR_POLICY_MODE, PWR_POLICY_RESP, PWR_IDLE_LC, PWR_IDLE_LOOP, PWR_IDLE_PROF, PWR_IDLE_VAX, PWR_IDLE_BSN, PWR_IDLE_TRC, PWR_NAPS_COUNT, PWR_TEMP_T]

/-- The fields of a block. -/
def fieldsOf : Blk → List Fld
  | .sys => fields_sys
  | .pwr => fields_pwr
  | .tsk => fields_tsk
  | .chn => fields_chn
  | .lnk => fields_lnk
  | .lnkPort => fields_lnkPort
  | .lio => fields_lio
  | .saf => fields_saf
  | .loop => fields_loop
  | .loopCtx => fields_loopCtx
  | .prof => fields_prof
  | .profCh => fields_profCh
  | .vax => fields_vax
  | .vaxAx => fields_vaxAx
  | .bsn => fields_bsn
  | .bsnCtx => fields_bsnCtx
  | .pair => fields_pair
  | .time => fields_time
  | .can => fields_can
  | .canCh => fields_canCh
  | .host => fields_host
  | .rcd => fields_rcd
  | .pnl => fields_pnl
  | .trc => fields_trc

end Sys2Proof.Machine.R
end

