-- ==== Sys2Proof/Machine/Ops.lean ====
section
/-!
DEFINITION. The named operations every meaning is built from: free values, the register fields and their access codes
(R12 to R14), the common header with its error code and events (R473 to R480), memory bytes, time, and the condition
records (R431).
-/

namespace Sys2Proof.Machine

open R

/-! ## Free values -/

/-- A free choice between two behaviours the spec allows, and the state that has used it. -/
def pick (s : State) : Bool × State := (Config.freeBool s.free, { s with free := s.free + 1 })

/-- A free number below 2^w, and the state that has used it. -/
def fresh (w : Nat) (s : State) : Nat × State := (Config.freeNat s.free % 2 ^ w, { s with free := s.free + 1 })

/-! ## Register words and fields -/

/-- The standard table of R314: T[i] = round(65,535 × sin(π(i + 0.5) / 512)). -/
def stdTable : List Nat :=
  [201, 603, 1005, 1407, 1809, 2211, 2613, 3015, 3416, 3818, 4219, 4621, 5022, 5422, 5823, 6223] ++
  [6624, 7024, 7423, 7823, 8222, 8620, 9019, 9417, 9815, 10212, 10609, 11006, 11402, 11798, 12193, 12588] ++
  [12982, 13376, 13770, 14163, 14555, 14947, 15338, 15729, 16119, 16508, 16897, 17285, 17673, 18060, 18446, 18831] ++
  [19216, 19600, 19984, 20366, 20748, 21129, 21509, 21889, 22267, 22645, 23022, 23398, 23773, 24147, 24521, 24893] ++
  [25265, 25635, 26005, 26374, 26741, 27108, 27473, 27838, 28201, 28564, 28925, 29286, 29645, 30003, 30360, 30716] ++
  [31070, 31424, 31776, 32127, 32477, 32826, 33173, 33519, 33864, 34208, 34550, 34891, 35231, 35569, 35906, 36242] ++
  [36576, 36909, 37241, 37571, 37900, 38227, 38553, 38877, 39200, 39522, 39842, 40161, 40478, 40793, 41107, 41419] ++
  [41730, 42039, 42347, 42653, 42958, 43261, 43562, 43861, 44159, 44456, 44750, 45043, 45334, 45624, 45912, 46198] ++
  [46482, 46765, 47046, 47325, 47602, 47877, 48151, 48423, 48693, 48961, 49228, 49492, 49755, 50016, 50274, 50531] ++
  [50787, 51040, 51291, 51540, 51788, 52033, 52277, 52518, 52758, 52995, 53231, 53464, 53696, 53925, 54153, 54378] ++
  [54602, 54823, 55042, 55260, 55475, 55688, 55899, 56108, 56314, 56519, 56721, 56922, 57120, 57316, 57510, 57702] ++
  [57891, 58079, 58264, 58447, 58628, 58806, 58983, 59157, 59329, 59498, 59666, 59831, 59994, 60155, 60313, 60469] ++
  [60623, 60775, 60924, 61071, 61216, 61358, 61498, 61636, 61772, 61905, 62035, 62164, 62290, 62414, 62535, 62654] ++
  [62771, 62886, 62998, 63107, 63214, 63319, 63422, 63522, 63620, 63715, 63808, 63898, 63986, 64072, 64155, 64236] ++
  [64315, 64391, 64464, 64535, 64604, 64671, 64734, 64796, 64855, 64911, 64966, 65017, 65066, 65113, 65158, 65199] ++
  [65239, 65276, 65310, 65342, 65372, 65399, 65424, 65446, 65466, 65483, 65498, 65510, 65520, 65527, 65532, 65535]

/-- The reset word of a register at index `k` of its row. -/
def Fld.reset (f : Fld) (k : Nat) : Nat :=
  match f.rk with
  | .const => f.rst
  | .index => f.rst + k
  | .sine => stdTable.getD (2 * (k % 128)) 0 + 65536 * stdTable.getD (2 * (k % 128) + 1) 0
  | .vcom => f.rst + (65136 + 150 * k) % 65536
  | .budget =>
    if k ≤ 1 then 500000000 else if k ≤ 4 then 0 else if k = 5 then 20000 else if k = 6 then 50000 else 1000000

/-- Address of the register of a field: copy `i` of its block, index `k` of its row. -/
def Fld.addr (f : Fld) (i k : Nat) : Nat := f.blk.base + i * f.blk.step + f.off + k * f.stride

/-- The register word that holds a field. -/
def regW (s : State) (f : Fld) (i k : Nat) : Nat :=
  (mget s.regs (f.addr i k) (BitVec.ofNat 32 (f.reset k))).toNat

/-- The register word that holds a field, replaced. -/
def setRegW (s : State) (f : Fld) (i k : Nat) (v : Nat) : State :=
  { s with regs := mput (BitVec.ofNat 32 (f.reset k)) s.regs (f.addr i k) (BitVec.ofNat 32 v) }

/-- A field of the register file: copy `i` of the block, index `k` of the row. -/
def getF (s : State) (f : Fld) (i : Nat := 0) (k : Nat := 0) : Nat := bits (regW s f i k) f.lsb f.width

/-- The state with a field of the register file set by the module itself. -/
def setF (s : State) (f : Fld) (v : Nat) (i : Nat := 0) (k : Nat := 0) : State :=
  setRegW s f i k (setBits (regW s f i k) f.lsb f.width v)

/-- A one-bit field. -/
def getB (s : State) (f : Fld) (i : Nat := 0) (k : Nat := 0) : Bool := getF s f i k != 0

/-- A one-bit field set. -/
def setB (s : State) (f : Fld) (b : Bool) (i : Nat := 0) (k : Nat := 0) : State := setF s f (b2n b) i k

/-- A counter field increased by `n`, saturating at its largest value. -/
def incF (s : State) (f : Fld) (i : Nat := 0) (k : Nat := 0) (n : Nat := 1) : State :=
  setF s f (sat (2 ^ f.width - 1) (getF s f i k + n)) i k

/-- A counter field increased by one that wraps. -/
def wrapF (s : State) (f : Fld) (i : Nat := 0) (k : Nat := 0) : State := setF s f (getF s f i k + 1) i k

/-- A field raised to `v` when `v` is larger, saturating. -/
def maxF (s : State) (f : Fld) (v : Nat) (i : Nat := 0) (k : Nat := 0) : State :=
  setF s f (max (getF s f i k) (sat (2 ^ f.width - 1) v)) i k

/-! ## The common header (Table MAP-3) -/

/-- UNIT_CTL.REQ: a write acts, and REQ then reads 0 (R143). -/
def hCtl (b : Blk) : Fld := ⟨b, 0x04, 0, 1, 0, 2, .wo, 0, .const⟩
/-- UNIT_STAT.STATE: 0 STOP, 1 CONFIG, 2 RUN, 3 FAULT (R143). -/
def hState (b : Blk) : Fld := ⟨b, 0x08, 0, 1, 0, 2, .ro, 0, .const⟩
/-- UNIT_STAT.BUSY. -/
def hBusy (b : Blk) : Fld := ⟨b, 0x08, 0, 1, 2, 1, .ro, 0, .const⟩
/-- UNIT_STAT.REQ_RES. -/
def hRes (b : Blk) : Fld := ⟨b, 0x08, 0, 1, 4, 2, .ro, 0, .const⟩
/-- UNIT_ERR.CODE (Table MAP-5): reset to the unit byte with code byte 0x00. -/
def hErr (b : Blk) : Fld := ⟨b, 0x0C, 0, 1, 0, 16, .rc, b.code * 256, .const⟩
/-- UNIT_ERR.OVR. -/
def hOvr (b : Blk) : Fld := ⟨b, 0x0C, 0, 1, 16, 1, .rc, b.code * 256, .const⟩
/-- EVT_DYN. -/
def hDyn (b : Blk) : Fld := ⟨b, 0x10, 0, 1, 0, 32, .ro, 0, .const⟩
/-- EVT_LAT. -/
def hLat (b : Blk) : Fld := ⟨b, 0x14, 0, 1, 0, 32, .w1c, 0, .const⟩
/-- EVT_EN. -/
def hEn (b : Blk) : Fld := ⟨b, 0x18, 0, 1, 0, 32, .rw, 0, .const⟩
/-- EVT_EDGE. -/
def hEdge (b : Blk) : Fld := ⟨b, 0x1C, 0, 1, 0, 32, .rw, 0, .const⟩
/-- EVT_TASK.USER (Table MAP-6). -/
def hUser (b : Blk) : Fld := ⟨b, 0x20, 0, 1, 0, 3, .rw, 0, .const⟩
/-- EVT_TASK.TAG. -/
def hTag (b : Blk) : Fld := ⟨b, 0x20, 0, 1, 16, 16, .rw, 0, .const⟩

/-- The fields of the common header of a block. -/
def hdrFields (b : Blk) : List Fld :=
  [hCtl b, hState b, hBusy b, hRes b, hErr b, hOvr b, hDyn b, hLat b, hEn b, hEdge b, hUser b, hTag b]

/-- STATE values of R143. -/
def stSTOP : Nat := 0
/-- STATE CONFIG. -/
def stCONFIG : Nat := 1
/-- STATE RUN. -/
def stRUN : Nat := 2
/-- STATE FAULT. -/
def stFAULT : Nat := 3

/-- STATE of copy `i` of a block. -/
def stOf (s : State) (b : Blk) (i : Nat := 0) : Nat := getF s (hState b) i

/-- True while copy `i` of a block is in RUN. -/
def inRun (s : State) (b : Blk) (i : Nat := 0) : Bool := stOf s b i == stRUN

/-- STATE set. -/
def setSt (s : State) (b : Blk) (i : Nat) (v : Nat) : State := setF s (hState b) v i

/-! ## Variant -/

/-- True on the HX7-P16 (SYS.ORDER.VARIANT = 1, Table SCP-1). -/
def isP16 (s : State) : Bool := getF s SYS_ORDER_VARIANT == 1

/-- Number of channels of the variant. -/
def nChan (s : State) : Nat := if isP16 s then 4096 else 16384
/-- Number of stations of the variant. -/
def nSta (s : State) : Nat := if isP16 s then 64 else 256
/-- Number of Scaty ports of the variant. -/
def nPort (s : State) : Nat := if isP16 s then 16 else 64
/-- Number of valve axes of the variant. -/
def nAxis (s : State) : Nat := if isP16 s then 16 else 64

/-- Number of copies of a block on the variant. -/
def copies (s : State) : Blk → Nat
  | .lnkPort => nPort s
  | .vaxAx => nAxis s
  | b => b.count

/-! ## Time -/

/-- The unit time stamp: SEC × 10⁹ + NS, modulo 2⁶⁴ (R377). -/
def now (s : State) : Nat := (s.sec * 1000000000 + s.ns) % 2 ^ 64

/-- The count of TICK periods since start-up, in ns (R56). -/
def tickNs (s : State) : Nat := s.ticks * 4

/-- The time counter in units of 2⁻³² ns (R376). -/
def counter (s : State) : Nat := (s.sec * 1000000000 + s.ns) * 2 ^ 32 + s.frac

/-- The present TICK edge is the first at or after an instant k × `t` − `o` ns: the latest increment passed it. An instant that
a forward step has passed is not carried out (R383). -/
def reaches (s : State) (t o : Nat) : Bool :=
  let c := counter s + o * 2 ^ 32
  let d := getF s TIME_INC_HI_VAL * 2 ^ 32 + getF s TIME_INC_LO_VAL
  if t = 0 then false else if c < d then true
  else decide (c / (t * 2 ^ 32) > (c - d) / (t * 2 ^ 32)) &&
    (s.time.skipTo == 0 || decide (c / (t * 2 ^ 32) * t + s.tl.tGuard > s.time.skipTo + o))

/-- A cycle period in ns: classes 0 to 2 and 3 for the safety cycle. -/
def period (s : State) (c : Nat) : Nat :=
  1000 * (if c = 0 then getF s TSK_PERIOD_C0_US else if c = 1 then getF s TSK_PERIOD_C1_US
          else if c = 2 then getF s TSK_PERIOD_C2_US else getF s TSK_PERIOD_S_US)

/-- The first cycle start of class `c` at or after now (R20). -/
def nextStart (s : State) (c : Nat) : Nat := ceilDiv (now s) (period s c) * period s c

/-- The latest cycle start of class `c` at or before now (R20). -/
def lastStart (s : State) (c : Nat) : Nat := now s / period s c * period s c

/-! ## Condition records and unit codes -/

/-- The fraction of the operating second, in units of 1/65,536 s (R426). -/
def opSub (s : State) : Nat := sat 65535 ((s.ticks - s.opAt) * 4 / 1000 * 65536 / 1000000)

/-- A request enters the recorder's write queue of 64 entries; a request that finds it full is dropped and counted
(R431). -/
def recPush (s : State) (r : RecReq) : State :=
  if s.recQ.length < 64 then { s with recQ := s.recQ ++ [r] }
  else incF { s with recDrop := s.recDrop + 1 } REC_DROP_COUNT

/-- A condition is recorded: code, source number, origin (0 module, 1 program, 2 management), detail (R431). -/
def recCond (s : State) (code inst origin : Nat) (detail : List Byte) : State :=
  recPush s { typ := 1, key := code, inst := inst, origin := origin, ptp := now s,
              unsync := getB s TIME_STATE_UNSYNC, detail := detail, opsec := s.mram.opsec, sub := opSub s }

/-- A code stands in UNIT_ERR: the first since the last read stands, a further one sets OVR (R475). -/
def errShow (s : State) (b : Blk) (i code : Nat) : State :=
  if getF s (hErr b) i % 256 = 0 then setF s (hErr b) code i else setF s (hOvr b) 1 i

/-- A unit records a code in UNIT_ERR, and the recorder records it (R475, R431). `src` is the number the condition record
names. -/
def unitErrAt (s : State) (b : Blk) (i code src : Nat) (detail : List Byte) : State :=
  recCond (errShow s b i code) code src 0 detail

/-- `unitErrAt` for the common case: the record names the copy of the block, or 0 for a global block. -/
def unitErr (s : State) (b : Blk) (i code : Nat) : State := unitErrAt s b i code (if b.rep then i else 0) []

/-! ## Events (R476 to R480) -/

/-- The slot that holds the running program: SLOT.ACTIVE. -/
def actSlot (s : State) : Slot := if getB s TSK_SLOT_ACTIVE then s.tsk.slotB else s.tsk.slotA

/-- The slot that does not run. -/
def idleSlot (s : State) : Slot := if getB s TSK_SLOT_ACTIVE then s.tsk.slotA else s.tsk.slotB

/-- The slot that does not run, replaced. -/
def setIdleSlot (s : State) (p : Slot) : State :=
  if getB s TSK_SLOT_ACTIVE then { s with tsk := { s.tsk with slotA := p } }
  else { s with tsk := { s.tsk with slotB := p } }

/-- True when the active program image has task `t`: it has an entry point for the task's segment 0 (R110). -/
def hasTask (s : State) (t : Nat) : Bool := (mkeys (actSlot s).entries).contains (t * 4)

/-- A task's run. -/
def getTask (s : State) (t : Nat) : Task := mget s.tsk.tasks t {}
/-- A task's run, replaced. -/
def setTask (s : State) (t : Nat) (v : Task) : State :=
  { s with tsk := { s.tsk with tasks := mput {} s.tsk.tasks t v } }

/-- Bits set in EVT_LAT of copy `i` of a block, with nothing else. -/
def latBits (s : State) (b : Blk) (i mask : Nat) : State := setF s (hLat b) (getF s (hLat b) i ||| mask) i

/-- Bits newly latched in EVT_LAT make one event entry for the task of EVT_TASK (R476, R477), which is held back while
no cyclic task is released, at most one per bit (R480). An entry that finds its queue full is dropped and counted, and
EVQ_OVF is latched in TSK (R115); the first argument bounds that one further latch. -/
def latchN : Nat → State → Blk → Nat → Nat → State
  | 0, s, b, i, mask => latBits s b i mask
  | n + 1, s, b, i, mask =>
    let old := getF s (hLat b) i
    let s1 := latBits s b i mask
    let fire := (mask ^^^ (mask &&& old)) &&& getF s (hEn b) i
    if fire = 0 then s1
    else
      let t := 8 + getF s (hUser b) i
      let e : EvEntry := { source := b.code + 256 * (if b.rep then i else 0x1FF), tag := getF s (hTag b) i,
                           stamp := now s, cond := fire }
      if s.tsk.rel then
        if hasTask s1 t then
          let q := getTask s1 t
          if q.evq.length < 16 then
            setF (setTask s1 t { q with evq := q.evq ++ [{ e with dropped := q.evDrop }], evDrop := 0 })
              TSK_T_STAT_QLEN (q.evq.length + 1) 0 t
          else
            latchN n (unitErr (setTask s1 t { q with evDrop := sat 65535 (q.evDrop + 1) }) .tsk 0 0x0316) .tsk 0 4
        else s1
      else
        let la := (hLat b).addr i 0
        let have_ := s.tsk.held.foldl (fun acc h => if h.lat = la then acc ||| h.entry.cond else acc) 0
        let new := fire ^^^ (fire &&& have_)
        if new = 0 then s1
        else { s1 with tsk := { s1.tsk with held := s1.tsk.held ++ [⟨la, t, { e with cond := new }⟩] } }

/-! ### The trigger of the trace (R297, R298) -/

/-- The trace of the HX7-P64 is present (R296). -/
def isTrace (s : State) : Bool := !isP16 s

/-- Entries of the ring. -/
def ringLen : Nat := 524288
/-- Entries of the spill region. -/
def spillLen : Nat := 33554432

/-- STATE of TRC.STAT. -/
def trcState (s : State) : Nat := getF s TRC_STAT_STATE

/-- Recording ends: DONE. -/
def trcDone (s : State) : State := latchN 2 (setF (setF s TRC_STAT_STATE 3) TRC_STAT_SPILLING 0) .trc 0 2

/-- A trigger: recording enters POST, or the capture starts (R297, R298). -/
def trcFire (s : State) : State :=
  if !inRun s .trc then s
  else if isTrace s then
    if trcState s ≠ 1 then s
    else
      let post := getF s TRC_POST_VAL
      let s1 := setF (setF s TRC_TRIGPOS_IDX (getF s TRC_WR_IDX)) TRC_STAT_STATE 2
      let s2 := latchN 2 { s1 with trc := { s1.trc with post := post } } .trc 0 1
      if post = 0 then trcDone s2 else s2
  else if trcState s = 2 then s
  else
    let s1 := { s with trc := { s.trc with cap := [], capN := [] } }
    latchN 2 (setF (setF s1 TRC_STAT_STATE 2) TRC_WR_IDX 0) .trc 0 1

/-- Bits newly latched in a context's EVT_LAT: a trigger source of the trace (R297). -/
def trcEvent (s : State) (c new : Nat) : State :=
  if isTrace s ∧ getF s TRC_CFG_TSRC = 3 ∧ getF s TRC_CFG_TCTX = c ∧ bitOf new (getF s TRC_CFG_TBIT) then trcFire s else s

/-- Momentary conditions of one block occur: bits `mask` of EVT_LAT (R476). In a loop context the new bits can trigger the
trace (R297). -/
def latch (s : State) (b : Blk) (i mask : Nat) : State :=
  let s1 := latchN 2 s b i mask
  if b = .loopCtx then trcEvent s1 i (mask ^^^ (mask &&& getF s (hLat b) i)) else s1

/-- An entry enters the event queue of a TIME or USER task (R115). An entry for a task the image does not have is
discarded (R477). -/
def evPush (s : State) (t : Nat) (e : EvEntry) : State :=
  if hasTask s t then
    let q := getTask s t
    if q.evq.length < 16 then
      setF (setTask s t { q with evq := q.evq ++ [{ e with dropped := q.evDrop }], evDrop := 0 })
        TSK_T_STAT_QLEN (q.evq.length + 1) 0 t
    else latch (unitErr (setTask s t { q with evDrop := sat 65535 (q.evDrop + 1) }) .tsk 0 0x0316) .tsk 0 4
  else s

/-- A level condition (bit `n` of EVT_DYN) is present or not; a rise latches its bit (R476). -/
def level (s : State) (b : Blk) (i n : Nat) (on : Bool) : State :=
  let d := getF s (hDyn b) i
  if bitOf d n = on then s
  else
    let s1 := setF s (hDyn b) (if on then d + 2 ^ n else d - 2 ^ n) i
    if on then latch s1 b i (2 ^ n) else s1

/-! ## Memory bytes -/

/-- The byte of memory at an address; an unlisted address reads 0 (DESIGN CHOICE, log entry 4). -/
def rdB (s : State) (a : Nat) : Byte := mget s.mem a 0

/-- The changed pages of RETAIN: page p awaits its copy to bank 0 as p and to bank 1 as 8,192 + p. The page of `a` awaits
both (R36). -/
def markDirty (s : State) (a : Nat) : State :=
  let p := (a - 0x00800000) / 256
  let d := if s.mram.dirty.contains p then s.mram.dirty else s.mram.dirty ++ [p]
  let d' := if d.contains (8192 + p) then d else d ++ [8192 + p]
  { s with mram := { s.mram with dirty := d' } }

/-- The page of an address of DATA or RETAIN changed, for the deltas of an ACTIVE module's checkpoints (R358). -/
def touchPage (s : State) (a : Nat) : State :=
  if getF s PAIR_ROLE_ROLE = 1 then { s with pair := { s.pair with pageAt := mput 0 s.pair.pageAt (a / 256) (now s + 1) } }
  else s

/-- The byte of memory at an address, written; a write to RETAIN marks its page changed (R36). -/
def wrB (s : State) (a : Nat) (b : Byte) : State :=
  let s1 := { s with mem := mput 0 s.mem a b }
  let s2 := if a < 0x00A00000 then touchPage s1 a else s1
  if 0x00800000 ≤ a ∧ a < 0x00A00000 then markDirty s2 a else s2

/-- `n` bytes of memory from an address. -/
def rdBs (s : State) (a : Nat) : Nat → List Byte
  | 0 => []
  | n + 1 => rdB s a :: rdBs s (a + 1) n

/-- Bytes written to memory from an address. -/
def wrBs (s : State) (a : Nat) : List Byte → State
  | [] => s
  | b :: t => wrBs (wrB s a b) (a + 1) t

/-- `n` bytes of memory as a little-endian number. -/
def rdN (s : State) (a n : Nat) : Nat := leNat (rdBs s a n)

/-- `n` bytes of memory written with a number, little-endian. -/
def wrN (s : State) (a n v : Nat) : State := wrBs s a (leBytes n v)

/-! ## Cores -/

/-- A core. -/
def getCore (s : State) (c : Nat) : Core := mget s.cores c {}

/-- A core, replaced. -/
def setCore (s : State) (c : Nat) (v : Core) : State := { s with cores := mput {} s.cores c v }

/-- The context of a core, replaced. -/
def setCtx (s : State) (c : Nat) (v : Ctx) : State := setCore s c { getCore s c with ctx := v }

/-- A list of states' updates in order. -/
def forEach {α : Type} (l : List α) (s : State) (f : State → α → State) : State := l.foldl f s

/-- Key switch positions: 0 RUN, 1 TUNE, 2 HALT, 3 WIPE (R121). -/
def keyPos (s : State) : Nat := getF s TSK_KEY_POS

/-- The key switch is in TUNE. -/
def inTune (s : State) : Bool := keyPos s == 1

end Sys2Proof.Machine
end

