-- ==== Sys2Proof/Machine/Regs.lean ====
section
/-!
DEFINITION. The unit register space by address: the block copy an address lies in (Table MAP-2), the fields at a register
word, the writing of configuration words, the latching of a configuration, and the registers that a profile sets (R13, R139,
R140, R143, R473, R480).
-/

namespace Sys2Proof.Machine

open R

/-- Every block and every kind of block that a unit repeats. -/
def allBlocks : List Blk :=
  [.sys, .pwr, .tsk, .chn, .lnk, .lnkPort, .lio, .saf, .loop, .loopCtx, .prof, .profCh, .vax, .vaxAx, .bsn, .bsnCtx,
   .pair, .time, .can, .canCh, .host, .rcd, .pnl, .trc]

/-- Bytes of a block: one copy's distance times the copies, or the extent of a global block (Table MAP-2). -/
def Blk.extent (b : Blk) : Nat :=
  match b with
  | .prof => 0x10000
  | .vax => 0x10000
  | b => if b.rep then b.step * b.count else 0x10000

/-- The block copy and the offset in it of an address of the unit register space. -/
def blkAt (a : Nat) : Option (Blk × Nat × Nat) :=
  match allBlocks.find? (fun b => decide (b.base ≤ a) && decide (a < b.base + b.extent)) with
  | none => none
  | some b => if b.rep then some (b, (a - b.base) / b.step, (a - b.base) % b.step) else some (b, 0, a - b.base)

/-- The fields of a block at an offset, each with its index in its row. -/
def fieldsAt (b : Blk) (o : Nat) : List (Fld × Nat) :=
  (hdrFields b ++ fieldsOf b).filterMap (fun f =>
    if f.stride = 0 then (if f.off = o then some (f, 0) else none)
    else if f.off ≤ o ∧ (o - f.off) % f.stride = 0 ∧ (o - f.off) / f.stride < f.cnt then some (f, (o - f.off) / f.stride)
    else none)

/-- The bits of a field. -/
def Fld.mask (f : Fld) : Nat := (2 ^ f.width - 1) * 2 ^ f.lsb

/-- A field that configuration sets: a CFG field, and EVT_EN, EVT_EDGE and EVT_TASK of a header (R480). -/
def Fld.isCfg (f : Fld) : Bool := f.acc == .cfg || (f.acc == .rw && decide (0x18 ≤ f.off) && decide (f.off ≤ 0x20) && f.cnt == 1)

/-- The bits of a register word that configuration sets. -/
def cfgMask (a : Nat) : Nat :=
  match blkAt a with
  | none => 0
  | some (b, _, o) => (fieldsAt b o).foldl (fun m f => if f.1.isCfg then m ||| f.1.mask else m) 0

/-- The reset word of the register at an offset of a block. -/
def rstWord (b : Blk) (o : Nat) : Nat :=
  match fieldsAt b o with
  | [] => 0
  | (f, k) :: _ => f.reset k

/-- The register word at an address. -/
def wordAt (s : State) (a : Nat) : Nat :=
  match blkAt a with
  | none => 0
  | some (b, _, o) => (mget s.regs a (BitVec.ofNat 32 (rstWord b o))).toNat

/-- The register word at an address, replaced. -/
def setWordAt (s : State) (a v : Nat) : State :=
  match blkAt a with
  | none => s
  | some (b, _, o) => { s with regs := mput (BitVec.ofNat 32 (rstWord b o)) s.regs a (BitVec.ofNat 32 v) }

/-- An address of the coefficient banks or of the table store of the loop engine. -/
def isLoopMem (a : Nat) : Bool := decide (0x40420000 ≤ a) && decide (a < 0x404E0000)

/-- The bits of a word of a coefficient set that are not reserved (Table LOOP-2), by its address; every bit of a table. -/
def loopBits (a : Nat) : Nat :=
  if a < 0x40460000 then
    (let w := a % 128 / 4
     if w < 21 then 0xFFFFFFFF else if w = 21 then 0xFF7F else if w = 22 then 0xF else 0)
  else 0xFFFFFFFF

/-- A configuration word written: the CFG fields of a register, or a word of the loop engine's banks and tables. -/
def cfgApply (s : State) (w : Nat × Nat) : State :=
  if isLoopMem w.1 then { s with regs := mput 0 s.regs w.1 (BitVec.ofNat 32 (w.2 &&& loopBits w.1)) }
  else
    let m := cfgMask w.1
    if m = 0 then s else setWordAt s w.1 ((wordAt s w.1 &&& (0xFFFFFFFF ^^^ m)) ||| (w.2 &&& m))

/-- The configuration in force as register words. -/
def cfgWords (s : State) : List (Nat × Nat) :=
  s.regs.filterMap (fun w =>
    let m := if isLoopMem w.1 then 0xFFFFFFFF else cfgMask w.1
    if m = 0 then none else some (w.1, w.2.toNat &&& m))

/-- Every configuration field at its reset value. -/
def cfgClear (s : State) : State :=
  forEach s.regs { s with regs := s.regs.filter (fun w => !isLoopMem w.1) } (fun s w =>
    match blkAt w.1 with
    | none => s
    | some (b, _, o) => cfgApply s (w.1, rstWord b o))

/-- The bytes of the channel table, and the configuration bytes of the station table. -/
def isCfgMem (a : Nat) : Bool :=
  (decide (0x02000000 ≤ a) && decide (a < 0x02100000)) ||
  (decide (0x03000000 ≤ a) && decide (a < 0x03010000) && decide (a % 256 < 128))

/-- The channel and station tables as (address, bytes). -/
def cfgMemOf (s : State) : List (Nat × List Byte) :=
  (s.mem.filter (fun c => isCfgMem c.1)).map (fun c => (c.1, [c.2]))

/-- The bits of byte `o` of a channel table entry that are not reserved (Table CHN-1). -/
def chBits (o : Nat) : Nat :=
  if o = 1 then 0x3F else if o = 6 then 0x07 else if o = 7 then 0x7F else if o = 9 then 0
  else if 12 ≤ o ∧ o < 16 then 0 else if o = 0x39 ∨ o = 0x3A ∨ o = 0x3B then 0 else if o = 0x38 then 0x3F else 0xFF

/-- The bits of byte `o` of a station table entry's configuration that are not reserved (Table CHN-10). -/
def stBits (o : Nat) : Nat := if o = 0x11 then 0x07 else if o = 0x12 ∨ o = 0x13 then 0 else 0xFF

/-- Bytes from byte `o` of an entry, with the reserved bits, which ignore a write, as 0 (R14). -/
def maskBytes (m : Nat → Nat) : Nat → List Byte → List Byte
  | _, [] => []
  | o, b :: t => BitVec.ofNat 8 (b.toNat &&& m o) :: maskBytes m (o + 1) t

/-- An address of the channel or station table in an entry that the variant has (R2, R145, R167). -/
def cfgMemHas (s : State) (a : Nat) : Bool :=
  if a < 0x03000000 then decide ((a - 0x02000000) / 64 < nChan s) else decide ((a - 0x03000000) / 256 < nSta s)

/-- Configuration bytes one by one, as (address, byte). -/
def cfgBytes (l : List (Nat × List Byte)) : List (Nat × Byte) :=
  l.flatMap (fun c => (List.range c.2.length).map (fun i => (c.1 + i, c.2.getD i 0)))

/-- The bits of a byte of the channel or station table that are not reserved. -/
def cfgMemBits (a : Nat) : Nat := if a < 0x03000000 then chBits (a % 64) else stBits (a % 256)

/-- The channel and station tables replaced. Absent entries and reserved bits stay 0. -/
def cfgMemSet (s : State) (l : List (Nat × List Byte)) : State :=
  forEach ((cfgBytes l).filter (fun c => isCfgMem c.1 && cfgMemHas s c.1)) { s with mem := s.mem.filter (fun c => !isCfgMem c.1) }
    (fun s c => wrB s c.1 (BitVec.ofNat 8 (c.2.toNat &&& cfgMemBits c.1)))

/-! ## Latching (R140, R143) -/

/-- The block copy whose configuration a word belongs to: registers, the banks of a loop context, and the station table by
its port. -/
def cfgOwner (a : Nat) : Option (Blk × Nat) :=
  if 0x03000000 ≤ a ∧ a < 0x03010000 then some (.lnkPort, (a - 0x03000000) / 1024)
  else if isLoopMem a then (if a < 0x40460000 then some (.loopCtx, (a - 0x40420000) / 0x400) else none)
  else (blkAt a).map (fun x => (x.1, x.2.1))

/-- A configuration word that reaches an instance which already waits for its boundary: what was latched stays in force, and
the word is kept until the instance is in STOP or CONFIG again (DESIGN CHOICE, log entry 107). -/
def keepLate (s : State) (a v : Nat) : State := { s with lateCfg := s.lateCfg ++ [(a, v)] }

/-- The words kept for a block copy are written. -/
def cfgLand (s : State) (b : Blk) (i : Nat) : State :=
  let mine (w : Nat × Nat) : Bool := cfgOwner w.1 == some (b, i)
  forEach (s.lateCfg.filter mine) { s with lateCfg := s.lateCfg.filter (fun w => !mine w) } (fun s w =>
    if w.1 < 0x40000000 then wrBs s w.1 (leBytes 4 w.2) else cfgApply s w)

/-- The configuration of a block copy is latched as a whole. -/
def cfgLatch (s : State) (b : Blk) (i : Nat) : State :=
  let mine (a : Nat) : Bool := cfgOwner a == some (b, i)
  { s with lat := (s.regs.filter (fun w => mine w.1)).foldl (fun m w => minsert m w.1 w.2) (s.lat.filter (fun w => !mine w.1)) }

/-- A register word in force: its configuration bits as latched, the others as they stand. -/
def inForce (s : State) (a : Nat) : Nat :=
  match blkAt a with
  | none => 0
  | some (b, _, o) =>
    if isLoopMem a then wordAt s a
    else
      let m := cfgMask a
      let l := (mget s.lat a (BitVec.ofNat 32 (rstWord b o))).toNat
      (wordAt s a &&& (0xFFFFFFFF ^^^ m)) ||| (l &&& m)

/-! ## What a profile sets (Table TSK-13) -/

/-- The block copy to which a register of a profile belongs; none for an address that no profile sets. -/
def profOwner (a : Nat) : Option (Blk × Nat) :=
  let at_ (b : Blk) : Nat × Nat := ((a - b.base) / b.step, (a - b.base) % b.step)
  let within (b : Blk) : Bool := decide (b.base ≤ a) && decide (a < b.base + b.step * b.count)
  if within .loopCtx then (if 0x40 ≤ (at_ .loopCtx).2 ∧ (at_ .loopCtx).2 < 0x80 then some (.loopCtx, (at_ .loopCtx).1) else none)
  else if 0x40420000 ≤ a ∧ a < 0x40460000 then some (.loopCtx, (a - 0x40420000) / 0x400)
  else if within .profCh then (if 0x44 ≤ (at_ .profCh).2 ∧ (at_ .profCh).2 < 0x54 then some (.profCh, (at_ .profCh).1) else none)
  else if within .vaxAx then (if [0x40, 0x4C, 0x50].contains (at_ .vaxAx).2 then some (.vaxAx, (at_ .vaxAx).1) else none)
  else if within .bsnCtx then
    let o := (at_ .bsnCtx).2
    (if (0x40 ≤ o ∧ o < 0x78) ∨ (0x100 ≤ o ∧ o < 0x140) then some (.bsnCtx, (at_ .bsnCtx).1) else none)
  else if within .canCh then
    let o := (at_ .canCh).2
    (if (0x100 ≤ o ∧ o < 0x180) ∨ (0x400 ≤ o ∧ o < 0x800) then some (.canCh, (at_ .canCh).1) else none)
  else if 0x40B00100 ≤ a ∧ a < 0x40B00500 then some (.rcd, 0)
  else if a = 0x40010050 then some (.pwr, 0)
  else none

/-- The bits of a register that a profile holds: not SAFETY and GROUP of a loop context, not STATION, SAX and PG of a valve
axis, and of PWR.POLICY the responsiveness bound alone (Table TSK-13). -/
def profMask (a : Nat) : Nat :=
  match blkAt a with
  | some (.loopCtx, _, 0x40) => 0xFFFFFFFF ^^^ (LOOP_L_CFG_SAFETY.mask ||| LOOP_L_CFG_GROUP.mask)
  | some (.vaxAx, _, 0x40) => 0xFFFFFFFF ^^^ (VAX_A_CFG_STATION.mask ||| VAX_A_CFG_SAX.mask ||| VAX_A_CFG_PG.mask)
  | some (.pwr, _, 0x50) => PWR_POLICY_RESP.mask
  | _ => 0xFFFFFFFF

/-- The reset word of a register, as far as a profile holds it. -/
def profRst (a : Nat) : Nat :=
  (match blkAt a with | some (b, _, o) => rstWord b o | none => 0) &&& profMask a

/-- The bits of a register that a profile holds, replaced. -/
def profPut (s : State) (a v : Nat) : State :=
  let m := profMask a
  let x := (wordAt s a &&& (0xFFFFFFFF ^^^ m)) ||| (v &&& m)
  if isLoopMem a then { s with regs := mput 0 s.regs a (BitVec.ofNat 32 x) } else setWordAt s a x

/-- The settings of block copies become those of a profile. -/
def profWrite (s : State) (p : Profile) (bs : List (Blk × Nat)) : State :=
  let mine (a : Nat) : Bool := match profOwner a with | some o => bs.contains o | none => false
  forEach ((mkeys s.regs ++ mkeys p.sets).dedup.filter mine) s (fun s a => profPut s a (mget p.sets a (profRst a)))

end Sys2Proof.Machine
end

