-- ==== Sys2Proof/Machine/Crc.lean ====
section
/-!
DEFINITION. The two CRCs of the module: CRC-32 of IEEE 802.3, and the safety CRC with generator 0x1EDC6F41.
Both work with reflected bits, initial value and final XOR of all ones.
-/

namespace Sys2Proof.Machine

/-- Eight steps of a reflected CRC with generator `g` (reflected). -/
def crcBits (g : Nat) : Nat → Nat → Nat
  | 0, r => r
  | n + 1, r => crcBits g n (if r % 2 = 1 then (r / 2) ^^^ g else r / 2)

/-- A reflected 32-bit CRC over bytes. -/
def crc32 (g : Nat) (bs : List Byte) : Nat :=
  (bs.foldl (fun r b => crcBits g 8 (r ^^^ b.toNat)) 0xFFFFFFFF) ^^^ 0xFFFFFFFF

/-- CRC-32 of Ethernet (generator 0x04C11DB7, reflected 0xEDB88320). -/
def crcEth (bs : List Byte) : Nat := crc32 0xEDB88320 bs

/-- The safety CRC (generator 0x1EDC6F41, reflected 0x82F63B78). -/
def crcSaf (bs : List Byte) : Nat := crc32 0x82F63B78 bs

end Sys2Proof.Machine
end

