-- ==== Sys2Proof/Machine/Sine.lean ====
section
/-!
DEFINITION. The sine stimuli of Table LOOP-5: sine, logarithm and exponential in fixed point with 192 fractional bits, wide
enough that one rounding to F32 is that of the exact product (R295; DESIGN CHOICE, log entry 98).
-/

namespace Sys2Proof.Machine

/-- 1 in fixed point. -/
def fxOne : Int := 2 ^ 192

/-- Product of fixed-point numbers. -/
def fxMul (a b : Int) : Int := a * b / fxOne

/-- A power series Σ c_k x^k from term `k` on, as `step k term`, which answers the next term: `n` terms. -/
def fxSeries (step : Nat → Int → Int) : Nat → Nat → Int → Int
  | 0, _, _ => 0
  | n + 1, k, t => t + fxSeries step n (k + 1) (step k t)

/-- atanh z = Σ z^(2k+1) / (2k + 1). -/
def fxAtanh (z : Int) : Int :=
  let z2 := fxMul z z
  ((List.range 64).foldl (fun (acc : Int × Int) k => (acc.1 + acc.2 / (2 * (k : Int) + 1), fxMul acc.2 z2)) (0, z)).1

/-- arctan (1 / q). -/
def fxAtanInv (q : Int) : Int :=
  ((List.range 96).foldl (fun (acc : Int × Int) k =>
    (acc.1 + (if k % 2 = 0 then 1 else -1) * (acc.2 / (2 * (k : Int) + 1)), acc.2 / (q * q))) (0, fxOne / q)).1

/-- π. -/
def fxPi : Int := 16 * fxAtanInv 5 - 4 * fxAtanInv 239

/-- ln 2. -/
def fxLn2 : Int := 2 * fxAtanh (fxOne / 3)

/-- ln (m / n) of positive integers. -/
def fxLn (m n : Nat) : Int :=
  let k : Int := (Nat.log2 m : Int) - (Nat.log2 n : Int)
  let x : Int := if k ≥ 0 then (m : Int) * fxOne / ((n : Int) * 2 ^ k.toNat) else (m : Int) * 2 ^ (-k).toNat * fxOne / (n : Int)
  k * fxLn2 + 2 * fxAtanh ((x - fxOne) * fxOne / (x + fxOne))

/-- exp x. -/
def fxExp (x : Int) : Int :=
  let k := x / fxLn2
  let e := fxSeries (fun j t => fxMul t (x - k * fxLn2) / ((j : Int) + 1)) 48 0 fxOne
  if k ≥ 0 then e * 2 ^ k.toNat else e / 2 ^ (-k).toNat

/-- sin of a number of turns. -/
def fxSin (u : Int) : Int :=
  let f := u % fxOne
  let a := fxMul (2 * fxPi) (if 2 * f ≥ fxOne then f - fxOne else f)
  let a2 := fxMul a a
  fxSeries (fun j t => -(fxMul t a2 / ((2 * (j : Int) + 2) * (2 * (j : Int) + 3)))) 40 0 a

/-- A positive binary32 number as numerator and denominator. -/
def f32Ratio (x : Nat) : Nat × Nat :=
  match fdec f32 x with
  | .fin _ m e => if e ≥ 0 then (m * 2 ^ e.toNat, 1) else (m, 2 ^ (-e).toNat)
  | _ => (1, 1)

/-- A positive binary32 number in fixed point. -/
def f32Fx (x : Nat) : Int := let r := f32Ratio x; (r.1 : Int) * fxOne / (r.2 : Int)

/-- ln (F_END / F_START). -/
def sweepLn (f0 f1 : Nat) : Int := let a := f32Ratio f0; let b := f32Ratio f1; fxLn (b.1 * a.2) (b.2 * a.1)

/-- Turns of step `j` of a sine sweep `t` seconds (fixed point) after its start: the step's frequency is the j-th of STEPS
spaced logarithmically from F_START to F_END, F_START where there is one. -/
def sweepTurns (f0 f1 steps j t : Nat) : Int :=
  fxMul (fxMul (f32Fx f0) (fxExp (sweepLn f0 f1 * (j : Int) / (max (steps - 1) 1 : Nat)))) (t : Int)

/-- Turns of a chirp `t` ns after its start with duration `dur` ns: the integral of F_START × (F_END / F_START)^(t / DUR). -/
def chirpTurns (f0 f1 t dur : Nat) : Int :=
  let l := sweepLn f0 f1
  let sec (n : Nat) : Int := (n : Int) * fxOne / 1000000000
  if l = 0 then fxMul (f32Fx f0) (sec t)
  else fxMul (fxMul (f32Fx f0) (sec dur)) ((fxExp (l * (t : Int) / (dur : Int)) - fxOne) * fxOne / l)

/-- AMP × sin of a number of turns, rounded to F32. -/
def sineF32 (amp : Nat) (u : Int) : Nat :=
  let v := fxSin u
  match fdec f32 amp with
  | .fin s m e => fround f32 (s != decide (v < 0)) (m * v.natAbs) (e - 192)
  | _ => fmul f32 amp (fround f32 (decide (v < 0)) v.natAbs (-192))

end Sys2Proof.Machine
end

