-- ==== Sys2Proof/Machine/Types.lean ====
section
/-!
DEFINITION. The type codes of Table HXI-7 and the raw types of Table CHN-3: sizes, ranges, and conversion between them
under R61.
-/

namespace Sys2Proof.Machine

/-- Bits of a type code; 8 is BIT and 9 is I8 (Table CHN-3). -/
def tyBits (t : Nat) : Nat :=
  match t with
  | 0 => 8 | 1 => 16 | 2 => 16 | 3 => 32 | 4 => 32 | 5 => 64 | 6 => 32 | 7 => 64 | _ => 8

/-- Bytes of a type code (Table HXI-7). -/
def tySize (t : Nat) : Nat := tyBits t / 8

/-- The float format of a type code, if it is a float type. -/
def tyFloat (t : Nat) : Option FFmt := if t = 6 then some f32 else if t = 7 then some f64 else none

/-- True for a signed integer type. -/
def tySigned (t : Nat) : Bool := t == 1 || t == 3 || t == 5 || t == 9

/-- The integer a pattern of an integer type stands for. -/
def tyInt (t x : Nat) : Int :=
  if tySigned t then sint (tyBits t) x else ((x % 2 ^ tyBits t : Nat) : Int)

/-- Smallest value of an integer type. -/
def tyLo (t : Nat) : Int := if tySigned t then -((2 ^ (tyBits t - 1) : Nat) : Int) else 0

/-- Largest value of an integer type. -/
def tyHi (t : Nat) : Int :=
  if tySigned t then ((2 ^ (tyBits t - 1) : Nat) : Int) - 1 else ((2 ^ tyBits t : Nat) : Int) - 1

/-- A value converted from type `t` to type `u`: rounded to nearest (`rnd`) or toward zero, saturated into an integer
type. Answers the pattern, whether it saturated, and whether the source was a NaN (R61). -/
def tyCvt (rnd : Bool) (t u x : Nat) : Nat × Bool × Bool :=
  match tyFloat t, tyFloat u with
  | some f, some g => (fcvt f g x, false, fisNan f x)
  | some f, none =>
    let (i, v, n) := ftoInt f rnd (tyLo u) (tyHi u) x
    (pat (tyBits u) i, v, n)
  | none, some g => (fofInt g (tyInt t x), false, false)
  | none, none =>
    let i := tyInt t x
    let c := clampI (tyLo u) (tyHi u) i
    (pat (tyBits u) c, !decide (c = i), false)

/-- A value of any type as F64 (R152). -/
def tyF64 (t x : Nat) : Nat :=
  match tyFloat t with
  | some f => fcvt f f64 x
  | none => f64i (tyInt t x)

/-- A pattern of type `t` extended to 64 bits as a load does (R52). -/
def tyExt (t x : Nat) : Nat :=
  match tyFloat t with
  | some _ => x % 2 ^ tyBits t
  | none => pat 64 (tyInt t x)

end Sys2Proof.Machine
end

