-- ==== Sys2Proof/Machine/ChanOps.lean ====
section
/-!
DEFINITION. The channel table, the station table, the channel cache and the ownership of output channels
(R145 to R151, R156, R163, R167).
-/

namespace Sys2Proof.Machine

open R

/-! ## Entries -/

/-- Address of channel table entry `n` (R145). -/
def chAddr (n : Nat) : Nat := 0x02000000 + n * 64

/-- The channel table entry in DDR4 (Table CHN-1). -/
def tableEntry (s : State) (n : Nat) : ChEntry :=
  let a := chAddr n
  { src := rdN s a 1, mode := rdN s (a + 1) 1, point := rdN s (a + 2) 2, byteOfs := rdN s (a + 4) 2,
    bitOfs := rdN s (a + 6) 1, types := rdN s (a + 7) 1, ownKind := rdN s (a + 8) 1, ownInst := rdN s (a + 10) 2,
    gain := rdN s (a + 16) 8, offset := rdN s (a + 24) 8, limLo := rdN s (a + 32) 8, limHi := rdN s (a + 40) 8,
    subst := rdN s (a + 48) 8, opt := rdN s (a + 56) 2 }

/-- DIR: true for an output. -/
def ChEntry.isOut (e : ChEntry) : Bool := bitOf e.mode 0
/-- CLASS. -/
def ChEntry.cls (e : ChEntry) : Nat := bits e.mode 1 2
/-- FAST. -/
def ChEntry.fast (e : ChEntry) : Bool := bitOf e.mode 3
/-- SAFETY. -/
def ChEntry.safety (e : ChEntry) : Bool := bitOf e.mode 4
/-- GATED. -/
def ChEntry.gated (e : ChEntry) : Bool := bitOf e.mode 5
/-- RAW_TYPE. -/
def ChEntry.raw (e : ChEntry) : Nat := bits e.types 0 4
/-- IMG_TYPE. -/
def ChEntry.img (e : ChEntry) : Nat := bits e.types 4 3
/-- RANGE_ACT: 0 FLAG, 1 CLAMP, 2 SUBST. -/
def ChEntry.rangeAct (e : ChEntry) : Nat := bits e.opt 0 2
/-- SCALE_EN. -/
def ChEntry.scaleEn (e : ChEntry) : Bool := bitOf e.opt 2
/-- SUBST_MODE: 0 value, 1 hold last valid. -/
def ChEntry.substMode (e : ChEntry) : Nat := bits e.opt 3 2
/-- LIM_EN. -/
def ChEntry.limEn (e : ChEntry) : Bool := bitOf e.opt 5
/-- True for an entry in use (R146). -/
def ChEntry.used (e : ChEntry) : Bool := e.src != 0

/-- A channel's state. -/
def getChan (s : State) (n : Nat) : Chan := mget s.chn.chans n {}
/-- A channel's state, replaced. -/
def setChan (s : State) (n : Nat) (v : Chan) : State :=
  { s with chn := { s.chn with chans := mput {} s.chn.chans n v } }

/-- The channels the channel unit holds a copy of. -/
def chanList (s : State) : List Nat := mkeys s.chn.chans

/-- The channels whose entry in DDR4 has any byte set. -/
def tableList (s : State) : List Nat :=
  (s.mem.foldl (fun acc p =>
    if 0x02000000 ≤ p.1 ∧ p.1 < 0x02100000 then
      let n := (p.1 - 0x02000000) / 64
      match acc with
      | [] => [n]
      | m :: _ => if m = n then acc else n :: acc
    else acc) ([] : List Nat)).reverse

/-! ## Station table (Table CHN-10) -/

/-- Address of a byte of a station table entry. -/
def stAddr (i o : Nat) : Nat := 0x03000000 + i * 256 + o

/-- A field of a station table entry. -/
def stGet (s : State) (i o n : Nat) : Nat := rdN s (stAddr i o) n
/-- A field of a station table entry, written by the link engine. -/
def stSet (s : State) (i o n v : Nat) : State := wrN s (stAddr i o) n v

/-- FLAGS[0]: the station is configured. -/
def stConfigured (s : State) (i : Nat) : Bool := bitOf (stGet s i 0x11 1) 0
/-- FLAGS[1]: safety station. -/
def stSafety (s : State) (i : Nat) : Bool := bitOf (stGet s i 0x11 1) 1
/-- IN_LEN. -/
def stInLen (s : State) (i : Nat) : Nat := stGet s i 0x08 2
/-- OUT_LEN. -/
def stOutLen (s : State) (i : Nat) : Nat := stGet s i 0x0A 2
/-- FAST_IN_LEN. -/
def stFinLen (s : State) (i : Nat) : Nat := stGet s i 0x0C 2
/-- FAST_OUT_LEN. -/
def stFoutLen (s : State) (i : Nat) : Nat := stGet s i 0x0E 2
/-- STATE: 0 ABSENT, 1 INIT, 2 UP, 3 LATE, 4 DOWN. -/
def stState (s : State) (i : Nat) : Nat := stGet s i 0x80 1
/-- CAUSE of the last change to DOWN. -/
def stCause (s : State) (i : Nat) : Nat := stGet s i 0x81 1

/-! ## Validity (R146, R151) -/

/-- The conversion fields meet R151. -/
def convOk (e : ChEntry) : Bool :=
  !(e.scaleEn && (fisZero f64 e.gain || !fisFin f64 e.gain || !fisFin f64 e.offset)) &&
  !(e.limEn && (fisNan f64 e.limLo || fisNan f64 e.limHi || flt f64 e.limHi e.limLo)) &&
  e.rangeAct != 3 && decide (e.substMode < 2)

/-- The raw type of a local point in a direction (Table LIO-1), none where the point does not exist in it. -/
def localRaw (s : State) (p : Nat) (out : Bool) : Option Nat :=
  if p < 0x20 then (if out then none else some 8)
  else if p < 0x30 then some 8
  else if p < 0x40 then (if out then none else some 3)
  else if p < 0x44 then (if out then some (if getB s LIO_AO_CFG_MODE 0 (p - 0x40) then 2 else 1) else some 3)
  else if p < 0x48 then (if out then none else some 3)
  else none

/-- The raw type of a host-fed field (Table HOST-4), none for a number that is no field. -/
def hostRaw (p : Nat) : Option Nat :=
  if p = 98 then some 0
  else if [16, 32, 48, 64, 65, 80, 81, 82, 83, 96, 97, 112, 113, 114, 115].contains p then some 7 else none

/-- Bytes of a raw value. -/
def rawSize (r : Nat) : Nat := if r ≤ 7 then tySize r else 1

/-- The owner of an entry is permitted (Table CHN-4). -/
def ownerOk (s : State) (e : ChEntry) : Bool :=
  match e.ownKind with
  | 0 => decide (e.ownInst < 3) && e.ownInst == e.cls
  | 1 => e.ownInst == 0 && e.safety
  | 2 => decide (e.ownInst < 256) && e.cls == 0
  | 3 => decide (e.ownInst < nAxis s) && e.isOut && e.cls == 0 && e.src == 1
  | 4 => e.ownInst == 0 && e.src == 2
  | _ => false

/-- The safety image in force, or the one loaded for the next RUN. -/
def safImg (s : State) : SImage := if s.saf.img.id = 0 then s.saf.loaded.getD s.saf.img else s.saf.img

/-- DO `n` belongs to a safety pair of the safety image (R213, R268). -/
def inPair (s : State) (n : Nat) : Bool := (safImg s).map.any (fun m => m.2.kind == 5 && m.2.point == n / 2)

/-- The source or destination of an entry exists and holds the value (R146, R202, R203, R424). -/
def sourceOk (s : State) (e : ChEntry) : Bool :=
  match e.src with
  | 1 =>
    decide (e.point < nSta s) && stConfigured s e.point &&
    decide (e.byteOfs + rawSize e.raw ≤
      (if e.fast then (if e.isOut then stFoutLen s e.point else stFinLen s e.point)
       else (if e.isOut then stOutLen s e.point else stInLen s e.point)))
  | 2 =>
    (localRaw s e.point e.isOut == some e.raw) && !e.fast && e.byteOfs == 0 && e.bitOfs == 0 &&
    (!e.safety || decide (e.point < 0x20) || (decide (0x20 ≤ e.point) && decide (e.point < 0x30) && inPair s (e.point - 0x20)))
  | 3 => (hostRaw e.point == some e.raw) && !e.isOut && e.byteOfs == 0
  | _ => false

/-- An in-use entry is valid (R146). A BIT_OFS other than 0 beside a RAW_TYPE other than BIT is taken for a field without a
permitted code (DESIGN CHOICE, log entry 88). -/
def entryOk (s : State) (e : ChEntry) : Bool :=
  decide (e.cls < 3) && e.mode < 64 && decide (e.raw ≤ 9) && e.types < 128 && decide (e.bitOfs < 8) &&
  (e.bitOfs == 0 || e.raw == 8) && ownerOk s e && sourceOk s e && convOk e

/-! ## Writing the table (R148) -/

/-- The block copy that owns the mapping bytes of an entry (R148). -/
def mapOwner (e : ChEntry) : Blk × Nat :=
  if e.src = 1 then (.lnkPort, e.point / 4) else if e.src = 2 then (.lio, 0) else (.chn, 0)

/-- The channel table entry with bytes written, as it would stand. -/
def entryWith (s : State) (n : Nat) (a : Nat) (bs : List Byte) : ChEntry := tableEntry (wrBs s a bs) n

/-- The first refused CHTAB write is kept in CHN.REF_WR. -/
def refWr (s : State) (ofs : Nat) : State :=
  if getB s CHN_REF_WR_VALID then s else setF (setF s CHN_REF_WR_OFS ofs) CHN_REF_WR_VALID 1

/-- A write of bytes inside one channel table entry, from the program or from management (R145, R148, R237): whole or
not at all, its reserved bits aside. Entries beyond the variant ignore it. Answers the state and whether the write was made. -/
def chtabEntryWrite (s : State) (a : Nat) (bs0 : List Byte) : State × Bool :=
  let n := (a - 0x02000000) / 64
  let o := a % 64
  let bs := maskBytes chBits o bs0
  if n ≥ nChan s then (s, true)
  else if o ≥ 16 ∨ bs = [] then (wrBs s a bs, true)
  else
    let e := tableEntry s n
    let e' := entryWith s n a bs
    let w := mapOwner e
    let w' := mapOwner e'
    let cfgNo := stOf s w.1 w.2 != stCONFIG || stOf s w'.1 w'.2 != stCONFIG
    let safNo := inRun s .saf && (e.safety || e.gated || e'.safety || e'.gated)
    if cfgNo || safNo then
      let s1 := if cfgNo then latch (unitErrAt s .chn 0 0x0501 n []) .chn 0 8 else s
      let s2 := if safNo then unitErrAt s1 .saf 0 0x0801 n [] else s1
      (refWr s2 (a - 0x02000000), false)
    else (wrBs s a bs, true)

/-- A write to CHTAB that may span entries: each entry's part is judged on its own (R148). The first argument bounds the
number of entries. -/
def chtabWriteN : Nat → State → Nat → List Byte → State × Bool
  | 0, s, _, _ => (s, true)
  | k + 1, s, a, bs =>
    if bs = [] then (s, true)
    else
      let room := 64 - a % 64
      let (s1, ok1) := chtabEntryWrite s a (bs.take room)
      let (s2, ok2) := chtabWriteN k s1 (a + room) (bs.drop room)
      (s2, ok1 && ok2)

/-- A write to CHTAB. -/
def chtabWrite (s : State) (a : Nat) (bs : List Byte) : State × Bool := chtabWriteN (bs.length / 64 + 2) s a bs

/-! ## The channel cache (R149 to R151) -/

/-- The cached entry of a channel is marked invalid; its re-read is pending (R149). -/
def invalidate (s : State) (n : Nat) : State :=
  let c := getChan s n
  if c.inv then s
  else setF (setChan s n { c with inv := true }) CHN_REFILL_PEND (getF s CHN_REFILL_PEND + 1)

/-- Every in-use entry, and every entry held in the cache, is marked invalid (R149). -/
def invalidateAll (s : State) : State :=
  let s1 := forEach (tableList s ++ chanList s) s invalidate
  if getF s1 CHN_REFILL_PEND = 0 then s1 else setF s1 CHN_REFILL_ALLBUSY 1

/-- One pending re-read less; with the last of them the re-read of all is over. -/
def refillDown (s : State) : State :=
  let p := getF s CHN_REFILL_PEND
  let s1 := setF s CHN_REFILL_PEND (p - 1)
  if p ≤ 1 then setF s1 CHN_REFILL_ALLBUSY 0 else s1

/-- The first refused entry is kept in CHN.BAD_ENTRY (R147, R151). -/
def badEntry (s : State) (n : Nat) : State :=
  if getB s CHN_BAD_ENTRY_VALID then
    (if getF s CHN_BAD_ENTRY_CHAN = n then s else setF s CHN_BAD_ENTRY_OVR 1)
  else setF (setF s CHN_BAD_ENTRY_CHAN n) CHN_BAD_ENTRY_VALID 1

/-- The table entry of a channel as a re-read finds it, none where a word of it has an uncorrectable error (R34). -/
def entryRead (s : State) (n : Nat) : Option ChEntry :=
  if s.bad.any (fun w => decide (chAddr n ≤ w * 8) && decide (w * 8 < chAddr n + 64)) then none else some (tableEntry s n)

/-- The re-read of an invalidated entry completes: the cached copy is the entry in DDR4 as it stands then, which is one of
the instants R149 permits (DESIGN CHOICE, log entry 89). An entry that cannot be read is refused: the cached copy stays
(DESIGN CHOICE, log entry 100). -/
def reread (s : State) (n : Nat) : State :=
  let c := getChan s n
  if c.inv then
    match entryRead s n with
    | some e => refillDown (setChan s n { c with inv := false, bad := false, cached := e, readAt := s.ticks + 1 })
    | none => refillDown (latch (badEntry (unitErrAt (setChan s n { c with inv := false }) .chn 0 0x0510 n []) n) .chn 0 4)
  else s

/-- The cached entry is copied into the latched entry, unless R151 refuses it; the refusal of one cached version is recorded
once. -/
def latchEntry (s : State) (n : Nat) : State :=
  let c := getChan s n
  if c.latched == c.cached then s
  else if convOk c.cached || !c.cached.used then setChan s n { c with latched := c.cached }
  else if c.bad then s
  else latch (badEntry (unitErrAt (setChan s n { c with bad := true }) .chn 0 0x0510 n []) n) .chn 0 4

/-- At a class boundary the cached entry is latched, unless its re-read is pending or completes at this very TICK edge
(R150). -/
def entryLatch (s : State) (n : Nat) : State :=
  if (getChan s n).inv || (getChan s n).readAt == s.ticks + 1 then s else latchEntry s n

/-- At the RUN transition of the owner every entry is re-read and latched, mapping and conversion bytes together, unless
R151 refuses it (R149, R151). -/
def latchOwned (s : State) (own : Blk × Nat → Bool) : State :=
  forEach (tableList s ++ chanList s) s (fun s n =>
    let e := tableEntry s n
    if own (mapOwner e) || own (mapOwner (getChan s n).latched) then
      let c := getChan s n
      let s1 := setChan s n { c with inv := false, bad := false, cached := (entryRead s n).getD c.cached }
      latchEntry (if c.inv then refillDown s1 else s1) n
    else s)

/-! ## OUT slots and their owners (R65, R156) -/

/-- Where the value of an OUT slot is written: the owner's slot, and for an INIT task also the link engine's copy
(R130). An ACTIVE module notes a change that snapshots show for its checkpoints (R358), and after a takeover that the new owner
has written the channel: the value of a task is in the task's buffer until the output close (R366). -/
def putOut (s : State) (n v : Nat) (init : Bool) : State :=
  let c := getChan s n
  let s1 := setChan s n { c with outVal := v, lnkVal := if init then v else c.lnkVal }
  if getF s PAIR_ROLE_ROLE = 1 then
    let task := c.latched.ownKind == 0 && !init
    { s1 with pair := { s1.pair with
        outAt := if task then s1.pair.outAt else mput 0 s1.pair.outAt n (now s + 1),
        written := if s1.pair.tko.isSome then mput 0 s1.pair.written n (max (mget s1.pair.written n 0) (if task then 1 else 3))
                   else s1.pair.written } }
  else s1

/-- An ownership refusal is counted in CHN.OWNREF and latched (R156). -/
def ownRefused (s : State) (n : Nat) : State :=
  latch (setF (incF s CHN_OWNREF_COUNT) CHN_OWNREF_CHAN n) .chn 0 16

/-- A logic core running task `t` may write the OUT slot of a channel with this entry (R156). Task 16 stands for a core
that runs no task. -/
def coreOwns (e : ChEntry) (t : Nat) : Bool :=
  e.used && e.isOut && e.ownKind == 0 &&
  (t == e.ownInst + 2 || t ≤ 1 || (5 ≤ t && t ≤ 15))

/-! ## Force entries (R163) -/

/-- A force entry. -/
def getForce (s : State) (i : Nat) : Force := mget s.chn.forces i {}

/-- A force entry replaced, with the counts of CHN.FCNT and the level conditions of R166. -/
def setForce (s : State) (i : Nat) (v : Force) : State :=
  let fs := mput {} s.chn.forces i v
  let nf := (fs.filter (fun p => p.2.kind == 1)).length
  let ns := (fs.filter (fun p => p.2.kind == 2)).length
  let s1 := { s with chn := { s.chn with forces := fs }, mram := { s.mram with forces := fs } }
  level (setF (setF s1 CHN_FCNT_FORCES nf) CHN_FCNT_SIMS ns) .chn 0 0 (decide (nf > 0))

/-- The value a FORCE entry gives channel `n`, if there is one. -/
def forced (s : State) (n : Nat) : Option Nat :=
  (s.chn.forces.find? (fun p => p.2.kind == 1 && p.2.chan == n)).map (fun p => p.2.val)

/-- The value a SIM entry gives channel `n`, if there is one. -/
def simVal (s : State) (n : Nat) : Option Nat :=
  (s.chn.forces.find? (fun p => p.2.kind == 2 && p.2.chan == n)).map (fun p => p.2.val)

/-- True while station `i` is simulated (R165). -/
def simulated (s : State) (i : Nat) : Bool := bitOf (getF s CHN_SIM_SIM 0 (i / 32)) (i % 32)

/-- The IN value and status of channel `n` for a reader of class `cls` (R155). -/
def inView (s : State) (cls n : Nat) : Nat × Nat :=
  let c := getChan s n
  if !c.latched.used || c.latched.isOut then (0, 0)
  else if cls = c.latched.cls then (c.tkVal, c.tkSt) else (c.inVal, c.inSt)

end Sys2Proof.Machine
end

