-- ==== Sys2Proof/Machine/Convert.lean ====
section
/-!
DEFINITION. The channel status word and the conversions between raw and image values (R152, R153, R158 to R161).
-/

namespace Sys2Proof.Machine

open R

/-! ## Status bits (Table CHN-6) -/

/-- VALID. -/
def csVALID : Nat := 0x1
/-- SUBST. -/
def csSUBST : Nat := 0x2
/-- FORCED. -/
def csFORCED : Nat := 0x4
/-- SIM. -/
def csSIM : Nat := 0x8
/-- LATE. -/
def csLATE : Nat := 0x10
/-- RANGE_LO. -/
def csLO : Nat := 0x20
/-- RANGE_HI. -/
def csHI : Nat := 0x40
/-- CLAMPED. -/
def csCLAMP : Nat := 0x80
/-- WIRE_BREAK. -/
def csWIRE : Nat := 0x100
/-- DEV_FAULT. -/
def csDEV : Nat := 0x200
/-- OWNER_STOP. -/
def csOSTOP : Nat := 0x400
/-- OWNER_FAULT. -/
def csOFAULT : Nat := 0x800
/-- GATED. -/
def csGATED : Nat := 0x1000
/-- OUT_SAT. -/
def csSAT : Nat := 0x2000

/-- A status word from its flags, its AGE and its CAUSE. -/
def csWord (flags age cause : Nat) : Nat := flags + age * 0x10000 + cause * 0x1000000

/-! ## Substitutes (R161) -/

/-- The substitute of a channel in image units: SUBST, or the last valid value under SUBST_MODE 1. -/
def substOf (e : ChEntry) (good : Option Nat) : Nat :=
  if e.substMode = 1 then good.getD (e.subst % 2 ^ tyBits e.img) else e.subst % 2 ^ tyBits e.img

/-! ## Inputs (R152) -/

/-- What a conversion gives: the value, the range flags, and the CAUSE where the substitute is to be used. -/
structure Conv where
  val : Nat
  flags : Nat
  cause : Option Nat
  deriving DecidableEq, Repr

/-- Range flags of a value against the limits of an entry (R152 step 3): the limits themselves are inside. -/
def rangeFlags (e : ChEntry) (x64 : Nat) : Nat :=
  if e.limEn then (if flt f64 x64 e.limLo then csLO else 0) + (if flt f64 e.limHi x64 then csHI else 0) else 0

/-- An input value converted from its raw value. The limits are compared in F64 (DESIGN CHOICE for an unscaled I64, log entry
91). -/
def inConv (e : ChEntry) (raw : Nat) : Conv :=
  let ty := if e.scaleEn then 7 else if e.raw = 8 then 0 else if e.raw = 9 then 3 else e.raw
  let x :=
    if e.scaleEn then fadd f64 (fmul f64 (tyF64 e.raw raw) e.gain) e.offset
    else if e.raw = 9 then pat 32 (tyInt 9 raw) else raw % 2 ^ tyBits e.raw
  let x64 := tyF64 ty x
  let rf := rangeFlags e x64
  if rf ≠ 0 ∧ e.rangeAct = 2 then ⟨0, rf, some 7⟩
  else
    let (ty, x, cf) :=
      if rf ≠ 0 ∧ e.rangeAct = 1 then (7, if rf = csLO then e.limLo else e.limHi, csCLAMP) else (ty, x, 0)
    let (v, _, nan) := tyCvt true ty e.img x
    if nan then ⟨0, rf + cf, some 0x0A⟩ else ⟨v, rf + cf, none⟩

/-- What the source of an input says at an input close. `cause` is the reason for which row 3 of Table CHN-8 applies
before any conversion, 0 if none. `stamp` names the source's value where it can be the same at two closes, 0 where
`isFresh` alone tells. -/
structure InSrc where
  cause : Nat
  late : Bool
  isFresh : Bool
  wire : Bool
  dev : Bool
  raw : Nat
  stamp : Nat := 0
  deriving DecidableEq, Repr

/-- The source brought a value that the previous close did not have. -/
def InSrc.brings (src : InSrc) (c : Chan) : Bool := src.isFresh && (src.stamp == 0 || src.stamp != c.srcAt)

/-- The value and the status of an input at an input close by the precedence of Table CHN-8: FORCE value, simulation,
substitute, LATE, conversion. `inc` is what AGE gains where the source brought nothing. Answers value, status, and the
channel with the value to keep as the last one, which the frames of a simulated station do not touch (R165); that last value
is the last one received and converted (DEDUCED, log entry 130). -/
def inputRow (c : Chan) (e : ChEntry) (src : InSrc) (frc sim : Option Nat) (simd : Bool) (inc : Nat) :
    Nat × Nat × Chan :=
  let age := if src.brings c then 0 else sat 255 (c.age + inc)
  let cv := inConv e src.raw
  let wd := (if src.wire then csWIRE else 0) + (if src.dev then csDEV else 0)
  let c1 := { c with age := age, wire := src.wire, dev := src.dev, srcAt := src.stamp }
  let c1 := if (src.isFresh || src.late) && src.cause == 0 && cv.cause.isNone && !simd then
              { c1 with last := cv.val, seen := true, raw := src.raw }
            else c1
  let sub := substOf e c.good
  match frc with
  | some f => (f % 2 ^ tyBits e.img, csWord (csVALID + csFORCED + wd) age 0, c1)
  | none =>
    if simd then
      match sim with
      | some v => (v % 2 ^ tyBits e.img, csWord (csVALID + csSIM) age 0, c1)
      | none =>
        if c.seen then (c.last, csWord (csVALID + csSIM) age 0, c1)
        else (sub, csWord (csSUBST + csSIM) age 9, c1)
    else if src.cause ≠ 0 then (sub, csWord (csSUBST + wd) age src.cause, c1)
    else if src.late && cv.cause != some 0x0A then (c1.last, csWord (csVALID + csLATE) age 0, c1)
    else
      match cv.cause with
      | some k => (sub, csWord (csSUBST + cv.flags) age k, c1)
      | none => (cv.val, csWord (csVALID + cv.flags) age 0, c1)

/-- A status word says VALID and not SUBST. -/
def stGood (st : Nat) : Bool := bitOf st 0 && !bitOf st 1

/-- A channel with a new value and status in its latest IN image. -/
def putIn (c : Chan) (v st : Nat) : Chan :=
  { c with inVal := v, inSt := st, good := if stGood st then some v else c.good }

/-! ## Outputs (R153) -/

/-- A finite F64 beyond the range of F32, which a conversion to the raw type F32 saturates at its limits (R153; an infinity
stays one: DESIGN CHOICE, log entry 90). -/
def beyondF32 (t u x : Nat) : Bool :=
  t == 7 && u == 6 && fisFin f64 x && !fisFin f32 (fcvt f64 f32 x)

/-- The largest finite F32, with the sign of an F64. -/
def maxF32 (x : Nat) : Nat := 0x7F7FFFFF + x / 2 ^ 63 % 2 * 2 ^ 31

/-- Steps 2 and 3 of R153: a value of a type taken to the raw type. Answers raw, OUT_SAT, and whether it was a NaN. -/
def toRaw (e : ChEntry) (ty v : Nat) : Nat × Bool × Bool :=
  let (ty', v') := if e.scaleEn then (7, fdiv f64 (fsub f64 (tyF64 ty v) e.offset) e.gain) else (ty, v)
  if beyondF32 ty' e.raw v' then (maxF32 v', true, false)
  else
    let (r, st, nan) := tyCvt true ty' (if e.raw = 8 then 0 else e.raw) v'
    (if e.raw = 8 then r % 2 else r, st, nan)

/-- The substitute taken to raw; raw 0 where it is itself a NaN (R153 step 3). -/
def substRaw (e : ChEntry) (good : Option Nat) : Nat × Bool :=
  let (r, st, nan) := toRaw e e.img (substOf e good)
  if nan then (0, false) else (r, st)

/-- The substitute taken to raw is itself a NaN. -/
def substNan (e : ChEntry) (good : Option Nat) : Bool := (toRaw e e.img (substOf e good)).2.2

/-- What a launch sends for an output: raw value, status flags with CAUSE, and the value in image units. -/
structure OutVal where
  raw : Nat
  st : Nat
  img : Nat
  deriving DecidableEq, Repr

/-- The substitute as a launch sends it, with extra flags and a CAUSE. -/
def outSubst (e : ChEntry) (good : Option Nat) (flags cause : Nat) : OutVal :=
  let (r, st) := substRaw e good
  ⟨r, csWord (csSUBST + flags + (if st then csSAT else 0)) 0 cause, substOf e good⟩

/-- A force value sent as it is, without a range action (row 2 of Table CHN-9); a NaN is sent as the substitute. -/
def outForced (e : ChEntry) (good : Option Nat) (v : Nat) : OutVal :=
  let (r, st, nan) := toRaw e e.img v
  if nan then outSubst e good csFORCED 0x0A else ⟨r, csWord (csVALID + csFORCED + (if st then csSAT else 0)) 0 0, v⟩

/-- An output value of the image type converted for its launch (R153). `flags` are those of its row in Table CHN-9. AGE of an
output is 0 (DESIGN CHOICE, log entry 92). -/
def outConv (e : ChEntry) (good : Option Nat) (v flags : Nat) : OutVal :=
  let x64 := tyF64 e.img v
  let rf := rangeFlags e x64
  if rf ≠ 0 ∧ e.rangeAct = 2 then outSubst e good (flags - flags % 2 + rf) (if substNan e good then 0x0A else 7)
  else
    let clamp := rf ≠ 0 ∧ e.rangeAct = 1
    let lim := if rf = csLO then e.limLo else e.limHi
    let ty := if clamp then 7 else e.img
    let x := if clamp then lim else v
    let (r, st, nan) := toRaw e ty x
    if nan then outSubst e good (flags - flags % 2 + rf + (if clamp then csCLAMP else 0)) 0x0A
    else
      ⟨r, csWord (flags + rf + (if clamp then csCLAMP else 0) + (if st then csSAT else 0)) 0 0,
       if clamp then (tyCvt true 7 e.img lim).1 else v⟩

end Sys2Proof.Machine
end

