-- ==== Sys2Proof/Machine/Sched.lean ====
section
/-!
DEFINITION. Statistics samples, release and scheduling of segments, output close, and the end of a task
(R45, R110 to R118, R156, R157, R432, R433).
-/

namespace Sys2Proof.Machine

open R

/-! ## Statistics (R432, R433) -/

/-- The bin of a sample: bin i covers [LO + i × w, LO + (i + 1) × w), the outer bins extend to infinity (R433). -/
def statBin (lo hi x : Nat) : Nat :=
  let w := fdiv f64 (fsub f64 hi lo) (f64i 16)
  ((List.range 15).filter (fun i => fle f64 (fadd f64 lo (fmul f64 (f64i ((i : Int) + 1)) w)) x)).length

/-- A sample (F64 pattern) added to every declared statistic of a source kind and ID. NaN samples are not counted. -/
def statSample (s : State) (kind id x : Nat) : State :=
  if fisNan f64 x || !inRun s .rcd then s
  else forEach (List.range 64) s (fun s i =>
    if getB s REC_S_SRC_EN 0 i && getF s REC_S_SRC_KIND 0 i == kind && getF s REC_S_SRC_ID 0 i == id then
      let a := mget s.stats i {}
      let b := statBin (f64of32 (getF s REC_S_LO_VAL 0 i)) (f64of32 (getF s REC_S_HI_VAL 0 i)) x
      let a' : StatAcc := { count := a.count + 1, lo := if a.count = 0 then x else fmin f64 a.lo x,
                            hi := if a.count = 0 then x else fmax f64 a.hi x,
                            sum := if a.count = 0 then x else fadd f64 a.sum x,
                            bins := mput 0 a.bins b (mget a.bins b 0 + 1) }
      { s with stats := mput {} s.stats i a' }
    else s)

/-! ## Segments -/

/-- A segment of a task: key task × 4 + segment. -/
def getSeg (s : State) (k : Nat) : Seg := mget s.tsk.segs k {}
/-- A segment, replaced. -/
def setSeg (s : State) (k : Nat) (v : Seg) : State := { s with tsk := { s.tsk with segs := mput {} s.tsk.segs k v } }

/-- Number of segments of a task (T_CFG.NSEG + 1). -/
def nSeg (s : State) (t : Nat) : Nat := getF s TSK_T_CFG_NSEG 0 t + 1

/-- The core of a segment (T_CFG.CORE0 to CORE3, R113). -/
def segCore (s : State) (k : Nat) : Nat :=
  match k % 4 with
  | 0 => getF s TSK_T_CFG_CORE0 0 (k / 4)
  | 1 => getF s TSK_T_CFG_CORE1 0 (k / 4)
  | 2 => getF s TSK_T_CFG_CORE2 0 (k / 4)
  | _ => getF s TSK_T_CFG_CORE3 0 (k / 4)

/-- The segments of a task. -/
def segsOf (s : State) (t : Nat) : List Nat := (List.range (nSeg s t)).map (fun k => t * 4 + k)

/-- Priority position of a task, 0 the highest (Table TSK-1, Table TSK-2): ERROR, B0H, C0, B1L, C1, B2L, C2, B4. -/
def rank (s : State) (t : Nat) : Nat :=
  if t = 5 then 0 else if t ≤ 1 then 1 else if t ≤ 4 then 2 * (t - 1)
  else 1 + 2 * getF s TSK_T_CFG_BAND 0 t

/-- T_STAT.ST of a task from its segments: 0 idle, 1 ready, 2 running; class FAULT (3) stands. -/
def taskStat (s : State) (t : Nat) : State :=
  if getF s TSK_T_STAT_ST 0 t = 3 then s
  else
    let phs := (segsOf s t).map (fun k => (getSeg s k).ph)
    let st := if !(getTask s t).live then 0
              else if phs.any (fun p => p != .idle && p != .ready && p != .ended) then 2
              else if phs.contains .ready then 1 else 2
    setF s TSK_T_STAT_ST st 0 t

/-- The running segment of a core is taken off it, its context saved, with a phase and a place in its band. -/
def takeOff (s : State) (c : Nat) (ph : SegPh) (ord : Nat) : State :=
  let k := getCore s c
  match k.run with
  | none => s
  | some key =>
    taskStat (setCore (setSeg s key { ph := ph, ctx := k.ctx, ord := ord }) c { k with run := none, ctx := {} }) (key / 4)

/-- A core that a segment runs on is awake (R447, R448). -/
def wakeCore (s : State) (c : Nat) : State :=
  setF { s with pwr := { s.pwr with idleAt := mput 0 s.pwr.idleAt c 0 } } R.PWR_IDLE_LC (setBits (getF s R.PWR_IDLE_LC) (2 * c) 2 0)

/-- A segment starts or resumes on its core. VALID and OVR of LE_FAULT are cleared before it runs (R106). -/
def putOn (s : State) (c key : Nat) : State :=
  let s := wakeCore s c
  let k := getCore s c
  let g := getSeg s key
  taskStat (setCore (setSeg s key { g with ph := .running }) c
    { k with run := some key, ctx := g.ctx, mode := .ready, le := { k.le with valid := false, ovr := false } }) (key / 4)

/-- True when ready segment `a` goes before ready segment `b` on their core (R111, R112). -/
def before (s : State) (a b : Nat) : Bool :=
  let ra := rank s (a / 4)
  let rb := rank s (b / 4)
  let oa := (getSeg s a).ord
  let ob := (getSeg s b).ord
  decide (ra < rb) || (ra == rb && (decide (oa < ob) || (oa == ob && decide (a < b))))

/-- The place of a segment that resumes: behind every ready segment of its band on its core (R112). -/
def backOrd (s : State) (key : Nat) : Nat :=
  s.tsk.segs.foldl (fun m p =>
    if p.2.ph == .ready && segCore s p.1 == segCore s key && rank s (p.1 / 4) == rank s (key / 4) then max m (p.2.ord + 1)
    else m) 2

/-- The ready segment of a core that goes first. -/
def bestReady (s : State) (c : Nat) : Option Nat :=
  s.tsk.segs.foldl (fun acc p =>
    if p.2.ph == .ready && segCore s p.1 == c then
      match acc with
      | none => some p.1
      | some b => if before s p.1 b then some p.1 else some b
    else acc) none

/-- A core takes the first ready segment when it is free, or preempts a segment of a lower band (R44, R111). -/
def schedule (s : State) (c : Nat) : State :=
  match bestReady s c with
  | none => s
  | some key =>
    match (getCore s c).run with
    | none => putOn s c key
    | some r => if rank s (key / 4) < rank s (r / 4) then putOn (takeOff s c .ready 0) c key else s

/-- Every logic core schedules. -/
def scheduleAll (s : State) : State := forEach (List.range 6) s schedule

/-- The context of a segment at its release (R45): everything 0, the segment number in X0, the entry point in PC. -/
def entryCtx (s : State) (key : Nat) : Ctx :=
  { pc := mget (actSlot s).entries key 0, x := mput 0 [] 0 (BitVec.ofNat 32 (key % 4)) }

/-- A task is released: all its segments become ready (R45, R114). -/
def releaseTask (s : State) (t : Nat) : State :=
  let s1 := setTask s t { getTask s t with live := true, relAt := now s, faulted := false, exec := 0 }
  let s2 := forEach (segsOf s1 t) s1 (fun s k => setSeg s k { ph := .ready, ctx := entryCtx s k, ord := 1 })
  taskStat (wrapF s2 TSK_T_RELS_COUNT 0 t) t

/-- Every segment of a task is stopped and leaves its core (R103). -/
def stopSegs (s : State) (t : Nat) : State :=
  let s1 := forEach (List.range 6) s (fun s c =>
    match (getCore s c).run with
    | some key => if key / 4 = t then takeOff s c .idle 0 else s
    | none => s)
  forEach (segsOf s1 t) s1 (fun s k => setSeg s k {})

/-! ## Output close (R22, R157) -/

/-- The channels owned by task class `cls`. -/
def ownedBy (s : State) (cls : Nat) : List Nat :=
  (s.chn.chans.filter (fun p => p.2.cached.used && p.2.cached.isOut && p.2.cached.ownKind == 0 && p.2.cached.ownInst == cls)).map Prod.fst

/-- The task's OUT buffer becomes the link engine's buffer and stays the task's next buffer; the class's channels leave
their substitute values at the first output close (R24, R127, R157). An ACTIVE module notes the values that have changed for its
checkpoints, and after a takeover what the new owner has written (R359, R366). -/
def outputClose (s : State) (cls : Nat) : State :=
  let own := ownedBy s cls
  let new := if getF s R.PAIR_ROLE_ROLE = 1 then own.filter (fun n => (getChan s n).lnkVal != (getChan s n).outVal) else []
  let s1 := forEach own s (fun s n => let c := getChan s n; setChan s n { c with lnkVal := c.outVal })
  { s1 with tsk := { s1.tsk with closed := mput 0 s1.tsk.closed cls 1 },
            pair := { s1.pair with outAt := new.foldl (fun m n => mput 0 m n (now s + 1)) s1.pair.outAt,
                                   written := s1.pair.written.map (fun x =>
                                     (x.1, if x.2 = 1 ∧ own.contains x.1 then 2 else x.2)) } }

/-- EVT bit 1 of TSK: a task runs past its output deadline under SKIP. -/
def skipLevel (s : State) : State :=
  level s .tsk 0 1 ([2, 3, 4].any (fun t => getB s TSK_T_STAT_SKIPPING 0 t))

/-- What a task wrote belongs to the data that snapshots show from now on: its pre-images go, and their pages have changed (R28,
R358, R359). -/
def dropPre (s : State) (t : Nat) : State :=
  let ps := (s.pair.pre.filter (fun x => x.1 / 2 ^ 20 == t)).map (fun x => x.1 % 2 ^ 20)
  { s with pair := { s.pair with pre := s.pair.pre.filter (fun x => x.1 / 2 ^ 20 != t),
                                 pageAt := ps.foldl (fun m p => mput 0 m p (now s + 1)) s.pair.pageAt } }

/-- A task ends when its last segment has ended: execution time, its statistics sample, and for a cyclic task its output
close (R114, R117). A class that ran past its deadline under SKIP is late no more. -/
def taskEnd (s : State) (t : Nat) : State :=
  let q := getTask s t
  let s1 := setTask s t { q with live := false }
  let s2 := maxF (setF s1 TSK_T_EXEC_LAST (sat 4294967295 q.exec) 0 t) TSK_T_EXMAX_MAX q.exec 0 t
  let s3 := statSample s2 2 t (f64i q.exec)
  let s4 := taskStat (skipLevel (setF (dropPre s3 t) TSK_T_STAT_SKIPPING 0 0 t)) t
  let s5 := forEach (segsOf s4 t) s4 (fun s k => setSeg s k {})
  if 2 ≤ t ∧ t ≤ 4 then outputClose s5 (t - 2) else s5

/-- A segment ends (R72, R114). -/
def segEnd (s : State) (c key : Nat) : State :=
  let t := key / 4
  let k := getCore s c
  let s1 := setTask s t { getTask s t with exec := max (getTask s t).exec k.ctx.cyc }
  let s2 := takeOff s1 c .ended 0
  if (segsOf s2 t).all (fun k => (getSeg s2 k).ph == .ended) then taskEnd s2 t else s2

/-! ## Class FAULT (R118, R119) -/

/-- A class enters FAULT with a code: its segments stop, no task is released until a restart. -/
def classFault (s : State) (cls code : Nat) : State :=
  let t := cls + 2
  let s1 := stopSegs s t
  let s2 := setTask s1 t { getTask s1 t with live := false, faulted := false }
  let s3 := setF (setF (setF s2 TSK_T_STAT_ST 3 0 t) TSK_T_STAT_LASTCODE code 0 t) TSK_T_STAT_SKIPPING 0 0 t
  scheduleAll (skipLevel (level (unitErrAt s3 .tsk 0 code t []) .tsk 0 0 true))

/-- True while a class is in FAULT. -/
def inClassFault (s : State) (cls : Nat) : Bool := getF s TSK_T_STAT_ST 0 (cls + 2) == 3

/-! ## Barriers (R114) -/

/-- The segments of a task that have not ended. -/
def openSegs (s : State) (t : Nat) : List Nat := (segsOf s t).filter (fun k => (getSeg s k).ph != .ended)

/-- The barrier number at which every segment that has not ended waits, if there is one. -/
def barrierMet (s : State) (t : Nat) : Option Nat :=
  match openSegs s t with
  | [] => none
  | k :: ks =>
    match (getSeg s k).ph with
    | .atBarrier n => if ks.all (fun j => (getSeg s j).ph == .atBarrier n) then some n else none
    | _ => none

/-- Every segment that has not ended waits at a barrier, but the numbers differ. -/
def barrierMixed (s : State) (t : Nat) : Bool :=
  !(openSegs s t).isEmpty && (barrierMet s t).isNone &&
  (openSegs s t).all (fun k => match (getSeg s k).ph with | .atBarrier _ => true | _ => false)

/-- The waiting segments of a task become ready again, behind the other segments of their band (R112). -/
def barrierOpen (s : State) (t : Nat) : State :=
  let s1 := forEach (openSegs s t) s (fun s k => setSeg s k { getSeg s k with ph := .ready, ord := backOrd s k })
  scheduleAll (taskStat s1 t)

end Sys2Proof.Machine
end

