-- ==== Sys2Proof/Machine/Ordering.lean ====
section
/-!
DEFINITION. The store buffer and the posted path of a core, what observers see of them, and the uncorrectable words
(R34, R77 to R84, R494).
-/

namespace Sys2Proof.Machine

open R

/-! ## Targets -/

/-- An address of the OUT values of IMAGE (Table CHN-5). -/
def isOutSlot (a : Nat) : Bool := decide (0x01030000 ≤ a) && decide (a < 0x01050000)

/-- An address in DDR4: CHTAB, STTAB or DDRW. -/
def isDdr (a : Nat) : Bool := decide (0x02000000 ≤ a) && decide (a < 0x20000000)

/-- Two byte ranges meet. -/
def meets (a n b m : Nat) : Bool := decide (a < b + m) && decide (b < a + n)

/-- Some 64-bit word of a range has an uncorrectable error (R34). -/
def badIn (s : State) (a n : Nat) : Bool := s.bad.any (fun w => meets a n (w * 8) 8)

/-- The state after a read met an uncorrectable error at an address: in DATA, RETAIN or IMAGE it is a fault of the module, a
cause of abdication (R34, R361). -/
def memFault (s : State) (a : Nat) : State :=
  if a < 0x02000000 then { s with pair := { s.pair with memErr := true } } else s

/-! ## Store buffer (R77, R494) -/

/-- A pattern with the bits of a mask replaced. -/
def mixBits (old mask val : Nat) : Nat := (old ^^^ (old &&& mask)) ||| (val &&& mask)

/-- At the first write that a task makes to a page of DATA or RETAIN after its release, an ACTIVE module keeps the page's
previous content for its snapshots (R358). `task` of an entry is the task's number plus 1, 0 for none. -/
def preImage (s : State) (e : SbEntry) : State :=
  let k := (e.task - 1) * 2 ^ 20 + e.word / 256
  if getF s PAIR_ROLE_ROLE = 1 ∧ e.task ≠ 0 ∧ ((getTask s (e.task - 1)).live ∨ 3 ≤ e.task ∧ e.task ≤ 5) ∧ (mget s.pair.pre k []).isEmpty then
    { s with pair := { s.pair with pre := mput [] s.pair.pre k (rdBs s (e.word / 256 * 256) 256) } }
  else s

/-- A 64-bit word written whole holds no uncorrectable error any more (DESIGN CHOICE, log entry 100). -/
def cleanWord (s : State) (e : SbEntry) : State :=
  if e.mask = 2 ^ 64 - 1 then { s with bad := s.bad.filter (fun w => w != e.word / 8) } else s

/-- A store-buffer entry reaches its target whole (R80): memory, or the OUT value slot of its channel. -/
def sbApply (s : State) (e : SbEntry) : State :=
  if isOutSlot e.word then putOut s ((e.word - 0x01030000) / 8) e.val e.init
  else forEach (List.range 8) (cleanWord (preImage s e) e) (fun s i =>
    let m := bits e.mask (8 * i) 8
    if m = 0 then s else wrB s (e.word + i) (BitVec.ofNat 8 (mixBits (rdB s (e.word + i)).toNat m (bits e.val (8 * i) 8))))

/-- The entry for a word leaves the store buffer of core `c` and reaches its target. -/
def sbTake (s : State) (c w : Nat) : State :=
  let k := getCore s c
  match k.sb.find? (fun e => e.word == w) with
  | none => s
  | some e => sbApply (setCore s c { k with sb := k.sb.filter (fun e => e.word != w) }) e

/-- Every entry of the store buffer of core `c` whose word satisfies `p` reaches its target. -/
def sbDrain (s : State) (c : Nat) (p : Nat → Bool) : State :=
  forEach (((getCore s c).sb.map SbEntry.word).filter p) s (fun s w => sbTake s c w)

/-- A write of core `c` inside one 64-bit word, of the bits of a mask: it merges with the entry of that word, or takes a
new one; with all 16 occupied some entry, in any order, drains first (R494). -/
def sbWrite (s : State) (c w mask val : Nat) (init : Bool) : State :=
  let k := getCore s c
  if k.sb.any (fun e => e.word == w) then
    setCore s c { k with sb := k.sb.map (fun e =>
      if e.word = w then { e with mask := e.mask ||| mask, val := mixBits e.val mask val, init := init } else e) }
  else
    let s1 :=
      if k.sb.length < 16 then s
      else
        let (i, s0) := fresh 4 s
        sbTake s0 c ((k.sb.map SbEntry.word).getD i 0)
    let k1 := getCore s1 c
    let task := match k1.run with | some key => key / 4 + 1 | none => 0
    setCore s1 c { k1 with sb := k1.sb ++ [⟨w, mask, val &&& mask, init, s1.ticks, task⟩] }

/-- A write of bytes of any length and alignment to DATA or RETAIN, word by word. The first argument bounds the number
of words. -/
def sbBytes : Nat → State → Nat → Nat → List Byte → State
  | 0, s, _, _, _ => s
  | n + 1, s, c, a, bs =>
    if bs = [] then s
    else
      let room := 8 - a % 8
      let p := bs.take room
      sbBytes n (sbWrite s c (a - a % 8) ((2 ^ (8 * p.length) - 1) * 2 ^ (8 * (a % 8))) (leNat p * 2 ^ (8 * (a % 8))) false)
        c (a + room) (bs.drop room)

/-! ## Posted writes to DDR4 (R77) -/

/-- A posted write completes in DDR4. -/
def ddrApply (s : State) (p : Posted) : State :=
  if p.addr < 0x03000000 then (chtabWrite s p.addr p.bytes).1
  else if p.msk ≠ 0 then wrB s p.addr (BitVec.ofNat 8 (mixBits (rdB s p.addr).toNat p.msk (leNat p.bytes)))
  else wrBs s p.addr p.bytes

/-- The oldest `n` posted writes of core `c` to DDR4 complete, in program order. -/
def ddrDrainN (s : State) (c n : Nat) : State :=
  let k := getCore s c
  let todo := (k.posted.filter (fun p => isDdr p.addr)).take n
  let rest := k.posted.foldl (fun (acc : Nat × List Posted) p =>
    if isDdr p.addr && decide (acc.1 < n) then (acc.1 + 1, acc.2) else (acc.1, acc.2 ++ [p])) (0, [])
  forEach todo (setCore s c { k with posted := rest.2 }) ddrApply

/-- Every posted write of core `c` to DDR4 completes. -/
def ddrDrain (s : State) (c : Nat) : State := ddrDrainN s c (getCore s c).posted.length

/-! ## What an observer sees (R77 to R80) -/

/-- Writes of core `c` that meet a range become visible, or not, to another observer: a free choice for each entry. A
posted write becomes visible after the earlier ones to DDR4. -/
def settleCore (a n : Nat) (s : State) (c : Nat) : State :=
  let s1 := forEach (((getCore s c).sb.map SbEntry.word).filter (fun w => meets a n w 8)) s (fun s w =>
    let (b, s0) := pick s
    if b then sbTake s0 c w else s0)
  let ddr := (getCore s1 c).posted.filter (fun p => isDdr p.addr)
  let hits := (List.range ddr.length).filter (fun i =>
    match ddr[i]? with | some p => meets a n p.addr p.bytes.length | none => false)
  let (m, s2) := hits.foldl (fun (acc : Nat × State) i =>
    let (b, s0) := pick acc.2
    (if b then i + 1 else acc.1, s0)) (0, s1)
  if m = 0 then s2 else ddrDrainN s2 c m

/-- An observer is about to read a range: pending writes of every core but `obs` settle. Observer 8 is no core. -/
def settle (s : State) (obs a n : Nat) : State :=
  forEach ((List.range 8).filter (fun c => c != obs)) s (settleCore a n)

/-- The writes of every other core to the 64-bit words of a range reach memory before an atomic read-modify-write of core
`c` (R43). -/
def rmwDrain (s : State) (c a n : Nat) : State :=
  forEach ((List.range 8).filter (fun x => x != c)) s (fun s x =>
    let s1 := sbDrain s x (fun w => meets a n w 8)
    let ddr := (getCore s1 x).posted.filter (fun p => isDdr p.addr)
    let last := (List.range ddr.length).foldl (fun m i =>
      match ddr[i]? with | some p => if meets a n p.addr p.bytes.length then i + 1 else m | none => m) 0
    if last = 0 then s1 else ddrDrainN s1 x last)

/-- Bytes with the pending writes of a store buffer laid over them. -/
def overSb (es : List SbEntry) (a : Nat) (bs : List Byte) : List Byte :=
  (List.range bs.length).map (fun i =>
    match es.find? (fun e => e.word == (a + i) - (a + i) % 8) with
    | none => bs.getD i 0
    | some e =>
      let k := 8 * ((a + i) % 8)
      BitVec.ofNat 8 (mixBits (bs.getD i 0).toNat (bits e.mask k 8) (bits e.val k 8)))

/-- Bytes with pending posted writes laid over them, in program order. -/
def overPosted (ps : List Posted) (a : Nat) (bs : List Byte) : List Byte :=
  ps.foldl (fun acc p => (List.range acc.length).map (fun i =>
    if p.addr ≤ a + i ∧ a + i < p.addr + p.bytes.length then
      let b := p.bytes.getD (a + i - p.addr) 0
      if p.msk = 0 then b else BitVec.ofNat 8 (mixBits (acc.getD i 0).toNat p.msk b.toNat)
    else acc.getD i 0)) bs

/-- Bytes of DATA, RETAIN, CHTAB, STTAB or DDRW as core `c` reads them (R78, R79). -/
def coreRd (s : State) (c a n : Nat) : List Byte × State :=
  let s1 := settle s c a n
  let k := getCore s1 c
  (overPosted k.posted a (overSb k.sb a (rdBs s1 a n)), s1)

/-- Bytes of memory for a unit that is no core, where what is pending has settled. A word with an uncorrectable error is
never returned as data (R34): the spec does not say what the unit computes with then, and a free value stands for it
(DESIGN CHOICE, log entry 100). -/
def seenRd (s : State) (a n : Nat) : List Byte × State :=
  if badIn s a n then
    let (x, s1) := fresh (8 * n) (memFault s a)
    ((List.range n).map (fun i => if badIn s (a + i) 1 then BitVec.ofNat 8 (bits x (8 * i) 8) else rdB s (a + i)), s1)
  else (rdBs s a n, s)

/-- Bytes of memory as an engine reads them. -/
def engRd (s : State) (a n : Nat) : List Byte × State := seenRd (settle s 8 a n) a n

/-- A number in memory for a unit that is no core, where what is pending has settled. -/
def seenN (s : State) (a n : Nat) : Nat × State :=
  let (b, s1) := seenRd s a n
  (leNat b, s1)

/-- A number in memory as an engine reads it. -/
def engN (s : State) (a n : Nat) : Nat × State :=
  let (b, s1) := engRd s a n
  (leNat b, s1)

/-- The OUT value slot of a channel as core `c` reads it. -/
def coreOut (s : State) (c n : Nat) : Nat × State :=
  let w := 0x01030000 + n * 8
  let s1 := settle s c w 8
  match (getCore s1 c).sb.find? (fun e => e.word == w) with
  | some e => (e.val, s1)
  | none => ((getChan s1 n).outVal, s1)

/-- The OUT value slot of a channel as any other unit reads it. -/
def engOut (s : State) (n : Nat) : Nat × State :=
  let s1 := settle s 8 (0x01030000 + n * 8) 8
  ((getChan s1 n).outVal, s1)

/-! ## Fences of memory paths -/

/-- The writes of core `c` to DATA and RETAIN become visible. -/
def fenceData (s : State) (c : Nat) : State := sbDrain s c (fun w => !isOutSlot w)

/-- The writes of core `c` to OUT slots become visible. -/
def fenceOut (s : State) (c : Nat) : State := sbDrain s c isOutSlot

/-- Store-buffer entries as old as 64 cycles (16 TICK) drain; younger ones drain by a free choice, in any order
(Table ORD-1). -/
def sbAge (s : State) (c : Nat) : State :=
  forEach (getCore s c).sb s (fun s e =>
    let (b, s0) := pick s
    if b || decide (s.ticks ≥ e.since + 16) then sbTake s0 c e.word else s0)

end Sys2Proof.Machine
end

