-- ==== Sys2Proof/Machine/EngCalls.lean ====
section
/-!
DEFINITION. Engine calls on the engine's side: the command queues, the completion word, and the end of calls when an
instance leaves RUN (R81, R90 to R101, R495).
-/

namespace Sys2Proof.Machine

open R

/-- The block copy of an instance of an engine (Table ORD-9). -/
def engInst (u inst : Nat) : Blk × Nat :=
  match u with
  | 0 => (.loopCtx, inst) | 1 => (.profCh, inst) | 2 => (.vaxAx, inst) | 3 => (.bsnCtx, inst)
  | 4 => (.lnkPort, inst / 4) | 5 => (.canCh, inst) | 6 => (.time, 0) | _ => (.rcd, 0)

/-- Code high byte of an engine (Table ORD-9). -/
def engCode (u : Nat) : Nat := (engInst u 0).1.code * 256

/-- The command queue of an engine. -/
def getEngq (s : State) (u : Nat) : List Call := mget s.tsk.engq u []

/-- The command queue of an engine, replaced. -/
def setEngq (s : State) (u : Nat) (q : List Call) : State :=
  { s with tsk := { s.tsk with engq := mput [] s.tsk.engq u q } }

/-- The completion word of a call (Table ORD-7). -/
def cmplWord (ticket code res : Nat) : Nat :=
  ticket % 2 ^ 32 + (code % 2 ^ 16) * 2 ^ 32 + (res % 2 ^ 15) * 2 ^ 48 + 2 ^ 63

/-- A call completes with a code byte and a short result: CMPL is written as one 64-bit word, after the results
(R81, R92). -/
def complete (s : State) (c : Call) (code res : Nat) : State :=
  wrN s (c.addr + 8) 8 (cmplWord c.ticket (engCode c.unit + code) res)

/-- A call was taken before another one of the same engine: tickets rise, and wrap at 2³² (R93, R97). -/
def takenBefore (a b : Call) : Bool := decide ((b.ticket + 2 ^ 32 - a.ticket) % 2 ^ 32 < 2 ^ 31)

/-- A call put into a list in the order in which calls were taken. -/
def insCall (x : Call) : List Call → List Call
  | [] => [x]
  | y :: t => if takenBefore x y then x :: y :: t else y :: insCall x t

/-- Calls in the order in which they were taken: those that end at one instant write CMPL in this order (R97). -/
def byTicket (cs : List Call) : List Call := cs.foldr insCall []

/-- Calls complete with one code byte, in order. -/
def completeAll (s : State) (cs : List Call) (code : Nat) : State := forEach cs s (fun s c => complete s c code 0)

/-- An engine turns to the descriptor of a call: the program's pending writes to it become visible or not, whole 64-bit
words at a time (R99). When between acceptance and completion it does so the spec leaves to the engine: here when it takes
the call, and again at the sample or launch at which the call takes effect (DEDUCED, log entry 99). -/
def dscBegin (s : State) (c : Call) : State := settle s 8 c.addr (16 + c.len)

/-- The oldest queued call to an instance, when it calls `fn`; the state without it in the queue (R97, R495). -/
def takeCall (s : State) (u inst fn : Nat) : Option (Call × State) :=
  let q := getEngq s u
  match q.find? (fun c => c.inst == inst) with
  | none => none
  | some c =>
    if c.fn = fn then some (c, dscBegin (setEngq s u (q.erase c)) c) else none

/-- The oldest queued call to an instance of function `fn` whose descriptor field at an offset satisfies `p`. -/
def takeCallIf (s : State) (u inst fn ofs n : Nat) (p : Nat → Bool) : Option (Call × State) :=
  match takeCall s u inst fn with
  | none => none
  | some (c, s1) =>
    let (v, s2) := seenN s1 (c.addr + 0x10 + ofs) n
    if p v then some (c, s2) else none

/-- A field of a descriptor, at an offset behind its 16-byte header (R90), as the engine reads it after `dscBegin`. -/
def dsc (s : State) (c : Call) (ofs n : Nat) : Nat × State := seenN s (c.addr + 0x10 + ofs) n

/-- A result field of a descriptor, at an offset behind its header, written by the engine. -/
def dscOut (s : State) (c : Call) (ofs n v : Nat) : State := wrN s (c.addr + 0x10 + ofs) n v

/-- Queued calls to an instance end: they complete with one code byte (R101). -/
def endQueued (s : State) (u inst code : Nat) : State :=
  let q := getEngq s u
  let mine := q.filter (fun c => c.inst == inst)
  completeAll (setEngq s u (q.filter (fun c => c.inst != inst))) mine code

/-- Every queued call to an engine of one instance state ends, whatever pin or number it names (R101). -/
def endAllQueued (s : State) (u code : Nat) : State := completeAll (setEngq s u []) (getEngq s u) code

/-- Code byte of R101: NOT_RUN. -/
def cNOTRUN : Nat := 4
/-- Code byte SUPERSEDED. -/
def cSUPERSEDED : Nat := 7
/-- Code byte ABORTED. -/
def cABORTED : Nat := 8

end Sys2Proof.Machine
end

