-- ==== Sys2Proof/Machine/Launch.lean ====
section
/-!
DEFINITION. What a launch sends for an output channel: safety gates, force entries, simulation, owner status and
conversion (R144, R153, R158, R160, R251), and station process data built from channels (R154, R162).
-/

namespace Sys2Proof.Machine

open R

/-! ## Roles -/

/-- The role of the module (Table PAIR-2): 0 SOLO, 1 ACTIVE, 2 STANDBY-SYNCING, 3 STANDBY, 4 HALTED. -/
def role (s : State) : Nat := getF s PAIR_ROLE_ROLE

/-- The output path is enabled: always on an unpaired module, by the interlock on a paired one (R347, R355). -/
def outPath (s : State) : Bool := !getB s PAIR_CFG_PAIRED || getB s PAIR_ROLE_OUTPATH

/-- The module owns the process: SOLO or ACTIVE. -/
def owns (s : State) : Bool := decide (role s ≤ 1)

/-- The role epoch of the module. -/
def roleEpoch (s : State) : Nat := getF s PAIR_EPOCH_EPOCH

/-! ## SYNC frames (R352) -/

/-- The header of a SYNC frame that the module sends (Table PAIR-4): the role is 5 in the listen window (R350). -/
def syncHdr (s : State) (tier snap : Nat) : SyncHdr :=
  { epoch := roleEpoch s, gen := (actSlot s).gen, tier := tier, role := if getB s PAIR_ROLE_LISTEN then 5 else role s,
    side := getF s PAIR_ROLE_SIDE, hs := getB s PAIR_ROLE_HS_OWN, snap := snap, mseq := s.pair.mseq }

/-- A body of `n` bytes leaves in frames of up to 8,192 B each, while the SYNC link is up (R352). -/
def syncSend (s : State) (ftype tier snap n : Nat) (b : SyncBody) : State :=
  if !getB s PAIR_SYNC_LINK then s
  else
    forEach (List.range (max 1 (ceilDiv n 8192))) s (fun s i =>
      let f : SyncFrame := { ftype := ftype, hdr := { syncHdr s tier snap with part := i, len := min 8192 (n - 8192 * i) },
                             body := if i = 0 then some b else none }
      { s with pair := { s.pair with frames := s.pair.frames ++ [f], mseq := (s.pair.mseq + 1) % 2 ^ 32 } })

/-- A body whose bytes the spec does not lay out leaves in one frame; its LEN is open (log entry 143). -/
def syncSend1 (s : State) (ftype tier snap : Nat) (b : SyncBody) : State :=
  let (n, s1) := fresh 13 s
  syncSend s1 ftype tier snap n b

/-! ## Safety gates (R251) -/

/-- A trip group's state in force: 0 SAFE-RUN, 1 SAFE-TRIP, 2 RESET-WAIT, 3 not configured. -/
def grpState (s : State) (g : Nat) : Nat := bits (getF s SAF_GSTATE_TG) (2 * g) 2

/-- A trip group is in its SS1 phase. -/
def grpSs1 (s : State) (g : Nat) : Bool := bitOf (getF s SAF_GPHASE_SS1) g

/-- A gate acts in a group state `st` of SAF.GSTATE, in the SS1 phase where `ss1`. -/
def gateIn (e : GateE) (st : Nat) (ss1 : Bool) : Bool :=
  if e.whn = 1 then st == 1 || st == 2 else (st == 1 && !ss1) || st == 2

/-- A gate acts: by its group's state in force, in every state of SAF other than RUN, and from 2 µs after an engine
trip; until then by the group's state before the trip (R251). -/
def gateActs (s : State) (e : GateE) : Bool :=
  if inRun s .saf then gateIn e (grpState s e.group) (grpSs1 s e.group)
  else if stOf s .saf = stFAULT then
    (match s.saf.tripAt with
     | some t => decide (t + 2000 ≤ now s) || gateIn e (bits s.saf.wasTg (2 * e.group) 2) (bitOf s.saf.wasSs1 e.group)
     | none => true)
  else true

/-- The value of the gate that overrides a channel, if one does. -/
def gateVal (s : State) (n : Nat) : Option Nat :=
  match s.saf.img.gates.find? (fun g => g.chan == n) with
  | none => none
  | some g => if gateActs s g then some g.val else none

/-! ## Owner status (R144, Table CHN-6) -/

/-- OWNER_STOP and OWNER_FAULT of an output channel, as of now: the owner's instance is in STOP or CONFIG, or in FAULT, a
loop context also in mode FAULT (R272); a task class has only FAULT. -/
def ownerBits (s : State) (e : ChEntry) : Nat :=
  let byState (b : Blk) (i : Nat) : Nat :=
    let st := stOf s b i
    if st = stFAULT then csOFAULT else if st = stRUN then 0 else csOSTOP
  match e.ownKind with
  | 0 => if inClassFault s e.ownInst then csOFAULT else 0
  | 1 => byState .saf 0
  | 2 => if inRun s .loopCtx e.ownInst && getF s LOOP_L_STAT_MODE e.ownInst == 4 then csOFAULT else byState .loopCtx e.ownInst
  | 3 => byState .vaxAx e.ownInst
  | _ => byState .lio 0

/-! ## Launch value (R160) -/

/-- Row 4 of Table CHN-9 applies: the owner class has been in FAULT at an output deadline of its own (R119), is halted, or is
before its first output close. -/
def classDark (s : State) (e : ChEntry) : Bool :=
  e.ownKind == 0 && mget s.tsk.closed e.ownInst 0 == 0

/-- The value a launch takes for an output: the OUT image that its class had handed over at the class's latest output
deadline, or the slot as its other owner wrote it (R25, R27, R157). -/
def slotVal (c : Chan) (e : ChEntry) : Nat := if e.ownKind = 0 then c.dueVal else c.outVal

/-- An output channel of a task class, by its latched entry. -/
def classChan (cls : Nat) (c : Chan) : Bool :=
  c.latched.used && c.latched.isOut && c.latched.ownKind == 0 && c.latched.ownInst == cls

/-- The output deadline of class `cls`: its handed-over OUT image is the one that launches carry from now on (R25), and what the
new owner wrote before its output close counts as written from now on (R366). -/
def classDue (s : State) (cls : Nat) : State :=
  { s with
    pair := { s.pair with written := s.pair.written.map (fun x =>
      (x.1, if x.2 = 2 ∧ classChan cls (getChan s x.1) then 3 else x.2)) }
    chn := { s.chn with chans := s.chn.chans.map (fun x =>
      (x.1, if classChan cls x.2 then { x.2 with dueVal := x.2.lnkVal } else x.2)) } }

/-! ## Faults of the destination (R175, R210, R226) -/

/-- A station's state, beside the station table. -/
def getSta (s : State) (i : Nat) : Sta := mget s.lnk.stas i {}

/-- Bits [first, first + n) that a raw value occupies in process data. -/
def rawBits (e : ChEntry) : Nat × Nat :=
  if e.raw = 8 then (e.byteOfs * 8 + e.bitOfs, 1) else (e.byteOfs * 8, 8 * rawSize e.raw)

/-- A fault entry of kind `k` covers a bit of the raw value of an entry. -/
def fltHits (e : ChEntry) (fs : List Flt) (k : Nat) : Bool :=
  let (a, n) := rawBits e
  fs.any (fun f => f.kind == k && bitOf f.ref 15 == e.isOut &&
    (List.range 8).any (fun b => bitOf f.mask b && decide (a ≤ f.ref % 32768 * 8 + b) &&
      decide (f.ref % 32768 * 8 + b < a + n)))

/-- What a station says of a channel: a wire break and a device fault in force. -/
def staFaults (v : Sta) (e : ChEntry) : Bool × Bool :=
  (fltHits e v.flts 1, fltHits e v.flts 2 || v.fltOvf)

/-- An AO. -/
def getAo (s : State) (n : Nat) : AoSt := mget s.lio.aos n {}

/-- The latched diagnostic bits of DO `n`: 1 OVL, 2 OTEMP, 4 OPEN, 8 TPF_EXTV. -/
def doDiag (s : State) (n : Nat) : Nat :=
  if n < 8 then bits (getF s LIO_DO_DIAG0_DIAG) (4 * n) 4 else bits (getF s LIO_DO_DIAG1_DIAG) (4 * (n - 8)) 4

/-- WIRE_BREAK and DEV_FAULT of a local output point (Table LIO-3, R226). -/
def outPointFaults (s : State) (p : Nat) : Bool × Bool :=
  if p < 0x30 then
    let d := doDiag s (p - 0x20)
    (bitOf d 2, bitOf d 0 || bitOf d 1 || bitOf d 3)
  else ((getAo s (p % 4)).wire, (getAo s (p % 4)).dev)

/-- The OUT status word of a launch with the faults of its destination: WIRE_BREAK and DEV_FAULT, and CAUSE 0x06 beside the
DEV_FAULT of a DO where the row of Table CHN-9 gives none. -/
def outFaults (s : State) (e : ChEntry) (st : Nat) : Nat :=
  let (w, d) := if e.src = 1 then staFaults (getSta s e.point) e else if e.src = 2 then outPointFaults s e.point else (false, false)
  st + (if w then csWIRE else 0) + (if d then csDEV else 0) +
    (if d && e.src == 2 && decide (e.point < 0x30) && decide (st / 0x1000000 = 0) then 0x6000000 else 0)

/-- The OUT status word of a channel as it reads now (R158): that of the latest launch. A local output of the safety engine or of
the sequencer takes part in no launch: its value stands while its owner runs, and the faults of its point show (R210; DEDUCED, log
entry 149). -/
def outStatus (s : State) (n : Nat) : Nat :=
  let c := getChan s n
  let e := c.cached
  let own := ownerBits s e
  if !(e.used && e.isOut) then 0
  else if e.src == 2 && (e.ownKind == 1 || e.ownKind == 4) then outFaults s e (if own = 0 then csVALID else 0) + own
  else c.outSt + own

/-- The group of a channel (R366). -/
def gapGroup (s : State) (n : Nat) : Nat :=
  match (List.range 64).find? (fun r =>
    let f := getF s PAIR_GRNGA_FIRST 0 r
    decide (f ≤ n) && decide (n < f + getF s PAIR_GRNGA_COUNT 0 r)) with
  | some r => getF s PAIR_GRNGB_GROUP 0 r
  | none => 0

/-- After a takeover, the value of a channel that the new owner has not written yet is past the window of its group's
BOUND(n) (R366). -/
def gapPast (s : State) (n : Nat) (e : ChEntry) : Bool :=
  match s.pair.tko with
  | none => false
  | some h =>
    let g := gapGroup s n
    decide (mget s.pair.written n 0 < 3) && getB s PAIR_GPOL_POL 0 g && decide (now s ≥ h + getF s PAIR_GPOL_N 0 g * period s e.cls)

/-- What a launch sends for output channel `n`, none where nothing is sent, and the state with the channel's new OUT
status and last valid value. -/
def launchVal (s : State) (n : Nat) : Option Nat × State :=
  let c := getChan s n
  let e := c.latched
  let keep (o : OutVal) : Option Nat × State :=
    (some o.raw, setChan s n { c with outSt := outFaults s e o.st, good := if stGood o.st then some o.img else c.good })
  match if e.gated then gateVal s n else none with
  | some g =>
    let (r, st, nan) := toRaw e e.img (g % 2 ^ tyBits e.img)
    keep ⟨if nan then 0 else r, csWord (csGATED + (if st then csSAT else 0)) 0 0, g⟩
  | none =>
    match forced s n with
    | some f => keep (outForced e c.good (f % 2 ^ tyBits e.img))
    | none =>
      if e.src == 1 && simulated s e.point then (none, setChan s n { c with outSt := csWord csSIM 0 0 })
      else if classDark s e || gapPast s n e then keep (outSubst e c.good 0 8)
      else keep (outConv e c.good (slotVal c e) csVALID)

/-! ## Process data -/

/-- Bytes with `v` written in `n` bytes at an offset. -/
def putBytes (d : List Byte) (o n v : Nat) : List Byte :=
  d.take o ++ ((leBytes n v).take (d.length - o)) ++ d.drop (o + n)

/-- Process data with a channel's raw value at its place (R152, R153): one bit for BIT. -/
def putRaw (d : List Byte) (e : ChEntry) (r : Nat) : List Byte :=
  if e.raw = 8 then putBytes d e.byteOfs 1 (setBits (d.getD e.byteOfs 0).toNat e.bitOfs 1 (r % 2))
  else putBytes d e.byteOfs (rawSize e.raw) r

/-- The raw value of a channel in process data. -/
def getRaw (d : List Byte) (e : ChEntry) : Nat :=
  if e.raw = 8 then bits (d.getD e.byteOfs 0).toNat e.bitOfs 1
  else leNat ((d.drop e.byteOfs).take (rawSize e.raw))

/-- The channels of a station in one direction and lane, by their latched entries. -/
def stChans (s : State) (i : Nat) (out fast : Bool) : List Nat :=
  (s.chn.chans.filter (fun p =>
    p.2.latched.src == 1 && p.2.latched.point == i && p.2.latched.isOut == out && p.2.latched.fast == fast)).map Prod.fst

/-- The OUT or FOUT process data of a station at a launch. Bytes and bits that no channel names are 0 (log entry 5). -/
def stationOut (s : State) (i : Nat) (fast : Bool) : List Byte × State :=
  let len := if fast then stFoutLen s i else stOutLen s i
  (stChans s i true fast).foldl (fun (acc : List Byte × State) n =>
    match launchVal acc.2 n with
    | (some r, s') => (putRaw acc.1 (getChan acc.2 n).latched r, s')
    | (none, s') => (acc.1, s')) (List.replicate len 0, s)

/-- The substitute outputs of a station in raw form (R162). -/
def stationSubst (s : State) (i : Nat) : List Byte :=
  (stChans s i true false).foldl (fun d n =>
    let e := (getChan s n).latched
    putRaw d e (substRaw { e with opt := setBits e.opt 3 2 0 } none).1) (List.replicate (stOutLen s i) 0)

end Sys2Proof.Machine
end

