-- ==== Sys2Proof/Machine/LinkPlan.lean ====
section
/-!
DEFINITION. The budget and the schedule of a Scaty port (R174, R179 to R183, R496).
-/

namespace Sys2Proof.Machine

open R

/-- Rounded up to a multiple of 4. -/
def pad4 (n : Nat) : Nat := (n + 3) / 4 * 4

/-- Wire bytes of a frame with a payload of `p` bytes. -/
def wire (p : Nat) : Nat := max p 46 + 38

/-- The separation g between frames, in ns (R180). -/
def lnkG : Nat := 1000

/-- LEN of a safety station's containers, to the station or from it (R496). -/
def contLen (im : SImage) (i : Nat) (out : Bool) : Nat :=
  let es := im.map.filter (fun m => m.2.kind == (if out then 1 else 0) && m.2.point == i)
  if es.isEmpty then 1 else es.foldl (fun a m => max a (m.2.sbyte + rawSize m.2.typ)) 0

/-- Size of a container (R178). -/
def contSize (im : SImage) (i : Nat) (out : Bool) : Nat := pad4 (20 + contLen im i out)

/-- The positions of a port with a configured station. -/
def posList (s : State) (p : Nat) : List Nat := (List.range 4).filter (fun q => stConfigured s (4 * p + q))

/-- N_F of a port; 0 for the invalid code. -/
def nFast (s : State) (p : Nat) : Nat :=
  match getF s LNK_P_CFG_NF p with | 0 => 1 | 1 => 2 | 2 => 4 | _ => 0

/-- Worst-case one-way delay to a position, in ns (R180). -/
def posDelay (s : State) (p q : Nat) : Nat := (q + 1) * getF s LNK_P_LINE_HOP_NS p + q * getF s LNK_P_LINE_T_RES_MAX p

/-- OUT segment of a station (R179). -/
def segSize (s : State) (i : Nat) : Nat :=
  pad4 (12 + stOutLen s i + (if stSafety s i then contSize (safImg s) i true else 0))

/-- IN payload of a station (R179). -/
def inPayload (s : State) (i : Nat) : Nat :=
  pad4 (64 + stInLen s i + (if stSafety s i then contSize (safImg s) i false else 0))

/-- FIN payload of a station. -/
def finPayload (s : State) (i : Nat) : Nat := pad4 (20 + stFinLen s i)

/-- FOUT payload of a port. -/
def foutPayload (s : State) (p : Nat) : Nat :=
  16 + ((posList s p).map (fun q =>
    let n := stFoutLen s (4 * p + q)
    if n = 0 then 0 else pad4 (4 + n))).sum

/-- Segments put into parts, each as the positions it holds (R174): the running part holds `size` bytes of payload. -/
def packParts : List (Nat × Nat) → List (List Nat) → List Nat → Nat → List (List Nat)
  | [], done, cur, _ => done ++ [cur]
  | (q, l) :: t, done, cur, size =>
    if size + l ≤ 1500 then packParts t done (cur ++ [q]) (size + l) else packParts t (done ++ [cur]) [q] (16 + l)

/-- The OUT payload of each part, for segments given as (position, size). -/
def partSizes (segs : List (Nat × Nat)) (parts : List (List Nat)) : List Nat :=
  let sz (q : Nat) : Nat := ((segs.find? (fun x => x.1 == q)).map Prod.snd).getD 0
  match parts with
  | [] => []
  | h :: t => (32 + (h.map sz).sum) :: t.map (fun l => 16 + (l.map sz).sum)

/-- An upstream frame to be placed: fast, position, sample instant, transmit delay, wire bytes and close; instants in ns
from the cycle start. -/
structure UpFrame where
  fin : Bool
  pos : Nat
  sample : Int
  tproc : Nat
  w : Nat
  close : Int
  deriving DecidableEq, Repr

/-- The frames of R182 in the order of placing. -/
def upFrames (s : State) (p : Nat) : List UpFrame :=
  let ps := posList s p
  let n := nFast s p
  let tf := period s 0 / max n 1
  let fins := if n < 2 then [] else (List.range n).flatMap (fun (j : Nat) =>
    (ps.filter (fun q => stFinLen s (4 * p + q) != 0)).map (fun (q : Nat) =>
      { fin := true, pos := q, sample := ((j * tf : Nat) : Int) - ((s.tl.tFsl : Nat) : Int),
        tproc := 1000 * getF s LNK_P_STA_T_PINF_MAX p,
        w := wire (finPayload s (4 * p + q)), close := ((j * tf : Nat) : Int) - 4000 : UpFrame }))
  fins ++ ps.map (fun (q : Nat) =>
    { fin := false, pos := q, sample := -((s.tl.tSl : Nat) : Int), tproc := 1000 * getF s LNK_P_STA_T_PIN_MAX p,
      w := wire (inPayload s (4 * p + q)), close := -((s.tl.tGuard : Nat) : Int) : UpFrame })

/-- The placed interval that stands in the way of [o, o + len), on the circle of period `t`; answers its end with the
separation. -/
def conflict (t : Nat) (placed : List (Int × Int)) (o len : Int) : Option Int :=
  (placed.flatMap (fun iv => [-2, -1, 0, 1, 2].map (fun k => (iv.1 + k * (t : Int), iv.2 + k * (t : Int))))).findSome?
    (fun iv => if o < iv.2 + 1000 ∧ iv.1 < o + len + 1000 then some (iv.2 + 1000) else none)

/-- The transmit start of a frame: moved behind every placed interval in its way. The first argument bounds the moves. -/
def placeAt : Nat → Nat → List (Int × Int) → Int → Int → Int
  | 0, _, _, o, _ => o
  | n + 1, t, placed, o, len =>
    match conflict t placed o len with
    | none => o
    | some o' => placeAt n t placed o' len

/-- Slots of R182: none when a frame runs past its close. Answers the placed intervals and the slot of each frame. -/
def placeAll (s : State) (p t : Nat) : List UpFrame → List (Int × Int) → Option (List (Int × Int) × List (UpFrame × Int))
  | [], placed => some (placed, [])
  | f :: fs, placed =>
    let len : Int := posDelay s p f.pos + f.w * 80
    let o := placeAt 400 t placed (f.sample + f.tproc) len
    if o + len > f.close then none
    else
      match placeAll s p t fs (placed ++ [(o, o + len)]) with
      | none => none
      | some (pl, sl) => some (pl, (f, o - f.sample) :: sl)

/-- A start relative to the cycle start nearest to it; at equal distance relative to the later one. -/
def relStart (t : Nat) (x : Int) : Int :=
  let r := x % (t : Int)
  if 2 * r < (t : Int) then r else r - (t : Int)

/-- The earliest start at or after `a` that AWIN can express (R182). -/
def awinStart (t : Nat) (a : Int) : Int :=
  let x := (a + 9) / 10 * 10
  let r := relStart t x
  if -327680 ≤ r ∧ r ≤ 327670 then x
  else x - r + (if r < 0 then -327680 else (t : Int) - 327680)

/-- Insertion of an interval by its start. -/
def insIv (x : Int × Int) : List (Int × Int) → List (Int × Int)
  | [] => [x]
  | y :: t => if x.1 ≤ y.1 then x :: y :: t else y :: insIv x t

/-- The upstream acyclic window: start after a cycle start and length, the longest one, the first on a tie (R182). With
nothing placed the gap is the whole cycle (DEDUCED, log entry 87). -/
def upWindow (t : Nat) (placed : List (Int × Int)) : Option (Int × Int) :=
  let iv := placed.foldl (fun l x => insIv (x.1 % (t : Int), x.1 % (t : Int) + (x.2 - x.1)) l) []
  let gaps : List (Int × Int) :=
    match iv with
    | [] => [(1000, (t : Int) - 1000)]
    | f :: r => ((f :: r).zip (r ++ [(f.1 + (t : Int), f.2 + (t : Int))])).map (fun ab => (ab.1.2 + 1000, ab.2.1 - 1000))
  let wins := gaps.filterMap (fun g =>
    let x := awinStart t g.1
    if x < g.2 then some (x % (t : Int), g.2 - x) else none)
  wins.foldl (fun acc w =>
    match acc with
    | none => some w
    | some b => if w.2 > b.2 ∨ (w.2 = b.2 ∧ w.1 < b.1) then some w else some b) none

/-- Downstream transmissions of one cycle in launch order, as (launch after the cycle start, duration, is OUT): the FOUT
frame goes first at equal instants (R181). -/
def downEvents (s : State) (p outDur foutDur : Nat) : List (Nat × Nat × Bool) :=
  let t := period s 0
  let n := nFast s p
  let tf := t / max n 1
  let fo := if n < 2 then [] else (List.range n).map (fun j => ((j + 1) * tf - 4000, foutDur, false))
  let o := (t - s.tl.tGuard, outDur, true)
  fo.filter (fun e => decide (e.1 ≤ o.1)) ++ [o] ++ fo.filter (fun e => decide (e.1 > o.1))

/-- End of each transmission after its launch, in the steady state, with the idle time before each launch. -/
def downRun (t : Nat) (evs : List (Nat × Nat × Bool)) : List (Nat × Nat × Bool) :=
  let all := evs.map (fun e => (e.1, e.2.1, e.2.2)) ++ evs.map (fun e => (e.1 + t, e.2.1, e.2.2))
  let (_, out) := all.foldl (fun (acc : Nat × List (Nat × Nat × Bool)) e =>
    let start := max acc.1 e.1
    (start + e.2.1, acc.2 ++ [(start + e.2.1 - e.1, e.1 - acc.1, e.2.2)])) (0, [])
  out.drop evs.length

/-- Largest of a list. -/
def maxL (l : List Nat) : Nat := l.foldl max 0

/-- What RUN of a port fixes. -/
structure Plan where
  wOut : Nat
  wIn : Nat
  tIn : Nat
  tOut : Nat
  aUp : Nat
  aDn : Nat
  awin : Int
  wlen : Nat
  slots : List (Nat × Nat)
  fslots : List (Nat × Nat)
  deriving DecidableEq, Repr

/-- Bytes on the wire of the OUT parts of a port. -/
def outWire (s : State) (p : Nat) : Nat :=
  let segs := (posList s p).map (fun q => (q, segSize s (4 * p + q)))
  ((partSizes segs (packParts segs [] [] 32)).map wire).sum

/-- End of reception of the OUT and of the FOUT launch after the launch, at the master, with the downstream gap. -/
def downTimes (s : State) (p : Nat) : Nat × Nat × Nat :=
  let evs := downRun (period s 0) (downEvents s p (outWire s p * 80) (wire (foutPayload s p) * 80))
  (maxL ((evs.filter (fun e => e.2.2)).map Prod.fst), maxL ((evs.filter (fun e => !e.2.2)).map Prod.fst),
   maxL (evs.map (fun e => e.2.1)))

/-- The OUT transfer time and the fast OUT transfer time of a port (R183). -/
def outXfer (s : State) (p : Nat) : Nat × Nat :=
  let ps := posList s p
  let d := downTimes s p
  (d.1 + (match ps.getLast? with | none => 0 | some q => posDelay s p q) + 1000 * getF s LNK_P_STA_T_POUT_MAX p,
   match (ps.filter (fun q => stFoutLen s (4 * p + q) != 0)).getLast? with
   | none => 0
   | some q => d.2.1 + posDelay s p q + 1000 * getF s LNK_P_STA_T_POUTF_MAX p)

/-- The OUT frames of a port reach their stations by the apply instants (Table ARC-5). -/
def outXferOk (s : State) (p : Nat) : Bool :=
  let x := outXfer s p
  decide (x.1 ≤ s.tl.tAo) && (decide (nFast s p < 2) || decide (x.2 ≤ s.tl.tFao))

/-- The plan of a port at its RUN, or the code that refuses it (R183). -/
def portPlan (s : State) (p : Nat) : Except Nat Plan :=
  let t := period s 0
  let ps := posList s p
  let n := nFast s p
  let segs := ps.map (fun q => (q, segSize s (4 * p + q)))
  let parts := packParts segs [] [] 32
  let outW := outWire s p
  let fo := foutPayload s p
  let fins := ps.filter (fun q => stFinLen s (4 * p + q) != 0)
  let wOut := outW + (if n < 2 then 0 else n * wire fo)
  let wIn := (ps.map (fun q => wire (inPayload s (4 * p + q)))).sum +
    (if n < 2 then 0 else n * (fins.map (fun q => wire (finPayload s (4 * p + q)))).sum)
  if n = 0 ∨ wOut * 800 > 6 * t ∨ wIn * 800 > 6 * t ∨ segs.any (fun x => decide (16 + x.2 > 1500)) ∨ parts.length > 4 ∨
      ps.any (fun q => decide (inPayload s (4 * p + q) > 1500) || decide (finPayload s (4 * p + q) > 1500)) ∨ fo > 1500 then
    .error 0x0610
  else
    match placeAll s p t (upFrames s p) [] with
    | none => .error 0x0611
    | some (placed, sl) =>
      let d := downTimes s p
      let outEnd := d.1
      let gap := d.2.2
      let last := ps.getLast?.getD 3
      let inSl := sl.filter (fun x => !x.1.fin)
      let noAck := inSl.any (fun x =>
        decide (((outEnd + posDelay s p x.1.pos : Nat) : Int) - (t : Int) - (s.tl.tGuard : Int) > x.1.sample + x.2))
      let win := upWindow t placed
      let aUp := match win with | none => 0 | some w => (w.2.toNat - posDelay s p last) / 80
      let aDn := (gap - lnkG) / 80
      if !outXferOk s p ∨ noAck ∨ aDn < 600 ∨ aUp < 190 then .error 0x0611
      else
        .ok { wOut := wOut, wIn := wIn,
              tIn := maxL (inSl.map (fun x => x.2.toNat + posDelay s p x.1.pos + x.1.w * 80)),
              tOut := (outXfer s p).1, aUp := aUp, aDn := aDn,
              awin := match win with | none => 0 | some w => relStart t w.1 / 10,
              wlen := match win with | none => 0 | some w => w.2.toNat / 10,
              slots := inSl.map (fun x => (x.1.pos, x.2.toNat)),
              fslots := (sl.filter (fun x => x.1.fin)).map (fun x => (x.1.pos, x.2.toNat)) }

end Sys2Proof.Machine
end

