-- ==== Sys2Proof/Machine/LinkOps.lean ====
section
/-!
DEFINITION. Scaty links at run time: frames, station states, the INIT sequence, acyclic requests and Spillway
(R171 to R178, R185 to R199).
-/

namespace Sys2Proof.Machine

open R

/-! ## Ports and stations -/

/-- A port's state beside its registers. -/
def getPort (s : State) (p : Nat) : PortSt := mget s.lnk.ports p {}
/-- A port's state, replaced. -/
def setPort (s : State) (p : Nat) (v : PortSt) : State :=
  { s with lnk := { s.lnk with ports := mput {} s.lnk.ports p v } }
/-- A station's state, replaced. -/
def setSta (s : State) (i : Nat) (v : Sta) : State :=
  { s with lnk := { s.lnk with stas := mput {} s.lnk.stas i v } }

/-- A 32-bit counter of the station table increased, saturating. -/
def stInc (s : State) (i o : Nat) : State := stSet s i o 4 (sat 4294967295 (stGet s i o 4 + 1))

/-- STATE and, for DOWN, CAUSE of a station change, with the stamp, the station maps of LNK and the port's events. -/
def setStation (s : State) (i st cause : Nat) : State :=
  let old := stState s i
  if old = st then s
  else
    let s1 := stSet (stSet s i 0x80 1 st) i 0x88 8 (now s)
    let s2 := if st = 4 then stSet s1 i 0x81 1 cause else s1
    let up := getF s2 LNK_UPMAP_MAP 0 (i / 32)
    let dn := getF s2 LNK_DOWNMAP_MAP 0 (i / 32)
    let s3 := setF s2 LNK_UPMAP_MAP (setBits up (i % 32) 1 (if st = 2 then 1 else 0)) 0 (i / 32)
    let s4 := setF s3 LNK_DOWNMAP_MAP (setBits dn (i % 32) 1 (if st = 4 then 1 else 0)) 0 (i / 32)
    if st = 4 then latch s4 .lnkPort (i / 4) 2 else if st = 2 then latch s4 .lnkPort (i / 4) 4 else s4

/-- A station is declared DOWN: it enters the ERROR task's bitmaps unless it is simulated (R116, R165, R186). -/
def declareDown (s : State) (i cause : Nat) : State :=
  let s1 := setStation s i 4 cause
  if simulated s i then s1
  else
    { s1 with tsk := { s1.tsk with errMap := s1.tsk.errMap ||| 2 ^ i,
                                   errDown := if cause = 2 then s1.tsk.errDown ||| 2 ^ i else s1.tsk.errDown } }

/-- A pending REINIT call of a station completes. -/
def reinitEnd (s : State) (i code : Nat) : State :=
  match (getSta s i).reinit with
  | none => s
  | some c => complete (setSta s i { getSta s i with reinit := none }) c code 0

/-! ## Acyclic requests (R192 to R194) -/

/-- Bytes of a request in the queue: the AREQ payload of 28 B and its data (log entry 6). -/
def areqSize (r : AReq) : Nat := 28 + r.data.length

/-- Entries and bytes of the acyclic queue shown in LNK.P_AQ. -/
def aqShow (s : State) (p : Nat) : State :=
  let q := (getPort s p).aq
  setF (setF s LNK_P_AQ_ENTRIES q.length p) LNK_P_AQ_BYTES ((q.map areqSize).sum) p

/-- The acyclic queue of a port, replaced. -/
def setAq (s : State) (p : Nat) (q : List AReq) : State := aqShow (setPort s p { getPort s p with aq := q }) p

/-- A valve axis hears of its table download (R315): the confirmation completes START (R177), and the axis streams from its
next launch. -/
def axisTable (s : State) (a : Nat) (ok : Bool) : State :=
  let x := mget s.axes a {}
  if getF s VAX_A_STAT_AXST a ≠ 1 then s
  else if ok then
    let s1 := { s with axes := mput {} s.axes a { x with start := none, ready := true } }
    match x.start with
    | none => s1
    | some c => complete s1 c 0 0
  else
    let s1 := setF (setF { s with axes := mput {} s.axes a { x with start := none, ready := false } }
      VAX_A_STAT_AXST 0 a) VAX_A_STAT_FCAUSE 3 a
    match x.start with
    | none => s1
    | some c => complete s1 c 0x13 0

/-- A request ends with a LNK code byte and the RESULT of the station; whoever waits for it hears of it. A class 0
request ends silently (R193). -/
def areqEnd (s : State) (r : AReq) (code result : Nat) : State :=
  match r.axis, r.call with
  | some a, _ => axisTable s a (code == 0)
  | none, some c => complete s c code result
  | none, none => s

/-- The request fits the queue: 64 entries and 32 KB (R192). -/
def aqFits (q : List AReq) (r : AReq) : Bool :=
  decide (q.length < 64) && decide ((q.map areqSize).sum + areqSize r ≤ 32768)

/-- A request dropped by Spillway: counted by class, latched and completed SPILLED (R194). -/
def spill (s : State) (p : Nat) (r : AReq) : State :=
  let f := match r.cls with | 0 => LNK_P_SPILL_C0 | 1 => LNK_P_SPILL_C1 | 2 => LNK_P_SPILL_C2 | _ => LNK_P_SPILL_C3
  areqEnd (latch (unitErrAt (incF s f p) .lnkPort p 0x0615 p []) .lnkPort p 8) r 0x15 0

/-- The oldest unsent request of the greatest class above `c` in a queue: the next candidate of Spillway. -/
def spillCand (q : List AReq) (c : Nat) : Option AReq :=
  [3, 2, 1].findSome? (fun k => if k > c then q.find? (fun e => e.cls == k && !e.sent) else none)

/-- Candidates of Spillway leave the queue until the request fits. -/
def spillLoop : Nat → State → Nat → AReq → State
  | 0, s, _, _ => s
  | n + 1, s, p, r =>
    let q := (getPort s p).aq
    if aqFits q r then setAq s p (q ++ [r])
    else
      match spillCand q r.cls with
      | none => s
      | some e => spillLoop n (spill (setAq s p (q.erase e)) p e) p r

/-- A class 0 request that timed out unsent is PARAM or START of a station that still awaits it: it is sent again at once
(R193). -/
def resends (s : State) (p : Nat) (r : AReq) : Bool :=
  r.cls == 0 && (match (getSta s (4 * p + r.pos)).ph with | .param _ => r.svc == 2 | .start => r.svc == 3 | _ => false)

/-- Spillway admits a request to the acyclic queue of a port (R194). A request of the INIT sequence that has timed out in the
queue begins its timeout anew. -/
def aqAdmit (s : State) (p : Nat) (r : AReq) : State :=
  if wire (areqSize r) > getF s LNK_P_ACAP_A_DN p then areqEnd s r 0x18 0
  else
    let q := (getPort s p).aq
    let aged (e : AReq) : Bool := decide (now s - e.since ≥ e.tmo) && !e.sent
    let old := q.filter (fun e => aged e && !resends s p e)
    let q1 := (q.filter (fun e => !(aged e && !resends s p e))).map (fun e => if aged e then { e with since := now s } else e)
    let s1 := forEach old (setAq s p q1) (fun s e => areqEnd s e 0x16 0)
    if aqFits q1 r then setAq s1 p (q1 ++ [r])
    else
      let cand := q1.filter (fun e => decide (e.cls > r.cls) && !e.sent)
      let free := 32768 - (q1.map areqSize).sum
      if free + (cand.map areqSize).sum < areqSize r ∨ q1.length - cand.length ≥ 64 then spill s1 p r
      else spillLoop 65 s1 p r

/-- The next TOKEN of a port. -/
def nextToken (s : State) (p : Nat) : Nat × State :=
  let v := getPort s p
  (v.token, setPort s p { v with token := (v.token + 1) % 65536 })

/-- T_ACYC of a port in ns. -/
def tAcyc (s : State) (p : Nat) : Nat := getF s LNK_P_CFG_T_ACYC p * 1000000

/-- A class 0 request of the INIT sequence to position `q`: IDENT, PARAM or START. -/
def askStation (s : State) (p q svc arg1 arg2 : Nat) (data : List Byte) : State :=
  let (tok, s1) := nextToken s p
  aqAdmit s1 p { pos := q, svc := svc, token := tok, arg1 := arg1, arg2 := arg2, data := data, cls := 0,
                 since := now s, tmo := tAcyc s p }

/-- A class 0 request to a position is in the queue. -/
def class0Open (s : State) (p q : Nat) : Bool := (getPort s p).aq.any (fun e => e.pos == q && e.cls == 0)

/-- The class 0 requests to a position that are not sent yet leave the queue: its INIT sequence is abandoned or over. One that
was sent stays until its response or its timeout, and no other goes out before (R193). -/
def dropClass0 (s : State) (p q : Nat) : State :=
  setAq s p ((getPort s p).aq.filter (fun e => !(e.pos == q && e.cls == 0 && !e.sent)))

/-! ## The INIT sequence (R162, R187) -/

/-- The INIT record of a station (Table LNK-12), with its CFG_ID. -/
def initRecord (s : State) (i : Nat) : List Byte :=
  let p := i / 4
  let v := getPort s p
  let slot (l : List (Nat × Nat)) : Nat := ((l.find? (fun x => x.1 == i % 4)).map Prod.snd).getD 0
  let body := leBytes 2 (getF s TSK_PERIOD_C0_US) ++ leBytes 2 (stInLen s i) ++ leBytes 2 (stOutLen s i) ++
    leBytes 2 (stFinLen s i) ++ leBytes 2 (stFoutLen s i) ++ leBytes 1 (nFast s p) ++ leBytes 1 (b2n (stSafety s i)) ++
    leBytes 4 s.tl.tSl ++ leBytes 4 s.tl.tAo ++ leBytes 4 s.tl.tFsl ++ leBytes 4 s.tl.tFao ++
    leBytes 4 (slot v.slots) ++ leBytes 4 (slot v.fslots) ++ leBytes 4 (stGet s i 0x14 4) ++
    leBytes 4 (stGet s i 0x18 4) ++ leBytes 4 (stGet s i 0x1C 4) ++ leBytes 4 (getF s TSK_PERIOD_S_US) ++
    rdBs s (stAddr i 0x20) 96 ++ stationSubst s i
  leBytes 4 (crcEth (leBytes 4 0 ++ body)) ++ body

/-- The INIT sequence sends its next request: IDENT, a PARAM chunk whose length the spec leaves to the module, or
START. -/
def initNext (s : State) (i : Nat) : State :=
  let p := i / 4
  let v := getSta s i
  match v.ph with
  | .ident => if class0Open s p (i % 4) then s else askStation s p (i % 4) 1 0 0 []
  | .param o =>
    let room := min 1024 (getF s LNK_P_ACAP_A_DN p - 66)
    let (k, s1) := fresh 16 s
    let chunk := (v.record.drop o).take (1 + k % max room 1)
    askStation s1 p (i % 4) 2 o 0 chunk
  | .start => askStation s p (i % 4) 3 0 v.cfgId []
  | _ => s

/-- A station enters INIT: its record and expected CFG_ID are built, its timer and delay average start anew, and its
identity is awaited (R162, R185, R187, R191). -/
def enterInit (s : State) (i : Nat) : State :=
  let rec_ := initRecord s i
  let v := getSta s i
  let s1 := setSta s i { v with ph := .ident, record := rec_, cfgId := leNat (rec_.take 4), initAt := now s,
                                avg := 0, nSamp := 0, accum := 0, rej := 0, dly := 0, sent := [], credit := 0 }
  stSet (setStation s1 i 1 0) i 0x82 2 0

/-- A station's INIT fails: DOWN with CAUSE 0x01, the port's UNIT_ERR records the code (Table LNK-9). -/
def initFailed (s : State) (i code : Nat) : State :=
  let s1 := dropClass0 s (i / 4) (i % 4)
  let s2 := setSta s1 i { getSta s1 i with ph := .none }
  let s3 := unitErrAt s2 .lnkPort (i / 4) code i []
  reinitEnd (declareDown s3 i 1) i (code % 256)

/-- The identity check of R187 on IDENT response data (Table LNK-13). -/
def identOk (s : State) (i : Nat) (d : List Byte) : Bool :=
  let p := i / 4
  let f (o n : Nat) : Nat := leNat ((d.drop o).take n)
  decide (d.length ≥ 36) && f 0 4 == stGet s i 0 4 && (stGet s i 4 4 == 0 || f 4 4 == stGet s i 4 4) &&
  decide (f 0x10 2 ≤ 1000 * getF s LNK_P_STA_T_PIN_MAX p) && decide (f 0x12 2 ≤ 1000 * getF s LNK_P_STA_T_PINF_MAX p) &&
  decide (f 0x14 2 ≤ 1000 * getF s LNK_P_STA_T_POUT_MAX p) && decide (f 0x16 2 ≤ 1000 * getF s LNK_P_STA_T_POUTF_MAX p) &&
  decide (f 0x18 2 ≤ getF s LNK_P_LINE_T_RES_MAX p) && decide (stInLen s i ≤ f 0x20 2) && decide (stOutLen s i ≤ f 0x22 2)

/-- An IDENT response has arrived (Table LNK-9, R187): a station that is ABSENT, or DOWN under AUTO_REINIT, enters INIT,
and the identity of a station in INIT is checked. A station that already holds the CFG_ID and is OPERATING skips PARAM
and START. A response with a RESULT other than 0 carries no identity and changes nothing. -/
def identDone (s : State) (i result : Nat) (d : List Byte) : State :=
  let p := i / 4
  let f (o n : Nat) : Nat := leNat ((d.drop o).take n)
  let st := stState s i
  if result ≠ 0 then s
  else
    let s0 := if d.length ≥ 8 then stSet (stSet s i 0xA8 4 (f 0 4)) i 0xAC 4 (f 4 4) else s
    let s1 := if st = 0 ∨ (st = 4 ∧ getB s LNK_P_CFG_AUTO_REINIT p) then enterInit s0 i else s0
    let v := getSta s1 i
    if v.ph ≠ .ident then s1
    else if identOk s1 i d then
      initNext (setSta s1 i { v with ph := if f 0x1C 4 = v.cfgId ∧ f 0x1B 1 = 2 then .done else .param 0 }) i
    else initFailed s1 i 0x0612

/-- A PARAM or START response has arrived (R187). A response to a request of an INIT sequence that was abandoned finds the
identity still awaited, and changes nothing. -/
def paramDone (s : State) (i result len : Nat) : State :=
  let v := getSta s i
  if stState s i ≠ 1 ∨ v.ph = .ident then s
  else if result ≠ 0 then initFailed s i 0x0614
  else
    match v.ph with
    | .param o =>
      let o' := o + len
      initNext (setSta s i { v with ph := if o' < v.record.length then .param o' else .start }) i
    | .start => setSta s i { v with ph := .done }
    | _ => s

/-! ## Station states (Table LNK-9) -/

/-- A module that does not own the process sees in the IN frames themselves that a station is UP (R199; DEDUCED, log
entry 93). -/
def seenUp (s : State) (i : Nat) : Bool :=
  !owns s && (match (getSta s i).got with | some f => bitOf f.sstat 0 && bitOf f.sstat 3 | none => false)

/-- The evaluation of one station at a C0 input close. OUT_LOST counts every cycle without a valid IN frame that acknowledges
the OUT frame before it, whatever the state (R189). Answers the state and whether the station was declared DOWN by its own
count. -/
def evalStation (s : State) (i : Nat) : State × Bool :=
  let v := getSta s i
  let p := i / 4
  let valid := v.got.isSome
  let n := nextStart s 0 / period s 0
  let lost := match v.got with | none => true | some f => f.ack != (n + 65535) % 65536
  let st := stState s i
  let s := if lost then stInc s i 0x94 else s
  if st ≠ 2 ∧ st ≠ 3 ∧ seenUp s i then
    (setStation (stSet (setSta s i { v with ph := .done }) i 0x82 2 0) i 2 0, false)
  else if st = 1 then
    let locked := match v.got with | some f => bitOf f.sstat 0 | none => false
    if valid && locked && v.ph == .done && decide (v.nSamp ≥ 16) then
      (reinitEnd (setStation (stSet s i 0x82 2 0) i 2 0) i 0, false)
    else if now s ≥ v.initAt + getF s LNK_P_CFG_T_INIT p * 100000000 then (initFailed s i 0x0613, false)
    else (s, false)
  else if st = 2 ∨ st = 3 then
    if valid then (setStation (stSet s i 0x82 2 0) i 2 0, false)
    else
      let m := stGet s i 0x82 2 + 1
      let s1 := stInc (stSet s i 0x82 2 (sat 65535 m)) i 0x90
      if m < stGet s i 0x10 1 then (setStation (if st = 2 then stInc s1 i 0x98 else s1) i 3 0, false)
      else (declareDown s1 i 1, true)
  else (s, false)

/-- A station beyond one declared DOWN by its own count follows it with CAUSE 0x02 (R186). -/
def followDown (s : State) (before : List (Nat × Nat)) (i : Nat) : State :=
  let was := ((before.find? (fun x => x.1 == i)).map Prod.snd).getD 0
  if was = 0 ∨ was = 4 ∨ (getSta s i).got.isSome then s
  else
    let s1 := if stState s i = 4 then stSet s i 0x81 1 2 else s
    let s2 := if was = 1 then reinitEnd (setSta (dropClass0 s1 (i / 4) (i % 4)) i { getSta s1 i with ph := .none }) i cABORTED
              else s1
    let s3 := declareDown s2 i 2
    if simulated s3 i then s3 else { s3 with tsk := { s3.tsk with errDown := s3.tsk.errDown ||| 2 ^ i } }

/-- Station states of a port at a C0 input close (R185, R186). -/
def evalPort (s : State) (p : Nat) : State :=
  let v := getPort s p
  if v.left then
    forEach (posList s p) (setPort s p { v with left := false }) (fun s q =>
      if stState s (4 * p + q) = 4 then s
      else declareDown (setSta s (4 * p + q) { getSta s (4 * p + q) with ph := .none }) (4 * p + q) 3)
  else if !inRun s .lnkPort p then s
  else
    let ids := (posList s p).map (fun q => 4 * p + q)
    let before := ids.map (fun i => (i, stState s i))
    let (s1, own) := ids.foldl (fun (acc : State × List Nat) i =>
      let (s', b) := evalStation acc.1 i
      (s', if b then acc.2 ++ [i] else acc.2)) (s, [])
    let s2 := match own with
      | [] => s1
      | q :: _ => forEach (ids.filter (fun i => decide (i > q))) s1 (fun s i => followDown s before i)
    forEach ids s2 (fun s i =>
      let x := getSta s i
      match x.got with
      | none => setSta s i { x with fresh := false }
      | some f => setSta s i { x with fresh := true, rcv := true, inData := f.data, flts := f.flts, fltOvf := bitOf f.sstat 2 })

/-! ## Inputs from stations (R152, R159, R175) -/

/-- The source of a station input at an input close or, with its own data and freshness, at a fast buffer close. A channel that
had a value shows a station in INIT or ABSENT with CAUSE 0x01 (DESIGN CHOICE, log entry 114). -/
def stationSrc (s : State) (e : ChEntry) (seen : Bool) (data : List Byte) (fresh late : Bool) : InSrc :=
  let i := e.point
  let v := getSta s i
  let st := stState s i
  let (w, d) := staFaults v e
  let cause :=
    if !inRun s .lnkPort (i / 4) then 3
    else if st = 4 then stCause s i
    else if st ≠ 2 ∧ st ≠ 3 then (if seen then 1 else 4)
    else if !seen && !fresh then 4
    else if w then 5
    else if d then 6
    else 0
  { cause := cause, late := late, isFresh := fresh && (st == 2), wire := w, dev := d, raw := getRaw data e }

/-! ## Frames to the line (R171, R173, R174) -/

/-- A frame on the wire: Ethernet header, Scaty header, body, padding and FCS (Tables LNK-2 and LNK-3). -/
def scatyFrame (s : State) (p ftype cyc sub : Nat) (body : List Byte) : List Byte :=
  let hi := getF s LNK_P_MAC_HI_MAC p
  let lo := getF s LNK_P_MAC_LO_MAC p
  let mac := (leBytes 4 lo ++ leBytes 2 hi).reverse
  let hdr := leBytes 1 1 ++ leBytes 1 ftype ++ leBytes 2 body.length ++ leBytes 4 (roleEpoch s) ++ leBytes 2 cyc ++
    leBytes 1 sub ++ leBytes 1 0 ++ leBytes 4 0
  let pay := hdr ++ body
  let f := leBytes 6 0x000037584807 ++ mac ++ [0x88, 0xB5] ++ pay ++ List.replicate (46 - pay.length) 0
  f ++ leBytes 4 (crcEth f)

/-- Bytes padded with 0 to a multiple of 4. -/
def padB (b : List Byte) : List Byte := b ++ List.replicate (pad4 b.length - b.length) 0

/-- CMD of a station's segment: OPERATE while it is UP or LATE and not simulated (R165, R187). -/
def segOperate (s : State) (i : Nat) : Bool := (stState s i == 2 || stState s i == 3) && !simulated s i

/-- An OUT segment (Table LNK-5), with a safety container in the launch of an S output deadline (R178). -/
def outSegment (s : State) (i grant : Nat) (isS : Bool) : List Byte × State :=
  let (d, s1) := stationOut s i false
  let op := segOperate s i
  let data := if op then d else []
  let cont := if isS && stSafety s i then mget s.saf.cont i [] else []
  (padB (leBytes 1 (i % 4) ++ leBytes 1 (b2n op) ++ leBytes 2 data.length ++ leBytes 4 (pat 32 (getSta s i).dly) ++
    leBytes 2 grant ++ leBytes 1 (b2n (!cont.isEmpty)) ++ leBytes 1 0 ++ data ++ cont), s1)

/-- The station that gets the grant of a launch, and how much: first one with an outstanding PARAM or START, else in
rotation among those with bytes waiting or an IDENT outstanding, which R198 names beside the class 0 requests it serves first
(DEDUCED, log entry 136); at most A_UP. -/
def chooseGrant (s : State) (p : Nat) : Option (Nat × Nat) × State :=
  let v := getPort s p
  let ps := posList s p
  let aUp := getF s LNK_P_ACAP_A_UP p
  let open_ (ident : Bool) (q : Nat) : Bool := v.aq.any (fun e => e.pos == q && e.cls == 0 && e.sent && (e.svc == 1) == ident)
  let c0 := ps.find? (open_ false)
  let rest := ps.filter (fun q => decide ((getSta s (4 * p + q)).ureq > 0) || open_ true q)
  let who := match c0 with
    | some q => some q
    | none => match rest.find? (fun q => decide (q > v.rot)) with
      | some q => some q
      | none => rest.head?
  match who with
  | none => (none, s)
  | some q =>
    if aUp = 0 then (none, s)
    else
      let (k, s1) := fresh 16 s
      (some (q, 1 + k % aUp), setPort s1 p { getPort s1 p with rot := q })

/-- The first acyclic window at or after T_TX + T_C0 / 2 of the granting frame (R197). -/
def grantWindow (s : State) (p ttx : Nat) : Nat :=
  let t := period s 0
  let a : Int := sint 16 (getF s LNK_P_AWIN_AWIN p) * 10
  let from_ : Int := (ttx : Int) + ((t / 2 : Nat) : Int)
  let k := (from_ - a + (t : Int) - 1) / (t : Int)
  (k * (t : Int) + a).toNat

/-- What leaves a port: nothing while its link is down (R168). -/
def lineTx (s : State) (p : Nat) (frames : List (List Byte)) : List (List Byte) :=
  if getB s LNK_P_LINK_UP p then frames else []

/-- The OUT frames of a port launched at a C0 output deadline, whatever the state of its stations (R174, R181, R189). A
module whose output path is disabled sends nothing (R199), nor does one that has taken over before step T7 (R363). `isS`: the deadline is one of cycle S too. -/
def launchPort (s : State) (p : Nat) (isS : Bool) : State :=
  if !inRun s .lnkPort p then s
  else if !outPath s ∨ s.pair.hush ≠ 0 then setPort s p { getPort s p with tx := [] }
  else
    let n := nextStart s 0 / period s 0
    let ttx := max (getPort s p).busyTo (now s) + 640
    let (gr, s1) := chooseGrant s p
    let (segs, s2) := (posList s p).foldl (fun (acc : List (Nat × List Byte) × State) q =>
      let g := match gr with | some (q', a) => if q' = q then a else 0 | none => 0
      let (b, s') := outSegment acc.2 (4 * p + q) g isS
      (acc.1 ++ [(q, b)], s')) ([], s1)
    let parts := packParts (segs.map (fun x => (x.1, x.2.length))) [] [] 32
    let v := getPort s2 p
    let hdr := leBytes 8 ttx ++ leBytes 2 (b2n (getB s2 TIME_STATE_UNSYNC) + 2 * b2n v.step) ++
      leBytes 2 (getF s2 LNK_P_AWIN_AWIN p) ++ leBytes 2 (getF s2 TSK_PERIOD_C0_US) ++ leBytes 1 segs.length ++ leBytes 1 0
    let body (l : List Nat) : List Byte := l.flatMap (fun q => ((segs.find? (fun x => x.1 == q)).map Prod.snd).getD [])
    let frames := (List.range parts.length).map (fun k =>
      scatyFrame s2 p 1 (n % 65536) k ((if k = 0 then hdr else []) ++ body (parts.getD k [])))
    let grants := match gr with
      | some (q, a) => (v.grants ++ [(grantWindow s2 p ttx, q, a)]).drop (v.grants.length - 3)
      | none => v.grants
    let dur := (frames.map (fun f => (f.length + 20) * 80)).sum
    setPort s2 p { v with tx := lineTx s2 p frames, step := false, grants := grants, busyTo := max v.busyTo (now s) + dur,
                          ttx := ((n % 65536, ttx) :: v.ttx).take 16,
                          txAt := ((n % 65536, tickNs s) :: v.txAt).take 16 }

/-- The FOUT frame of a port: the fast data of the sub-cycle whose start follows (R173, R175), with nothing for a simulated
station (R165; DEDUCED, log entry 116). -/
def launchFast (s : State) (p : Nat) : State :=
  let n := nFast s p
  if !inRun s .lnkPort p || decide (n < 2) || !outPath s || s.pair.hush != 0 then s
  else
    let t := period s 0
    let tf := t / n
    let tj := ceilDiv (now s) tf * tf
    let (body, s1) := (posList s p).foldl (fun (acc : List Byte × State) q =>
      let i := 4 * p + q
      let len := stFoutLen acc.2 i
      if len = 0 then acc
      else
        let (d, s') := stationOut acc.2 i true
        if simulated s' i then (acc.1, s')
        else (acc.1 ++ padB (leBytes 1 q ++ leBytes 1 0 ++ leBytes 2 len ++ d), s')) ([], s)
    let frame := scatyFrame s1 p 3 (tj / t % 65536) (tj % t / tf) body
    let v := getPort s1 p
    setPort s1 p { v with tx := lineTx s1 p [frame], busyTo := max v.busyTo (now s) + (frame.length + 20) * 80 }

/-- The next C0 output deadline after now. -/
def nextLaunch (s : State) : Nat :=
  let t := period s 0
  ((now s + s.tl.tGuard) / t + 1) * t - s.tl.tGuard

end Sys2Proof.Machine
end

