-- ==== Sys2Proof/Machine/Link.lean ====
section
/-!
DEFINITION. The commands of the Scaty links: frames received, acyclic requests and IOUT frames sent, polls, timeouts,
link events, and the engine calls to LNK (R168, R171, R184 to R201).
-/

namespace Sys2Proof.Machine

open R

/-! ## Received frames (R171, R184, R199) -/

/-- A field of a received frame: `n` bytes at an offset from its destination address. -/
def frF (fr : List Byte) (o n : Nat) : Nat := leNat ((fr.drop o).take n)

/-- The FCS of a frame, its last four bytes, is right. -/
def frFcs (fr : List Byte) : Bool :=
  decide (fr.length ≥ 64) && leNat (fr.drop (fr.length - 4)) == crcEth (fr.take (fr.length - 4))

/-- What R171 finds: a bad FCS, another reason to discard, or a frame whose FTYPE is the one expected or another one that
stations send. -/
inductive RxKind where
  | badFcs
  | bad
  | other
  | ok
  deriving DecidableEq, Repr

/-- The checks of R171, for a row that receives FTYPE `ftype`. Offsets: Scaty header at 14. -/
def rxKind (fr : List Byte) (ftype : Nat) : RxKind :=
  if !frFcs fr then .badFcs
  else if fr.drop 12 |>.take 2 |> (· != [0x88, 0xB5]) then .bad
  else if frF fr 14 1 ≠ 1 ∨ !([2, 4, 6].contains (frF fr 15 1)) ∨ 16 + frF fr 16 2 > fr.length - 18 then .bad
  else if frF fr 15 1 = ftype then .ok else .other

/-- A discard under R171, counted in LNK.P_CNT, and for a bad FCS by station. -/
def rxDiscard (s : State) (p : Nat) (fr : List Byte) (k : RxKind) : State :=
  let s1 := incF s LNK_P_CNT_BADFRM p
  let i := 4 * p + frF fr 25 1
  if k = .badFcs ∧ fr.length ≥ 64 ∧ frF fr 25 1 < 4 ∧ stConfigured s i then stInc s1 i 0x9C else s1

/-- The epoch a station reports, kept where it is the highest (R199). Answers whether it exceeds the module's own. -/
def rxEpoch (s : State) (i e : Nat) : State × Bool :=
  let p := i / 4
  let s1 := if e > stGet s i 0x84 4 then stSet s i 0x84 4 e else s
  let s2 := maxF (maxF s1 LNK_P_EPOCH_EPOCH e p) LNK_EPOCH_MAX_EPOCH e
  if e > roleEpoch s then (latch (unitErrAt s2 .lnkPort p 0x0619 i []) .lnkPort p 16, true) else (s2, false)

/-- The stamp of a frame whose last byte arrives now: its SFD, in module time. -/
def rxStamp (s : State) (fr : List Byte) : Nat := now s - fr.length * 80

/-- A frame arrives inside the slot that starts at `o`: on the line it occupies [o, o + D_q + w × 80 ns), and a station
keeps its slot within 250 ns (R182, R200). -/
def inSlot (s : State) (fr : List Byte) (o p q resW : Nat) : Bool :=
  decide (o ≤ now s - (fr.length + 8) * 80 + 250) && decide (now s ≤ o + posDelay s p q + resW * 80 + 250)

/-- A station frame outside its slot or its grant is discarded and counted (R196). -/
def overSend (s : State) (p : Nat) : State := latch (incF s LNK_P_CNT_OVERSEND p) .lnkPort p 64

/-- A frame after its close is discarded and counted (R184). -/
def lateFrame (s : State) (p : Nat) : State := latch (incF s LNK_P_CNT_LATE_FRM p) .lnkPort p 32

/-! ## The cable delay (R191) -/

/-- DLY, DELAY and ASYM follow the average: `cdn` is CORR_DN in ns and `corr` CORR_up in 1/16 ns. -/
def delayOut (s : State) (i : Nat) (cdn corr : Nat) : State :=
  let v := getSta s i
  let s1 := setSta s i { v with dly := (v.avg + 32768) / 65536 }
  let half : Int := ((cdn * 16 + corr : Nat) : Int) * 2048
  let s2 := stSet s1 i 0xA0 4 (pat 32 ((v.avg + half + 32768) / 65536))
  stSet s2 i 0xA4 4 (pat 32 ((((cdn * 16 : Nat) : Int) - (corr : Int) + 8) / 16))

/-- A cable-delay sample, in 1/65,536 ns, and what the filter makes of it. -/
def delaySample (s : State) (i : Nat) (d : Int) (cdn corr : Nat) : State :=
  let v := getSta s i
  if v.nSamp < 16 then
    let v1 := { v with nSamp := v.nSamp + 1, accum := v.accum + d }
    if v1.nSamp = 16 then delayOut (setSta s i { v1 with avg := v1.accum / 16, rej := 0 }) i cdn corr
    else setSta s i v1
  else if (d - v.avg).natAbs ≤ 100 * 65536 then
    delayOut (setSta s i { v with avg := v.avg + (d - v.avg) / 16, rej := 0 }) i cdn corr
  else
    let s1 := incF s LNK_P_OUTLIER_COUNT (i / 4)
    if v.rej + 1 ≥ 32 then setSta s1 i { v with nSamp := 0, accum := 0, rej := 0 }
    else setSta s1 i { v with rej := v.rej + 1 }

/-- The sample of a valid IN frame, where the OUT frame it acknowledges is known. -/
def frameSample (s : State) (i : Nat) (f : InFrame) : State :=
  match (getPort s (i / 4)).ttx.find? (fun x => x.1 == f.ack) with
  | none => s
  | some (_, t1) =>
    let d : Int := ((((f.t4 : Int) - (t1 : Int)) - ((f.t3 : Int) - (f.t2c : Int))) * 16 - (f.corr : Int)) * 2048
    delaySample s i d f.corrDn f.corr

/-! ## IN frames (R184, R188, R193) -/

/-- The IN frame in received bytes (Tables LNK-3 and LNK-6), its SFD stamped `t4`. -/
def parseIn (fr : List Byte) (t4 : Nat) : InFrame :=
  let nf := min (frF fr 58 1) 4
  let dl := frF fr 52 2
  let o := 62 + 4 * nf
  let body := fr.drop o
  let c := body.drop dl
  { cyc := frF fr 22 2, epoch := frF fr 18 4, corr := frF fr 26 4, t2c := frF fr 30 8, t3 := frF fr 38 8, t4 := t4,
    ack := frF fr 46 2, sstat := frF fr 48 1, acredit := frF fr 49 1, ureq := frF fr 50 2, cfgId := frF fr 54 4,
    corrDn := frF fr 60 2,
    flts := (List.range nf).map (fun k => ⟨frF fr (62 + 4 * k) 2, frF fr (64 + 4 * k) 1, frF fr (65 + 4 * k) 1⟩),
    data := body.take dl,
    cont := if bitOf (frF fr 59 1) 0 then some (c.take (pad4 (20 + (c.getD 6 0).toNat))) else none }

/-- A valid IN frame is kept for its input close: credit, waiting bytes, and the delay sample. -/
def takeIn (s : State) (i : Nat) (f : InFrame) : State :=
  let v := getSta s i
  let t := (((getPort s (i / 4)).txAt.find? (fun x => x.1 == f.ack)).map Prod.snd).getD 0
  let s1 := setSta s i { v with got := some f, credit := f.acredit, ureq := f.ureq,
                                sent := v.sent.filter (fun x => decide (x ≥ t)) }
  frameSample s1 i f

/-- An IN frame received on a port: its bytes from the destination address to the FCS, the last byte now (R171, R184,
R188, R199). -/
def execInFrameRx (p : Nat) (fr : List Byte) (s : State) : Res :=
  if p ≥ nPort s ∨ !inRun s .lnkPort p then .next s
  else
    match rxKind fr 2 with
    | .badFcs => .next (rxDiscard s p fr .badFcs)
    | .bad => .next (rxDiscard s p fr .bad)
    | .other => .next s
    | .ok =>
      let q := frF fr 25 1
      let i := 4 * p + q
      if q ≥ 4 ∨ !stConfigured s i then .next (overSend s p)
      else
        let f := parseIn fr (rxStamp s fr)
        let t := period s 0
        let t0 := ((now s + s.tl.tGuard) / t + 1) * t
        let n := t0 / t
        let gap := (n + 65536 - f.cyc) % 65536
        if gap ≠ 0 then .next (if gap < 32768 then lateFrame s p else overSend s p)
        else if now s + s.tl.tSl < t0 then .next (overSend s p)
        else
          let slot := (((getPort s p).slots.find? (fun x => x.1 == q)).map Prod.snd).getD 0
          if !inSlot s fr (t0 - s.tl.tSl + slot) p q (wire (inPayload s i)) then .next (overSend s p)
          else
            let (s1, high) := rxEpoch s i f.epoch
            if high ∨ f.data.length ≠ stInLen s i ∨ frF fr 52 2 ≠ stInLen s i then .next s1
            else if !owns s1 then .next (takeIn (setSta s1 i { getSta s1 i with cfgId := f.cfgId }) i f)
            else if f.cfgId ≠ (getSta s1 i).cfgId then .next s1
            else .next (takeIn s1 i f)

/-- A FIN frame received on a port: the same rules for its fast sub-cycle (R184). -/
def execFinFrameRx (p : Nat) (fr : List Byte) (s : State) : Res :=
  if p ≥ nPort s ∨ !inRun s .lnkPort p then .next s
  else
    match rxKind fr 4 with
    | .badFcs => .next (rxDiscard s p fr .badFcs)
    | .bad => .next (rxDiscard s p fr .bad)
    | .other => .next s
    | .ok =>
      let q := frF fr 25 1
      let i := 4 * p + q
      let nf := nFast s p
      if q ≥ 4 ∨ !stConfigured s i ∨ stFinLen s i = 0 then .next (overSend s p)
      else if nf < 2 ∨ frF fr 24 1 ≥ nf then .next (overSend s p)
      else
        let t := period s 0
        let tf := t / nf
        let tj := ((now s + 4000) / tf + 1) * tf
        let k := tj / tf
        let seq := frF fr 22 2 * nf + frF fr 24 1
        let gap := (k + 65536 * nf - seq) % (65536 * nf)
        if gap ≠ 0 then .next (if gap < 32768 * nf then lateFrame s p else overSend s p)
        else if now s + s.tl.tFsl < tj then .next (overSend s p)
        else
          let slot := (((getPort s p).fslots.find? (fun x => x.1 == q)).map Prod.snd).getD 0
          if !inSlot s fr (tj - s.tl.tFsl + slot) p q (wire (finPayload s i)) then .next (overSend s p)
          else
            let (s1, high) := rxEpoch s i (frF fr 18 4)
            if high ∨ frF fr 30 2 ≠ stFinLen s i then .next s1
            else .next (setSta s1 i { getSta s1 i with fgot := some ((fr.drop 34).take (stFinLen s1 i)) })

/-! ## Acyclic responses (R193, R194, R196) -/

/-- The wire bytes of a received frame of which `fr` is what follows the SFD. -/
def frWire (fr : List Byte) : Nat := fr.length + 20

/-- The grant that covers an ARSP frame: its window, its station, and the bytes left of it. -/
def grantFor (s : State) (p q : Nat) (fr : List Byte) : Option (Nat × Nat × Nat) :=
  let len := (getPort s p).winLen
  (getPort s p).grants.find? (fun g =>
    g.2.1 == q && decide (g.1 ≤ now s - (fr.length + 8) * 80 + 250) && decide (now s ≤ g.1 + len + 250) &&
    decide (frWire fr ≤ g.2.2))

/-- A complete response to a request (R177, R187, R194, R201). -/
def respond (s : State) (p : Nat) (r : AReq) (result : Nat) (data : List Byte) : State :=
  let i := 4 * p + r.pos
  let s1 := setAq s p ((getPort s p).aq.filter (fun e => e.token != r.token))
  match r.cls with
  | 0 => if r.svc = 1 then identDone s1 i result data else paramDone s1 i result r.data.length
  | 1 =>
    if result = 0 then areqEnd s1 r 0 0 else areqEnd (unitErrAt s1 .lnkPort p 0x061C i []) r 0x1C result
  | _ =>
    if result ≠ 0 then areqEnd (unitErrAt s1 .lnkPort p 0x0617 i []) r 0x17 result
    else
      match r.call with
      | none => areqEnd s1 r 0 0
      | some c =>
        if r.svc = 4 then
          let (room, s2) := dsc s1 c 8 2
          let d := data.take room
          complete (wrBs s2 (c.addr + 0x20) d) c 0 d.length
        else complete s1 c 0 0

/-- An ARSP frame received on a port (R196): a part inside its grant, in order, of a request that was sent. -/
def execArspRx (p : Nat) (fr : List Byte) (s : State) : Res :=
  if p ≥ nPort s ∨ !inRun s .lnkPort p then .next s
  else
    match rxKind fr 6 with
    | .badFcs => .next (rxDiscard s p fr .badFcs)
    | .bad => .next (rxDiscard s p fr .bad)
    | .other => .next s
    | .ok =>
      let q := frF fr 25 1
      let i := 4 * p + q
      if q ≥ 4 ∨ !stConfigured s i then .next (overSend s p)
      else
        match grantFor s p q fr with
        | none => .next (overSend s p)
        | some g =>
          let v := getPort s p
          let s1 := setPort s p { v with grants := v.grants.map (fun x =>
            if x = g then (x.1, x.2.1, x.2.2 - frWire fr) else x) }
          let (s2, _) := rxEpoch s1 i (frF fr 18 4)
          let tok := frF fr 32 2
          match (getPort s2 p).aq.find? (fun e =>
              e.sent && e.pos == q && e.token == tok && e.svc == frF fr 30 1 && e.part == frF fr 36 1) with
          | none => .next (incF s2 LNK_P_CNT_BADFRM p)
          | some r =>
            let d := r.rsp ++ ((fr.take (fr.length - 4)).drop 38).take (frF fr 34 2)
            if frF fr 37 1 = 1 then
              .next (setPort s2 p { getPort s2 p with aq := (getPort s2 p).aq.map (fun e =>
                if e.token = r.token then { e with part := e.part + 1, rsp := d } else e) })
            else .next (respond s2 p r (frF fr 31 1) d)

/-! ## Acyclic requests and IOUT frames sent (R181, R192, R193, R195) -/

/-- The first cyclic launch of a port after now. -/
def nextCyclic (s : State) (p : Nat) : Nat :=
  let n := nFast s p
  if n < 2 then nextLaunch s
  else
    let tf := period s 0 / n
    min (nextLaunch s) (((now s + 4000) / tf + 1) * tf - 4000)

/-- The line is free and a frame of `w` wire bytes ends g before the next cyclic launch (R181). -/
def gapFor (s : State) (p w : Nat) : Bool :=
  decide ((getPort s p).busyTo ≤ now s) && decide (now s + w * 80 + lnkG ≤ nextCyclic s p)

/-- Credit allows a request (R193). -/
def creditFor (s : State) (p : Nat) (r : AReq) : Bool :=
  let v := getSta s (4 * p + r.pos)
  if r.cls = 0 then !(getPort s p).aq.any (fun e => e.cls == 0 && e.pos == r.pos && e.sent)
  else decide (v.sent.length < v.credit)

/-- The request that goes next: in class order, oldest first, passing over stations without credit (R192). -/
def nextReq (s : State) (p : Nat) : Option AReq :=
  [0, 1, 2, 3].findSome? (fun c => (getPort s p).aq.find? (fun e => e.cls == c && !e.sent && creditFor s p e))

/-- A queued acyclic request is sent when credit and a downstream gap allow (R181, R193). -/
def areqSend (p : Nat) (s : State) : State :=
  if p ≥ nPort s ∨ !inRun s .lnkPort p ∨ !outPath s ∨ !(getPort s p).iout.isEmpty then s
  else
    match nextReq s p with
    | none => s
    | some r =>
      if !gapFor s p (wire (areqSize r)) then s
      else
        let v := getPort s p
        let x := getSta s (4 * p + r.pos)
        let body := leBytes 1 r.pos ++ leBytes 1 r.svc ++ leBytes 2 r.token ++ leBytes 2 r.data.length ++
          leBytes 2 r.arg1 ++ leBytes 4 r.arg2 ++ r.data
        let s1 := setPort s p { v with
          tx := lineTx s p [scatyFrame s p 5 0 0 body], busyTo := now s + wire (areqSize r) * 80,
          aq := v.aq.map (fun e => if e.token = r.token then { e with sent := true, sentAt := now s } else e) }
        setSta s1 (4 * p + r.pos) { x with sent := x.sent ++ [tickNs s] }

/-- The entries of an IOUT frame, with the values R160 selects at its launch (R176). -/
def ioutBody (s : State) (chans : List Nat) : List Byte × State :=
  chans.foldl (fun (acc : List Byte × State) n =>
    let e := (getChan acc.2 n).latched
    match launchVal acc.2 n with
    | (none, s') => (acc.1, s')
    | (some r, s') =>
      let bit := e.raw = 8
      let v := if bit then (r % 2) * 2 ^ e.bitOfs else r
      (acc.1 ++ leBytes 2 e.byteOfs ++ leBytes 1 (rawSize e.raw) ++
        leBytes 1 (if bit then 2 ^ e.bitOfs else if rawSize e.raw = 1 then 255 else 0) ++ leBytes 8 v, s')) ([], s)

/-- The value that the owner of an output last wrote is the one that launches carry: an IOUT frame takes it from the OUT
slot, and so does the next cyclic OUT frame (R160, R176; DEDUCED, log entry 115). -/
def slotNow (s : State) (n : Nat) : State :=
  let (v, s1) := engOut s n
  setChan s1 n { getChan s1 n with lnkVal := v, dueVal := v }

/-- The oldest waiting IOUT frame of a port is sent in the first free downstream gap; its call completes (R195). -/
def ioutSend (p : Nat) (s : State) : State :=
  if p ≥ nPort s ∨ !inRun s .lnkPort p ∨ !outPath s then s
  else
    match (getPort s p).iout with
    | [] => s
    | r :: rest =>
      let w := wire (20 + 12 * r.chans.length)
      if !gapFor s p w then s
      else
        let (b, s1) := ioutBody (r.chans.foldl slotNow s) r.chans
        let body := leBytes 1 r.pos ++ leBytes 1 (b.length / 12) ++ leBytes 2 0 ++ b
        let v := getPort s1 p
        let frames := if b.isEmpty then [] else [scatyFrame s1 p 7 0 0 body]
        complete (setPort s1 p { v with tx := lineTx s1 p frames, iout := rest,
                                        busyTo := if b.isEmpty then v.busyTo else now s + w * 80 }) r.call 0 0

/-! ## Polls and timeouts (R185, R187, R193, R194) -/

/-- A position is polled with IDENT: ABSENT, DOWN under AUTO_REINIT, or in INIT with its identity awaited. -/
def polls (s : State) (i : Nat) : Bool :=
  let st := stState s i
  st == 0 || (st == 4 && getB s LNK_P_CFG_AUTO_REINIT (i / 4)) || (st == 1 && (getSta s i).ph == .ident)

/-- IDENT to every such position of a port, once per 100 ms, with one outstanding at most (R187). -/
def execIdentPoll (p : Nat) (s : State) : Res :=
  if p ≥ nPort s ∨ !inRun s .lnkPort p then .next s
  else
    .next (forEach (posList s p) s (fun s q =>
      let i := 4 * p + q
      let v := getSta s i
      if polls s i && !class0Open s p q && (!v.polled || decide (now s ≥ v.identAt + 100000000)) then
        askStation (setSta s i { v with polled := true, identAt := now s }) p q 1 0 0 []
      else s))

/-- The INIT timer of a station has reached T_INIT (Table LNK-9). -/
def execInitTimeout (i : Nat) (s : State) : Res :=
  if i < nSta s ∧ stState s i = 1 ∧ inRun s .lnkPort (i / 4) ∧
      now s ≥ (getSta s i).initAt + getF s LNK_P_CFG_T_INIT (i / 4) * 100000000 then .next (initFailed s i 0x0613)
  else .next s

/-- A class 0 request has timed out: PARAM and START are sent again at once, IDENT waits for its interval (R193). -/
def resendClass0 (s : State) (p : Nat) (r : AReq) : State :=
  if resends s p r then askStation s p r.pos r.svc r.arg1 r.arg2 r.data else s

/-- Requests of a port that have reached their timeouts without a complete response (R193, R194, R196). -/
def execAcycTimeout (p : Nat) (s : State) : Res :=
  if p ≥ nPort s ∨ !inRun s .lnkPort p then .next s
  else
    let q := (getPort s p).aq
    let old := q.filter (fun e => decide (now s - e.since ≥ e.tmo))
    let s1 := setAq s p (q.filter (fun e => !decide (now s - e.since ≥ e.tmo)))
    .next (forEach old s1 (fun s e =>
      if e.cls = 0 then resendClass0 s p e
      else areqEnd (unitErrAt s .lnkPort p 0x0616 (4 * p + e.pos) []) e 0x16 0))

/-! ## Link events (R168) -/

/-- A port leaves RUN: its requests go, its waiting calls end with a code byte, its stations follow at the next input close
(R101, R185). An axis whose table download was among them hears of it as the loss of its station (R317). -/
def portLeave (s : State) (p code : Nat) : State :=
  let v := getPort s p
  let is_ := [0, 1, 2, 3].map (fun q => 4 * p + q)
  let calls := byTicket (v.aq.filterMap AReq.call ++ v.iout.map IoutReq.call ++ is_.filterMap (fun i => (getSta s i).reinit))
  let s1 := setAq (setPort s p { v with iout := [], tx := [], grants := [], left := true }) p []
  let s3 := forEach is_ s1 (fun s i => setSta s i { getSta s i with reinit := none })
  forEach is_ (completeAll s3 calls code) (fun s i => endQueued s 4 i code)

/-- A port in RUN enters FAULT with a code; in any other state the code is recorded and the state stands. -/
def portFault (s : State) (p code : Nat) : State :=
  let s1 := unitErr s .lnkPort p code
  if inRun s .lnkPort p then portLeave (setF (setSt s1 .lnkPort p stFAULT) (hBusy .lnkPort) 0 p) p cABORTED else s1

/-- A port's link goes down: the port stays as it is, the event is counted and latched (R168). -/
def execPortLinkDown (p : Nat) (s : State) : Res :=
  if p ≥ nPort s ∨ !getB s LNK_P_LINK_UP p then .next s
  else .next (level (incF (setF s LNK_P_LINK_UP 0 p) LNK_P_LINK_DOWNS p) .lnkPort p 0 true)

/-- A port's link comes up at 100 Mbit/s full duplex (R168). A PHY with a link has no fault. -/
def execPortLinkUp (p : Nat) (s : State) : Res :=
  if p ≥ nPort s then .next s
  else .next (level (setF (setF s LNK_P_LINK_UP 1 p) LNK_P_LINK_PHYF 0 p) .lnkPort p 0 false)

/-- A PHY fault (R168): the link is down and a port in RUN enters FAULT. -/
def execPhyFault (p : Nat) (s : State) : Res :=
  if p ≥ nPort s then .next s
  else
    let s1 := setF (setF s LNK_P_LINK_PHYF 1 p) LNK_P_LINK_UP 0 p
    .next (portFault (level s1 .lnkPort p 0 true) p 0x061A)

/-- An uncorrectable error in the port's link buffers (R168). -/
def execBufUncorr (p : Nat) (s : State) : Res :=
  if p ≥ nPort s then .next s else .next (portFault s p 0x061B)

/-! ## Engine calls to LNK (R201) -/

/-- ACYC to station `i`: a READ or WRITE request enters the queue of its port. -/
def execLnkAcyc (i : Nat) (s : State) : Res :=
  match takeCall s 4 i 0 with
  | none => .next s
  | some (c, s1) =>
    let (svc, s2) := dsc s1 c 0 1
    if svc ≠ 4 ∧ svc ≠ 5 then .next (complete s2 c 0x17 1)
    else
      let (sub, s3) := dsc s2 c 2 2
      let (idx, s4) := dsc s3 c 4 4
      let (alen, s5) := dsc s4 c 8 2
      let (tmo, s6) := dsc s5 c 0xC 4
      let (data, s7) := engRd s6 (c.addr + 0x20) (if svc = 5 then min alen 1024 else 0)
      let (tok, s8) := nextToken s7 (i / 4)
      .next (aqAdmit s8 (i / 4) { pos := i % 4, svc := svc, token := tok, arg1 := sub, arg2 := idx, data := data, cls := 2,
                                  since := now s, tmo := if tmo = 0 then tAcyc s8 (i / 4) else tmo * 1000, call := some c })

/-- The channels of an OUTNOW descriptor, as the engine reads them. -/
def ioutChans (s : State) (c : Call) (n : Nat) : List Nat × State :=
  (List.range n).foldl (fun (acc : List Nat × State) k =>
    let (v, s') := dsc acc.2 c (8 + 2 * k) 2
    (acc.1 ++ [v], s')) ([], s)

/-- OUTNOW to station `i` (R195, R201). -/
def execLnkOutnow (i : Nat) (s : State) : Res :=
  match takeCall s 4 i 1 with
  | none => .next s
  | some (c, s1) =>
    let (n, s2) := dsc s1 c 0 4
    if n = 0 ∨ n > 32 then .next (complete s2 c 0x1E 0)
    else
      let (chs, s3) := ioutChans s2 c n
      if chs.any (fun ch => decide (ch ≥ nChan s3) || !(stChans s3 i true false ++ stChans s3 i true true).contains ch) then
        .next (complete s3 c 0x1E 0)
      else
        let v := getPort s3 (i / 4)
        .next (setPort s3 (i / 4) { v with iout := v.iout ++ [⟨c, i % 4, chs⟩] })

/-- REINIT of a DOWN station: it goes back to INIT, and the call completes at UP or when INIT fails (R185, R201). -/
def execLnkReinit (i : Nat) (s : State) : Res :=
  match takeCall s 4 i 2 with
  | none => .next s
  | some (c, s1) =>
    if stState s1 i ≠ 4 then .next (complete s1 c 0x1D 0)
    else
      let s2 := enterInit s1 i
      .next (initNext (setSta s2 i { getSta s2 i with reinit := some c }) i)

/-- READ of station `i`: bytes 0x80 to 0xAF of its station table entry (R201). -/
def execLnkRead (i : Nat) (s : State) : Res :=
  match takeCall s 4 i 3 with
  | none => .next s
  | some (c, s1) => .next (complete (wrBs s1 (c.addr + 0x10) (rdBs s1 (stAddr i 0x80) 48)) c 0 0)

end Sys2Proof.Machine
end

