-- ==== Sys2Proof/Machine/SafetyOps.lean ====
section
/-!
DEFINITION. The safety engine's shared operations: map values and status, trip groups and their causes, engine trips,
followed inputs, containers and the checks of the safety image (R228 to R268, R496).
-/

namespace Sys2Proof.Machine

open R

/-! ## Status words (Table SAF-4) -/

/-- VALID. -/
def ssVALID : Nat := 1
/-- SAFEVAL. -/
def ssSAFEVAL : Nat := 2
/-- PASSIVE. -/
def ssPASSIVE : Nat := 4
/-- DISC. -/
def ssDISC : Nat := 8
/-- INFAULT. -/
def ssINFAULT : Nat := 16

/-! ## Groups and stations -/

/-- A trip group's state beside its registers. -/
def getGrp (s : State) (g : Nat) : Grp := mget s.saf.groups g {}
/-- A trip group's state, replaced. -/
def setGrp (s : State) (g : Nat) (v : Grp) : State :=
  { s with saf := { s.saf with groups := mput {} s.saf.groups g v } }
/-- A safety station at the engine. -/
def getSs (s : State) (i : Nat) : SafSta := mget s.saf.stas i {}
/-- A safety station at the engine, replaced. -/
def setSs (s : State) (i : Nat) (v : SafSta) : State :=
  { s with saf := { s.saf with stas := mput {} s.saf.stas i v } }
/-- A followed input, by map index. -/
def getIn (s : State) (k : Nat) : SafIn := mget s.saf.ins k {}
/-- A followed input, replaced. -/
def setIn (s : State) (k : Nat) (v : SafIn) : State :=
  { s with saf := { s.saf with ins := mput {} s.saf.ins k v } }

/-- The map entry at an index of the image in force. -/
def mapAt (s : State) (k : Nat) : Option SMap := (s.saf.img.map.find? (fun m => m.1 == k)).map Prod.snd

/-- The configured groups of the image in force. -/
def grpList (s : State) : List Nat := s.saf.img.groups.map Prod.fst

/-- The configuration of a group. -/
def grpCfg (s : State) (g : Nat) : GrpCfg := ((s.saf.img.groups.find? (fun x => x.1 == g)).map Prod.snd).getD {}

/-- The stations that map entries name. -/
def safStations (im : SImage) : List Nat :=
  (im.map.foldl (fun acc m => if m.2.kind ≤ 1 ∧ !acc.contains m.2.point then acc ++ [m.2.point] else acc) ([] : List Nat))

/-- The stations with output entries of a group. -/
def grpStations (s : State) (g : Nat) : List Nat :=
  (s.saf.img.map.filter (fun m => m.2.kind == 1 && m.2.group == g)).map (fun m => m.2.point)

/-- The DO pairs of a group. -/
def grpPairs (s : State) (g : Nat) : List Nat :=
  (s.saf.img.map.filter (fun m => m.2.kind == 5 && m.2.group == g)).map (fun m => m.2.point)

/-- The state of a group set: 0 SAFE-RUN, 1 SS1 phase, 2 STO, 3 RESET-WAIT. -/
def setGState (s : State) (g code : Nat) : State :=
  let v := if code = 0 then 0 else if code = 3 then 2 else 1
  let s1 := setF s SAF_GSTATE_TG (setBits (getF s SAF_GSTATE_TG) (2 * g) 2 v)
  let s2 := setF s1 SAF_GPHASE_SS1 (setBits (getF s1 SAF_GPHASE_SS1) g 1 (if code = 1 then 1 else 0))
  setF s2 SAF_GPHASE_STO (setBits (getF s2 SAF_GPHASE_STO) g 1 (if code = 2 then 1 else 0))

/-- The state code of a group in force. -/
def gCode (s : State) (g : Nat) : Nat :=
  match grpState s g with
  | 0 => 0
  | 1 => if grpSs1 s g then 1 else 2
  | _ => 3

/-- The state code of a group as it behaves: out of RUN in STO (R261, R263). -/
def gShown (s : State) (g : Nat) : Nat := if inRun s .saf then gCode s g else 2

/-- EVT_DYN bit 0: a configured group is in SAFE-TRIP. -/
def tripLevel (s : State) : State := level s .saf 0 0 ((grpList s).any (fun g => grpState s g == 1))

/-- EVT_DYN bit 2: a group has STUCK_RESET. -/
def stuckLevel (s : State) : State := level s .saf 0 2 (getF s SAF_RST_STUCK != 0)

/-- Causes of a group are latched in GCAUSE; the first one keeps its bit, instance and stamp (R247). -/
def addCause (s : State) (g mask inst : Nat) : State :=
  if mask = 0 then s
  else
    let old := getF s SAF_GCAUSE_CAUSES 0 g
    let s1 := setF s SAF_GCAUSE_CAUSES (old ||| mask) 0 g
    if old ≠ 0 then s1
    else
      let b := ((List.range 9).find? (fun b => bitOf mask b)).getD 0
      let s2 := setF (setF s1 SAF_GCAUSE_FIRST b 0 g) SAF_GINFO_INST inst 0 g
      setF (setF s2 SAF_GSTAMP_LO_STAMP (now s % 2 ^ 32) 0 g) SAF_GSTAMP_HI_STAMP (now s / 2 ^ 32) 0 g

/-- The latches of a group clear when it enters SAFE-RUN (R247). -/
def clearCause (s : State) (g : Nat) : State :=
  let s1 := setF (setF (setF s SAF_GCAUSE_CAUSES 0 0 g) SAF_GCAUSE_FIRST 0 0 g) SAF_GINFO_INST 0 0 g
  setF (setF s1 SAF_GSTAMP_LO_STAMP 0 0 g) SAF_GSTAMP_HI_STAMP 0 0 g

/-! ## Engine trips (R261) -/

/-- No profile channel is locked any more: the groups are in STO (R308). -/
def unlockAll (s : State) : State := { s with gens := mmap {} (fun _ g => { g with lock := false }) s.gens }

/-- An engine trip with a code byte and TRIP_INFO: enables dropped, SAF in FAULT, every configured group in STO with
cause 7, the safety task stopped on both cores. A trip arises in RUN. Whether the checkers of the black channel are still
available after it is open (DESIGN CHOICE, log entry 103). -/
def engineTrip (s : State) (code info : Nat) : State :=
  if !inRun s .saf then s
  else
    let s1 := unitErr (setF (setF s SAF_ENG_EN_A 0) SAF_ENG_EN_B 0) .saf 0 (0x0800 + code)
    let s2 := setF (setF s1 SAF_TRIP_CODE (0x0800 + code)) SAF_TRIP_INFO_INFO info
    let s3 := setF (setF (setSt s2 .saf 0 stFAULT) (hBusy .saf) 0) SAF_ENG_ACTIVE 0
    let s4 := forEach (grpList s3) s3 (fun s g =>
      addCause (setGState (setGrp s g { getGrp s g with next := none, ev := 0 }) g 2) g 0x80 0)
    let (av, s4) := pick s4
    let s5 := { s4 with saf := { s4.saf with busyA := false, busyB := false, pend := false, tripAt := some (now s), chk := av,
                                             wasTg := getF s SAF_GSTATE_TG, wasSs1 := getF s SAF_GPHASE_SS1 } }
    let s6 := setCore (setCore s5 6 { getCore s5 6 with mode := .stopped }) 7 { getCore s5 7 with mode := .stopped }
    level (tripLevel (unlockAll s6)) .saf 0 1 true

/-! ## Values of the map (R230, R238, R239) -/

/-- The image type of a map type: U8 for BIT and U8, I32 for I8 and I32, I16 for I16. -/
def safImgType (t : Nat) : Nat := if t = 1 then 1 else if t = 3 ∨ t = 9 then 3 else 0

/-- A raw value of a map type in its image type: BIT in bit 0, I8 sign-extended. -/
def safImgVal (t raw : Nat) : Nat :=
  if t = 8 then raw % 2 else if t = 9 then pat 32 (sint 8 raw) else raw % 2 ^ tyBits t

/-- The filtered DI word after the latest sample at or before an instant (R204). -/
def diAt (s : State) (t : Nat) : Option Nat :=
  (s.lio.hist.find? (fun h => decide (h.1 ≤ t))).map (fun h => h.2.1)

/-- The supply of a DI is off (R208). -/
def diSupplyOff (s : State) (n : Nat) : Bool :=
  let v := getF s LIO_DI_CFG_VS 0 n
  v != 0 && !bitOf (getF s LIO_VS_STAT_ON) (v - 1)

/-- DEV_FAULT of a DI: a cross-circuit, or its supply off. -/
def diDev (s : State) (n : Nat) : Bool := (mget s.lio.dis n {}).xc || diSupplyOff s n

/-- WIRE_BREAK, DI_CROSS or DEV_FAULT of a local safety DI, or a sequencer that is not in RUN (R239). -/
def diBad (s : State) (n : Nat) : Bool :=
  !inRun s .lio || bitOf (getF s LIO_DI_WB_WB) n || diDev s n

/-- The two DIs of a pair match (R239): equal for kind 3, opposite for kind 4. -/
def pairMatch (kind : Nat) (a b : Bool) : Bool := if kind = 3 then a == b else a != b

/-- The two DIs of a pair are in the safe combination. -/
def pairSafe (kind : Nat) (a b : Bool) : Bool := if kind = 3 then !a && !b else !a && b

/-- The DIs that were not valid and the map indices with DISC at the latest sample at or before an instant. -/
def seenAt (s : State) (t : Nat) : Nat × List Nat := ((s.saf.seen.find? (fun h => decide (h.1 ≤ t))).map Prod.snd).getD (2 ^ 32 - 1, [])

/-- Value and status of a map entry for the input image whose samples are of instant `t`: value, faults and discrepancy of a
local input are those of one sample (R233, R239), while the sequencer is in RUN. -/
def safInVal (s : State) (k : Nat) (m : SMap) (t : Nat) : Nat × Nat :=
  match m.kind with
  | 0 =>
    let v := getSs s m.point
    if v.pass || !bitOf v.flags 0 then (0, ssSAFEVAL + ssPASSIVE)
    else
      let raw := if m.typ = 8 then bits (v.data.getD m.sbyte 0).toNat m.sbit 1
                 else leNat ((v.data.drop m.sbyte).take (rawSize m.typ))
      (safImgVal m.typ raw, ssVALID)
  | 2 =>
    if !inRun s .lio || bitOf (seenAt s t).1 m.point then (0, ssSAFEVAL + ssINFAULT)
    else match diAt s t with
      | none => (0, ssSAFEVAL + ssINFAULT)
      | some w => (bits w m.point 1, ssVALID)
  | _ =>
    let a := 2 * m.point
    let (bad, disc) := seenAt s t
    let d := if disc.contains k then ssDISC else 0
    if !inRun s .lio || bitOf bad a || bitOf bad (a + 1) then (0, ssSAFEVAL + ssINFAULT + d)
    else if disc.contains k then (0, ssSAFEVAL + ssDISC)
    else match diAt s t with
      | none => (0, ssSAFEVAL + ssINFAULT)
      | some w => (b2n (bitOf w a && (if m.kind = 3 then bitOf w (a + 1) else !bitOf w (a + 1))), ssVALID)

/-! ## Reset inputs (R258, R260) -/

/-- The groups that use a reset input. -/
def resetGroups (s : State) (k : Nat) : List Nat :=
  (s.saf.img.groups.filter (fun g => g.2.reset == k)).map Prod.fst

/-- True for a map index that some group names as its reset input. -/
def isReset (s : State) (k : Nat) : Bool := s.saf.img.groups.any (fun g => g.2.reset == k)

/-- STUCK_RESET of a group clears when its input has been 0 for t_min. -/
def stuckClear (s : State) (k t : Nat) : State :=
  match (getIn s k).lowAt with
  | none => s
  | some l =>
    stuckLevel (forEach (resetGroups s k) s (fun s g =>
      if bitOf (getF s SAF_RST_STUCK) g ∧ t ≥ l + (grpCfg s g).tMin * 1000000 then
        setGrp (setF s SAF_RST_STUCK (setBits (getF s SAF_RST_STUCK) g 1 0)) g { getGrp s g with clearAt := t }
      else s))

/-- A reset input is seen at level `lvl` at sample instant `t`. A sample that is not valid is no observation: it ends the
pulse under way. -/
def followReset (s : State) (k t : Nat) (valid lvl : Bool) : State :=
  let v := getIn s k
  if !valid then setIn s k { v with known := false, rise := none, lowAt := none }
  else
    let s1 :=
      if !v.known then setIn s k { v with known := true, lvl := lvl, rise := if lvl then some t else none,
                                          lowAt := if lvl then none else some t }
      else if lvl && !v.lvl then setIn s k { v with lvl := true, rise := some t, lowAt := none }
      else if !lvl && v.lvl then
        setIn s k { v with lvl := false, rise := none, lowAt := some t,
                           pulses := match v.rise with | some r => v.pulses ++ [(r, t)] | none => v.pulses }
      else s
    stuckClear (setIn s1 k { getIn s1 k with at_ := t }) k t

/-- A DI pair is seen at a sample instant: a discrepancy exists once no match has been seen throughout [d, d + DISC_MS), also
where the first match is seen at the end of that window or later, and DISC ends when both DIs are seen in the safe combination
(R239). -/
def followPair (s : State) (k t : Nat) (m : SMap) (a b : Bool) : State :=
  let v := getIn s k
  let hit := pairMatch m.kind a b
  let d := if hit then v.miss else some (v.miss.getD t)
  let new := !v.disc && (match d with | some x => decide (t ≥ x + m.disc * 1000000) | none => false)
  let on := (v.disc || new) && !(hit && pairSafe m.kind a b)
  let s1 := setIn s k { v with miss := if hit then none else d, disc := on }
  if new then unitErrAt s1 .saf 0 0x081F k [] else s1

/-- The local safety inputs after a sample of the sequencer at instant `t`. -/
def safLocal (s : State) (t : Nat) : State :=
  if !inRun s .saf then s
  else
    let w := getF s LIO_DI_STATE_STATE
    let s1 := forEach s.saf.img.map s (fun s m =>
      match m.2.kind with
      | 2 => if isReset s m.1 then followReset s m.1 t (!diBad s m.2.point) (bitOf w m.2.point) else s
      | 3 => followPair s m.1 t m.2 (bitOf w (2 * m.2.point)) (bitOf w (2 * m.2.point + 1))
      | 4 => followPair s m.1 t m.2 (bitOf w (2 * m.2.point)) (bitOf w (2 * m.2.point + 1))
      | _ => s)
    let bad := ((List.range 32).filter (diBad s1)).map (fun n => 2 ^ n) |>.sum
    let disc := (s1.saf.ins.filter (fun x => x.2.disc)).map Prod.fst
    { s1 with saf := { s1.saf with seen := ((t, bad, disc) :: s1.saf.seen).take 40 } }

/-! ## Output values (R248) -/

/-- The value that an output entry sends in a group state: 0 where Table SAF-6 and STAGE require. -/
def stageVal (s : State) (m : SMap) (v : Nat) : Nat :=
  if !inRun s .saf then 0
  else
    let c := gCode s m.group
    if c = 0 ∨ (c = 1 ∧ m.stage = 1) then v else 0

/-! ## Containers (R178, R240, R241) -/

/-- A container (Table LNK-11). -/
def container (addr seq flags stamp : Nat) (data : List Byte) : List Byte :=
  let b := padB (leBytes 4 addr ++ leBytes 2 seq ++ leBytes 1 data.length ++ leBytes 1 flags ++ leBytes 8 stamp ++ data)
  b ++ leBytes 4 (crcSaf b)

/-- The first check of Table SAF-5b that a received container fails: 0 none, 1 MISSING, 2 CRC, 3 ADDR, 4 SEQ. -/
def contCheck (s : State) (i t0 : Nat) (c : Option (List Byte)) : Nat :=
  match c with
  | none => 1
  | some b =>
    let f (o n : Nat) : Nat := leNat ((b.drop o).take n)
    let len := f 6 1
    let z := pad4 (16 + len)
    if b.length < z + 4 ∨ f z 4 ≠ crcSaf (b.take z) then 2
    else if f 0 4 ≠ stGet s i 0x18 4 ∨ len ≠ contLen s.saf.img i false then 3
    else if f 4 2 ≠ t0 / period s 3 % 65536 then 4
    else if f 8 8 + s.tl.tSl + 2000 < t0 ∨ f 8 8 + s.tl.tSl ≥ t0 + 2000 then 4
    else if f 7 1 ≥ 8 then 3
    else 0

/-! ## The image (R237, R239, R242, R251, R253, R268, R496) -/

/-- A map entry agrees with the channel it names. -/
def mapChanOk (s : State) (m : SMap) : Bool :=
  if m.chan = 0xFFFF then true
  else
    let e := tableEntry s m.chan
    let local_ (p : Nat) : Bool := e.src == 2 && e.point == p
    decide (m.chan < nChan s) && e.used && e.safety && e.raw == m.typ &&
    (match m.kind with
     | 0 => e.src == 1 && !e.isOut && e.point == m.point
     | 1 => e.src == 1 && e.isOut && e.point == m.point && e.ownKind == 1
     | 2 => local_ m.point && !e.isOut
     | 3 => (local_ (2 * m.point) || local_ (2 * m.point + 1)) && !e.isOut
     | 4 => (local_ (2 * m.point) || local_ (2 * m.point + 1)) && !e.isOut
     | _ => (local_ (0x20 + 2 * m.point) || local_ (0x21 + 2 * m.point)) && e.isOut && e.ownKind == 1)

/-- A map entry meets R237, R239 and R268 by itself. -/
def mapEntryOk (s : State) (im : SImage) (m : SMap) : Bool :=
  let typOk := [0, 1, 3, 8, 9].contains m.typ
  let grpOk := im.groups.any (fun g => g.1 == m.group) && decide (m.stage ≤ 1)
  typOk && mapChanOk s m &&
  (match m.kind with
   | 0 => decide (m.point < nSta s) && stSafety s m.point
   | 1 => decide (m.point < nSta s) && stSafety s m.point && grpOk
   | 2 => decide (m.point < 32) && m.typ == 8
   | 3 | 4 =>
     let a := 2 * m.point
     let va := getF s LIO_DI_CFG_VS 0 a
     let vb := getF s LIO_DI_CFG_VS 0 (a + 1)
     decide (m.point < 16) && m.typ == 8 && va != vb && va != 0 && vb != 0 &&
       getB s LIO_VS_CFG_TP_EN 0 (va - 1) && getB s LIO_VS_CFG_TP_EN 0 (vb - 1) &&
       decide (10 ≤ m.disc) && decide (m.disc ≤ 1000)
   | 5 =>
     let a := 2 * m.point
     decide (m.point < 8) && m.typ == 8 && grpOk && getB s LIO_DO_CFG_TP_EN 0 a && getB s LIO_DO_CFG_TP_EN 0 (a + 1) &&
       !bitOf (getF s SYS_RA_TIO_DO_TP) a && !bitOf (getF s SYS_RA_TIO_DO_TP) (a + 1)
   | _ => false)

/-- A group's reset input and SS1 parameters meet R253, R257 and R258. -/
def grpOk (im : SImage) (g : GrpCfg) : Bool :=
  let entry (k : Nat) : Option SMap := (im.map.find? (fun m => m.1 == k)).map Prod.snd
  (match entry g.reset with | some m => m.typ == 8 && (m.kind == 0 || m.kind == 2) | none => false) &&
  decide (20 ≤ g.tMin) && decide (g.tMin ≤ 1000) && decide (500 ≤ g.tMax) && decide (g.tMax ≤ 10000) &&
  decide (g.tMin < g.tMax) &&
  (match g.ss1 with
   | none => true
   | some c =>
     (match entry c.speed with | some m => m.kind == 0 && (m.typ == 1 || m.typ == 3) | none => false) &&
     decide (c.aMon > 0) && decide (c.tMax * 1000 ≥ 2 * im.ts))

/-- A gate meets R251. -/
def gateOk (s : State) (im : SImage) (g : GateE) : Bool :=
  let e := tableEntry s g.chan
  decide (g.chan < nChan s) && e.used && e.isOut && e.gated && e.ownKind != 1 && decide (g.whn ≤ 1) &&
  (im.gates.filter (fun x => x.chan == g.chan)).length == 1 && im.groups.any (fun x => x.1 == g.group)

/-- The checks of the image at a SAF RUN request. -/
def safCheck (s : State) (im : SImage) : Bool :=
  im.id != 0 && im.ts * 1000 == period s 3 && im.imgA.core == 0 && im.imgB.core == 1 &&
  im.imgA.decl == im.imgB.decl && im.imgA.xlen == im.imgB.xlen && decide (im.imgA.xlen ≤ 252) &&
  im.map.all (fun m => decide (m.1 < 1024) && mapEntryOk s im m.2) && im.groups.all (fun g => decide (g.1 < 16) && grpOk im g.2) &&
  decide (im.gates.length ≤ 256) && im.gates.all (gateOk s im) &&
  (tableList s).all (fun n =>
    let e := tableEntry s n
    !e.used || ((!e.safety || (im.map.filter (fun m => m.2.chan == n)).length == 1) &&
                (!e.gated || im.gates.any (fun g => g.chan == n)))) &&
  (safStations im).all (fun i =>
    decide (contLen im i true ≤ 32) && decide (contLen im i false ≤ 32) && decide (stGet s i 0x1C 4 ≥ 2 * im.ts)) &&
  (im.imgA.decl.all (fun k => match (im.map.find? (fun m => m.1 == k)).map Prod.snd with
    | some m => m.kind == 1 || m.kind == 5 | none => false))

end Sys2Proof.Machine
end

