-- ==== Sys2Proof/Machine/LocalIo.lean ====
section
/-!
DEFINITION. The local I/O sequencer: digital inputs and outputs, sensor supplies, test pulses, output watchdogs, analogue
inputs with the rotating spare, analogue outputs, and the pins (R202 to R226).
-/

namespace Sys2Proof.Machine

open R

/-! ## Access -/

/-- A DI. -/
def getDi (s : State) (n : Nat) : DiSt := mget s.lio.dis n {}
/-- A DI, replaced. -/
def setDi (s : State) (n : Nat) (v : DiSt) : State := { s with lio := { s.lio with dis := mput {} s.lio.dis n v } }
/-- A DO. -/
def getDo (s : State) (n : Nat) : DoSt := mget s.lio.dos n {}
/-- A DO, replaced. -/
def setDo (s : State) (n : Nat) (v : DoSt) : State := { s with lio := { s.lio with dos := mput {} s.lio.dos n v } }
/-- An AI. -/
def getAi (s : State) (n : Nat) : AiSt := mget s.lio.ais n {}
/-- An AI, replaced. -/
def setAi (s : State) (n : Nat) (v : AiSt) : State := { s with lio := { s.lio with ais := mput {} s.lio.ais n v } }
/-- An AO, replaced. -/
def setAo (s : State) (n : Nat) (v : AoSt) : State := { s with lio := { s.lio with aos := mput {} s.lio.aos n v } }
/-- A converter. -/
def getCv (s : State) (n : Nat) : ConvSt := mget s.lio.conv n {}
/-- A converter, replaced. -/
def setCv (s : State) (n : Nat) (v : ConvSt) : State := { s with lio := { s.lio with conv := mput {} s.lio.conv n v } }

/-- A diagnostic bit of DO `n` latched. -/
def doLatch (s : State) (n bit : Nat) : State :=
  if n < 8 then setF s LIO_DO_DIAG0_DIAG (getF s LIO_DO_DIAG0_DIAG ||| bit * 2 ^ (4 * n))
  else setF s LIO_DO_DIAG1_DIAG (getF s LIO_DO_DIAG1_DIAG ||| bit * 2 ^ (4 * (n - 8)))

/-- DOn carries TPn (R214). -/
def tpRouted (s : State) (n : Nat) : Bool := decide (n < 4) && bitOf (getF s SYS_RA_TIO_DO_TP) n

/-- The output channel of a local point by its latched entry. -/
def localOut (s : State) (p : Nat) : Option Nat :=
  (s.chn.chans.find? (fun x => x.2.latched.src == 2 && x.2.latched.isOut && x.2.latched.point == p)).map Prod.fst

/-- The map entry of the safety pair that DO `n` belongs to. -/
def pairOf (s : State) (n : Nat) : Option SMap :=
  (s.saf.img.map.find? (fun m => m.2.kind == 5 && m.2.point == n / 2)).map Prod.snd

/-! ## Pins (Table LIO-4) -/

/-- A test pulse holds DO `n` off now (R212). -/
def pulsedOff (s : State) (n : Nat) : Bool :=
  match s.lio.pulse with
  | some p => !p.vs && p.n == n && decide (now s < p.at_ + getF s LIO_DO_CFG_TPW 0 n * 1000)
  | none => false

/-- The gate value of a local output, in raw form, where a gate acts. -/
def gateRaw (s : State) (p : Nat) : Option Nat :=
  match localOut s p with
  | none => none
  | some n =>
    let e := (getChan s n).latched
    if !e.gated then none
    else (gateVal s n).map (fun g => let (r, _, nan) := toRaw e e.img (g % 2 ^ tyBits e.img); if nan then 0 else r)

/-- The switch of DO `n` is on (Table LIO-4, R214, R217, R250). -/
def doPin (s : State) (n : Nat) : Bool :=
  if !outPath s || !inRun s .lio then false
  else
    match pairOf s n with
    | some _ =>
      mget s.lio.pairVal (n / 2) 0 == 1 && (if n % 2 = 0 then getB s SAF_ENG_EN_A else getB s SAF_ENG_EN_B) &&
        !pulsedOff s n
    | none =>
      match gateRaw s (0x20 + n) with
      | some g => g % 2 == 1
      | none =>
        if (getDo s n).off then false
        else if tpRouted s n then getB s TIME_TP_STAT_LEVEL 0 n
        else if bitOf (getF s LIO_WD_STAT_DO) n then getB s LIO_DO_CFG_SAFE 0 n
        else (getDo s n).cmd && !pulsedOff s n

/-- The OUT value of channel `n` as it is shown: the pin state for the entry of a DO that carries a timed output (R214). -/
def outShown (s : State) (n : Nat) : Nat :=
  let c := getChan s n
  let e := c.latched
  if e.used && e.isOut && e.src == 2 && e.ownKind == 4 && decide (0x20 ≤ e.point) && tpRouted s (e.point - 0x20) then
    b2n (doPin s (e.point - 0x20))
  else c.outVal

/-- The code of AO `n` clamped to its range, with CLIP (R225). -/
def aoClamp (s : State) (n raw : Nat) : Int × Bool :=
  if getB s LIO_AO_CFG_MODE 0 n then
    let c := raw % 65536
    if c > 60000 then (60000, true) else (c, false)
  else
    let c := sint 16 raw
    let k := clampI (-31500) 31500 c
    (k, !decide (k = c))

/-- The raw code with which a gate or an expired watchdog drives AO `n` (rows 3 and 5 of Table LIO-4), none where the
applied value stands. -/
def aoOver (s : State) (n : Nat) : Option Nat :=
  match gateRaw s (0x40 + n) with
  | some g => some g
  | none =>
    if !bitOf (getF s LIO_WD_STAT_AO) n then none
    else if getB s LIO_AO_CFG_SAFE 0 n then
      match localOut s (0x40 + n) with
      | some c => some (substRaw (getChan s c).latched (getChan s c).good).1
      | none => some 0
    else some 0

/-- The code that AO `n` drives now (Table LIO-4): 0 is 0 V or 0 mA. -/
def aoPin (s : State) (n : Nat) : Int :=
  if !outPath s || !inRun s .lio then 0
  else match aoOver s n with
    | some r => (aoClamp s n r).1
    | none => (getAo s n).code

/-- CLIP of AO `n` latched. -/
def aoClip (s : State) (n : Nat) : State := setF s LIO_AO_STAT_DIAG (getF s LIO_AO_STAT_DIAG ||| 2 ^ (4 * n))

/-- CLIP of every AO whose gate value or safe state is clamped (R225), latched at a sample instant (DESIGN CHOICE, log entry
117). -/
def aoClips (s : State) : State :=
  forEach [0, 1, 2, 3] s (fun s n =>
    match aoOver s n with
    | some r => if (aoClamp s n r).2 then aoClip s n else s
    | none => s)

/-! ## Inputs for the images (R204, R218, Table CHN-8) -/

/-- WIRE_BREAK and DEV_FAULT of a local point whose value is of instant `t` (R207, R208, R209, R210, R220, R222, R226). -/
def localFaults (s : State) (p t : Nat) : Bool × Bool :=
  if p < 0x20 then (bitOf (getF s LIO_DI_WB_WB) p, diDev s p)
  else if p < 0x30 then outPointFaults s p
  else if p < 0x40 then
    let n := p - 0x30
    let v := getAi s n
    (getB s LIO_AI_STAT_WB 0 n, v.hi || v.shunt.isSome || v.dead || (decide (v.deadFrom ≤ t) && decide (t < v.deadTo)))
  else outPointFaults s p

/-- The raw value of a local input for samples at an instant, with its own instant; none before the first one. -/
def localVal (s : State) (p t : Nat) : Option (Nat × Nat) :=
  if p < 0x20 then (s.lio.hist.find? (fun h => decide (h.1 ≤ t))).map (fun h => (h.1, bits h.2.1 p 1))
  else if p < 0x30 then (s.lio.hist.find? (fun h => decide (h.1 ≤ t))).map (fun h => (h.1, bits h.2.2 (p - 0x20) 1))
  else if p < 0x40 then ((getAi s (p - 0x30)).res.find? (fun r => decide (r.1 ≤ t))).map (fun r => (r.1, pat 32 r.2))
  else ((getAo s (p % 4)).rb.find? (fun r => decide (r.1 ≤ t))).map (fun r => (r.1, pat 32 (if p < 0x44 then r.2.1 else r.2.2)))

/-- The source of a local input at an input close whose samples are of instant `t`. -/
def localSrc (s : State) (e : ChEntry) (t : Nat) : InSrc :=
  let v := localVal s e.point t
  let (w, d) := localFaults s e.point ((v.map Prod.fst).getD 0)
  let cause := if !inRun s .lio then 3 else if v.isNone then 4 else if w then 5 else if d then 6 else 0
  { cause := cause, late := false, isFresh := v.isSome, wire := w, dev := d, raw := (v.map Prod.snd).getD 0,
    stamp := (v.map Prod.fst).getD 0 + 1 }

/-! ## Test pulses (R209, R212, R213) -/

/-- The end of the check window of a pulse. -/
def pulseStop (s : State) (p : Pulse) : Nat :=
  if p.vs then p.at_ + getF s LIO_VS_CFG_TPW 0 p.n * 1000 else p.at_ + getF s LIO_DO_CFG_TPW 0 p.n * 1000 + 200000

/-- The DIs assigned to a supply. -/
def disOf (s : State) (v : Nat) : List Nat := (List.range 32).filter (fun n => getF s LIO_DI_CFG_VS 0 n == v + 1)

/-- The check of a pulse whose window has ended is decided. -/
def pulseEndCheck (s : State) : State :=
  match s.lio.pulse with
  | none => s
  | some p =>
    let stop := pulseStop s p
    let until_ := if p.vs then stop + 100000 else stop
    if now s < until_ then s
    else
      let s1 := { s with lio := { s.lio with pulse := none, pulseEnd := stop } }
      if p.vs then
        forEach (disOf s1 p.n) s1 (fun s n => if bitOf p.on n then s else setDi s n { getDi s n with xc := false })
      else if p.bad || !p.back then latch (unitErrAt (doLatch s1 p.n 8) .lio 0 0x0714 p.n []) .lio 0 2
      else s1

/-- No pulse is under way, 1 ms has passed since the latest check window, and `now` is within 50 ms of the nominal
instant of an item tested every `iv` seconds, not yet tested at it (R213). -/
def pulseDue (s : State) (iv : Nat) (last : Option Nat) : Bool :=
  let per := iv * 1000000000
  s.lio.pulse.isNone && decide (now s ≥ s.lio.pulseEnd + 1000000) && decide (per > 0) && decide (now s % per ≤ 50000000) &&
  (match last with | none => true | some t => decide (t / per < now s / per))

/-- A test pulse of supply `v` starts (R209). -/
def execVsTestPulse (v : Nat) (s : State) : Res :=
  let s0 := pulseEndCheck s
  if v < 4 ∧ inRun s0 .lio ∧ getB s0 LIO_VS_CFG_TP_EN 0 v ∧ bitOf (getF s0 LIO_VS_STAT_ON) v ∧
      pulseDue s0 (getF s0 LIO_VS_CFG_TPI 0 v) (mget s0.lio.vsTested v none) then
    .next { s0 with lio := { s0.lio with pulse := some { vs := true, n := v, at_ := now s0 },
                                         vsTested := mput none s0.lio.vsTested v (some (now s0)) } }
  else .next s0

/-- The latest nominal instant of the test of DO `n` (R213). -/
def doNominal (s : State) (n : Nat) : Nat :=
  let per := getF s LIO_DO_CFG_TPI 0 n * 1000000000
  now s / per * per

/-- DO `n` was on at the latest nominal instant of its test (R213). -/
def onAtNominal (s : State) (n : Nat) : Bool := (getDo s n).nom == some (doNominal s n, true)

/-- A test pulse of DO `n` starts, only while its commanded value is 1 and it is on (R212); a DO that was off at its nominal
instant waits for the next one (R213). -/
def execDoTestPulse (n : Nat) (s : State) : Res :=
  let s0 := pulseEndCheck s
  let v := getDo s0 n
  if n < 16 ∧ inRun s0 .lio ∧ getB s0 LIO_DO_CFG_TP_EN 0 n ∧ !tpRouted s0 n ∧ doPin s0 n ∧
      (v.cmd ∨ (pairOf s0 n).isSome) ∧ onAtNominal s0 n ∧ pulseDue s0 (getF s0 LIO_DO_CFG_TPI 0 n) v.tested then
    let s1 := setDo s0 n { v with tested := some (now s0) }
    .next { s1 with lio := { s1.lio with pulse := some { vs := false, n := n, at_ := now s0 } } }
  else .next s0

/-- The commanded value of DO `n` becomes 0: a pulse that holds it off ends and its check is discarded (R212). -/
def pulseDrop (s : State) (n : Nat) : State :=
  match s.lio.pulse with
  | some p => if !p.vs ∧ p.n = n ∧ pulsedOff s n then { s with lio := { s.lio with pulse := none, pulseEnd := now s } } else s
  | none => s

/-! ## Samples (R206, R207, R209, R210, R212) -/

/-- The band of a DI sample from its voltage in mV and current in µA (Table LIO-2): 0 OFF, 1 ON, 2 BREAK, 3 transition. -/
def diBand (mv ua : Nat) : Nat :=
  if mv ≥ 11000 ∧ ua ≥ 2000 then 1
  else if (mv < 11000 ∧ 300 ≤ ua ∧ ua < 1500) ∨ mv < 5000 then 0
  else if ua < 300 then 2
  else 3

/-- One DI sample: filter and wire-break windows of 160 samples. -/
def diSample (s : State) (n mv ua : Nat) : State :=
  let v := getDi s n
  let b := diBand mv ua
  let raw := if b = 1 then true else if b = 3 then v.raw else false
  let st := getF s LIO_DI_STATE_STATE
  let cnt := if raw = bitOf st n then 0 else v.cnt + 1
  let flip := raw ≠ bitOf st n ∧ cnt ≥ getF s LIO_DI_CFG_FILT 0 n
  let en := getB s LIO_DI_CFG_WB_EN 0 n
  let wbIn := if b = 2 ∧ en then v.wbIn + 1 else 0
  let wbOut := if b = 2 then 0 else v.wbOut + 1
  let wb := getF s LIO_DI_WB_WB
  let s1 := setDi s n { v with raw := raw, cnt := if flip then 0 else cnt, wbIn := sat 160 wbIn, wbOut := sat 160 wbOut }
  let s2 := if flip then setF s1 LIO_DI_STATE_STATE (setBits st n 1 (b2n raw)) else s1
  if wbIn ≥ 160 ∧ !bitOf wb n then latch (setF s2 LIO_DI_WB_WB (setBits wb n 1 1)) .lio 0 16
  else if (wbOut ≥ 160 ∨ !en) ∧ bitOf wb n then setF s2 LIO_DI_WB_WB (setBits wb n 1 0)
  else s2

/-- A DI sample inside the window of a supply pulse: a sample ON in the check window is a cross-circuit (R209). -/
def crossSample (s : State) (p : Pulse) (n mv ua : Nat) : State :=
  if p.at_ + 50000 ≤ now s ∧ now s < pulseStop s p ∧ diBand mv ua = 1 then
    let s1 := setDi { s with lio := { s.lio with pulse := some { p with on := p.on ||| 2 ^ n } } } n { getDi s n with xc := true }
    latch (unitErrAt (setF s1 LIO_DI_XC_XC (getF s1 LIO_DI_XC_XC ||| 2 ^ n)) .lio 0 0x0716 n []) .lio 0 8
  else s

/-- What a readback sample says of a running DO pulse. -/
def pulseReadback (s : State) (rb : Nat) : State :=
  match s.lio.pulse with
  | some p =>
    if p.vs then s
    else
      let tp := p.at_ + getF s LIO_DO_CFG_TPW 0 p.n * 1000
      let r := bitOf rb p.n
      let early := p.at_ + getF s LIO_DO_CFG_TFALL 0 p.n * 2000 ≤ now s ∧ now s < tp
      let late := tp ≤ now s ∧ now s < tp + 200000
      { s with lio := { s.lio with pulse := some { p with bad := p.bad || (decide early && r),
                                                          back := p.back || (decide late && r) } } }
  | none => s

/-- The sample of a nominal instant notes whether DO `n` is on then; one that the sequencer did not sample then counts as off
(R204, R213). -/
def nomSample (s : State) (n : Nat) : State :=
  let v := getDo s n
  let t := doNominal s n
  if (v.nom.map Prod.fst) = some t then s
  else setDo s n { v with nom := some (t, decide (now s < t + 62500) && (doPin s n || pulsedOff s n)) }

/-- Consecutive readbacks of 1 of a DO that is commanded off outside its test pulses. -/
def extvCount (s : State) (rb n : Nat) : State :=
  let v := getDo s n
  if bitOf rb n ∧ !doPin s n ∧ !pulsedOff s n then setDo s n { v with extv := sat 3 (v.extv + 1) }
  else setDo s n { v with extv := 0 }

/-- Every DI and DO readback is sampled (R204). `di`: voltage in mV and current in µA of DI0 to DI31; bit n of `rb`:
DOn's output voltage is above 12 V. A pulse whose window has ended is judged first, so that a sample at the end of
[p, p + t_vp + 100 µs) counts again (R10). -/
def execLioSample (di : List (Nat × Nat)) (rb : Nat) (s : State) : Res :=
  if !inRun s .lio then .next s
  else
    let s0 := pulseReadback (pulseEndCheck s) (rb % 65536)
    let held (n : Nat) : Option Pulse :=
      match s0.lio.pulse with
      | some p => if p.vs ∧ (disOf s0 p.n).contains n then some p else none
      | none => none
    let s1 := forEach (List.range 32) s0 (fun s n =>
      match di[n]? with
      | none => s
      | some (mv, ua) =>
        match held n with
        | some _ => (match s.lio.pulse with | some p => crossSample s p n mv ua | none => s)
        | none => diSample s n mv ua)
    let s2 := forEach (List.range 16) (setF s1 LIO_DO_STATE_RB rb) (fun s n => extvCount (nomSample s n) (rb % 65536) n)
    let h := (now s2, getF s2 LIO_DI_STATE_STATE, rb % 65536)
    let s3 := { s2 with lio := { s2.lio with hist := (h :: s2.lio.hist).take 40 } }
    .next (safLocal (aoClips s3) (now s3))

/-! ## Applying outputs (R205, R211, R225) -/

/-- DO `n` is commanded to a level: one with RETRY = 0 that a protection has switched off comes back when its commanded value
has been 0 and then is 1 (R211). -/
def doSeen (s : State) (n : Nat) (on : Bool) : State :=
  let v := getDo s n
  let zero := v.off && (v.zero || !on)
  let back := v.off && v.zero && on && !getB s LIO_DO_CFG_RETRY 0 n
  setDo s n { v with off := v.off && !back, zero := zero && !back }

/-- A commanded value reaches DO `n`. -/
def doApply (s : State) (n : Nat) (on : Bool) : State :=
  let s1 := doSeen s n on
  let s2 := setDo s1 n { getDo s1 n with cmd := on }
  if on then s2 else pulseDrop s2 n

/-- The time unit sets TPn to a level; a DO that carries it is commanded to that level (R214). -/
def tpLevel (s : State) (n : Nat) (on : Bool) : State :=
  let s1 := setB s TIME_TP_STAT_LEVEL on 0 n
  if tpRouted s n then doSeen s1 n on else s1

/-- The commanded value of DO `n`: that of the time unit where it carries a timed output (R214). -/
def doCmd (s : State) (n : Nat) : Bool := if tpRouted s n then getB s TIME_TP_STAT_LEVEL 0 n else (getDo s n).cmd

/-- A raw value reaches AO `n`: clamped, with CLIP latched. -/
def aoApply (s : State) (n raw : Nat) : State :=
  let (c, clip) := aoClamp s n raw
  let s1 := setAo s n { getAo s n with code := c }
  if clip then aoClip s1 n else s1

/-- A raw value reaches a local output point. -/
def pointApply (s : State) (p raw : Nat) : State :=
  if 0x20 ≤ p ∧ p < 0x30 then doApply s (p - 0x20) (raw % 2 == 1)
  else if 0x40 ≤ p ∧ p < 0x44 then aoApply s (p - 0x40) raw else s

/-- Class-owned local outputs are taken at an output deadline of class `cls` for the apply instant of the cycle that
follows (R205). -/
def lioTake (s : State) (cls : Nat) : State :=
  if !inRun s .lio then s
  else
    let t1 := nextStart s 0
    let mine := s.chn.chans.filter (fun x =>
      x.2.latched.src == 2 && x.2.latched.isOut && x.2.latched.ownKind == 0 && x.2.latched.ownInst == cls)
    forEach mine s (fun s x =>
      match launchVal s x.1 with
      | (some r, s') => { s' with lio := { s'.lio with taken := mput (0, 0) s'.lio.taken x.1 (t1 + s'.tl.tAo, r) } }
      | (none, s') => s')

/-- The values taken for an apply instant that has come reach their points; so do those of the safety pairs. -/
def execLocalOutputApply (s : State) : Res :=
  if !inRun s .lio then .next s
  else
    let due := s.lio.taken.filter (fun x => decide (x.2.1 ≤ now s))
    let rest := s.lio.taken.filter (fun x => !decide (x.2.1 ≤ now s))
    let pd := s.lio.pairNext.filter (fun x => decide (x.2.1 ≤ now s))
    let pr := s.lio.pairNext.filter (fun x => !decide (x.2.1 ≤ now s))
    let s1 := forEach due { s with lio := { s.lio with taken := rest, pairNext := pr } }
      (fun s x => pointApply s (getChan s x.1).latched.point x.2.2)
    .next (forEach pd s1 (fun s x =>
      let s' := { s with lio := { s.lio with pairVal := mput 0 s.lio.pairVal x.1 x.2.2 } }
      if x.2.2 = 0 then pulseDrop (pulseDrop s' (2 * x.1)) (2 * x.1 + 1) else s'))

/-- A loop context has written the OUT slot of a local output (R205): the value waits for its update instant. -/
def lioLoopWrite (s : State) (n v : Nat) : State :=
  let l := mget s.lio.loopW n []
  { s with lio := { s.lio with loopW := mput [] s.lio.loopW n (((now s, v) :: l).take 4) } }

/-- Loop-owned local outputs at a 62.5 µs update instant: the latest value written at least 2 µs before (R205). -/
def execLocalAoUpdate (s : State) : Res :=
  if !inRun s .lio then .next s
  else
    .next (forEach s.lio.loopW s (fun s x =>
      match x.2.find? (fun w => decide (w.1 + 2000 ≤ now s)) with
      | none => s
      | some w =>
        let c := getChan s x.1
        if c.latched.src ≠ 2 ∨ c.latched.ownKind ≠ 2 then s
        else
          let (r, s1) := launchVal (setChan s x.1 { c with outVal := w.2 }) x.1
          let s2 := setChan s1 x.1 { getChan s1 x.1 with outVal := c.outVal }
          match r with | some v => pointApply s2 c.latched.point v | none => s2))

/-! ## Supplies (R208) -/

/-- A supply switched on or off. -/
def vsSet (s : State) (v : Nat) (on : Bool) : State :=
  setF s LIO_VS_STAT_ON (setBits (getF s LIO_VS_STAT_ON) v 1 (b2n on))

/-- Supply `v` has stayed in current limit for 5 ms. -/
def execVsOverloadTrip (v : Nat) (s : State) : Res :=
  if v < 4 ∧ inRun s .lio ∧ bitOf (getF s LIO_VS_STAT_ON) v then
    let s1 := vsSet { s with lio := { s.lio with vsOff := mput none s.lio.vsOff v (some (now s)) } } v false
    let s2 := setF s1 LIO_VS_STAT_FAULT (getF s1 LIO_VS_STAT_FAULT ||| 2 ^ v)
    .next (latch (unitErrAt s2 .lio 0 0x0715 v []) .lio 0 4)
  else .next s

/-- A supply switched off by a fault is retried 1 s later. -/
def execVsRetry (v : Nat) (s : State) : Res :=
  match mget s.lio.vsOff v none with
  | none => .next s
  | some t =>
    if v < 4 ∧ inRun s .lio ∧ now s ≥ t + 1000000000 then
      .next (vsSet { s with lio := { s.lio with vsOff := mput none s.lio.vsOff v none } } v true)
    else .next s

/-! ## Digital output protection (Table LIO-3, R211) -/

/-- A protective switch-off of DO `n` with its diagnostic bit and code. -/
def doTrip (s : State) (n bit code : Nat) : State :=
  let s1 := setDo (doLatch s n bit) n { getDo s n with off := true, offAt := now s, zero := false }
  latch (unitErrAt (pulseDrop s1 n) .lio 0 code n []) .lio 0 1

/-- DO `n` has been in current limit for 2 ms. -/
def execDoOverload (n : Nat) (s : State) : Res :=
  if n < 16 ∧ doPin s n then .next (doTrip s n 1 0x0710) else .next s

/-- The switch of DO `n` is above 150 °C. -/
def execDoOvertemp (n : Nat) (s : State) : Res :=
  if n < 16 ∧ inRun s .lio then .next (doTrip s n 2 0x0711) else .next s

/-- An open load on DO `n` for 100 ms. -/
def execDoOpenLoad (n : Nat) (s : State) : Res :=
  if n < 16 ∧ inRun s .lio ∧ getB s LIO_DO_CFG_OL_EN 0 n ∧ !tpRouted s n then
    .next (unitErrAt (doLatch s n 4) .lio 0 0x0712 n [])
  else .next s

/-- External voltage on DO `n`: three consecutive readbacks of 1 while it is commanded off. -/
def execDoExtv (n : Nat) (s : State) : Res :=
  if n < 16 ∧ inRun s .lio ∧ (getDo s n).extv ≥ 3 then .next (unitErrAt (doLatch s n 8) .lio 0 0x0713 n [])
  else .next s

/-- A DO with RETRY switches on again 1 s after its switch-off; `cool`: its junction is below 130 °C. -/
def execDoRetry (n : Nat) (cool : Bool) (s : State) : Res :=
  let v := getDo s n
  if n < 16 ∧ inRun s .lio ∧ v.off ∧ getB s LIO_DO_CFG_RETRY 0 n ∧ doCmd s n ∧ cool ∧ now s ≥ v.offAt + 1000000000 then
    .next (setDo s n { v with off := false, zero := false })
  else .next s

/-! ## Output watchdogs (R215, R216) -/

/-- The channel, if any, of a watched output: a DO or AO owned by a task class or a loop context. -/
def wdChan (s : State) (k : Nat) : Option ChEntry :=
  let p := if k < 16 then 0x20 + k else 0x40 + (k - 16)
  match localOut s p with
  | none => none
  | some n =>
    let e := (getChan s n).latched
    if (e.ownKind = 0 ∨ e.ownKind = 2) ∧ !(k < 16 && tpRouted s k) then some e else none

/-- The sample period of a loop context in ns (L_CFG.TL in units of 62.5 µs, R273). -/
def loopTl (s : State) (c : Nat) : Nat := getF s LOOP_L_CFG_TL c * 62500

/-- The owner of an output is alive at a C0 output deadline. -/
def ownerAlive (s : State) (e : ChEntry) : Bool :=
  if e.ownKind = 0 then !getB s TSK_T_STAT_SKIPPING 0 (e.ownInst + 2)
  else match (mget s.loops e.ownInst {}).lastAt with
    | none => false
    | some t => decide (now s ≤ t + 2 * loopTl s e.ownInst)

/-- The AUX clock in ns, at its resolution of 1 µs: it divides the wellhead reference as TICK does and no step of the time
counter moves it (R32, R215). -/
def auxNs (s : State) : Nat := tickNs s / 1000 * 1000

/-- WD_TMO C0 cycles of an output (DO n: n, AO n: 16 + n), in ns. -/
def wdTmo (s : State) (k : Nat) : Nat :=
  (if k < 16 then getF s LIO_DO_CFG_WD_TMO 0 k else getF s LIO_AO_CFG_WD_TMO 0 (k - 16)) * period s 0

/-- The watchdog of an output is armed, and no retrigger has fallen in [r, r + WD_TMO × T_C0), which has passed (R10, R215). -/
def wdOver (s : State) (k : Nat) : Bool := (mget s.lio.wd k none).any (fun r => decide (r + wdTmo s k ≤ auxNs s))

/-- The watchdog of an output expires: its safe state stands until the next restart (R216). -/
def wdExpire (s : State) (k : Nat) : State :=
  let s1 := { s with lio := { s.lio with wd := mput none s.lio.wd k none } }
  let s2 := if k < 16 then setF s1 LIO_WD_STAT_DO (getF s1 LIO_WD_STAT_DO ||| 2 ^ k)
            else setF s1 LIO_WD_STAT_AO (getF s1 LIO_WD_STAT_AO ||| 2 ^ (k - 16))
  latch (unitErrAt (if k < 16 then pulseDrop s2 k else s2) .lio 0 0x0717 k []) .lio 0 512

/-- Armed watchdogs are retriggered at a C0 output deadline; one whose window has passed expires first. -/
def wdTrigger (s : State) : State :=
  forEach (List.range 20) s (fun s k =>
    if wdOver s k then wdExpire s k
    else
      match wdChan s k with
      | none => s
      | some e =>
        if (mget s.lio.wd k none).isSome && ownerAlive s e then
          { s with lio := { s.lio with wd := mput none s.lio.wd k (some (auxNs s)) } }
        else s)

/-- Watchdogs of the outputs of an owner are armed: at the first output close of a class, or the first sample of a
context, after a restart. -/
def wdArm (s : State) (kind inst : Nat) : State :=
  forEach (List.range 20) s (fun s k =>
    match wdChan s k with
    | none => s
    | some e =>
      let exp := if k < 16 then bitOf (getF s LIO_WD_STAT_DO) k else bitOf (getF s LIO_WD_STAT_AO) (k - 16)
      if e.ownKind = kind ∧ e.ownInst = inst ∧ (mget s.lio.wd k none).isNone ∧ !exp then
        { s with lio := { s.lio with wd := mput none s.lio.wd k (some (auxNs s)) } }
      else s)

/-- A restart of the program ends the safe states and disarms the watchdogs (R216). -/
def wdRestart (s : State) : State :=
  setF (setF { s with lio := { s.lio with wd := [] } } LIO_WD_STAT_DO 0) LIO_WD_STAT_AO 0

/-- The watchdog of an output (DO n: n, AO n: 16 + n) expires when no retrigger has come for WD_TMO C0 cycles. -/
def execWdExpired (k : Nat) (s : State) : Res := .next (if k < 20 && wdOver s k then wdExpire s k else s)

/-! ## Analogue inputs (R219, R220) -/

/-- T_AI of a RATE code in ns (Table LIO-5). -/
def tAi (rate : Nat) : Nat :=
  match rate with
  | 0 => 62500 | 1 => 125000 | 2 => 250000 | 3 => 500000 | 4 => 1000000 | 5 => 2000000 | 6 => 2500000 | 7 => 5000000
  | 8 => 10000000 | 9 => 20000000 | 10 => 25000000 | 11 => 50000000 | _ => 100000000

/-- T_AI of channel `n`. -/
def aiPeriod (s : State) (n : Nat) : Nat := tAi (getF s LIO_AI_CFG_RATE 0 n)

/-- The result of AI `n` for its latest conversion instant is complete: a calibrated 24-bit code (R219, R220). -/
def execAiConversion (n : Nat) (code : Int) (s : State) : Res :=
  if n ≥ 16 ∨ !inRun s .lio ∨ now s < 15000 then .next s
  else
    let t := aiPeriod s n
    let tc := (now s - 15000) / t * t
    let v := getAi s n
    let c := clampI (-8388608) 8388607 code
    let watch := getF s LIO_AI_CFG_RANGE 0 n = 3 ∧ getB s LIO_AI_CFG_WB_EN 0 n
    let nLo := if watch ∧ c * 20 * 10 < 7864320 * 36 then sat 4 (v.nLo + 1) else 0
    let nHi := if watch ∧ c * 20 > 7864320 * 21 then sat 4 (v.nHi + 1) else 0
    let was := getB s LIO_AI_STAT_WB 0 n
    let s1 := setAi s n { v with res := ((tc, c) :: v.res).take 40, nLo := nLo, nHi := nHi, hi := decide (nHi ≥ 4) }
    let s2 := setB s1 LIO_AI_STAT_WB (decide (nLo ≥ 4)) 0 n
    .next (if nLo ≥ 4 ∧ !was then latch s2 .lio 0 32 else s2)

/-- A current above 25 mA for 1 ms on AI `n` opens its shunt switch; only the current ranges have one. -/
def execAiOverload (n : Nat) (s : State) : Res :=
  if n < 16 ∧ inRun s .lio ∧ getF s LIO_AI_CFG_RANGE 0 n ≥ 2 then
    let s1 := setF (setAi s n { getAi s n with shunt := some (now s) }) LIO_AI_STAT_OVL 1 0 n
    .next (latch (unitErrAt s1 .lio 0 0x0718 n []) .lio 0 32)
  else .next s

/-- The open shunt switch of AI `n` is closed again after 1 s to test; `still`: the current is still above 25 mA. -/
def execAiShuntRetest (n : Nat) (still : Bool) (s : State) : Res :=
  match (getAi s n).shunt with
  | none => .next s
  | some t =>
    if n < 16 ∧ inRun s .lio ∧ now s ≥ t + 1000000000 then
      .next (setAi s n { getAi s n with shunt := if still then some (now s) else none })
    else .next s

/-! ## The rotating spare (R221 to R223) -/

/-- The converter that serves channel `k`. -/
def convOf (s : State) (k : Nat) : Nat := getF s LIO_AI_STAT_CONV 0 k

/-- No spare remains: rotation stops. -/
def noSpare (s : State) : State := latch (unitErr (setF s LIO_ROT_STAT_SPARE 31) .lio 0 0x071C) .lio 0 256

/-- The converter that serves no channel and is not retired; 31 where there is none. -/
def spareFree (s : State) : Nat :=
  ((List.range 17).find? (fun c => !bitOf (getF s LIO_CONV_RET_RET) c && !(List.range 16).any (fun k => convOf s k == c))).getD 31

/-- The converters after a start with retirements: a channel whose own converter is retired is served by the converter that
is free, or stays at DEV_FAULT where none is; what is free then is the spare (R223; DESIGN CHOICE, log entry 109). -/
def convAssign (s : State) : State :=
  let s1 := forEach (List.range 16) s (fun s k =>
    let c := spareFree s
    if !bitOf (getF s LIO_CONV_RET_RET) (convOf s k) then s
    else if c < 31 then setF s LIO_AI_STAT_CONV c 0 k
    else setAi s k { getAi s k with dead := true })
  setF s1 LIO_ROT_STAT_SPARE (spareFree s1)

/-- A converter is retired (R223). -/
def retire (s : State) (c : Nat) : State :=
  let m := getF s LIO_CONV_RET_RET ||| 2 ^ c
  let n := ((List.range 17).filter (fun i => bitOf m i)).length
  let s1 := setF (setF s LIO_CONV_RET_RET m) LIO_ROT_STAT_RETIRED n
  let s2 := latch (unitErrAt { s1 with mram := { s1.mram with convRet := m } } .lio 0 0x071B c []) .lio 0 128
  if getF s2 LIO_ROT_STAT_SPARE = c then noSpare s2 else s2

/-- No step is in progress. -/
def rotIdle (s : State) : State := setF (setF s LIO_ROT_STAT_PHASE 0) LIO_ROT_STAT_CHAN 31

/-- The channel whose converter has the oldest calibration, the lowest on a tie. -/
def oldestChan (s : State) : Nat :=
  (List.range 16).foldl (fun b k => if (getCv s (convOf s k)).calAt < (getCv s (convOf s b)).calAt then k else b) 0

/-- A rotation step starts at an instant k × STEP: the spare is calibrated. -/
def execRotationStep (s : State) : Res :=
  if !inRun s .lio ∨ getF s LIO_ROT_STAT_SPARE ≥ 17 ∨ getF s LIO_ROT_STAT_PHASE ≠ 0 ∨
      !reaches s (getF s LIO_ROT_CFG_STEP * 1000000000) 0 then .next s
  else
    let s1 := { s with lio := { s.lio with stepAt := now s } }
    .next (setF (setF s1 LIO_ROT_STAT_CHAN (oldestChan s)) LIO_ROT_STAT_PHASE 1)

/-- The calibration of the spare ends after 40 ms: offset in ppm of full scale, gain error in ppm. -/
def execRotationCalDone (off gain : Int) (s : State) : Res :=
  if !inRun s .lio ∨ getF s LIO_ROT_STAT_PHASE ≠ 1 ∨ now s < s.lio.stepAt + 40000000 then .next s
  else
    let c := getF s LIO_ROT_STAT_SPARE
    let v := getCv s c
    if off.natAbs > 1000 ∨ gain.natAbs > 5000 then
      let s1 := rotIdle (setCv { s with lio := { s.lio with prevRef := none } } c { v with calFail := v.calFail + 1 })
      .next (if v.calFail + 1 ≥ 2 then retire s1 c else s1)
    else .next (setF (setCv { s with lio := { s.lio with ovAt := now s } } c { v with calAt := now s }) LIO_ROT_STAT_PHASE 2)

/-- The result that ends the overlap of channel `k` is complete: the second conversion after the connection is discarded as
the first, and N_OV follow (R221). -/
def overlapOver (s : State) (k : Nat) : Bool :=
  let t := aiPeriod s k
  decide ((s.lio.ovAt / t + 2 + getF s LIO_ROT_CFG_N_OV) * t + 15000 ≤ now s)

/-- Converter `c` takes over channel `k` (R221). -/
def handOver (s : State) (k c : Nat) : State :=
  setCv (setF s LIO_AI_STAT_CONV c 0 k) c { getCv s c with calFail := 0, refused := 0 }

/-- The overlap of a step has ended with a mean difference of `d` codes: the hand-over is made or refused. -/
def execRotationHandover (d : Int) (s : State) : Res :=
  let k := getF s LIO_ROT_STAT_CHAN
  let c := getF s LIO_ROT_STAT_SPARE
  if !inRun s .lio ∨ getF s LIO_ROT_STAT_PHASE ≠ 2 ∨ k ≥ 16 ∨ !overlapOver s k then .next s
  else
    let s1 := setF (rotIdle s) LIO_AI_STAT_DELTA (satI 16 d) 0 k
    let old := convOf s k
    if d.natAbs > getF s LIO_ROT_TOL_TOL_MAX then
      let s2 := latch (unitErrAt (setF s1 LIO_AI_STAT_DRIFT 1 0 k) .lio 0 0x071A k []) .lio 0 64
      let v := getCv s2 c
      let s3 := setCv { s2 with lio := { s2.lio with prevRef := some (k, c) } } c { v with refused := v.refused + 1 }
      let again := match s.lio.prevRef with | some (k', c') => k' == k && c' != c | none => false
      if again then .next (noSpare (retire (setF s3 LIO_AI_STAT_CONV c 0 k) old))
      else if v.refused + 1 ≥ 2 then .next (retire s3 c)
      else .next s3
    else
      let s2 := { s1 with lio := { s1.lio with prevRef := none } }
      let s3 := if d.natAbs > getF s LIO_ROT_TOL_TOL_HO then
          latch (unitErrAt (setF s2 LIO_AI_STAT_DRIFT 1 0 k) .lio 0 0x0719 k []) .lio 0 64 else s2
      .next (setF (handOver s3 k c) LIO_ROT_STAT_SPARE old)

/-- Converter `c` fails its self-check while it serves a channel (R222). -/
def execConverterSelfcheckFail (c : Nat) (s : State) : Res :=
  match (List.range 16).find? (fun k => convOf s k == c && !(getAi s k).dead) with
  | none => .next s
  | some k =>
    if !inRun s .lio then .next s
    else
      let sp := getF s LIO_ROT_STAT_SPARE
      let s1 := retire s c
      if sp < 17 then
        let s2 := rotIdle { s1 with lio := { s1.lio with prevRef := none } }
        let s3 := setAi (handOver s2 k sp) k { getAi s2 k with deadFrom := now s, deadTo := now s + 2 * aiPeriod s k }
        .next (noSpare s3)
      else .next (setAi s1 k { getAi s1 k with dead := true })

/-! ## Analogue output readback (R226) -/

/-- AO `n` is read back: voltage in µV and current in nA. -/
def execAoReadback (n : Nat) (uv na : Int) (s : State) : Res :=
  if n ≥ 4 ∨ !inRun s .lio then .next s
  else
    let v := getAo s n
    let cur := getB s LIO_AO_CFG_MODE 0 n
    let code := aoPin s n
    let short := !cur && decide (na.natAbs > 20000000)
    let vdev := !cur && decide ((uv * 3 - code * 1000).natAbs > 300000)
    let open_ := cur && (decide ((na - code * 400).natAbs > 500000) || decide (uv > 13000000))
    let cnt (b : Bool) (k : Nat) : Nat := if b then sat 3 (k + 1) else 0
    let v1 := { v with rb := ((now s, uv, na) :: v.rb).take 40, nShort := cnt short v.nShort, nDev := cnt vdev v.nDev,
                       nOpen := cnt open_ v.nOpen, good := cnt (!short && !vdev && !open_) v.good }
    let bad := v1.nShort ≥ 3 ∨ v1.nDev ≥ 3
    let v2 := { v1 with dev := if v1.good ≥ 3 then false else v1.dev || decide bad,
                        wire := if v1.good ≥ 3 then false else v1.wire || decide (v1.nOpen ≥ 3) }
    let m := (if v1.nDev ≥ 3 then 2 else 0) + (if v1.nOpen ≥ 3 then 4 else 0) + (if v1.nShort ≥ 3 then 8 else 0)
    let s1 := setF (setAo s n v2) LIO_AO_STAT_DIAG (getF s LIO_AO_STAT_DIAG ||| m * 2 ^ (4 * n))
    .next (if (v2.dev && !v.dev) || (v2.wire && !v.wire) then latch (unitErrAt s1 .lio 0 0x071E n []) .lio 0 1024 else s1)

/-! ## RUN, STOP (R213, R218, R219, R224) -/

/-- The checks of a RUN request of LIO beside those of the channel table; the code that refuses it. -/
def lioRunCheck (s : State) : Option Nat :=
  let tmax := (List.range 16).foldl (fun m n => max m (aiPeriod s n)) 0
  let im := safImg s
  if (List.range 16).any (fun n => decide (getF s LIO_AI_CFG_RATE 0 n ≥ 13)) ∨
      (List.range 32).any (fun n => decide (getF s LIO_DI_CFG_VS 0 n ≥ 5)) ∨
      (List.range 20).any (fun k =>
        let w := if k < 16 then getF s LIO_DO_CFG_WD_TMO 0 k else getF s LIO_AO_CFG_WD_TMO 0 (k - 16)
        decide (w = 0) || decide (w > 100)) then some 0x0701
  else if getF s LIO_ROT_CFG_STEP * 1000000000 < 40000000 + (2 + getF s LIO_ROT_CFG_N_OV) * tmax + 10000000 then some 0x071D
  else if im.map.any (fun m => m.2.kind == 5 &&
      (!getB s LIO_DO_CFG_TP_EN 0 (2 * m.2.point) || !getB s LIO_DO_CFG_TP_EN 0 (2 * m.2.point + 1))) then some 0x071F
  else none

/-- A RUN request is accepted: all 17 converters are calibrated, in 40 ms. -/
def lioRunStart (s : State) : State := { s with lio := { s.lio with calEnd := now s + 40000000 } }

/-- The sequencer enters RUN: supplies on as configured, converters freshly calibrated, points without history; a channel
left without a converter stays so until the module is repaired (R223). -/
def lioEnterRun (s : State) : State :=
  let s1 := { s with lio := { s.lio with ais := s.lio.ais.filterMap (fun x =>
                                           if x.2.dead then some (x.1, { dead := true }) else none),
                                         dos := s.lio.dos.map (fun x => (x.1, { x.2 with nom := none })),
                                         hist := [], pulse := none, taken := [], vsOff := [], prevRef := none } }
  let s2 := forEach (List.range 4) s1 (fun s v => vsSet s v (getB s LIO_VS_CFG_EN 0 v))
  forEach (List.range 17) (rotIdle s2) (fun s c => setCv s c { getCv s c with calAt := now s })

/-- The sequencer leaves RUN: supplies off, outputs de-energised by Table LIO-4, rotation and pulses ended. -/
def lioLeaveRun (s : State) : State :=
  rotIdle (setF { s with lio := { s.lio with pulse := none, taken := [], pairNext := [], loopW := [], pairVal := [] } }
    LIO_VS_STAT_ON 0)

end Sys2Proof.Machine
end

