-- ==== Sys2Proof/Machine/Safety.lean ====
section
/-!
DEFINITION. The safety cycle: input close, release, t_end, output deadline, resets, engine trips, and entry to RUN
(R33, R232 to R268).
-/

namespace Sys2Proof.Machine

open R

/-- The safety engine works: SAF in RUN on the module whose output path is enabled (R264). -/
def safActive (s : State) : Bool := inRun s .saf && outPath s

/-! ## Private stores (R228, R229) -/

/-- Where the state keeps an address of a safety core: SDATA, SKEEP, DEMAND and cross-check area; none outside. -/
def safAddr (c a : Nat) : Option Nat :=
  let base := 0x100000000 + (c - 6) * 0x20000
  if a < 0x1F000 then some (base + a)
  else if 0x00800000 ≤ a ∧ a < 0x00801000 then some (base + 0x1F000 + (a - 0x00800000))
  else if 0x01000000 ≤ a ∧ a < 0x01000100 then some (0x100040000 + (c - 6) * 0x100 + (a - 0x01000000))
  else none

/-- The private stores cleared and initialised from the core images. -/
def safStores (s : State) : State :=
  let s0 := { s with mem := s.mem.filter (fun p => !(decide (0x100000000 ≤ p.1) && decide (p.1 < 0x100041000))) }
  let load (s : State) (c base : Nat) (l : List (Nat × Byte)) : State :=
    forEach l s (fun s p => match safAddr c (base + p.1) with | some a => wrB s a p.2 | none => s)
  let s1 := load (load s0 6 0 s.saf.img.imgA.sdata) 6 0x00800000 s.saf.img.imgA.skeep
  load (load s1 7 0 s.saf.img.imgB.sdata) 7 0x00800000 s.saf.img.imgB.skeep

/-- The DEMAND word of a core (R246). -/
def demand (s : State) (c : Nat) : Nat := rdN s (0x100040000 + (c - 6) * 0x100) 4

/-! ## S input close (R241, R242) -/

/-- Counters of SAF.BC_ERR by failed check. -/
def bcCount (s : State) (k : Nat) : State :=
  match k with
  | 1 => incF s SAF_BC_ERR_MISSING
  | 2 => incF s SAF_BC_ERR_CRC
  | 3 => incF s SAF_BC_ERR_ADDR
  | 4 => incF s SAF_BC_ERR_SEQ
  | _ => s

/-- Passivation of a station at the module, with its bit in SAF.PASSi. -/
def setPass (s : State) (i : Nat) (on : Bool) : State :=
  let v := getSs s i
  let w := getF s SAF_PASS_PASS 0 (i / 32)
  let s1 := setF (setSs s i { v with pass := on }) SAF_PASS_PASS (setBits w (i % 32) 1 (b2n on)) 0 (i / 32)
  if on ∧ !v.pass then latch (unitErrAt s1 .saf 0 0x081B i []) .saf 0 16 else s1

/-- One safety station at the S input close of the cycle that starts at `t0`. -/
def safStation (s : State) (i t0 : Nat) : State :=
  let c := match (getSta s i).got with | some f => f.cont | none => none
  let k := contCheck s i t0 c
  let v := getSs s i
  if k = 0 then
    let b := c.getD []
    let f (o n : Nat) : Nat := leNat ((b.drop o).take n)
    let fl := f 7 1
    let inOnly := !(s.saf.img.map.any (fun m => m.2.kind == 1 && m.2.point == i))
    let s1 := setSs s i { v with tAcc := some (f 8 8), flags := fl, data := (b.drop 16).take (f 6 1),
                                 again := if inOnly && v.back && bitOf fl 1 then some t0 else v.again, back := false }
    if v.pass ∧ bitOf fl 0 then setPass s1 i false else s1
  else
    let s1 := bcCount (setSs s i { v with back := true }) k
    let smp := t0 - s.tl.tSl
    let alive := match v.tAcc with
      | none => false
      | some a => decide (a ≤ smp) && decide (smp < a + stGet s i 0x1C 4 * 1000)
    if alive then s1 else setPass s1 i true

/-- Containers checked, passivation judged, reset inputs followed and the input image built (R241, R242, R258). -/
def safInputClose (s : State) (t0 : Nat) : State :=
  if !safActive s then s
  else
    let t := t0 - s.tl.tSl
    let s1 := forEach (safStations s.saf.img) s (fun s i => safStation s i t0)
    let ents := s1.saf.img.map.filter (fun m => m.2.kind != 1 && m.2.kind != 5)
    let img : NMap (Nat × Nat) := ents.foldl (fun acc m => mput (0, 0) acc m.1 (safInVal s1 m.1 m.2 t)) []
    let s2 := { s1 with saf := { s1.saf with inAt := t0, inImg := img } }
    forEach ents s2 (fun s m =>
      if m.2.kind = 0 ∧ isReset s m.1 then
        let (v, st) := mget s.saf.inImg m.1 (0, 0)
        followReset s m.1 t (bitOf st 0) (v % 2 == 1)
      else s)

/-! ## Release and end of the safety task (R233, R234) -/

/-- The safety task released on a core: a fresh context at the image's entry point. -/
def safRelease (s : State) (c entry : Nat) : State :=
  let k := getCore s c
  setCore s c { k with ctx := { pc := entry }, mode := .ready, le := { k.le with valid := false, ovr := false } }

/-- The safety task is released on SC-A and SC-B at the S cycle start (R233), but in a cycle whose input close a forward step of
the time passed (R383). -/
def safTaskRelease (s : State) : State :=
  if !safActive s then setF s SAF_ENG_ACTIVE 0
  else if lastStart s 3 ≤ s.time.skipTo ∧ s.time.skipTo ≠ 0 then s
  else
    let s1 := safRelease (safRelease s 6 s.saf.img.imgA.entry) 7 s.saf.img.imgB.entry
    let s2 := { s1 with saf := { s1.saf with hold := false, busyA := true, busyB := true, pend := true, relAt := s1.rcNs,
                                             cycAt := lastStart s1 3 } }
    wrapF (setF s2 SAF_ENG_ACTIVE 1) SAF_CYC_COUNT

/-- The safety task of a core ends with its execution time (R231, Table of SAF.EXEC). -/
def safTaskEnd (s : State) (c : Nat) : State :=
  let ns := sat 4294967295 ((getCore s c).ctx.cyc * 5 / 2)
  let s1 := setF s (if c = 6 then SAF_EXEC_A_NS else SAF_EXEC_B_NS) ns
  let s2 := maxF s1 SAF_EXMAX_MAX ns
  { s2 with saf := if c = 6 then { s2.saf with busyA := false } else { s2.saf with busyB := false } }

/-! ## t_end (R235, R245 to R247, R255, R259) -/

/-- The output block of a core in the declared layout (R235, R268). -/
def outBlock (s : State) (c : Nat) : List Byte :=
  let im := s.saf.img
  let m := if c = 6 then s.saf.outA else s.saf.outB
  (im.imgA.decl.flatMap (fun k =>
    let ty := match mapAt s k with | some e => safImgType e.typ | none => 0
    leBytes (tySize ty) (mget m k 0))) ++ rdBs s (0x100040000 + (c - 6) * 0x100) (4 + im.imgA.xlen)

/-- The offset of the first byte in which two blocks differ. -/
def firstDiff (a b : List Byte) : Option Nat := (List.range a.length).find? (fun i => a[i]? != b[i]?)

/-- The speed of a group in the input image: its magnitude, none where it is not valid. -/
def grpSpeed (s : State) (c : Ss1Cfg) : Option Nat :=
  let (v, st) := mget s.saf.inImg c.speed (0, 0)
  if !bitOf st 0 then none
  else match mapAt s c.speed with
    | some m => some (sint (tyBits (safImgType m.typ)) v).natAbs
    | none => none

/-- The SS1 monitor (R255): the cause it raises, and whether the group goes to STO. -/
def ss1Monitor (s : State) (g dl : Nat) (c : Ss1Cfg) : Nat × Bool :=
  let x := getGrp s g
  let t : Int := ((s.saf.inAt - s.tl.tSl : Nat) : Int) - (x.tss1 : Int)
  match grpSpeed s c with
  | none => (0x10, true)
  | some v =>
    let lim : Int := max ((x.v0 : Int) - (c.aMon : Int) * t / 1000000000) 0 + (c.vTol : Int)
    if (v : Int) > lim then (0x08, true)
    else if v ≤ c.vSs then (0, true)
    else if x.tss1 + c.tMax * 1000000 ≤ dl then (0, true)
    else (0, false)

/-- The first loop context that requests SS1 for a group (cause 2). -/
def loopReq (s : State) (g : Nat) : Option Nat :=
  (List.range 256).find? (fun c =>
    getB s LOOP_L_STAT_SS1_REQ c && getB s LOOP_L_CFG_SAFETY c && getF s LOOP_L_CFG_GROUP c == g)

/-- The first DO of a pair of a group with TPF or EXTV latched (cause 5). -/
def pairReq (s : State) (g : Nat) : Option Nat :=
  ((grpPairs s g).flatMap (fun i => [2 * i, 2 * i + 1])).find? (fun n => bitOf (doDiag s n) 3)

/-- The first station of a group that is passivated, or reports PASSIVE under R243 (cause 6). -/
def passReq (s : State) (g : Nat) : Option Nat :=
  (grpStations s g).find? (fun i =>
    let v := getSs s i
    v.pass || (decide (gCode s g ≤ 1) && bitOf v.flags 1 &&
      (match (getGrp s g).reintAt, v.tAcc with | some r, some a => decide (a ≥ r) | _, _ => false)))

/-- The condition causes of a group and the instance of the lowest (Table SAF-7). -/
def condCauses (s : State) (g : Nat) : Nat × Nat :=
  let d := demand s 6
  let l := loopReq s g
  let p := pairReq s g
  let q := passReq s g
  let m := b2n (bitOf d g) + 2 * b2n (bitOf d (16 + g)) + 4 * b2n l.isSome + 32 * b2n p.isSome + 64 * b2n q.isSome
  (m, if m % 4 ≠ 0 then 0 else if l.isSome then l.getD 0 else if p.isSome then p.getD 0 else q.getD 0)

/-- A reset pulse of an input is accepted for a group (R259). -/
def resetOk (s : State) (g r f : Nat) : Bool :=
  let c := grpCfg s g
  let x := getGrp s g
  decide (c.tMin * 1000000 ≤ f - r) && decide (f - r < c.tMax * 1000000) && decide (x.rwAt ≤ r) && gCode s g == 3 &&
  !bitOf (getF s SAF_RST_STUCK) g && decide (x.clearAt ≤ r)

/-- The pulses of reset input `k` in the input image are judged. Answers the groups for which one was accepted. -/
def judgeResets (s : State) (k : Nat) : State × List Nat :=
  let t := s.saf.inAt - s.tl.tSl
  let v := getIn s k
  let mine := v.pulses.filter (fun p => decide (p.2 ≤ t))
  let s1 := if mine.isEmpty then s else setIn s k { v with pulses := v.pulses.filter (fun p => !decide (p.2 ≤ t)) }
  mine.foldl (fun (acc : State × List Nat) p =>
    let ok := (resetGroups acc.1 k).filter (fun g => resetOk acc.1 g p.1 p.2)
    if ok.isEmpty then
      (latch (unitErrAt (incF acc.1 SAF_RST_REF) .saf 0 0x081A k []) .saf 0 128, acc.2)
    else (latch (incF acc.1 SAF_RST_ACC 0 0 ok.length) .saf 0 8, acc.2 ++ ok)) (s1, [])

/-- The group state that Table SAF-6 decides, with the further cause 4 of an SS1 start without a valid speed. -/
def nextState (s : State) (g mask : Nat) (goSto accepted : Bool) : Nat × Nat :=
  let sto := mask &&& 0x1F9
  let ss1 := mask &&& 0x006
  let start : Nat × Nat :=
    match (grpCfg s g).ss1 with
    | none => (2, 0)
    | some c => if (grpSpeed s c).isSome then (1, 0) else (2, 0x10)
  match gCode s g with
  | 0 => if sto ≠ 0 then (2, 0) else if ss1 ≠ 0 then start else (0, 0)
  | 1 => if goSto ∨ sto ≠ 0 then (2, 0) else (1, 0)
  | 2 => if mask = 0 then (3, 0) else (2, 0)
  | _ => if sto ≠ 0 then (2, 0) else if ss1 ≠ 0 then start else if accepted then (0, 0) else (3, 0)

/-- The listed profile channels of a group. -/
def grpProfs (s : State) (g : Nat) : List Nat :=
  match (grpCfg s g).ss1 with | some c => c.pg.filter (fun p => decide (p < 128)) | none => []

/-- At the decision that starts SS1 at `dl`, each listed profile channel gets a STOP and is locked: its waiting MOVE and
LIMITS calls end SS1_LOCK (R254, R308). -/
def ss1Stops (s : State) (g dl : Nat) : State :=
  forEach (grpProfs s g) s (fun s p =>
    let v := mget s.gens p {}
    let ends := (v.wait.map Prod.snd).filter (fun c => decide (c.fn ≤ 1))
    let s1 := { s with gens := mput {} s.gens p { v with ss1 := some dl, lock := true,
                                                          wait := v.wait.filter (fun w => decide (w.2.fn > 1)) } }
    completeAll (if ends.isEmpty then s1 else latch s1 .profCh p 16) ends 0x12)

/-- A group has reached STO: its profile channels are free again, unless another SS1 phase lists them. -/
def ss1Frees (s : State) (g : Nat) : State :=
  forEach (grpProfs s g) s (fun s p =>
    if (grpList s).any (fun h => h != g && (gCode s h == 1 || (getGrp s h).next == some 1) && (grpProfs s h).contains p) then s
    else { s with gens := mput {} s.gens p { mget s.gens p {} with lock := false } })

/-- A group is evaluated at t_end of the cycle whose output deadline is `dl` (R245 to R247, R254, R255). -/
def evalGroup (s : State) (g dl : Nat) (accepted : Bool) : State :=
  let (cm, inst) := condCauses s g
  let (mm, go) := match gCode s g, (grpCfg s g).ss1 with | 1, some c => ss1Monitor s g dl c | _, _ => (0, false)
  let x := getGrp s g
  let mask := cm ||| mm ||| x.ev
  let (nx, more) := nextState s g mask go accepted
  let had := getF s SAF_GCAUSE_CAUSES 0 g
  let s1 := addCause s g (mask ||| more) (if cm = 0 then 0 else inst)
  let s2 := if bitOf mask 3 then unitErrAt s1 .saf 0 0x081C g [] else s1
  let s3 := if bitOf (mask ||| more) 4 then unitErrAt s2 .saf 0 0x081D g [] else s2
  let s4 := if bitOf mask 5 ∧ !bitOf had 5 then unitErrAt s3 .saf 0 0x081E g [] else s3
  let v := match (grpCfg s g).ss1 with | some c => grpSpeed s c | none => none
  let s5 := setGrp s4 g { x with next := some nx, ev := 0, v0 := if nx = 1 ∧ gCode s g ≠ 1 then v.getD 0 else x.v0 }
  let s5 := if nx = 1 ∧ gCode s g ≠ 1 then ss1Stops s5 g dl else s5
  if nx = 2 ∧ gCode s g ≠ 2 ∧ (bitOf (mask ||| more) 3 ∨ bitOf (mask ||| more) 4) then latch s5 .saf 0 64 else s5

/-- The SSTATE frame of the decided states (R265); out of RUN every group is or behaves as in STO (R261, R263). -/
def sstate (s : State) (dl : Nat) : SstFrame :=
  (grpList s).foldl (fun f g =>
    let x := getGrp s g
    let c := if inRun s .saf then x.next.getD (gCode s g) else gShown s g
    { f with gst := mput 4 f.gst g c, first := mput 0 f.first g (getF s SAF_GCAUSE_FIRST 0 g),
             tss1 := if c = 1 then mput 0 f.tss1 g (if gCode s g = 1 then x.tss1 else dl) else f.tss1,
             v0 := if c = 1 then mput 0 f.v0 g x.v0 else f.v0 }) { stamp := dl }

/-- What the engine judges at t_end of the running cycle, whose output deadline is `dl`: both tasks ended, the blocks
compared, resets and groups evaluated (R234, R235, R245). What is sent is the compared block: the declared entries (R248). -/
def tendJudge (s : State) (dl : Nat) : State :=
  if s.saf.busyA ∨ s.saf.busyB then engineTrip s 0x13 0
  else
    match firstDiff (outBlock s 6) (outBlock s 7) with
    | some o => engineTrip s 0x10 o
    | none =>
      let s1 := { s with saf := { s.saf with pend := false, blk := s.saf.outA.filter (fun x => s.saf.img.imgA.decl.contains x.1) } }
      let resets := (grpList s1).map (fun g => (grpCfg s1 g).reset) |>.foldl
        (fun l k => if l.contains k then l else l ++ [k]) ([] : List Nat)
      let (s2, acc) := resets.foldl (fun (a : State × List Nat) k =>
        let (s', l) := judgeResets a.1 k
        (s', a.2 ++ l)) (s1, [])
      forEach (grpList s2) s2 (fun s g => evalGroup s g dl (acc.contains g))

/-- t_end of a safety cycle. The owner's SSTATE leaves in every S cycle, also in one that trips and while SAF is not in RUN, tagged
with the S output deadline (R265, Table PAIR-5). -/
def safTend (s : State) : State :=
  if !outPath s ∨ inRun s .saf && !s.saf.pend then s
  else
    let dl := (if s.saf.pend then s.saf.cycAt else lastStart s 3) + period s 3 - s.tl.tGuard
    let s1 := if inRun s .saf then tendJudge s dl else s
    if role s1 = 1 then
      let f := sstate s1 dl
      syncSend1 { s1 with saf := { s1.saf with sst := some f }, pair := { s1.pair with frames := [] } } 7 3 dl (.sstate f)
    else s1

/-! ## S output deadline (R233, R240, R243, R248, R254, R256) -/

/-- The state decided for a group takes effect at the launch of the output deadline before cycle start `t1`: its entry is
that deadline, t1 − t_guard (R245, R254, R259). -/
def groupEnter (s : State) (g t1 : Nat) : State :=
  let x := getGrp s g
  match x.next with
  | none => s
  | some c =>
    let dl := t1 - s.tl.tGuard
    let s1 := setGrp s g { x with next := none }
    if c = gCode s g then s1
    else
      let s2 := setGState s1 g c
      match c with
      | 0 =>
        let s3 := clearCause (setGrp s2 g { getGrp s2 g with runAt := dl, reintAt := some (t1 + s.tl.tAo) }) g
        forEach (grpStations s3 g) s3 (fun s i => setSs s i { getSs s i with reint := true })
      | 1 => latch (setGrp s2 g { getGrp s2 g with tss1 := dl }) .saf 0 32
      | 2 => ss1Frees s2 g
      | _ => setGrp s2 g { getGrp s2 g with rwAt := dl }

/-- SDATA for a station: its output entries in their places (R248, R496). -/
def safData (s : State) (i : Nat) : List Byte :=
  let es := s.saf.img.map.filter (fun m => m.2.kind == 1 && m.2.point == i)
  es.foldl (fun d m =>
    let v := stageVal s m.2 (mget s.saf.blk m.1 0)
    if m.2.typ = 8 then putBytes d m.2.sbyte 1 (setBits (d.getD m.2.sbyte 0).toNat m.2.sbit 1 (v % 2))
    else putBytes d m.2.sbyte (rawSize m.2.typ) v) (List.replicate (contLen s.saf.img i true) 0)

/-- The containers launched before S cycle start `t1` carry REINT to a station: its group enters SAFE-RUN with them, or it is
without outputs and was accepted again in the cycle before theirs (R243). -/
def reintDue (s : State) (i t1 : Nat) : Bool :=
  (getSs s i).reint || (match (getSs s i).again with | some t0 => decide (t0 + 2 * period s 3 ≤ t1) | none => false)

/-- The container that the launch before S cycle start `t1` carries to a station (R240, R261). -/
def safContainer (s : State) (i t1 : Nat) : List Byte :=
  let on := inRun s .saf
  container (stGet s i 0x18 4) (t1 / period s 3 % 65536) (b2n on + 2 * b2n (on && reintDue s i t1)) t1
    (if on then safData s i else List.replicate (contLen s.saf.img i true) 0)

/-- The output deadline of the safety cycle that precedes cycle start `t1`: states in force, containers built where both
checkers are available (R261), OUT slots and pair values set. An engine restored at a takeover sends nothing before its first S
cycle start (R266; DEDUCED, log entry 153). -/
def safDeadline (s : State) (t1 : Nat) : State :=
  if !outPath s ∨ s.saf.hold then { s with saf := { s.saf with cont := [] } }
  else
    let s1 := if inRun s .saf then tripLevel (forEach (grpList s) s (fun s g => groupEnter s g t1)) else s
    let cont : NMap (List Byte) :=
      if s1.saf.chk then (safStations s1.saf.img).foldl (fun m i => mput [] m i (safContainer s1 i t1)) [] else []
    let s2 := { s1 with saf := { s1.saf with cont := cont } }
    let s3 := forEach (safStations s2.saf.img) s2 (fun s i =>
      if reintDue s i t1 ∧ inRun s .saf then setSs s i { getSs s i with reint := false, again := none } else s)
    forEach s3.saf.img.map s3 (fun s m =>
      if m.2.kind ≠ 1 ∧ m.2.kind ≠ 5 then s
      else
        let v := mget s.saf.blk m.1 0
        let s' := if m.2.chan < nChan s ∧ inRun s .saf then setChan s m.2.chan { getChan s m.2.chan with outVal := v } else s
        if m.2.kind = 5 then
          { s' with lio := { s'.lio with pairNext := mput (0, 0) s'.lio.pairNext m.2.point (t1 + s'.tl.tAo, stageVal s' m.2 v) } }
        else s')

/-! ## Events of the engine (R33, R236, R260, R261) -/

/-- Reset inputs that have been 1 for t_max, measured to their latest sample, latch STUCK_RESET for their groups (R260). -/
def execStuckReset (s : State) : Res :=
  if !inRun s .saf then .next s
  else
    .next (stuckLevel (forEach (grpList s) s (fun s g =>
      let c := grpCfg s g
      match (getIn s c.reset).rise with
      | none => s
      | some r =>
        if (getIn s c.reset).at_ ≥ r + c.tMax * 1000000 ∧ !bitOf (getF s SAF_RST_STUCK) g then
          unitErrAt (setF s SAF_RST_STUCK (getF s SAF_RST_STUCK ||| 2 ^ g)) .saf 0 0x0819 g []
        else s)))

/-- No release on a core for 2 × T_S, as the independent RC oscillator counts it: the core drops its enable and the engine
trips with CLOCK (R236). -/
def execReleaseWatchdogExpiry (core : Nat) (s : State) : Res :=
  if safActive s ∧ s.rcNs ≥ s.saf.relAt + 2 * period s 3 then
    .next (engineTrip (setF s (if core = 0 then SAF_ENG_EN_A else SAF_ENG_EN_B) 0) 0x16 0)
  else .next s

/-- The wellhead deviation of a 1 ms window, in 0.01 %: beyond ±2 % the engine trips (R33). -/
def execWellheadCheck (dev : Int) (s : State) : Res :=
  let s1 := setF s SAF_WELL_DEV (satI 16 dev)
  if dev.natAbs > 200 then .next (engineTrip s1 0x14 0) else .next s1

/-- An engine trip that the hardware detects: code byte 0x10 to 0x16 of Table SAF-12, and TRIP_INFO (R261). -/
def execEngineTrip (code info : Nat) (s : State) : Res :=
  if 0x10 ≤ code ∧ code ≤ 0x16 then .next (engineTrip s code (info % 2 ^ 32)) else .next s

/-! ## RUN and STOP of SAF (R262, R263) -/

/-- SAF enters RUN: the image in force, stores initialised, every group in STO with the event cause 8, which is present for
the cycle that begins (R245, R262). What GCAUSE has latched since a group last entered SAFE-RUN stays (R247). -/
def safEnterRun (s : State) : State :=
  let im := s.saf.loaded.getD s.saf.img
  let s1 := { s with saf := { img := im, rcd := s.saf.rcd } }
  let s2 := safStores (setF (setF s1 SAF_SIMG_ID_ID im.id) SAF_CYC_COUNT 0)
  let s3 := setF (setF (setF (setF s2 SAF_GSTATE_TG 0xFFFFFFFF) SAF_GPHASE_SS1 0) SAF_GPHASE_STO 0) SAF_RST_STUCK 0
  let s4 := forEach (grpList s3) s3 (fun s g =>
    addCause (setGState (setGrp s g { ev := 0x100 }) g 2) g 0x100 0)
  let s5 := forEach (safStations im) s4 (fun s i => setPass s i true)
  let s6 := setF (setF s5 SAF_ENG_EN_A 1) SAF_ENG_EN_B 1
  stuckLevel (level (tripLevel { s6 with saf := { s6.saf with relAt := s6.rcNs } }) .saf 0 1 false)

/-- SAF leaves RUN: enables dropped, no safety task. -/
def safLeaveRun (s : State) : State :=
  let s1 := setF (setF (setF s SAF_ENG_EN_A 0) SAF_ENG_EN_B 0) SAF_ENG_ACTIVE 0
  unlockAll { s1 with saf := { s1.saf with busyA := false, busyB := false, pend := false } }

end Sys2Proof.Machine
end

