-- ==== Sys2Proof/Machine/Trace.lean ====
section
/-!
DEFINITION. The trace and capture unit: recording, triggers, the spill region, and the commands to it (R296 to R299).
-/

namespace Sys2Proof.Machine

open R

/-- ARM: the trace records until a trigger; in MODE continuous it records without end. -/
def trcArm (s : State) : State :=
  if !inRun s .trc then s
  else
    let s1 := { s with trc := { s.trc with prev := [] } }
    let st := if isTrace s ∧ getB s TRC_CFG_MODE then 4 else 1
    setF (setB (setF s1 TRC_STAT_STATE st) TRC_STAT_SPILLING (isTrace s && getB s TRC_CFG_SPILL_EN)) TRC_STAT_SPILL_FULL 0

/-- STOP: a recording or capture under way ends. -/
def trcStop (s : State) : State :=
  if inRun s .trc ∧ (trcState s = 1 ∨ trcState s = 2 ∨ trcState s = 4) then trcDone s else s

/-- A level crossing of trace channel `k` (R297): the previous value on one side of LEVEL, the present one on the other. -/
def crosses (s : State) (prev v : Nat) : Bool :=
  let l := getF s TRC_LEVEL_VAL
  match getF s TRC_CFG_TSRC with
  | 1 => flt f32 prev l && fle f32 l v
  | 2 => fle f32 l prev && flt f32 v l
  | _ => false

/-- One entry of the trace ring, copied to the spill region later when spilling (R297). -/
def trcEntry (s : State) (k t v : Nat) : State :=
  let w := getF s TRC_WR_IDX
  let e := t / 62500 % 2 ^ 28 + k * 2 ^ 28 + v * 2 ^ 32
  let s0 :=
    if trcState s = 1 ∧ getF s TRC_CFG_TCH = k ∧ mget s.trc.prev k 0 ≠ 0 ∧ crosses s (mget s.trc.prev k 0 - 1) v then trcFire s
    else s
  let was := trcState s
  let s1 := { s0 with trc := { s0.trc with
    ring := mput 0 s0.trc.ring w e, prev := mput 0 s0.trc.prev k (v + 1),
    pend := if getB s TRC_STAT_SPILLING then s0.trc.pend ++ [e] else s0.trc.pend } }
  let s2 := setF s1 TRC_WR_IDX ((w + 1) % ringLen)
  if was = 2 then
    let p := s2.trc.post - 1
    let s3 := { s2 with trc := { s2.trc with post := p } }
    if p = 0 then trcDone s3 else s3
  else s2

/-- The samples of one context, as node values SP, Y, E, P, I, D, FF, U, reach the trace or the capture (R297, R298). -/
def trcRecord (s : State) (c t : Nat) (vals : List Nat) : State :=
  if !inRun s .trc then s
  else if isTrace s then
    forEach (List.range 16) s (fun s k =>
      let st := trcState s
      if (st = 1 ∨ st = 2 ∨ st = 4) ∧ getB s TRC_CH_CFG_EN 0 k ∧ getF s TRC_CH_CFG_CTX 0 k = c then
        trcEntry s k t (vals.getD (getF s TRC_CH_CFG_NODE 0 k) 0)
      else s)
  else if trcState s ≠ 2 then s
  else
    let s1 := forEach (List.range 4) s (fun s j =>
      let n := mget s.trc.capN j 0
      if getB s TRC_CAP_CFG_EN 0 j ∧ getF s TRC_CAP_CFG_CTX 0 j = c ∧ n < 65536 then
        let s' := { s with trc := { s.trc with cap := mput 0 s.trc.cap (j * 65536 + n) (vals.getD (getF s TRC_CAP_CFG_NODE 0 j) 0),
                                               capN := mput 0 s.trc.capN j (n + 1) } }
        if j = 0 then setF s' TRC_WR_IDX (n + 1) else s'
      else s)
    if (List.range 4).all (fun j => !getB s1 TRC_CAP_CFG_EN 0 j || mget s1.trc.capN j 0 == 65536) then trcDone s1 else s1

/-- An injection starts on a context: a trigger source of the trace, and the start of the capture (R297, R298). -/
def trcInjStart (s : State) (c : Nat) : State :=
  if isTrace s then
    if getF s TRC_CFG_TSRC = 4 ∧ getF s TRC_CFG_TCTX = c then trcFire s else s
  else if getF s TRC_CAP_CFG_CTX = c then trcFire s else s

/-! ## Commands (R297) -/

/-- TRC.CTL by management or a program: ARM and FORCE only in TUNE. -/
def trcCtl (s : State) (cmd : Nat) : State :=
  if cmd = 3 then trcStop s
  else if cmd = 0 then s
  else if !inTune s then unitErr s .trc 0 0x1310
  else if cmd = 1 then trcArm s else trcFire s

/-- TRC.CTL ARM. -/
def execTrcCtlArm (s : State) : Res := .next (trcCtl s 1)
/-- TRC.CTL FORCE. -/
def execTrcCtlForce (s : State) : Res := .next (trcCtl s 2)
/-- TRC.CTL STOP. -/
def execTrcCtlStop (s : State) : Res := .next (trcCtl s 3)

/-- Entries recorded since are copied to the spill region; a full region without SPILL_WRAP ends the recording. -/
def execTraceSpillCopy (s : State) : Res :=
  if !isTrace s ∨ !inRun s .trc then .next s
  else
    let wrap := getB s TRC_CFG_SPILL_WRAP
    let s1 := forEach s.trc.pend { s with trc := { s.trc with pend := [] } } (fun s e =>
      let w := getF s TRC_SPILL_WR_IDX
      if w ≥ spillLen ∧ !wrap then s
      else
        let k := w % spillLen
        setF { s with trc := { s.trc with spill := mput 0 s.trc.spill k e } } TRC_SPILL_WR_IDX (if wrap then (k + 1) % spillLen else k + 1))
    .next (
      if getF s1 TRC_SPILL_WR_IDX ≥ spillLen ∧ !wrap ∧ !getB s1 TRC_STAT_SPILL_FULL then
        let st := trcState s1
        let s2 := latch (unitErr (setF s1 TRC_STAT_SPILL_FULL 1) .trc 0 0x1312) .trc 0 4
        if st = 1 ∨ st = 2 ∨ st = 4 then trcDone s2 else s2
      else s1)

/-! ## The window (R299) -/

/-- The word of trace, spill or capture data at a byte offset of the memory that TRC.WIN selects. -/
def trcWord (s : State) (ofs : Nat) : Nat :=
  let half (x : Nat) : Nat := if ofs / 4 % 2 = 0 then x % 2 ^ 32 else x / 2 ^ 32
  if isTrace s then
    if getB s TRC_WIN_DDR then half (mget s.trc.spill (ofs / 8) 0)
    else if ofs / 8 < ringLen then half (mget s.trc.ring (ofs / 8) 0) else 0
  else if getB s TRC_WIN_DDR then 0
  else mget s.trc.cap (ofs / 4) 0

/-- The word shown at window word `k`. -/
def winWord (s : State) (k : Nat) : Nat := trcWord s (getF s TRC_WIN_PAGE * 4096 + k * 4)

/-! ## RUN and STOP -/

/-- The checks of a RUN request of TRC: sources name contexts and nodes that exist; modes and codes are defined. -/
def trcRunCheck (s : State) : Option Nat :=
  if getF s TRC_CFG_TSRC > 4 ∨ getF s TRC_POST_VAL > ringLen then some 0x1301 else none

/-- TRC enters RUN: in MODE continuous it records from here on. -/
def trcEnterRun (s : State) : State :=
  let s1 := setF (setF s TRC_STAT_STATE 0) TRC_STAT_SPILL_FULL 0
  if isTrace s ∧ getB s TRC_CFG_MODE then trcArm s1 else s1

/-- TRC leaves RUN. -/
def trcLeaveRun (s : State) : State := setF (setF s TRC_STAT_STATE 0) TRC_STAT_SPILLING 0

end Sys2Proof.Machine
end

