-- ==== Sys2Proof/Machine/Loop.lean ====
section
/-!
DEFINITION. The loop engine: samples, the update of R278 with modes, hand-over, supervision, injection and coefficient
banks, and the commands to it (R271 to R295, R300).
-/

namespace Sys2Proof.Machine

open R

/-! ## Access -/

/-- A loop context beside its registers. -/
def getLoop (s : State) (c : Nat) : LoopSt := mget s.loops c {}
/-- A loop context, replaced. -/
def setLoop (s : State) (c : Nat) (v : LoopSt) : State := { s with loops := mput {} s.loops c v }

/-- L_STAT.MODE: 0 OFF, 1 MANUAL, 2 AUTO, 3 TRACK, 4 FAULT. -/
def lMode (s : State) (c : Nat) : Nat := getF s LOOP_L_STAT_MODE c
/-- Active law. -/
def lLaw (s : State) (c : Nat) : Nat := getF s LOOP_L_STAT_LAW c
/-- Active bank. -/
def lBank (s : State) (c : Nat) : Nat := getF s LOOP_L_STAT_ACTBANK c

/-- Address of word `w` of the set of law `l` in bank `k` of context `c` (R282). -/
def coefAddr (c k l w : Nat) : Nat := 0x40420000 + c * 0x400 + k * 0x200 + l * 0x80 + w * 4

/-- A word of the register file whose reset value is 0, by address. -/
def rawReg (s : State) (a : Nat) : Nat := (mget s.regs a 0).toNat

/-- A word of the register file whose reset value is 0, set by address. -/
def setRawReg (s : State) (a v : Nat) : State := { s with regs := mput 0 s.regs a (BitVec.ofNat 32 v) }

/-- A word of a coefficient set (Table LOOP-2). -/
def coef (s : State) (c k l w : Nat) : Nat := rawReg s (coefAddr c k l w)

/-- A value of a compensation table: entry `i`, value 0 A or 1 B (R281). -/
def tblVal (s : State) (t i b : Nat) : Nat := rawReg s (0x40460000 + t * 0x2000 + i * 8 + b * 4)

/-- A set names table `t` with its enable bit set. -/
def setNames (s : State) (c k l t : Nat) : Bool :=
  let w := coef s c k l 21
  (bitOf w 6 && bits w 0 6 == t) || (bitOf w 14 && bits w 8 6 == t)

/-- A table is busy while either bank of a context in RUN names it with its enable bit set (R281). -/
def tableBusy (s : State) (t : Nat) : Bool :=
  (List.range 256).any (fun c => inRun s .loopCtx c && [0, 1].any (fun k => (List.range 4).any (fun l => setNames s c k l t)))

/-! ## Banks (R284) -/

/-- F32 zero. -/
def fz : Nat := 0

/-- A coefficient set meets the constraints of Table LOOP-2. -/
def setOk (s : State) (c k l : Nat) : Bool :=
  let w (i : Nat) : Nat := coef s c k l i
  let t := w 21
  (List.range 21).all (fun i => fisFin f32 (w i)) && fle f32 fz (w 3) && flt f32 (w 8) (w 9) && fle f32 (w 10) (w 11) &&
  fle f32 fz (w 12) && fle f32 (w 8) (w 13) && fle f32 (w 13) (w 9) &&
  (!bitOf t 6 || (flt f32 fz (w 15) && flt f32 fz (w 16))) && (!bitOf t 14 || flt f32 fz (w 19))

/-- A bank meets the checks of R284 for every defined law. -/
def bankOk (s : State) (c k : Nat) : Bool := (List.range 4).all (fun l => !getB s LOOP_L_LAW_DEF c l || setOk s c k l)

/-! ## F32 helpers -/

/-- `x` kept between `lo` and `hi`. -/
def fclamp (lo hi x : Nat) : Nat := if flt f32 x lo then lo else if flt f32 hi x then hi else x

/-- The greatest integer not above a finite float. -/
def ffloor (x : Nat) : Int :=
  let t := (ftoInt f32 false (-2147483648) 2147483647 x).1
  if flt f32 x (fofInt f32 t) then t - 1 else t

/-- The fractional part of a finite float; one of 2²³ or more in size has none. -/
def ffrac (x : Nat) : Nat := if fle f32 (fofInt f32 8388608) (fabs f32 x) then fz else fsub f32 x (fofInt f32 (ffloor x))

/-- h = T_L in seconds. -/
def lH (s : State) (c : Nat) : Nat :=
  fdiv f32 (fofInt f32 ((getF s LOOP_L_CFG_TL c * 625 : Nat) : Int)) (fofInt f32 10000000)

/-- Linear interpolation from `a` to `b` by the fraction `f`. -/
def flerp (a b f : Nat) : Nat := fadd f32 a (fmul f32 f (fsub f32 b a))

/-! ## Compensation (R280) -/

/-- fric(x, v) of a set. -/
def fricOf (s : State) (c k l x v : Nat) : Nat :=
  let w (i : Nat) : Nat := coef s c k l i
  let t := bits (w 21) 0 6
  if !bitOf (w 21) 6 then fz
  else
    let q := fdiv f32 (fsub f32 x (w 14)) (w 15)
    let at_ (b : Nat) : Nat :=
      if fle f32 q fz then tblVal s t 0 b
      else if fle f32 (fofInt f32 1023) q then tblVal s t 1023 b
      else
        let i := (ffloor q).toNat
        flerp (tblVal s t i b) (tblVal s t (i + 1) b) (fsub f32 q (fofInt f32 (i : Int)))
    let fp := at_ 0
    let fm := at_ 1
    let vb := w 16
    if fle f32 vb v then fmul f32 (w 17) fp
    else if fle f32 v (fneg f32 vb) then fmul f32 (w 17) fm
    else fdiv f32 (fmul f32 (w 17) (fadd f32 (fmul f32 (fadd f32 v vb) fp) (fmul f32 (fsub f32 vb v) fm)))
      (fmul f32 (fofInt f32 2) vb)

/-- cog(x) of a set. -/
def cogOf (s : State) (c k l x : Nat) : Nat :=
  let w (i : Nat) : Nat := coef s c k l i
  let t := bits (w 21) 8 6
  if !bitOf (w 21) 14 then fz
  else
    let q := fdiv f32 (fsub f32 x (w 18)) (w 19)
    let ph := fmul f32 (ffrac q) (fofInt f32 1024)
    let j := ffloor ph
    let i := (j % 1024).toNat
    fmul f32 (w 20) (flerp (tblVal s t i 0) (tblVal s t ((i + 1) % 1024) 0) (fsub f32 ph (fofInt f32 j)))

/-! ## The law (R278, R279) -/

/-- What the law computes from its inputs: p, w, d, ff and ic. -/
structure LawOut where
  e : Nat
  p : Nat
  w : Nat
  d : Nat
  ff : Nat
  ic : Nat
  deriving DecidableEq, Repr

/-- Set-point, feed-forward, feedback, position and velocity as the law uses them. -/
structure LawIn where
  r : Nat
  vff : Nat
  aff : Nat
  y : Nat
  x : Nat
  v : Nat
  deriving DecidableEq, Repr

/-- ff of a set (0 if FF_EN = 0). -/
def lawFf (s : State) (c k l : Nat) (i : LawIn) : Nat :=
  if !bitOf (coef s c k l 22) 2 then fz
  else fadd f32 (fadd f32 (fadd f32 (fmul f32 (coef s c k l 6) i.vff) (fmul f32 (coef s c k l 7) i.aff))
    (fricOf s c k l i.x i.v)) (cogOf s c k l i.x)

/-- The terms of R278 for a set, from the kept d_prev, w_prev and i_prev. -/
def lawTerms (s : State) (c k l : Nat) (i : LawIn) (dPrev wPrev iPrev : Nat) : LawOut :=
  let w (n : Nat) : Nat := coef s c k l n
  let fl := w 22
  let h := lH s c
  let e := fsub f32 i.r i.y
  let p := fmul f32 (w 0) (fsub f32 (fmul f32 (w 4) i.r) i.y)
  let ww := fsub f32 (fmul f32 (w 5) i.r) i.y
  let den := fadd f32 (w 3) h
  let d := if bitOf fl 1 then fadd f32 (fmul f32 (fdiv f32 (w 3) den) dPrev) (fmul f32 (fdiv f32 (w 2) den) (fsub f32 ww wPrev))
           else fz
  let ic := if bitOf fl 0 then fclamp (w 10) (w 11) (fadd f32 iPrev (fmul f32 (fmul f32 (w 1) h) e)) else iPrev
  { e := e, p := p, w := ww, d := d, ff := lawFf s c k l i, ic := ic }

/-- p + ic + d + ff. -/
def lawSum (o : LawOut) : Nat := fadd f32 (fadd f32 (fadd f32 o.p o.ic) o.d) o.ff

/-- The output after the limits and the slew limit of a set; whether the slew limit raised or lowered it. -/
def lawOutput (s : State) (c k l uPrev ur : Nat) : Nat × Bool × Bool :=
  let w (n : Nat) : Nat := coef s c k l n
  let ul := fclamp (w 8) (w 9) ur
  if fisZero f32 (w 12) then (ul, false, false)
  else
    let step := fmul f32 (w 12) (lH s c)
    let df := fsub f32 ul uPrev
    (fadd f32 uPrev (fclamp (fneg f32 step) step df), flt f32 df (fneg f32 step), flt f32 step df)

/-! ## Samples (R273, R277) -/

/-- Value and status of an input as a context reads it at its sample instant (R26). -/
def loopRead (s : State) (n : Nat) (fast : Bool) : Nat × Nat :=
  let ch := getChan s n
  let e := ch.latched
  if fast then (ch.finVal, ch.finSt)
  else if e.src = 2 ∧ 0x30 ≤ e.point ∧ e.point < 0x40 then
    let (v, st, _) := inputRow ch e (localSrc s e (now s)) (forced s n) none false 0
    (v, st)
  else (ch.inVal, ch.inSt)

/-- Set-point and feed-forward of the profile channel that feeds a law; none while it is not in RUN. -/
def profSp (s : State) (p : Nat) : Option (Nat × Nat × Nat) :=
  if !inRun s .profCh p then none
  else some (f32of64 (getF s PROF_P_X_LO_VAL p + getF s PROF_P_X_HI_VAL p * 2 ^ 32), getF s PROF_P_V_VAL p,
             getF s PROF_P_A_VAL p)

/-- What a context reads at the sample instant `t`: every law's feedback and profile channel, since a call at the sample can
change the law (R273, R277, R285). -/
def loopReadAll (s : State) (c t : Nat) : LSample :=
  let laws := List.range 4
  let trk := if getB s LOOP_L_TRK_EN c then loopRead s (getF s LOOP_L_TRK_CHAN c) false else (0, 0)
  { t := t, fb := laws.map (fun l => loopRead s (getF s LOOP_L_LAW_FB_CHAN c l) (getB s LOOP_L_LAW_FB_FAST c l)),
    px := if getB s LOOP_L_POS_EN c then some (loopRead s (getF s LOOP_L_POS_CHAN c) (getB s LOOP_L_POS_FAST c)).1 else none,
    trk := trk.1, trkSt := trk.2, prof := laws.map (fun l => profSp s (getF s LOOP_L_LAW_PG c l)) }

/-- A context reaches a sample instant n × T_L: its inputs are read and its update is pending (R273, R274). -/
def loopSample (s : State) (c : Nat) : State :=
  if c ≥ 256 ∨ !inRun s .loopCtx c ∨ !owns s then s
  else setLoop s c { getLoop s c with smp := some (loopReadAll s c (now s / loopTl s c * loopTl s c)) }

/-- A profile channel's sample at the nominal instant `t` reaches the pending samples of the contexts at or after it
(R277). -/
def profToLoops (s : State) (g t : Nat) : State :=
  { s with loops := mmap {} (fun c (v : LoopSt) => { v with smp := v.smp.map (fun (m : LSample) =>
      if m.t < t then m
      else { m with prof := (List.range 4).map (fun l =>
               if getF s LOOP_L_LAW_PG c l = g then profSp s g else m.prof.getD l none) }) }) s.loops }

/-- The feedback value of law `l` at a sample. -/
def LSample.y (m : LSample) (l : Nat) : Nat := (m.fb.getD l (0, 0)).1
/-- The feedback status of law `l` at a sample. -/
def LSample.yst (m : LSample) (l : Nat) : Nat := (m.fb.getD l (0, 0)).2

/-- Feedback is lost at a sample (R288). -/
def fbLost (s : State) (c : Nat) (m : LSample) : Bool :=
  let l := lLaw s c
  let yst := m.yst l
  !bitOf yst 0 || bitOf yst 1 ||
  (if getB s LOOP_L_LAW_FB_FAST c l then bitOf yst 4 else decide (bits yst 16 8 > getF s LOOP_L_FACT_MAX_AGE c))

/-- r, v_ff and a_ff of law `l` at a sample, with SRC_FAULT (R277). -/
def setPoint (s : State) (c : Nat) (m : LSample) (l : Nat) : Nat × Nat × Nat × Bool :=
  let v := getLoop s c
  match getF s LOOP_L_LAW_SP_SRC c l with
  | 0 => (v.sp, v.vff, v.aff, false)
  | 1 => match m.prof.getD l none with
    | some (r, vf, af) => (r, vf, af, false)
    | none => (v.rLast, fz, fz, true)
  | _ => (v.bsp, fz, fz, false)

/-- The inputs of the active law under a bank `k` at a sample with feedback `y`, and SRC_FAULT (R277, R280). Where no
position channel is enabled, x is `y`. -/
def lawIn (s : State) (c k : Nat) (m : LSample) (y : Nat) : LawIn × Bool :=
  let l := lLaw s c
  let (r, vf, af, sf) := setPoint s c m l
  let v := if bitOf (coef s c k l 21) 15 then fdiv f32 (fsub f32 y (getLoop s c).yPrev) (lH s c) else vf
  ({ r := r, vff := vf, aff := af, y := y, x := m.px.getD y, v := v }, sf)

/-- The inputs of the active law with its measured feedback. -/
def lawInput (s : State) (c : Nat) (m : LSample) : LawIn × Bool := lawIn s c (lBank s c) m (m.y (lLaw s c))

/-! ## Injection (R294, R295) -/

/-- Feedback taps of the PRBS polynomial of an order, 0 for an order not in Table LOOP-5. -/
def prbsTap (o : Nat) : Nat := match o with | 7 => 6 | 9 => 5 | 10 => 7 | 11 => 9 | 15 => 14 | _ => 0

/-- One step of a maximal-length shift register. -/
def prbsStep (o r : Nat) : Nat :=
  (r * 2 + (if bitOf r (o - 1) != bitOf r (prbsTap o - 1) then 1 else 0)) % 2 ^ o

/-- Parameters that R295 refuses. -/
def injBad (s : State) (c : Nat) (i : Inj) : Bool :=
  let nyq := fdiv f64 (f64i 1) (fmul f64 (f64i 2) (fdiv f64 (f64i (loopTl s c)) (f64i 1000000000)))
  i.dur == 0 || !flt f64 (f64of32 i.fEnd) nyq || !flt f32 fz i.fStart || !fle f32 i.fStart i.fEnd ||
  (i.kind == 3 && prbsTap i.order == 0)

/-- Operand codes of INJECT that Table LOOP-6 reserves. -/
def injIllegal (i : Inj) : Bool :=
  decide (i.kind > 3) || decide (i.point > 2) || (i.kind == 1 && (i.steps == 0 || decide (i.steps > 1000))) ||
  (i.kind == 3 && (i.div == 0 || decide (i.div > 1000)))

/-- The stimulus at the present sample of an injection, at the time t since its first sample (Table LOOP-5). The sweep is in
step ⌊t × STEPS / DUR⌋, with the phase restarted at the step's start; the chirp's phase runs from t = 0. A sine is the exact
product, rounded once to F32 (DESIGN CHOICE, log entry 98). -/
def stimulus (i : Inj) (tl : Nat) : Nat :=
  let t := i.n * tl
  let dur := i.dur * 1000000
  if t ≥ dur then fz
  else
    match i.kind with
    | 0 => i.amp
    | 1 =>
      let j := t * i.steps / dur
      sineF32 i.amp (sweepTurns i.fStart i.fEnd i.steps j ((t * i.steps - j * dur) * 2 ^ 192 / (i.steps * 1000000000)))
    | 2 => sineF32 i.amp (chirpTurns i.fStart i.fEnd t dur)
    | _ => if bitOf i.lfsr (i.order - 1) then i.amp else fneg f32 i.amp

/-- The injection after its present sample. -/
def injNext (i : Inj) : Inj :=
  { i with n := i.n + 1, lfsr := if i.kind = 3 ∧ (i.n + 1) % max i.div 1 = 0 then prbsStep i.order i.lfsr else i.lfsr }

/-- The number of running injections in LOOP.INJ. -/
def injCount (s : State) : State := setF s LOOP_INJ_COUNT ((s.loops.filter (fun p => p.2.inj.isSome)).length)

/-- An injection ends (R294). -/
def injEnd (s : State) (c : Nat) : State :=
  let v := getLoop s c
  if v.inj.isNone then s
  else latch (setF (injCount (setLoop s c { v with inj := none })) LOOP_L_STAT_INJ 0 c) .loopCtx c 32

/-- INJECT read from its descriptor (Table LOOP-6). -/
def injOf (s : State) (c : Call) : Inj × State :=
  let (w0, s1) := dsc s c 0 4
  let (amp, s2) := dsc s1 c 4 4
  let (fs, s3) := dsc s2 c 8 4
  let (fe, s4) := dsc s3 c 0xC 4
  let (dur, s5) := dsc s4 c 0x10 4
  let (st, s6) := dsc s5 c 0x14 2
  let (dv, s7) := dsc s6 c 0x16 2
  let o := bits w0 24 8
  ({ kind := bits w0 8 8, point := bits w0 16 8, order := o, amp := amp, fStart := fs, fEnd := fe, dur := dur,
     steps := st, div := dv, since := 0, n := 0, lfsr := 2 ^ o - 1 }, s7)

/-! ## Calls at a sample (R285, R97, R98) -/

/-- What follows from the mode of a context: the fault map, and SS1_REQ, presented for as long as a context in RUN with
SAFETY = 1 is in mode FAULT with cause loss or freeze (R272, R293). -/
def loopMaps (s0 : State) (c : Nat) : State :=
  let f := lMode s0 c == 4 && inRun s0 .loopCtx c
  let s := setB s0 LOOP_L_STAT_SS1_REQ (f && getB s0 LOOP_L_CFG_SAFETY c &&
    (getF s0 LOOP_L_STAT_FCAUSE c == 1 || getF s0 LOOP_L_STAT_FCAUSE c == 2)) c
  let w := getF s LOOP_FLTMAP_MAP 0 (c / 32)
  let s1 := setF s LOOP_FLTMAP_MAP (setBits w (c % 32) 1 (b2n f)) 0 (c / 32)
  level s1 .loop 0 0 ((List.range 8).any (fun i => getF s1 LOOP_FLTMAP_MAP 0 i != 0))

/-- The mode and law of a context set. A context that leaves its mode ends its injection, and the supervision timers of
AUTO end with it (R289, R290, R294). -/
def setMode (s : State) (c m l : Nat) : State :=
  let s1 :=
    if m = lMode s c then s
    else
      let s' := injEnd s c
      setLoop s' c { getLoop s' c with feAt := none, frAt := none }
  loopMaps (setF (setF s1 LOOP_L_STAT_MODE m c) LOOP_L_STAT_LAW l c) c

/-- A context leaves mode FAULT (R292). -/
def leaveFault (s : State) (c m : Nat) : State :=
  let s1 := setF (setF s LOOP_L_STAT_FCAUSE 0 c) LOOP_L_STAT_RST_PEND 0 c
  setMode (setLoop s1 c { getLoop s1 c with rst := none }) c m (lLaw s c)

/-- The target mode that a FAULTRST operand names. -/
def rstTarget (s : State) (c m : Nat) : Nat := if m = 255 then getF s LOOP_L_CFG_START_MODE c else m

/-- The stimulus of a sample and where it is added: 1 set-point, 2 output, 3 feedback, 0 nowhere (R294). -/
def injAt (s : State) (c : Nat) : Nat × Nat :=
  match (getLoop s c).inj with
  | some j => (stimulus j (loopTl s c), j.point + 1)
  | none => (fz, 0)

/-- The inputs of the active law in bank `k` as R278 uses them, with a stimulus at the set-point or the feedback. -/
def injLaw (s : State) (c k : Nat) (m : LSample) : LawIn :=
  let (st, pt) := injAt s c
  let y := m.y (lLaw s c)
  let i := (lawIn s c k m (if pt = 3 then fadd f32 y st else y)).1
  { i with r := if pt = 1 then fadd f32 i.r st else i.r }

/-- The bank swap of R284 at a sample: the inactive bank becomes active, with the bumpless adjustment of i_prev by the
difference of ur under the old and the new set, each with its own velocity source and with the stimulus of the
sample. Answers the state and whether the swap
was made. -/
def bankSwap (s : State) (c : Nat) (m : LSample) : State × Bool :=
  let k := lBank s c
  let l := lLaw s c
  if !bankOk s c (1 - k) then (s, false)
  else
    let v := getLoop s c
    let fl := coef s c (1 - k) l 22
    let s1 := setF s LOOP_L_STAT_ACTBANK (1 - k) c
    let s2 :=
      if bitOf fl 3 ∧ bitOf fl 0 then
        let ur (k : Nat) : Nat := lawSum (lawTerms s c k l (injLaw s c k m) v.dPrev v.wPrev v.iPrev)
        let a := ur k
        let b := ur (1 - k)
        setLoop s1 c { v with iPrev := fclamp (coef s c (1 - k) l 10) (coef s c (1 - k) l 11) (fadd f32 v.iPrev (fsub f32 a b)) }
      else s1
    (latch s2 .loopCtx c 4, true)

/-- A call of another later one of the same function replaces it at its sample (R98). -/
def superseded (cs : List Call) (x : Call) : Bool :=
  (x.fn == 0 || x.fn == 1) && ((cs.dropWhile (· != x)).drop 1).any (fun y => y.fn == x.fn)

/-- One waiting call takes effect at a sample. Answers the state, its code byte and short result. -/
def loopCall (s0 : State) (c : Nat) (x : Call) (m0 : LSample) : State × Nat × Nat :=
  let s := dscBegin s0 x
  let v := getLoop s c
  match x.fn with
  | 0 =>
    if getF s LOOP_L_LAW_SP_SRC c (lLaw s c) ≠ 0 then (s, 0x15, 0)
    else
      let (sp, s1) := dsc s x 0 4
      let (vf, s2) := dsc s1 x 4 4
      let (af, s3) := dsc s2 x 8 4
      (setLoop s3 c { v with sp := sp, vff := vf, aff := af }, 0, 0)
  | 1 =>
    let (m, s1) := dsc s x 0 1
    let (l, s2) := dsc s1 x 1 1
    let (man, s3) := dsc s2 x 4 4
    if m > 3 ∨ l > 3 then (s3, 0x20, 0)
    else if lMode s c = 4 then (s3, 0x16, 0)
    else if !getB s LOOP_L_LAW_DEF c l then (s3, 0x1F, 0)
    else
      let hand := l ≠ lLaw s c ∨ (m = 2 ∧ lMode s c ≠ 2)
      let s4 := setMode s3 c m l
      let v4 := getLoop s4 c
      (setLoop s4 c { v4 with man := if m = 1 then man else v4.man, enter := v4.enter || decide hand }, 0, 0)
  | 2 =>
    let (s1, ok) := bankSwap s c m0
    (s1, if ok then 0 else 0x12, if ok then lBank s1 c else 0)
  | 3 =>
    let (m, s1) := dsc s x 0 1
    if m > 3 ∧ m ≠ 255 then (s1, 0x20, 0)
    else if lMode s c ≠ 4 then (s1, 0, 0)
    else if fbLost s1 c m0 then (setF (setLoop s1 c { v with rst := some m }) LOOP_L_STAT_RST_PEND 1 c, 0x17, 0)
    else
      let s2 := leaveFault s1 c (rstTarget s c m)
      (setLoop s2 c { getLoop s2 c with enter := lMode s2 c == 2 }, 0, 0)
  | _ =>
    let (op, s1) := dsc s x 0 1
    if op = 0 then (injEnd s1 c, 0, 0)
    else
      let (j, s2) := injOf s1 x
      if op > 1 ∨ injIllegal j then (s2, 0x20, 0)
      else if !(lMode s c == 2 || (lMode s c == 1 && j.point == 1)) then (s2, 0x1B, 0)
      else if injBad s c j then (s2, 0x1C, 0)
      else if getF s LOOP_INJ_COUNT ≥ 8 ∧ v.inj.isNone then (s2, 0x1D, 0)
      else
        let s3 := setF (injCount (setLoop s2 c { getLoop s2 c with inj := some { j with since := now s } })) LOOP_L_STAT_INJ 1 c
        (trcInjStart s3 c, 0, 0)

/-- Calls that take effect at a sample, in the order in which they were taken. Answers the state and their ends. -/
def loopCalls (s : State) (c : Nat) (m : LSample) : State × List (Call × Nat × Nat) :=
  let v := getLoop s c
  let due := v.wait.filter (fun x => decide (x.since < m.t))
  let s1 := setLoop s c { v with wait := v.wait.filter (fun x => !decide (x.since < m.t)) }
  due.foldl (fun (acc : State × List (Call × Nat × Nat)) x =>
    if superseded due x then (acc.1, acc.2 ++ [(x, cSUPERSEDED, 0)])
    else
      let (s', code, res) := loopCall acc.1 c x m
      (s', acc.2 ++ [(x, code, res)])) (s1, [])

/-! ## Supervision (R288 to R290, R293) -/

/-- A context enters mode FAULT with a cause: 1 loss, 2 freeze, 3 following error. -/
def enterFault (s : State) (c cause : Nat) : State :=
  let s1 := unitErr s .loopCtx c (match cause with | 1 => 0x0918 | 2 => 0x0919 | _ => 0x091A)
  let s2 := setF (setMode (setF s1 LOOP_L_STAT_FCAUSE cause c) c 4 (lLaw s1 c)) LOOP_L_STAT_HANDOVER 0 c
  latch (level (setF s2 LOOP_L_STAT_FE_WARN 0 c) .loopCtx c 3 false) .loopCtx c 1

/-- FE_WARN is cleared at a sample with |e| ≤ FE_LIM (R289). -/
def feClear (s : State) (c e : Nat) : State :=
  if fle f32 (fabs f32 e) (getF s LOOP_L_FE_LIM_VAL c) then level (setF s LOOP_L_STAT_FE_WARN 0 c) .loopCtx c 3 false else s

/-- The following-error timer at a sample in AUTO; answers the state and whether the error is declared as a fault. -/
def followErr (s : State) (c t e : Nat) : State × Bool :=
  let tmo := getF s LOOP_L_FE_TIME_US c * 1000
  let v := getLoop s c
  if tmo = 0 then (feClear s c e, false)
  else if flt f32 (getF s LOOP_L_FE_LIM_VAL c) (fabs f32 e) then
    let ta := v.feAt.getD t
    let s1 := setLoop s c { v with feAt := some ta }
    if t ≥ ta + tmo then
      if getB s LOOP_L_FACT_FE_ACT c then (s1, true)
      else (level (setF s1 LOOP_L_STAT_FE_WARN 1 c) .loopCtx c 3 true, false)
    else (s1, false)
  else (feClear (setLoop s c { v with feAt := none }) c e, false)

/-- The freeze timer at a sample in AUTO; answers the state and whether a freeze is declared. -/
def freeze (s : State) (c t y e u : Nat) : State × Bool :=
  let tmo := getF s LOOP_L_FRZ_TIME_US c * 1000
  let v := getLoop s c
  let u0 := coef s c (lBank s c) (lLaw s c) 13
  let drive := flt f32 (getF s LOOP_L_FRZ_DRIVE_VAL c) (fabs f32 (fsub f32 u u0))
  let ea := fabs f32 e
  if tmo = 0 then (s, false)
  else
    match v.frAt with
    | none => (if drive then setLoop s c { v with frAt := some t, frY := y, frE := ea } else s, false)
    | some ta =>
      if drive && fle f32 (fabs f32 (fsub f32 y v.frY)) (getF s LOOP_L_FRZ_BAND_VAL c) && fle f32 v.frE ea then
        (s, decide (t ≥ ta + tmo) && flt f32 v.frE ea)
      else (setLoop s c { v with frAt := none }, false)

/-! ## The update (R274, R278, R286, R291) -/

/-- What an update writes. -/
structure UpOut where
  u : Nat
  i : Nat
  d : Nat
  w : Nat
  p : Nat
  ff : Nat
  hi : Bool
  lo : Bool
  slew : Bool
  held : Bool
  deriving DecidableEq, Repr

/-- The AUTO update: with a hand-over the integrator is set so that ur starts from u_prev (R286). `so` is the stimulus at
the output. -/
def autoOut (s : State) (c : Nat) (i : LawIn) (hand : Bool) (so : Nat) : UpOut :=
  let k := lBank s c
  let l := lLaw s c
  let v := getLoop s c
  let w (n : Nat) : Nat := coef s c k l n
  let o0 := lawTerms s c k l i (if hand then fz else v.dPrev) v.wPrev v.iPrev
  let o :=
    if !hand then o0
    else
      let d0 := { o0 with d := fz }
      if bitOf (w 22) 0 then
        { d0 with ic := fclamp (w 10) (w 11) (fsub f32 v.uPrev (fadd f32 (fadd f32 d0.p d0.d) d0.ff)) }
      else d0
  let ur := fadd f32 (lawSum o) so
  let (u, down, up) := lawOutput s c k l v.uPrev ur
  let dl := fmul f32 (fmul f32 (w 1) (lH s c)) o.e
  let hi := flt f32 (w 9) ur
  let lo := flt f32 ur (w 8)
  let held := !hand && bitOf (w 22) 0 && ((flt f32 fz dl && (hi || up)) || (flt f32 dl fz && (lo || down)))
  { u := u, i := if held then v.iPrev else o.ic, d := o.d, w := o.w, p := o.p, ff := o.ff, hi := hi, lo := lo,
    slew := down || up, held := held }

/-- A demand through the output limits and, where asked, the slew limit; the integrator is held. -/
def limited (s : State) (c ur : Nat) (slew : Bool) (ff : Nat) : UpOut :=
  let k := lBank s c
  let l := lLaw s c
  let v := getLoop s c
  let hi := flt f32 (coef s c k l 9) ur
  let lo := flt f32 ur (coef s c k l 8)
  if slew then
    let (u, down, up) := lawOutput s c k l v.uPrev ur
    { u := u, i := v.iPrev, d := v.dPrev, w := v.wPrev, p := fz, ff := ff, hi := hi, lo := lo, slew := down || up, held := false }
  else
    { u := fclamp (coef s c k l 8) (coef s c k l 9) ur, i := v.iPrev, d := v.dPrev, w := v.wPrev, p := fz, ff := ff,
      hi := hi, lo := lo, slew := false, held := false }

/-- The fault action of Table LOOP-4. -/
def faultOut (s : State) (c : Nat) (i : LawIn) : UpOut :=
  let v := getLoop s c
  let hold : UpOut := { u := v.uPrev, i := v.iPrev, d := v.dPrev, w := v.wPrev, p := fz, ff := fz, hi := false, lo := false,
                        slew := false, held := false }
  match getF s LOOP_L_FACT_FACT c with
  | 1 =>
    let out := getF s LOOP_L_SAFEOUT_VAL c
    let rp := getF s LOOP_L_RAMP_VAL c
    if fisZero f32 rp then { hold with u := out }
    else
      let st := fmul f32 rp (lH s c)
      let df := fsub f32 out v.uPrev
      if fle f32 (fabs f32 df) st then { hold with u := out } else { hold with u := fadd f32 v.uPrev (fclamp (fneg f32 st) st df) }
  | 2 =>
    let ff := lawFf s c (lBank s c) (lLaw s c) i
    limited s c ff true ff
  | _ => hold

/-- A law change outside AUTO makes steps 1 and 2 of the hand-over, in OFF with the integrator at 0; the output stays that of
the mode (DEDUCED from R286 and Table LOOP-3, log entry 97). -/
def handHeld (s : State) (c : Nat) (i : LawIn) (o : UpOut) : UpOut :=
  let a := autoOut s c i true fz
  { o with i := if lMode s c = 0 then fz else a.i, d := a.d, w := a.w }

/-- The output of a mode at a sample, and TRK_LOSS. -/
def modeOut (s : State) (c : Nat) (m : LSample) (i : LawIn) (hand : Bool) (so : Nat) : UpOut × Bool :=
  let v := getLoop s c
  match lMode s c with
  | 0 => ({ u := coef s c (lBank s c) (lLaw s c) 13, i := fz, d := v.dPrev, w := v.wPrev, p := fz, ff := fz, hi := false,
            lo := false, slew := false, held := false }, false)
  | 1 => (limited s c (fadd f32 v.man so) true fz, false)
  | 2 => (autoOut s c i hand so, false)
  | 3 =>
    if bitOf m.trkSt 0 then (limited s c m.trk false fz, false)
    else ({ u := v.uPrev, i := v.iPrev, d := v.dPrev, w := v.wPrev, p := fz, ff := fz, hi := false, lo := false,
            slew := false, held := false }, true)
  | _ => (faultOut s c i, false)

/-- The results of an update in the registers, the context, the OUT slot and the trace. `y` is the feedback as the law used
it. -/
def upWrite (s : State) (c : Nat) (m : LSample) (i : LawIn) (y e : Nat) (o : UpOut) (hand trkLoss : Bool) : State :=
  let v := getLoop s c
  let ho := hand || (getB s LOOP_L_STAT_HANDOVER c && o.slew)
  let s1 := setLoop s c { v with uPrev := o.u, iPrev := o.i, dPrev := o.d, wPrev := o.w, yPrev := y, rLast := i.r,
                                 p := o.p, d := o.d, ff := o.ff, at_ := m.t, lastAt := some m.t, smp := none, enter := false,
                                 inj := v.inj.map injNext }
  let s2 := setF (setF (setF (setF (setF s1 LOOP_L_U_VAL o.u c) LOOP_L_E_VAL e c) LOOP_L_I_VAL o.i c) LOOP_L_SP_VAL i.r c)
    LOOP_L_Y_VAL i.y c
  let s3 := setB (setB (setB (setB s2 LOOP_L_STAT_SAT_HI o.hi c) LOOP_L_STAT_SAT_LO o.lo c) LOOP_L_STAT_SLEWING o.slew c)
    LOOP_L_STAT_INT_HELD o.held c
  let s4 := setB (setB (wrapF s3 LOOP_L_SAMPLES_COUNT c) LOOP_L_STAT_HANDOVER ho c) LOOP_L_STAT_TRK_LOSS trkLoss c
  let ch := getF s LOOP_L_OUT_CHAN c
  let s5 := putOut s4 ch o.u false
  let s6 := if (getChan s5 ch).latched.src = 2 then lioLoopWrite s5 ch o.u else s5
  let s7 := if hand then latch s6 .loopCtx c 2 else s6
  wdArm (maxF s7 LOOP_LATMAX_NS (now s - m.t)) 2 c

/-- The Basin deliveries whose deadline the sample has reached: the latest gives the set-point of a law fed by Basin, else
they are discarded (R277). -/
def takeDelivery (s : State) (c t : Nat) : State :=
  let v := getLoop s c
  let due := v.bnext.filter (fun x => decide (x.1 ≤ t))
  let v1 := { v with bnext := v.bnext.filter (fun x => !decide (x.1 ≤ t)) }
  match due.foldl (fun (m : Option (Nat × Nat)) x => match m with | some y => if y.1 ≤ x.1 then some x else m | none => some x) none with
  | none => s
  | some (_, r) =>
    if getF s LOOP_L_LAW_SP_SRC c (lLaw s c) = 2 then setLoop s c { v1 with bsp := r }
    else latch (setF (setLoop s c v1) LOOP_L_STAT_SP_DISCARD 1 c) .loopCtx c 64

/-- A swap asked through L_BSWAP at the first sample after its acceptance (R284). -/
def swapAsked (s : State) (c : Nat) (m : LSample) : State :=
  match (getLoop s c).swap with
  | some a =>
    if m.t ≤ a then s
    else
      let (s', ok) := bankSwap s c m
      setF (setLoop s' c { getLoop s' c with swap := none }) LOOP_L_BSWAP_RES (if ok then 1 else 2) c
  | none => s

/-- A context in FAULT whose FAULTRST found the loss present leaves FAULT at the first sample without it (R292). -/
def lateReset (s : State) (c : Nat) (m : LSample) : State :=
  if lMode s c = 4 ∧ !fbLost s c m then
    match (getLoop s c).rst with
    | some t =>
      let s' := leaveFault s c (rstTarget s c t)
      setLoop s' c { getLoop s' c with enter := lMode s' c == 2 }
    | none => s
  else s

/-- The law, bank, mode and set-point of a sample settled, with the ends of its calls: delivery, swap, calls, reset (R285). -/
def samplePrep (s : State) (c : Nat) (m : LSample) : State × List (Call × Nat × Nat) :=
  let (s1, ends) := loopCalls (swapAsked (takeDelivery s c m.t) c m) c m
  (lateReset s1 c m, ends)

/-- The supervision of AUTO that precedes the output: loss, then the following error (R288, R289). Answers the state with
FB_LOSS and SRC_FAULT shown. -/
def supervise (s : State) (c : Nat) (m : LSample) (e : Nat) (srcFault : Bool) : State :=
  let lost := fbLost s c m
  let s1 := level (setB (setB s LOOP_L_STAT_SRC_FAULT srcFault c) LOOP_L_STAT_FB_LOSS lost c) .loopCtx c 4 srcFault
  let s2 := if lMode s1 c = 2 ∧ lost then enterFault s1 c 1 else s1
  let (s3, fe) := if lMode s2 c = 2 then followErr s2 c m.t e else (feClear s2 c e, false)
  if fe then enterFault s3 c 3 else s3

/-- One update of context `c` from its pending sample (R278, R285 to R294). -/
def loopUpdate (s : State) (c : Nat) (m : LSample) : State :=
  let (s1, ends) := samplePrep s c m
  let (i, sf) := lawInput s1 c m
  let e := fsub f32 i.r i.y
  let s2 := supervise s1 c m e sf
  let hand := lMode s2 c != 4 && (getLoop s2 c).enter
  let (st, pt) := injAt s2 c
  let ij := injLaw s2 c (lBank s2 c) m
  let (o0, tl) := modeOut s2 c m ij hand (if pt = 2 then st else fz)
  let o := if hand ∧ lMode s2 c ≠ 2 then handHeld s2 c ij o0 else o0
  let (s3, fr) := if lMode s2 c = 2 then freeze s2 c m.t i.y e o.u else (s2, false)
  let (s4, o4) := if fr then (let s' := enterFault s3 c 2; (s', faultOut s' c i)) else (s3, o)
  let s5 := upWrite s4 c m i ij.y e o4 (hand && !fr) tl
  let s6 := trcRecord s5 c m.t [i.r, i.y, e, o4.p, o4.i, o4.d, o4.ff, o4.u]
  let s7 := if lMode s2 c = 2 then statSample s6 3 c (f64of32 (e % 2 ^ 31)) else s6
  forEach ends s7 (fun s x => complete s x.1 x.2.1 x.2.2)

/-- The contexts in RUN with a pending sample. -/
def pendingSamples (s : State) : List (Nat × LSample) :=
  s.loops.filterMap (fun p => if inRun s .loopCtx p.1 then p.2.smp.map (fun m => (p.1, m)) else none)

/-- The instant at which the engine starts its next update: free, and 1 µs after the earliest pending sample (R274). -/
def updateStart (s : State) : Option Nat :=
  match pendingSamples s with
  | [] => none
  | p :: l => some (max s.loopFree (l.foldl (fun a x => min a x.2.t) p.2.t + 1000))

/-- The update that the engine starts at `st`: that of the shortest T_L, then of the lowest number (R274). -/
def updateAt (s : State) (st : Nat) : Option (Nat × LSample) :=
  ((pendingSamples s).filter (fun p => decide (p.2.t + 1000 ≤ st))).foldl (fun acc p =>
    match acc with
    | none => some p
    | some b => if getF s LOOP_L_CFG_TL p.1 < getF s LOOP_L_CFG_TL b.1 then some p else some b) none

/-- The update that the engine can have ended by now: 640 ns after its start (R274). -/
def nextUpdate (s : State) : Option (Nat × LSample) :=
  match updateStart s with
  | none => none
  | some st => if now s < st + 640 then none else updateAt s st

/-- The engine computes one pending update, which ends now and frees the engine (R274). -/
def updateEnd (s : State) : State :=
  match nextUpdate s with
  | none => s
  | some (c, m) => { loopUpdate s c m with loopFree := now s }

/-- A context stops: injection, waiting calls and a swap end with a code. -/
def loopStop (s : State) (c code : Nat) : State :=
  let v := getLoop s c
  let s1 := injEnd (setLoop s c { v with wait := [], smp := none, rst := none, swap := none }) c
  endQueued (completeAll s1 v.wait code) 0 c code

/-- LOOP.LOAD for the contexts in RUN. -/
def loadShow (s : State) : State :=
  setF s LOOP_LOAD_RATE (((List.range 256).filter (fun k => inRun s .loopCtx k)).map
    (fun k => 16000 / max (getF s LOOP_L_CFG_TL k) 1)).sum

/-- What follows from the state and mode of a context: LOOP.LOAD, the fault map and SS1_REQ. -/
def loopShow (s : State) (c : Nat) : State := loadShow (loopMaps s c)

/-- CTX_UNCORR of context `c`. -/
def execCtxUncorr (c : Nat) (s : State) : Res :=
  if c ≥ 256 then .next s
  else
    let s1 := setF (setSt (unitErr s .loopCtx c 0x091E) .loopCtx c stFAULT) (hBusy .loopCtx) 0 c
    .next (loopShow (loopStop s1 c cABORTED) c)

/-! ## Engine calls (R300) -/

/-- A call to a context is taken and held for its next sample. -/
def loopTake (s : State) (c fn : Nat) : State :=
  match takeCall s 0 c fn with
  | none => s
  | some (x, s1) => setLoop s1 c { getLoop s1 c with wait := (getLoop s1 c).wait ++ [x] }

/-- SETSP to context `c` is taken. -/
def execSetsp (c : Nat) (s : State) : Res := .next (loopTake s c 0)
/-- MODE to context `c` is taken. -/
def execLoopMode (c : Nat) (s : State) : Res := .next (loopTake s c 1)
/-- BANKSWAP to context `c` is taken. -/
def execBankswap (c : Nat) (s : State) : Res := .next (loopTake s c 2)
/-- FAULTRST to context `c` is taken. -/
def execFaultrst (c : Nat) (s : State) : Res := .next (loopTake s c 3)

/-- READ of context `c` (Table LOOP-6). -/
def execLoopRead (c : Nat) (s : State) : Res :=
  match takeCall s 0 c 4 with
  | none => .next s
  | some (x, s1) =>
    let v := getLoop s1 c
    let vals := [getF s1 LOOP_L_U_VAL c, getF s1 LOOP_L_E_VAL c, getF s1 LOOP_L_I_VAL c, getF s1 LOOP_L_SP_VAL c,
                 getF s1 LOOP_L_Y_VAL c, v.p, v.d, v.ff]
    let s2 := dscOut s1 x 0 4 (regW s1 LOOP_L_STAT_MODE c 0)
    let s3 := wrBs s2 (x.addr + 0x14) (vals.flatMap (leBytes 4))
    .next (complete (dscOut s3 x 0x28 8 v.at_) x 0 0)

/-- INJECT with OP start or stop is taken. A reserved OP completes ILLEGAL at the sample, with a start. -/
def injTake (s : State) (c : Nat) (start : Bool) : State :=
  match takeCallIf s 0 c 5 0 1 (fun op => if start then op != 0 else op == 0) with
  | none => s
  | some (x, s1) => setLoop s1 c { getLoop s1 c with wait := (getLoop s1 c).wait ++ [x] }

/-- INJECT start to context `c` is taken. -/
def execInjectStart (c : Nat) (s : State) : Res := .next (injTake s c true)
/-- INJECT stop to context `c` is taken. -/
def execInjectStop (c : Nat) (s : State) : Res := .next (injTake s c false)

/-- The injection of context `c` has reached its duration. -/
def execInjectionEnd (c : Nat) (s : State) : Res :=
  match (getLoop s c).inj with
  | none => .next s
  | some j => if j.n * loopTl s c ≥ j.dur * 1000000 then .next (injEnd s c) else .next s

/-- TRIG ARM from context `c`; any OP beyond the three is taken here and completes ILLEGAL. -/
def execTrigArm (c : Nat) (s : State) : Res :=
  match takeCallIf s 0 c 6 0 1 (fun op => op == 0 || decide (op > 2)) with
  | none => .next s
  | some (x, s1) =>
    let (op, s2) := dsc s1 x 0 1
    if op > 2 then .next (complete s2 x 0x20 0) else .next (complete (trcArm s2) x 0 0)

/-- TRIG FORCE from context `c`. -/
def execTrigForce (c : Nat) (s : State) : Res :=
  match takeCallIf s 0 c 6 0 1 (fun op => op == 1) with
  | none => .next s
  | some (x, s1) => .next (complete (trcFire s1) x 0 0)

/-- TRIG STOP from context `c`. -/
def execTrigStop (c : Nat) (s : State) : Res :=
  match takeCallIf s 0 c 6 0 1 (fun op => op == 2) with
  | none => .next s
  | some (x, s1) => .next (complete (trcStop s1) x 0 0)

/-! ## Banks, tables and L_BSWAP (R281, R283, R284) -/

/-- A write of a coefficient word at offset `o` of the coefficient store: refused for the active bank of a context in RUN,
and for management in RUN outside TUNE. -/
def coefWrite (s : State) (mgmt : Bool) (o v : Nat) : State :=
  let c := o / 0x400
  let k := o / 0x200 % 2
  if mgmt && !inTune s then s
  else if inRun s .loopCtx c ∧ k = lBank s c then unitErr s .loopCtx c 0x0913
  else setRawReg s (0x40420000 + o / 4 * 4) (v &&& loopBits (0x40420000 + o / 4 * 4))

/-- A write to a coefficient bank: word offset in bytes from 0x4042_0000. -/
def execCoeffBankWrite (mgmt : Bool) (o v : Nat) (s : State) : Res :=
  if o < 0x40000 then .next (coefWrite s mgmt o v) else .next s

/-- A write of a table word at offset `o` of the table store: refused while the table is busy. -/
def tableWrite (s : State) (o v : Nat) : State :=
  if tableBusy s (o / 0x2000) then unitErr s .loop 0 0x0914 else setRawReg s (0x40460000 + o / 4 * 4) v

/-- A write to a compensation table: word offset in bytes from 0x4046_0000. -/
def execTableStoreWrite (o v : Nat) (s : State) : Res :=
  if o < 0x80000 then .next (tableWrite s o v) else .next s

/-- L_BSWAP of context `c` by management: a swap at the next sample, only in TUNE. -/
def bswapReq (s : State) (c : Nat) : State :=
  if inTune s ∧ inRun s .loopCtx c then setF (setLoop s c { getLoop s c with swap := some (now s) }) LOOP_L_BSWAP_RES 3 c else s

/-- A management write of 1 to L_BSWAP.SWAP of context `c`. -/
def execLBswapWrite (c : Nat) (s : State) : Res := if c < 256 then .next (bswapReq s c) else .next s

/-! ## RUN (R275, R276, R287) -/

/-- One step of the simulation of R275: pending updates run until `until_`. Answers the time the engine is free, what is
left pending, and whether an update ended too late. Pending: (TL, context, sample instant). -/
def simRun : Nat → Nat → Nat → List (Nat × Nat × Nat) → Nat × List (Nat × Nat × Nat) × Bool
  | 0, free, _, q => (free, q, false)
  | n + 1, free, until_, q =>
    match q with
    | [] => (free, [], false)
    | h :: t =>
      if free ≥ until_ then (free, q, false)
      else
        let b := t.foldl (fun a x => if x.1 < a.1 ∨ (x.1 = a.1 ∧ x.2.1 < a.2.1) then x else a) h
        let fin := free + 640
        if fin ≥ b.2.2 + b.1 * 62500 then (free, q, true)
        else simRun n fin until_ (q.erase b)

/-- R274 over the sample instants of one second: true when every update ends before its next sample. -/
def simOk (set : List (Nat × Nat)) : Nat → Nat → Nat → List (Nat × Nat × Nat) → Bool
  | 0, _, free, q => let (_, _, bad) := simRun q.length free (16000 * 62500 + 1000000000) q; !bad
  | n + 1, k, free, q =>
    let t := k * 62500
    let (f1, q1, bad) := simRun q.length free (t + 1000) q
    if bad then false
    else
      let new := (set.filter (fun x => k % x.1 == 0)).map (fun x => (x.1, x.2, t))
      if q1.any (fun x => decide (t ≥ x.2.2 + x.1 * 62500)) then false
      else simOk set n (k + 1) (max f1 (t + 1000)) (q1 ++ new)

/-- The contexts in RUN with one more, as (TL, context). -/
def loopSet (s : State) (c : Nat) : List (Nat × Nat) :=
  ((List.range 256).filter (fun k => inRun s .loopCtx k || k == c)).map (fun k => (getF s LOOP_L_CFG_TL k, k))

/-- The load of R275 is within its limits. -/
def loadOk (s : State) (c : Nat) : Bool :=
  let set := loopSet s c
  decide ((set.map (fun x => 16000 / x.1)).sum ≤ 1500000) && simOk set 16000 0 0 []

/-- The period of a feedback source in ns (R26). -/
def fbPeriod (s : State) (e : ChEntry) (fast : Bool) : Nat :=
  if fast then (if e.src = 1 then period s 0 / max (nFast s (e.point / 4)) 1 else period s 0)
  else if e.src = 2 ∧ 0x30 ≤ e.point ∧ e.point < 0x40 then aiPeriod s (e.point - 0x30)
  else period s e.cls

/-- A defined law meets R276 and R26. -/
def lawOk (s : State) (c l : Nat) : Bool :=
  let n := getF s LOOP_L_LAW_FB_CHAN c l
  let e := tableEntry s n
  decide (n < nChan s) && e.used && !e.isOut && e.img == 6 && decide (getF s LOOP_L_LAW_SP_SRC c l ≤ 2) &&
  decide (loopTl s c ≥ fbPeriod s e (getB s LOOP_L_LAW_FB_FAST c l))

/-- The checks of a RUN request of context `c`; the code that refuses it. -/
def loopRunCheck (s : State) (c : Nat) : Option Nat :=
  let tl := getF s LOOP_L_CFG_TL c
  let o := tableEntry s (getF s LOOP_L_OUT_CHAN c)
  if tl = 0 ∨ tl > 160 ∨ 16000 % tl ≠ 0 ∨ getF s LOOP_L_FACT_FACT c = 3 ∨ getF s LOOP_L_CFG_START_MODE c > 3 then some 0x0901
  else if !getB s LOOP_L_LAW_DEF c (getF s LOOP_L_CFG_START_LAW c) ∨
      (List.range 4).any (fun l => getB s LOOP_L_LAW_DEF c l && !lawOk s c l) ∨
      getF s LOOP_L_OUT_CHAN c ≥ nChan s ∨ !o.used ∨ !o.isOut ∨ o.img ≠ 6 ∨ o.ownKind ≠ 2 ∨ o.ownInst ≠ c ∨
      !bankOk s c (lBank s c) then some 0x0911
  else if !loadOk s c then some 0x0910
  else none

/-- Context `c` enters RUN (R287): START_MODE and START_LAW by a hand-over from the value in its OUT slot. The manual
value before the first MODE call is free (log entry 1). -/
def loopEnterRun (s : State) (c : Nat) : State :=
  let v := getLoop s c
  let (man, s1) := fresh 32 s
  let u := (getChan s (getF s LOOP_L_OUT_CHAN c)).outVal % 2 ^ 32
  let s2 := setLoop s1 c { v with uPrev := u, dPrev := fz, man := man, smp := none, wait := [], feAt := none, frAt := none,
                                  rst := none, inj := none, enter := getF s LOOP_L_CFG_START_MODE c == 2 }
  let s3 := setF (setF (setF s2 LOOP_L_STAT_MODE (getF s LOOP_L_CFG_START_MODE c) c)
    LOOP_L_STAT_LAW (getF s LOOP_L_CFG_START_LAW c) c) LOOP_L_SAMPLES_COUNT 0 c
  loopShow (setF (setF s3 LOOP_L_STAT_FCAUSE 0 c) LOOP_L_STAT_RST_PEND 0 c) c

/-- Context `c` leaves RUN: its calls end NOT_RUN. -/
def loopLeaveRun (s : State) (c : Nat) : State := loopStop s c cNOTRUN

end Sys2Proof.Machine
end

