-- ==== Sys2Proof/Machine/Prof.lean ====
section
/-!
DEFINITION. The profile generator: segments, replanning, samples and calls (R301 to R310, R316), in binary64. The order
of its floating operations is the model's own (log entry 13).
-/

namespace Sys2Proof.Machine

open R

/-! ## Motion states and segments (R304) -/

/-- A motion state: position, velocity, acceleration, binary64 patterns. -/
structure Mot where
  x : Nat
  v : Nat
  a : Nat
  deriving DecidableEq, Repr

/-- The limits of a channel as binary64 patterns. -/
structure Lims where
  v : Nat
  acc : Nat
  dec : Nat
  j : Nat
  deriving DecidableEq, Repr

/-- Sum of binary64 patterns. -/
def dadd (x y : Nat) : Nat := fadd f64 x y
/-- Difference. -/
def dsub (x y : Nat) : Nat := fsub f64 x y
/-- Product. -/
def dmul (x y : Nat) : Nat := fmul f64 x y
/-- Quotient. -/
def ddiv (x y : Nat) : Nat := fdiv f64 x y
/-- x < y. -/
def dlt (x y : Nat) : Bool := flt f64 x y
/-- Half of a pattern. -/
def dhalf (x : Nat) : Nat := ddiv x (f64i 2)
/-- −1, 0 or 1 by the sign of a pattern. -/
def dsgn (x : Nat) : Int := if dlt x 0 then -1 else if dlt 0 x then 1 else 0
/-- A pattern with the sign of `m` applied: m × x. -/
def dsig (m : Int) (x : Nat) : Nat := if m < 0 then fneg f64 x else if m = 0 then 0 else x

/-- A segment of duration `t` with jerk `j`. -/
def segRun (m : Mot) (j t : Nat) : Mot :=
  let t2 := dmul t t
  { a := dadd m.a (dmul j t),
    v := dadd (dadd m.v (dmul m.a t)) (dhalf (dmul j t2)),
    x := dadd (dadd (dadd m.x (dmul m.v t)) (dhalf (dmul m.a t2))) (ddiv (dmul j (dmul t2 t)) (f64i 6)) }

/-- The state after a list of segments. -/
def segsRun (m : Mot) (l : List PSeg) : Mot := l.foldl (fun m p => segRun m p.jerk p.dur) m

/-- The state at time `t` of a plan; past its end the velocity goes on. -/
def segsAt (m : Mot) (t : Nat) : List PSeg → Mot
  | [] => { m with x := dadd m.x (dmul m.v t), a := 0 }
  | p :: l => if dlt t p.dur then segRun m p.jerk t else segsAt (segRun m p.jerk p.dur) (dsub t p.dur) l

/-- Duration of a plan in seconds. -/
def segsDur (l : List PSeg) : Nat := l.foldl (fun t p => dadd t p.dur) 0

/-! ## Building blocks (R305) -/

/-- The shortest motion that gains the velocity `dv` in direction `sg`, from acceleration `a0` to `a1`, both taken in that
direction, with the acceleration at most `lim`. From an `a0` above `lim` the acceleration comes down to it first. -/
def leg (sg : Int) (jm a0 a1 dv lim : Nat) : List PSeg :=
  let j := dsig sg jm
  let sq := dhalf (dadd (dmul a0 a0) (dmul a1 a1))
  let ap2 := dadd (dmul jm dv) sq
  if fle f64 ap2 (dmul lim lim) then
    let ap := fsqrt f64 ap2
    [⟨j, fmax f64 0 (ddiv (dsub ap a0) jm)⟩, ⟨fneg f64 j, fmax f64 0 (ddiv (dsub ap a1) jm)⟩]
  else if dlt lim a0 then
    let used := ddiv (dhalf (dsub (dmul a0 a0) (dmul a1 a1))) jm
    [⟨fneg f64 j, ddiv (dsub a0 lim) jm⟩, ⟨0, fmax f64 0 (ddiv (dsub dv used) lim)⟩,
     ⟨fneg f64 j, fmax f64 0 (ddiv (dsub lim a1) jm)⟩]
  else
    let used := ddiv (dsub (dmul lim lim) sq) jm
    [⟨j, fmax f64 0 (ddiv (dsub lim a0) jm)⟩, ⟨0, ddiv (dsub dv used) lim⟩, ⟨fneg f64 j, fmax f64 0 (ddiv (dsub lim a1) jm)⟩]

/-- ramp(st, vt): velocity `vt` with a = 0, jerk ±j, the acceleration within the limit that applies to it: a_acc while |v|
rises, a_dec while it falls. Through velocity 0 the acceleration is the largest that both limits, the jerk up to there and the
jerk from there allow, and no smaller than the jerk can bring it down to. Velocities are taken in the direction of the ramp;
an acceleration against it first ends, at the velocity vEnd. -/
def rampTo (m : Mot) (vt : Nat) (l : Lims) : List PSeg :=
  let vEnd := dadd m.v (ddiv (dmul m.a (fabs f64 m.a)) (dmul (f64i 2) l.j))
  let sg := dsgn (dsub vt vEnd)
  if sg = 0 then
    (if fisZero f64 m.a then [] else [⟨dsig (-(dsgn m.a)) l.j, ddiv (fabs f64 m.a) l.j⟩])
  else
    let a0 := dsig sg m.a
    let u0 := dsig sg (if dlt a0 0 then vEnd else m.v)
    let ut := dsig sg vt
    let b := fmax f64 0 a0
    if dlt u0 0 && dlt 0 ut then
      let j2 := dmul (f64i 2) l.j
      let b2 := dmul b b
      let up := fsqrt f64 (dsub b2 (dmul j2 u0))
      let down := fsqrt f64 (fmax f64 0 (dadd b2 (dmul j2 u0)))
      let az := fmax f64 down (fmin f64 (fmin f64 l.acc l.dec) (fmin f64 up (fsqrt f64 (dmul j2 ut))))
      leg sg l.j a0 az (dsig (-sg) m.v) l.dec ++ leg sg l.j az 0 ut l.acc
    else leg sg l.j a0 0 (dsig sg (dsub vt m.v)) (if dlt 0 ut then l.acc else l.dec)

/-- The state after ramp(st, vt): velocity `vt` exactly and a = 0. -/
def rampEnd (m : Mot) (vt : Nat) (l : Lims) : Mot := { segsRun m (rampTo m vt l) with v := vt, a := 0 }

/-- The end of ramp to m·v_c followed by stop. -/
def directEnd (m : Mot) (sg : Int) (vc : Nat) (l : Lims) : Nat := (rampEnd (rampEnd m (dsig sg vc) l) 0 l).x

/-- The largest v_c that ends at or before `xg`, by bisection to a relative width of 2⁻⁴⁰ (R305). -/
def bisectV (m : Mot) (sg : Int) (xg : Nat) (l : Lims) : Nat → Nat → Nat → Nat
  | 0, lo, _ => lo
  | n + 1, lo, hi =>
    if fle f64 (dmul (dsub hi lo) (f64i 1099511627776)) hi then lo
    else
      let c := dhalf (dadd lo hi)
      if fle f64 0 (dsig sg (dsub xg (directEnd m sg c l))) then bisectV m sg xg l n c hi else bisectV m sg xg l n lo c

/-- direct(st, xg) in direction `sg`: ramp to v_c, cruise, stop at `xg`. -/
def directTo (m : Mot) (sg : Int) (xg : Nat) (l : Lims) : List PSeg :=
  let fits (v : Nat) : Bool := fle f64 0 (dsig sg (dsub xg (directEnd m sg v l)))
  let vc := if fits l.v then l.v else bisectV m sg xg l 1100 0 l.v
  let m1 := rampEnd m (dsig sg vc) l
  let rest := dsig sg (dsub xg (rampEnd m1 0 l).x)
  rampTo m (dsig sg vc) l ++ (if fisZero f64 vc then [] else [⟨0, ddiv (fmax f64 0 rest) vc⟩]) ++ rampTo m1 0 l

/-- p2p(x1, x2): from rest to rest (Table PROF-1). -/
def p2p (x1 x2 : Nat) (l : Lims) : List PSeg :=
  if feq f64 x1 x2 then [] else directTo ⟨x1, 0, 0⟩ (dsgn (dsub x2 x1)) x2 l

/-- The shortest motion under a_dec that brings |v| down to the limit v: the deceleration rises at jerk j, at most to a_dec,
and stands where the speed reaches v. -/
def slowTo (m : Mot) (l : Lims) : List PSeg :=
  let sg := dsgn m.v
  let w := dsig sg m.a
  let exc := dsub (fabs f64 m.v) l.v
  let j := dsig (-sg) l.j
  let at_ := fsqrt f64 (dadd (dmul w w) (dmul (dmul (f64i 2) l.j) exc))
  if fle f64 at_ l.dec then [⟨j, ddiv (dadd w at_) l.j⟩]
  else
    let rest := dadd exc (ddiv (dhalf (dsub (dmul w w) (dmul l.dec l.dec))) l.j)
    [⟨j, fmax f64 0 (ddiv (dadd w l.dec) l.j)⟩, ⟨0, fmax f64 0 (ddiv rest l.dec)⟩]

/-- The first motion of R306 that brings a state inside the limits: |a| toward its limit, then |v| down to v. -/
def bringIn (m : Mot) (l : Lims) : List PSeg :=
  let lim := if dlt (dmul m.a m.v) 0 then l.dec else l.acc
  let s1 := if dlt lim (fabs f64 m.a) then [⟨dsig (-(dsgn m.a)) l.j, ddiv (dsub (fabs f64 m.a) lim) l.j⟩] else []
  let m1 := segsRun m s1
  s1 ++ (if dlt l.v (fabs f64 m1.v) then slowTo m1 l else [])

/-- A replan: segments, REVERSAL, OVERSHOOT. -/
structure Replan where
  segs : List PSeg
  rev : Bool := false
  ovs : Bool := false
  deriving DecidableEq, Repr

/-- replan of R305 from the state `m` of the old plan, with the first motion of R306 where it lies outside the limits, and
the duration of that motion. The rest point, and the tests against it, are those of the stop from `m`. -/
def replan (m : Mot) (goalV : Bool) (goal : Nat) (l : Lims) : Replan × Nat :=
  let pre := bringIn m l
  let m1 := segsRun m pre
  let xs := (rampEnd m1 0 l).x
  let stop := pre ++ rampTo m1 0 l
  let sg := dsgn (dsub xs m.x)
  let r := dsig sg (dsub goal m.x)
  let d := dsig sg (dsub xs m.x)
  let p : Replan :=
    if goalV then
      if dlt (dmul goal m.v) 0 then { segs := stop ++ rampTo ⟨xs, 0, 0⟩ goal l, rev := true }
      else { segs := pre ++ rampTo m1 goal l }
    else if fisZero f64 m.v && fisZero f64 m.a then { segs := p2p m.x goal l }
    else if fle f64 r 0 then { segs := stop ++ p2p xs goal l, rev := true }
    else if dlt r d then { segs := stop ++ p2p xs goal l, ovs := true }
    else if feq f64 r d then { segs := stop }
    else { segs := pre ++ directTo m1 sg goal l }
  (p, segsDur pre)

/-! ## Channels -/

/-- A profile channel beside its registers. -/
def getGen (s : State) (g : Nat) : Gen := mget s.gens g {}
/-- A profile channel, replaced. -/
def setGen (s : State) (g : Nat) (v : Gen) : State := { s with gens := mput {} s.gens g v }

/-- T_P of a channel in ns. -/
def profTp (s : State) (g : Nat) : Nat := getF s PROF_P_CFG_TP g * 62500

/-- Nanoseconds as seconds in binary64. -/
def nsSec (n : Nat) : Nat := ddiv (f64i (n : Int)) (f64i 1000000000)

/-- Seconds in binary64 as ns, rounded to nearest. -/
def secNs (t : Nat) : Nat := (ftoInt f64 true 0 9223372036854775807 (dmul t (f64i 1000000000))).1.toNat

/-- The limits in force. -/
def genLims (v : Gen) : Lims := ⟨f64of32 v.limV, f64of32 v.limA, f64of32 v.limD, f64of32 v.limJ⟩

/-- The state of the plan in force at an instant: from the arrival instant on exactly the goal, which after a STOP is the
rest point (R303, R307). -/
def genAt (v : Gen) (t : Nat) : Mot :=
  if t < v.tArr then segsAt ⟨v.x0, v.v0, v.a0⟩ (nsSec (t - v.t0)) v.segs
  else if v.goalV then ⟨dadd v.rest (dmul v.goal (nsSec (t - v.tArr))), v.goal, 0⟩
  else ⟨v.goal, 0, 0⟩

/-- A motion state published: x as F64, v and a as F32. -/
def genShow (s : State) (g : Nat) (m : Mot) : State :=
  let s1 := setF (setF s PROF_P_X_LO_VAL m.x g) PROF_P_X_HI_VAL (m.x / 2 ^ 32) g
  let s2 := setF (setF s1 PROF_P_V_VAL (f32of64 m.v) g) PROF_P_A_VAL (f32of64 m.a) g
  setB s2 PROF_P_STAT_MOVING (!(fisZero f64 m.v && fisZero f64 m.a)) g

/-- A flag of P_STAT with its event condition (R303, R305, R306). -/
def genFlag (s : State) (g : Nat) (f : Fld) (n : Nat) (on : Bool) : State := level (setB s f on g) .profCh g n on

/-- A velocity goal within the speed limit in force: a limit lowered below it holds it, since no plan exceeds a limit
(R306; DEDUCED, log entry 102). -/
def goalIn (v : Gen) : Nat :=
  let l := f64of32 v.limV
  if v.goalV && dlt l (fabs f64 v.goal) then dsig (dsgn v.goal) l else v.goal

/-- A plan goes into force from the state `m` at the sample `t` with the goal and limits that `v` holds. -/
def genReplan (s : State) (g t : Nat) (m : Mot) (v00 : Gen) : State :=
  let v := { v00 with goal := goalIn v00 }
  let (p, pre) := replan m v.goalV v.goal (genLims v)
  let tArr := t + secNs (segsDur p.segs)
  let v1 := { v with t0 := t, x0 := m.x, v0 := m.v, a0 := m.a, segs := p.segs, tArr := tArr,
                     rest := (segsRun m p.segs).x, above := if fisZero f64 pre then none else some (t + secNs pre) }
  let tgt := if !v.goalV then v.goal else if fisZero f64 v.goal then v1.rest else fqnan f64
  let s1 := setF (setF (setGen s g v1) PROF_P_TGT_LO_VAL tgt g) PROF_P_TGT_HI_VAL (tgt / 2 ^ 32) g
  let s2 := setF (setF s1 PROF_P_TARR_LO_VAL tArr g) PROF_P_TARR_HI_VAL (tArr / 2 ^ 32) g
  genFlag (genFlag (setB s2 PROF_P_STAT_VELMODE v.goalV g) g PROF_P_STAT_REVERSAL 1 p.rev) g PROF_P_STAT_OVERSHOOT 2 p.ovs

/-- A STARTING or STREAMING axis uses the channel. -/
def feedsAxis (s : State) (g : Nat) : Bool :=
  (List.range (nAxis s)).any (fun a => getF s VAX_A_STAT_AXST a != 0 && getF s VAX_A_CFG_PG a == g)

/-- P_STAT as it reads: FEEDS_AXIS and SS1_LOCK follow the axes and the safety groups. -/
def profStat (s : State) (g : Nat) : Nat :=
  setBits (setBits (regW s PROF_P_STAT_MOVING g 0) 6 1 (b2n (getGen s g).lock)) 7 1 (b2n (feedsAxis s g))

/-! ## Calls (R302, R307, R308, R310, R316) -/

/-- The channels of an axis are fast. -/
def axisFast (s : State) (a : Nat) : Bool := (getChan s (getF s VAX_A_CH_POSW a)).latched.fast

/-- The launch period of an axis: T_F where its position channel is fast, T_C0 otherwise (R312). -/
def axisPeriod (s : State) (a : Nat) : Nat :=
  if axisFast s a then period s 0 / nFast s (getF s VAX_A_CFG_STATION a / 4)
  else period s 0

/-- The speed limit `v` (F32) breaks VMAX_HIGH for an axis: v × |SCALE| × P > DMAX (R315). -/
def vmaxHigh (s : State) (a v : Nat) : Bool :=
  dlt (f64i ((getF s VAX_A_LIM_DMAX a : Nat) : Int))
    (dmul (dmul (f64of32 v) (fabs f64 (f64of32 (getF s VAX_A_SCALE_SCALE a)))) (nsSec (axisPeriod s a)))

/-- A speed limit breaks the condition of a STARTING or STREAMING axis fed by the channel (R316). -/
def axisVmax (s : State) (g v : Nat) : Bool :=
  (List.range (nAxis s)).any (fun a => getF s VAX_A_STAT_AXST a != 0 && getF s VAX_A_CFG_PG a == g && vmaxHigh s a v)

/-- A limit is finite and greater than 0. -/
def limOk (v : Nat) : Bool := fisFin f32 v && flt f32 0 v

/-- Four F32 values of a descriptor. -/
def fourF32 (s : State) (x : Call) (o : Nat) : (Nat × Nat × Nat × Nat) × State :=
  let (a, s1) := dsc s x o 4
  let (b, s2) := dsc s1 x (o + 4) 4
  let (c, s3) := dsc s2 x (o + 8) 4
  let (d, s4) := dsc s3 x (o + 12) 4
  ((a, b, c, d), s4)

/-- One call at its sample: the channel with its goal and limits changed, the code byte, and whether it took effect. -/
def profCall (s0 : State) (g : Nat) (v : Gen) (x : Call) : State × Gen × Nat × Bool :=
  let s := dscBegin s0 x
  match x.fn with
  | 0 =>
    let (kind, s1) := dsc s x 0 1
    let (lims, s2) := dsc s1 x 1 1
    let (tgt, s3) := dsc s2 x 8 8
    let ((a, b, c, d), s4) := fourF32 s3 x 16
    let v1 := if lims = 1 then { v with limV := a, limA := b, limD := c, limJ := d } else v
    if v.lock then (latch s4 .profCh g 16, v, 0x12, false)
    else if kind > 1 ∨ lims > 1 then (s4, v, 0x15, false)
    else if lims = 1 ∧ !(limOk a && limOk b && limOk c && limOk d) then (s4, v, 0x10, false)
    else if lims = 1 ∧ axisVmax s4 g a then (s4, v, 0x13, false)
    else if !fisFin f64 tgt ∨ (kind = 1 ∧ dlt (f64of32 v1.limV) (fabs f64 tgt)) then (s4, v, 0x11, false)
    else (s4, { v1 with goalV := kind == 1, goal := tgt }, 0, true)
  | 1 =>
    let ((a, b, c, d), s1) := fourF32 s x 0
    if v.lock then (latch s1 .profCh g 16, v, 0x12, false)
    else if !(limOk a && limOk b && limOk c && limOk d) then (s1, v, 0x10, false)
    else if axisVmax s1 g a then (s1, v, 0x13, false)
    else (s1, { v with limV := a, limA := b, limD := c, limJ := d }, 0, true)
  | _ => (s, { v with goalV := true, goal := 0 }, 0, true)

/-- A call of another later one of the same function replaces it at its sample (R98). -/
def profSuperseded (cs : List Call) (x : Call) : Bool :=
  (x.fn == 0 || x.fn == 1) && ((cs.dropWhile (· != x)).drop 1).any (fun y => y.fn == x.fn)

/-- The calls that take effect at a sample change goal and limits in order. -/
def profCalls (s : State) (g : Nat) (v : Gen) (due : List Call) : State × Gen × List (Call × Nat × Bool) :=
  due.foldl (fun (acc : State × Gen × List (Call × Nat × Bool)) x =>
    let (s0, v0, l) := acc
    if profSuperseded due x then (s0, v0, l ++ [(x, cSUPERSEDED, false)])
    else
      let (s1, v1, code, eff) := profCall s0 g v0 x
      (s1, v1, l ++ [(x, code, eff)])) (s, v, [])

/-- A call completes at its sample: T_ARR and RES where it took effect (R302, R310). -/
def profDone (s : State) (g t : Nat) (p : Call × Nat × Bool) : State :=
  let (x, code, eff) := p
  if !eff then complete s x code 0
  else
    let v := getGen s g
    let s1 := if x.fn = 0 then dscOut s x 0x20 8 v.tArr else if x.fn = 1 then dscOut s x 0x10 8 v.tArr
              else if x.len ≥ 8 then dscOut s x 0 8 v.tArr else s
    let res := getF s PROF_P_STAT_REVERSAL g + 2 * getF s PROF_P_STAT_OVERSHOOT g + 4 * b2n v.above.isSome
    complete (maxF s1 PROF_EFFMAX_NS (t - x.since)) x code res

/-- The engine has planned a call: it waits for its sample, or, while the lock of R308 holds, a MOVE or LIMITS ends. -/
def profTake (s : State) (x : Call) : State :=
  let g := x.inst
  if (getGen s g).lock ∧ x.fn ≤ 1 then complete (latch s .profCh g 16) x 0x12 0
  else setGen s g { getGen s g with wait := (getGen s g).wait ++ [(now s, x)] }

/-- READ of a profile channel (Table PROF-4). -/
def profRead (s : State) (x : Call) : State :=
  let g := x.inst
  let v := getGen s g
  let s1 := dscOut (dscOut s x 0 4 (getF s PROF_P_X_LO_VAL g)) x 4 4 (getF s PROF_P_X_HI_VAL g)
  let s2 := dscOut (dscOut s1 x 8 4 (getF s1 PROF_P_V_VAL g)) x 12 4 (getF s1 PROF_P_A_VAL g)
  let s3 := dscOut s2 x 0x10 4 (profStat s2 g)
  let s4 := wrBs s3 (x.addr + 0x24) ([v.limV, v.limA, v.limD, v.limJ].flatMap (leBytes 4))
  complete (dscOut s4 x 0x28 8 v.at_) x 0 0

/-- The engine finishes planning the oldest queued PROF call, now (R302). -/
def execProfPlan (s : State) : Res :=
  match getEngq s 1 with
  | [] => .next s
  | x :: q =>
    let s1 := setEngq s 1 q
    .next (if x.fn = 3 then profRead s1 x else profTake s1 x)

/-- The oldest queued call to channel `g`, of function `fn`, has been planned. -/
def profTakeFn (s : State) (g fn : Nat) : State :=
  match takeCall s 1 g fn with
  | none => s
  | some (x, s1) => profTake s1 x

/-- MOVE to channel `g` is planned. -/
def execMove (g : Nat) (s : State) : Res := .next (profTakeFn s g 0)
/-- LIMITS to channel `g` is planned. -/
def execLimits (g : Nat) (s : State) : Res := .next (profTakeFn s g 1)
/-- STOP to channel `g` is planned. -/
def execProfStop (g : Nat) (s : State) : Res := .next (profTakeFn s g 2)
/-- READ of channel `g`. -/
def execProfRead (g : Nat) (s : State) : Res :=
  match takeCall s 1 g 3 with
  | none => .next s
  | some (x, s1) => .next (profRead s1 x)

/-- A channel reaches a sample instant: the STOP of an SS1 start, then the planned calls take effect, one replan is made,
and the state is published (R302, R303, R308). -/
def execProfSample (g : Nat) (s : State) : Res :=
  if g ≥ 128 ∨ !inRun s .profCh g ∨ !owns s ∨ !reaches s (profTp s g) 0 then .next s
  else
    let t := now s
    let v := getGen s g
    let m := genAt v t
    let ss := match v.ss1 with | some a => decide (a ≤ t) | none => false
    let v1 := if ss then { v with goalV := true, goal := 0, ss1 := none } else v
    let due := (v.wait.filter (fun p => decide (p.1 + 1000 < t))).map Prod.snd
    let v2 := { v1 with wait := v.wait.filter (fun p => !decide (p.1 + 1000 < t)), at_ := t }
    let (s1, v3, ends) := profCalls s g v2 due
    let eff := ss || ends.any (fun p => p.2.2)
    let s2 := if eff then genReplan s1 g t m v3 else setGen s1 g v3
    let s3 := if ss then latch s2 .prof 0 1 else s2
    let v4 := getGen s3 g
    let s4 := genShow s3 g (genAt v4 t)
    let s5 := genFlag s4 g PROF_P_STAT_ARRIVED 0 (decide (t ≥ v4.tArr))
    let ab := match v4.above with | some e => decide (t < e) | none => false
    let s6 := genFlag (if ab then s5 else setGen s5 g { v4 with above := none }) g PROF_P_STAT_ABOVE_LIM 3 ab
    let s7 := profToLoops s6 g (t / profTp s g * profTp s g)
    .next (forEach ends s7 (fun s p => profDone s g t p))

/-! ## Entering and leaving RUN (R309) -/

/-- The checks of a RUN request of a channel; the code that refuses it. -/
def profRunCheck (s : State) (g : Nat) : Option Nat :=
  let tp := getF s PROF_P_CFG_TP g
  let e := tableEntry s (getF s PROF_P_INITCH_CHAN g)
  if tp = 0 ∨ tp > 160 ∨ 16000 % tp ≠ 0 ∨ getF s PROF_P_CFG_INIT_SRC g = 3 then some 0x0A01
  else if [PROF_P_VMAX_VAL, PROF_P_AACC_VAL, PROF_P_ADEC_VAL, PROF_P_JERK_VAL].any (fun f => !limOk (getF s f g)) then
    some 0x0A10
  else if getF s PROF_P_CFG_INIT_SRC g = 1 ∧
      (getF s PROF_P_INITCH_CHAN g ≥ nChan s ∨ !e.used ∨ e.isOut ∨ (e.img ≠ 6 ∧ e.img ≠ 7)) then some 0x0A14
  else none

/-- The position at rest a channel starts from. -/
def profStart (s : State) (g : Nat) : Nat :=
  match getF s PROF_P_CFG_INIT_SRC g with
  | 0 => f64of32 (getF s PROF_P_X0_VAL g)
  | 1 =>
    let c := getChan s (getF s PROF_P_INITCH_CHAN g)
    tyF64 c.latched.img c.inVal
  | _ => getF s PROF_P_X_LO_VAL g + getF s PROF_P_X_HI_VAL g * 2 ^ 32

/-- A channel enters RUN at rest, in position mode, with the limits of its registers. -/
def profEnterRun (s : State) (g : Nat) : State :=
  let x := profStart s g
  let v : Gen := { limV := getF s PROF_P_VMAX_VAL g, limA := getF s PROF_P_AACC_VAL g, limD := getF s PROF_P_ADEC_VAL g,
                   limJ := getF s PROF_P_JERK_VAL g, goal := x, lock := (getGen s g).lock, at_ := now s }
  genFlag (genShow (genReplan s g (now s) ⟨x, 0, 0⟩ v) g ⟨x, 0, 0⟩) g PROF_P_STAT_ABOVE_LIM 3 false

/-- A channel stops where it is: x held, v = a = 0; its calls end with a code. -/
def profHalt (s : State) (g code : Nat) : State :=
  let v := getGen s g
  let m := genAt v (now s)
  let s1 := genShow (setGen s g { v with wait := [], ss1 := none, segs := [], x0 := m.x, v0 := 0, a0 := 0, goalV := false,
                                         goal := m.x, t0 := now s, tArr := now s, above := none }) g ⟨m.x, 0, 0⟩
  endQueued (completeAll s1 (v.wait.map Prod.snd) code) 1 g code

/-- A channel leaves RUN: its calls end NOT_RUN. -/
def profLeaveRun (s : State) (g : Nat) : State := profHalt s g cNOTRUN

end Sys2Proof.Machine
end

