-- ==== Sys2Proof/Machine/Vax.lean ====
section
/-!
DEFINITION. The valve-axis streamer: position words, axis states, standstill, shapes and calls (R311 to R319).
-/

namespace Sys2Proof.Machine

open R

/-! ## Access -/

/-- A valve axis beside its registers. -/
def getAxis (s : State) (a : Nat) : Axis := mget s.axes a {}
/-- A valve axis, replaced. -/
def setAxis (s : State) (a : Nat) (v : Axis) : State := { s with axes := mput {} s.axes a v }

/-- A_STAT.AXST: 0 STOPPED, 1 STARTING, 2 STREAMING. -/
def axSt (s : State) (a : Nat) : Nat := getF s VAX_A_STAT_AXST a
/-- Station index of an axis. -/
def axStation (s : State) (a : Nat) : Nat := getF s VAX_A_CFG_STATION a
/-- Profile channel of an axis. -/
def axProf (s : State) (a : Nat) : Nat := getF s VAX_A_CFG_PG a

/-- VAX.SHAPE_USE: shapes named by a STARTING or STREAMING axis. -/
def shapeUse (s : State) : Nat :=
  (List.range (nAxis s)).foldl (fun m a => if axSt s a = 0 then m else m ||| 2 ^ getF s VAX_A_CFG_SHAPE a) 0

/-- Entry `i` of shape `k` of the module's store (R314). -/
def shapeEntry (s : State) (k i : Nat) : Nat :=
  if i % 2 = 0 then getF s VAX_SHAPE_T_LO 0 (k * 128 + i / 2) else getF s VAX_SHAPE_T_HI 0 (k * 128 + i / 2)

/-- A word of the shape store written: refused while an axis that names the shape is STARTING or STREAMING. -/
def shapeWrite (s : State) (k w v : Nat) : State :=
  if bitOf (shapeUse s) k then unitErr s .vax 0 0x0B17 else setRegW s VAX_SHAPE_T_LO 0 (k * 128 + w) v

/-- A write to VAX.SHAPE: word offset in bytes from 0x4058_1000. -/
def execVaxShapeWrite (o v : Nat) (s : State) : Res :=
  if o < 4096 then .next (shapeWrite s (o / 512) (o % 512 / 4) v) else .next s

/-! ## Launches (R312, R318) -/

/-- round(x × SCALE), ties to even. -/
def axScaled (s : State) (a x : Nat) : Int :=
  (ftoInt f64 true (-9223372036854775808) 9223372036854775807
    (dmul x (f64of32 (getF s VAX_A_SCALE_SCALE a)))).1

/-- The apply instant of the next launch of an axis's channels (R22, R312). -/
def axApply (s : State) (a : Nat) : Nat :=
  let p := axisPeriod s a
  (now s / p + 1) * p +
    (if axisFast s a then s.tl.tFao else s.tl.tAo)

/-- COIL of a standstill that began at apply instant `b`, for a launch applied at `ta`: RUN, HOLD or the STILL state. -/
def stillCoil (s : State) (a b ta : Nat) : Nat :=
  let tS := getF s VAX_A_STILL_T_STILL a * 1000000
  let tH := getF s VAX_A_STILL_T_HRED a * 1000000
  let still := 2 + getF s VAX_A_CFG_STILL a
  if tS = 0 ∨ ta < b + tS then 0
  else if getB s VAX_A_CFG_HRED a ∧ ta < b + tS + tH then 1 else still

/-- The word and control value of an axis go to its OUT slots. -/
def axSend (s : State) (a : Nat) (m : Int) (coil sync ta : Nat) : State :=
  let s1 := putOut s (getF s VAX_A_CH_POSW a) (pat 32 m) false
  let s2 := putOut s1 (getF s VAX_A_CH_CTL a) (coil + 4 * sync) false
  let s3 := if coil ≥ 2 ∧ getF s VAX_A_STAT_COIL a < 2 then latch s2 .vaxAx a 8 else s2
  setF (setF (setF (setF s3 VAX_A_M_VAL (pat 32 m) a) VAX_A_STAT_COIL coil a) VAX_A_TAPP_LO_STAMP ta a)
    VAX_A_TAPP_HI_STAMP (ta / 2 ^ 32) a

/-- The table download of an axis is waited for no more. -/
def axForget (s : State) (a : Nat) : State :=
  let p := axStation s a / 4
  setAq s p ((getPort s p).aq.filter (fun e => e.axis != some a))

/-- An axis faults: STOPPED, m frozen, the standstill sequence from now (R317). -/
def axFault (s : State) (a code cause ta : Nat) : State :=
  let v := getAxis s a
  let s1 := setAxis (axForget s a) a { v with start := none, stop := none, ready := false, still := some ta, wake := 0 }
  let s2 := setF (setF (latch (unitErr s1 .vaxAx a code) .vaxAx a 1) VAX_A_STAT_AXST 0 a) VAX_A_STAT_FCAUSE cause a
  let s3 := match v.start with | some c => complete s2 c (code % 256) 0 | none => s2
  match v.stop with | some c => complete s3 c (code % 256) 0 | none => s3

/-- A STREAMING or STARTING axis faults when its station has left UP and LATE. -/
def axStationCheck (s : State) (a : Nat) : State :=
  let st := stState s (axStation s a)
  if inRun s .vaxAx a && axSt s a != 0 && st != 2 && st != 3 then
    setF (axFault s a 0x0B19 1 (axApply s a)) VAX_A_STAT_REFOK 0 a
  else s

/-- want of R312 for a launch applied at `ta`, and SRC. -/
def axWant (s : State) (a ta : Nat) (mPrev : Int) : Int × Bool :=
  if inRun s .profCh (axProf s a) then
    (axScaled s a (genAt (getGen s (axProf s a)) (ta + axisPeriod s a)).x + sint 32 (getF s VAX_A_OFS_VAL a), false)
  else (mPrev, true)

/-- A STREAMING axis computes its word. A standstill under way goes on while the word stays as it is, WAKE launches included
(R318). -/
def axStream (s : State) (a ta : Nat) : State :=
  let v := getAxis s a
  let mPrev := sint 32 (getF s VAX_A_M_VAL a)
  let (want, src) := axWant s a ta mPrev
  let d : Int := ((getF s VAX_A_LIM_DMAX a : Nat) : Int)
  let coil := getF s VAX_A_STAT_COIL a
  let free := clampI (-d) d (want - mPrev)
  let wake := if v.wake > 0 then v.wake else if free ≠ 0 ∧ coil ≥ 2 then getF s VAX_A_CFG_WAKE a else 0
  let step := if wake > 0 then 0 else free
  let m := mPrev + step
  let lag := want - m
  let clamped := wake = 0 ∧ step ≠ want - mPrev
  let still := if step ≠ 0 then none else match v.still with | some b => some b | none => if lag = 0 then some ta else none
  let c := if wake > 0 then 0 else match still with | some b => stillCoil s a b ta | none => 0
  let s1 := setAxis s a { v with wake := wake - 1, still := still }
  let s2 := setF (setB (setB (axSend s1 a m c 0 ta) VAX_A_STAT_SRC src a) VAX_A_STAT_CLAMPED clamped a)
    VAX_A_LAG_VAL (satI 32 lag) a
  let s3 := if clamped then latch (incF s2 VAX_A_CLAMPS_COUNT a) .vaxAx a 4 else s2
  let lm := getF s VAX_A_LIM_LAG_MAX a
  if lm ≠ 0 ∧ lag.natAbs > lm then axFault s3 a 0x0B18 2 ta else s3

/-- What the next launch of an axis that does not stream carries: the standstill command of a STOP call, which completes with
it, or the coil state of a standstill under way. -/
def axHold (s : State) (a ta : Nat) (m : Int) : State :=
  let v := getAxis s a
  match v.stop, v.still with
  | some c, _ => complete (axSend (setAxis s a { v with stop := none }) a m (2 + getF s VAX_A_CFG_STILL a) 0 ta) c 0 0
  | none, some b => axSend s a m (stillCoil s a b ta) 0 ta
  | none, none => s

/-- Axis `a` prepares the next launch of its channels, 2 µs ahead of it. The launch of a waiting STOP comes before the one
that a START taken after it brings (R315). -/
def axisLaunch (a : Nat) (s : State) : State :=
  if a ≥ nAxis s ∨ !inRun s .vaxAx a ∨ !owns s then s
  else
    let s := axStationCheck s a
    let ta := axApply s a
    let v := getAxis s a
    let m := sint 32 (getF s VAX_A_M_VAL a)
    match axSt s a with
    | 2 => axStream s a ta
    | 1 =>
      if v.ready && v.stop.isNone then
        let (want, src) := axWant s a ta m
        let s1 := axSend (setAxis s a {}) a want 0 1 ta
        let s2 := setF (setF (setB s1 VAX_A_STAT_SRC src a) VAX_A_LAG_VAL 0 a) VAX_A_STAT_CLAMPED 0 a
        latch (setF (setF s2 VAX_A_STAT_AXST 2 a) VAX_A_STAT_FCAUSE 0 a) .vaxAx a 2
      else axHold s a ta m
    | _ => axHold s a ta m

/-! ## Calls (R315) -/

/-- START of axis `a`: the checks of Table PROF-5 in order, then the table download. -/
def execVaxStart (a : Nat) (s : State) : Res :=
  match takeCall s 2 a 0 with
  | none => .next s
  | some (c, s) =>
    if axSt s a ≠ 0 then .next (complete s c 0x16 0)
    else if !getB s VAX_A_STAT_REFOK a then .next (complete s c 0x11 0)
    else if stState s (axStation s a) ≠ 2 then .next (complete s c 0x12 0)
    else if vmaxHigh s a (getGen s (axProf s a)).limV then .next (complete s c 0x14 0)
    else
      let k := getF s VAX_A_CFG_SHAPE a
      let p := axStation s a / 4
      let tab := (List.range 256).flatMap (fun i => leBytes 2 (shapeEntry s k i))
      let s1 := setF (setAxis s a { getAxis s a with start := some c, ready := false }) VAX_A_STAT_AXST 1 a
      let (tok, s2) := nextToken s1 p
      .next (aqAdmit s2 p { pos := axStation s a % 4, svc := 6, token := tok, arg1 := getF s VAX_A_CFG_SAX a + 256 * k,
                            data := tab ++ leBytes 4 (crcEth tab), cls := 1, since := now s, tmo := tAcyc s p,
                            axis := some a })

/-- The profile channel of an axis is at rest. -/
def axRest (s : State) (a : Nat) : Bool := !getB s PROF_P_STAT_MOVING (axProf s a)

/-- STOP of axis `a`: completes at the next launch. -/
def execVaxStop (a : Nat) (s : State) : Res :=
  match takeCall s 2 a 1 with
  | none => .next s
  | some (c, s) =>
    if axSt s a ≠ 2 then .next (complete s c 0x16 0)
    else if !axRest s a ∨ getF s VAX_A_LAG_VAL a ≠ 0 then .next (complete s c 0x15 0)
    else .next (setF (setAxis s a { stop := some c }) VAX_A_STAT_AXST 0 a)

/-- SETREF of axis `a`. -/
def execSetref (a : Nat) (s : State) : Res :=
  match takeCall s 2 a 2 with
  | none => .next s
  | some (c, s) =>
    if axSt s a ≠ 0 then .next (complete s c 0x16 0)
    else if !axRest s a then .next (complete s c 0x15 0)
    else
      let (m, s1) := dsc s c 0 4
      let g := axProf s a
      let x := getF s PROF_P_X_LO_VAL g + getF s PROF_P_X_HI_VAL g * 2 ^ 32
      let o := sint 32 m - axScaled s a x
      .next (complete (setF (setF s1 VAX_A_OFS_VAL (pat 32 o) a) VAX_A_STAT_REFOK 1 a) c 0 0)

/-- SHAPE, called at axis `a` (R314). -/
def execShape (a : Nat) (s : State) : Res :=
  match takeCall s 2 a 3 with
  | none => .next s
  | some (c, s) =>
    let (k, s1) := dsc s c 0 1
    let k := k % 8
    if bitOf (shapeUse s1) k then .next (complete s1 c 0x17 0)
    else
      let (tab, s2) := engRd s1 (c.addr + 0x18) 512
      .next (complete (forEach (List.range 128) s2 (fun s i =>
        setRegW s VAX_SHAPE_T_LO 0 (k * 128 + i) (leNat ((tab.drop (4 * i)).take 4)))) c 0 0)

/-- READ of axis `a` (Table PROF-6). -/
def execVaxRead (a : Nat) (s : State) : Res :=
  match takeCall s 2 a 4 with
  | none => .next s
  | some (c, s) =>
    let s1 := dscOut (dscOut s c 0 4 (getF s VAX_A_M_VAL a)) c 4 4 (getF s VAX_A_LAG_VAL a)
    let s2 := dscOut s1 c 8 4 (regW s1 VAX_A_STAT_AXST a 0)
    .next (complete (dscOut s2 c 0x10 8 (getF s VAX_A_TAPP_LO_STAMP a + getF s VAX_A_TAPP_HI_STAMP a * 2 ^ 32)) c 0 0)

/-! ## RUN, restart (R311, R319) -/

/-- A channel of an axis meets R311, with type code `ty`. -/
def axChanOk (s : State) (a n ty : Nat) : Bool :=
  let e := tableEntry s n
  decide (n < nChan s) && e.used && e.isOut && e.src == 1 && e.raw == ty && e.img == ty && e.ownKind == 3 &&
  e.ownInst == a && e.cls == 0 && !e.scaleEn && !e.limEn && e.point == axStation s a

/-- The checks of a RUN request of an axis; the code that refuses it. -/
def vaxRunCheck (s : State) (a : Nat) : Option Nat :=
  let sc := getF s VAX_A_SCALE_SCALE a
  let p := tableEntry s (getF s VAX_A_CH_POSW a)
  let c := tableEntry s (getF s VAX_A_CH_CTL a)
  if getF s VAX_A_CFG_WAKE a = 0 ∨ getF s VAX_A_LIM_DMAX a = 0 ∨ !fisFin f32 sc ∨ fisZero f32 sc then some 0x0B01
  else if !axChanOk s a (getF s VAX_A_CH_POSW a) 3 ∨ !axChanOk s a (getF s VAX_A_CH_CTL a) 0 ∨ p.fast ≠ c.fast ∨
      c.subst % 4 = 0 then some 0x0B10
  else none

/-- An axis is STOPPED; its calls in progress end with a code. -/
def axStopped (s : State) (a code : Nat) : State :=
  let v := getAxis s a
  let s1 := setF (setAxis (axForget s a) a {}) VAX_A_STAT_AXST 0 a
  let s2 := match v.start with | some c => complete s1 c code 0 | none => s1
  match v.stop with | some c => complete s2 c code 0 | none => s2

/-- An axis enters RUN: STOPPED. -/
def vaxEnterRun (s : State) (a : Nat) : State := setF (setF (setAxis s a {}) VAX_A_STAT_AXST 0 a) VAX_A_STAT_FCAUSE 0 a

/-- An axis leaves RUN: its calls end NOT_RUN. -/
def vaxLeaveRun (s : State) (a : Nat) : State := endQueued (axStopped s a cNOTRUN) 2 a cNOTRUN

/-- A restart stops every axis; a COLD restart clears OFS and REFOK (R319). -/
def vaxRestart (s : State) (cold : Bool) : State :=
  forEach (List.range (nAxis s)) s (fun s a =>
    let s1 := if axSt s a = 0 then s else axStopped s a cABORTED
    if cold then setF (setF s1 VAX_A_OFS_VAL 0 a) VAX_A_STAT_REFOK 0 a else s1)

end Sys2Proof.Machine
end

