-- ==== Sys2Proof/Machine/Basin.lean ====
section
/-!
DEFINITION. Basin: problem contexts, the units of the solver, the outcome of a solve, results, delivery and calls
(R29, R320 to R346). The right-hand sides of the two directions of R330 are those of Newton's method for the iterates of R329
(log entry 151); the order of the floating operations is the model's own (log entry 13).
-/

namespace Sys2Proof.Machine

open R

/-! ## Access -/

/-- A QP context beside its registers. -/
def getQp (s : State) (q : Nat) : QpSt := mget s.bsn.qps q {}
/-- A QP context, replaced. -/
def setQp (s : State) (q : Nat) (v : QpSt) : State := { s with bsn := { s.bsn with qps := mput {} s.bsn.qps q v } }

/-- n of a context. -/
def qN (s : State) (q : Nat) : Nat := getF s BSN_Q_DIM_NV q
/-- m_e of a context. -/
def qMe (s : State) (q : Nat) : Nat := getF s BSN_Q_DIM_ME q
/-- m_i of a context. -/
def qMi (s : State) (q : Nat) : Nat := getF s BSN_Q_DIM_MI q

/-- Footprint of a shape in bytes (R322). -/
def footBytes (n me mi : Nat) : Nat :=
  8 * (n * n + n * (me + mi) + (n + me) * (n + me)) + 64 * (n + me + 2 * mi) + 4096

/-- Footprint of a context in 4 KB units. -/
def footOf (s : State) (q : Nat) : Nat := ceilDiv (footBytes (qN s q) (qMe s q) (qMi s q)) 4096

/-- A range lies wholly in DATA or DDRW, or, where `ret`, in RETAIN, and starts at a multiple of 8 (R321, R324, R327). -/
def areaOk (ret : Bool) (a n : Nat) : Bool :=
  a % 8 == 0 && (decide (a + n ≤ 0x00800000) || (decide (0x10000000 ≤ a) && decide (a + n ≤ 0x20000000)) ||
    (ret && decide (0x00800000 ≤ a) && decide (a + n ≤ 0x00A00000)))

/-- A vector of `n` F64 in memory as the engine reads it. -/
def readVec (s : State) (a n : Nat) : List Nat × State :=
  let (b, s1) := engRd s a (8 * n)
  ((List.range n).map (fun i => leNat ((b.drop (8 * i)).take 8)), s1)

/-- The bytes of a vector. -/
def vecBytes (v : List Nat) : List Byte := v.flatMap (leBytes 8)

/-! ## Vectors and matrices -/

/-- Entry `i` of a vector. -/
def vAt (v : List Nat) (i : Nat) : Nat := v.getD i 0
/-- Scalar product, in rising order of index (log entry 13). -/
def vDot (a b : List Nat) : Nat := (a.zip b).foldl (fun t p => dadd t (dmul p.1 p.2)) 0
/-- Largest absolute entry. -/
def vInf (v : List Nat) : Nat := v.foldl (fun t x => fmax f64 t (fabs f64 x)) 0
/-- Every entry is finite. -/
def vFin (v : List Nat) : Bool := v.all (fisFin f64)
/-- Entries combined by an operation. -/
def vZip (f : Nat → Nat → Nat) (a b : List Nat) : List Nat := List.zipWith f a b
/-- Row `i` of a column-major matrix of `m` rows and `n` columns. -/
def mRow (a : List Nat) (m n i : Nat) : List Nat := (List.range n).map (fun j => vAt a (j * m + i))
/-- A matrix times a vector. -/
def mVec (a : List Nat) (m n : Nat) (z : List Nat) : List Nat := (List.range m).map (fun i => vDot (mRow a m n i) z)
/-- A transposed matrix times a vector. -/
def mTVec (a : List Nat) (m n : Nat) (y : List Nat) : List Nat :=
  (List.range n).map (fun j => vDot ((a.drop (j * m)).take m) y)
/-- Entry (i, j) of H, whose lower triangle is read (R321). -/
def hAt (h : List Nat) (n i j : Nat) : Nat := if i ≥ j then vAt h (j * n + i) else vAt h (i * n + j)
/-- Hz. -/
def hVec (h : List Nat) (n : Nat) (z : List Nat) : List Nat :=
  (List.range n).map (fun i => vDot ((List.range n).map (fun j => hAt h n i j)) z)
/-- z kept inside the box, entry by entry; an infinite side clamps nothing. -/
def boxClamp (z lo hi : List Nat) : List Nat :=
  (List.range z.length).map (fun i =>
    let x := vAt z i
    let x1 := if i < lo.length ∧ dlt x (vAt lo i) then vAt lo i else x
    if i < hi.length ∧ dlt (vAt hi i) x1 then vAt hi i else x1)
/-- A bound side is present: it is finite (R320). -/
def side (x : Nat) : Bool := fisFin f64 x

/-! ## The method (R329 to R332) -/

/-- A variable whose bounds are equal (R320). -/
def fixedVar (v : QVecs) (j : Nat) : Bool := feq f64 (vAt v.zmin j) (vAt v.zmax j)

/-- A value moved into [lo + ρ, hi − ρ] of R330. -/
def moveIn (x lo hi : Nat) : Nat :=
  let rho := if side lo && side hi then fmin f64 (f64i 1) (ddiv (dsub hi lo) (f64i 4)) else f64i 1
  let a := dadd lo rho
  let b := dsub hi rho
  if side lo && dlt x a then a else if side hi && dlt b x then b else x

/-- The starting point of R330 from a starting z. A side that is not finite has no multiplier: its entry is 0. -/
def startIter (n me mi : Nat) (ain : List Nat) (v : QVecs) (z0 : List Nat) : Iter :=
  let z := (List.range n).map (fun j => if fixedVar v j then vAt v.zmin j else moveIn (vAt z0 j) (vAt v.zmin j) (vAt v.zmax j))
  let sl := (List.range mi).map (fun i => moveIn (vAt (mVec ain mi n z) i) (vAt v.l i) (vAt v.u i))
  let one (b : List Nat) (k : Nat) : List Nat := (List.range k).map (fun i => if side (vAt b i) then f64i 1 else 0)
  { z := z, sl := sl, y := List.replicate me (f64i 1), lu := one v.u mi, ll := one v.l mi, nu := one v.zmax n, nl := one v.zmin n }

/-- Multiplier over gap, summed over the finite sides. -/
def ratio (lo hi x ml mu : Nat) : Nat :=
  dadd (if side lo then ddiv ml (dsub x lo) else 0) (if side hi then ddiv mu (dsub hi x) else 0)

/-- Entry (i, j), i ≥ j, of the reduced KKT matrix K at an iterate (R329). -/
def kktAt (p : QpSt) (n me mi : Nat) (v : QVecs) (it : Iter) (i j : Nat) : Nat :=
  if i < n then
    if fixedVar v i || fixedVar v j then (if i = j then f64i 1 else 0)
    else
      let sg := (List.range mi).map (fun k => ratio (vAt v.l k) (vAt v.u k) (vAt it.sl k) (vAt it.ll k) (vAt it.lu k))
      let q := (List.range mi).foldl (fun t k =>
        dadd t (dmul (dmul (vAt p.ain (i * mi + k)) (vAt sg k)) (vAt p.ain (j * mi + k)))) (hAt p.h n i j)
      if i = j then dadd q (ratio (vAt v.zmin i) (vAt v.zmax i) (vAt it.z i) (vAt it.nl i) (vAt it.nu i)) else q
  else if j < n then (if fixedVar v j then 0 else vAt p.aeq (j * me + (i - n)))
  else 0

/-- The LDLᵀ factorisation of R329 and R331, row by row: each finished row is (its L entries, its pivot). Answers the rows,
the number of pivots replaced, and whether one was Inf or NaN, which is not replaced. -/
def pivots (eps dreg dmax : Nat) (n : Nat) (fixed : Nat → Bool) (k : Nat → Nat → Nat) :
    List Nat → List (List Nat × Nat) → Nat × Bool → List (List Nat × Nat) × Nat × Bool
  | [], rows, c => (rows, c)
  | i :: rest, rows, c =>
    let li := rows.foldl (fun (acc : List Nat × Nat) r =>
      let j := acc.2
      let t := (List.range j).foldl (fun t m =>
        dsub t (dmul (dmul (vAt acc.1 m) (vAt r.1 m)) ((rows.getD m ([], 0)).2))) (k i j)
      (acc.1 ++ [ddiv t r.2], j + 1)) (([] : List Nat), 0)
    let d := (List.range i).foldl (fun t m =>
      dsub t (dmul (dmul (vAt li.1 m) (vAt li.1 m)) ((rows.getD m ([], 0)).2))) (k i i)
    let pos := decide (i < n)
    let sd := if pos then d else fneg f64 d
    if fixed i then pivots eps dreg dmax n fixed k rest (rows ++ [(li.1, f64i 1)]) c
    else if fisFin f64 d && fle f64 sd (dmul eps dmax) then
      pivots eps dreg dmax n fixed k rest (rows ++ [(li.1, if pos then dreg else fneg f64 dreg)]) (c.1 + 1, c.2)
    else pivots eps dreg dmax n fixed k rest (rows ++ [(li.1, d)]) (c.1, c.2 || !fisFin f64 d)

/-- K factorised at an iterate: its factors, the pivots regularised, and whether one was Inf or NaN. -/
def factorise (s : State) (q : Nat) (v : QVecs) (it : Iter) : List (List Nat × Nat) × Nat × Bool :=
  let p := getQp s q
  let (n, me, mi) := (qN s q, qMe s q, qMi s q)
  let k (i j : Nat) : Nat := kktAt p n me mi v it i j
  let dmax := (List.range (n + me)).foldl (fun t i => fmax f64 t (fabs f64 (k i i))) 0
  pivots (f64of32 (getF s BSN_Q_EPSPIV_VAL q)) (f64of32 (getF s BSN_Q_DREG_VAL q)) dmax n
    (fun i => decide (i < n) && fixedVar v i) k (List.range (n + me)) [] (0, false)

/-- The products multiplier × gap over the finite sides. -/
def gapProds (v : QVecs) (it : Iter) : List Nat :=
  (List.range it.sl.length).flatMap (fun i =>
    (if side (vAt v.u i) then [dmul (vAt it.lu i) (dsub (vAt v.u i) (vAt it.sl i))] else []) ++
    (if side (vAt v.l i) then [dmul (vAt it.ll i) (dsub (vAt it.sl i) (vAt v.l i))] else [])) ++
  (List.range it.z.length).flatMap (fun j =>
    if fixedVar v j then [] else
    (if side (vAt v.zmax j) then [dmul (vAt it.nu j) (dsub (vAt v.zmax j) (vAt it.z j))] else []) ++
    (if side (vAt v.zmin j) then [dmul (vAt it.nl j) (dsub (vAt it.z j) (vAt v.zmin j))] else []))

/-- μ of an iterate: the mean of the products, 0 when there are none (R332). -/
def muOf (v : QVecs) (it : Iter) : Nat :=
  let ps := gapProds v it
  if ps.isEmpty then 0 else ddiv (ps.foldl dadd 0) (f64i (ps.length : Int))

/-- The row multipliers λ_u − λ_l. -/
def lamOf (it : Iter) : List Nat := vZip dsub it.lu it.ll

/-- ‖r_p‖∞, ‖r_d‖∞ and μ of an iterate (R332). -/
def measured (p : QpSt) (n me mi : Nat) (v : QVecs) (it : Iter) : Iter :=
  let rp := fmax f64 (vInf (vZip dsub (mVec p.aeq me n it.z) v.beq)) (vInf (vZip dsub (mVec p.ain mi n it.z) it.sl))
  let g := vZip dadd (vZip dadd (hVec p.h n it.z) v.f) (mTVec p.aeq me n it.y)
  let rd := vInf (vZip dsub (vZip dsub g (mTVec p.ain mi n (lamOf it))) (vZip dsub it.nu it.nl))
  { it with rp := rp, rd := rd, mu := muOf v it }

/-- LDLᵀ x = b. -/
def ldlSolve (rows : List (List Nat × Nat)) (b : List Nat) : List Nat :=
  let l (i j : Nat) : Nat := vAt (rows.getD i ([], 0)).1 j
  let w := (List.range rows.length).foldl (fun w i =>
    w ++ [(List.range i).foldl (fun t j => dsub t (dmul (l i j) (vAt w j))) (vAt b i)]) ([] : List Nat)
  (List.range rows.length).reverse.foldl (fun x i =>
    (List.range x.length).foldl (fun t k => dsub t (dmul (l (i + 1 + k) i) (vAt x k))) (ddiv (vAt w i) (rows.getD i ([], 0)).2) :: x) []

/-- The direction that brings every product multiplier × gap to `t`, with the second-order terms of the direction `a` (all
zero for the predictor): Newton's method on the reduced system K (R329, R330; DEDUCED, log entry 151). A fixed variable and a
side that is not finite do not move. -/
def direction (p : QpSt) (n me mi : Nat) (v : QVecs) (rows : List (List Nat × Nat)) (it : Iter) (t : Nat) (a : Iter) : Iter :=
  let row (f : Nat → Nat) : List Nat := (List.range mi).map f
  let col (f : Nat → Nat) : List Nat := (List.range n).map f
  let ru := row (fun i => if side (vAt v.u i) then
    ddiv (dadd t (dmul (vAt a.lu i) (vAt a.sl i))) (dsub (vAt v.u i) (vAt it.sl i)) else 0)
  let rl := row (fun i => if side (vAt v.l i) then
    ddiv (dsub t (dmul (vAt a.ll i) (vAt a.sl i))) (dsub (vAt it.sl i) (vAt v.l i)) else 0)
  let bu := col (fun j => if side (vAt v.zmax j) then
    ddiv (dadd t (dmul (vAt a.nu j) (vAt a.z j))) (dsub (vAt v.zmax j) (vAt it.z j)) else 0)
  let bl := col (fun j => if side (vAt v.zmin j) then
    ddiv (dsub t (dmul (vAt a.nl j) (vAt a.z j))) (dsub (vAt it.z j) (vAt v.zmin j)) else 0)
  let rs := vZip dsub (mVec p.ain mi n it.z) it.sl
  let sg := row (fun i => ratio (vAt v.l i) (vAt v.u i) (vAt it.sl i) (vAt it.ll i) (vAt it.lu i))
  let w := row (fun i => dadd (dmul (vAt sg i) (vAt rs i)) (dsub (vAt ru i) (vAt rl i)))
  let g := vZip dadd (vZip dadd (vZip dadd (hVec p.h n it.z) v.f) (mTVec p.aeq me n it.y)) (mTVec p.ain mi n w)
  let rz := col (fun j => if fixedVar v j then 0 else fneg f64 (dadd (vAt g j) (dsub (vAt bu j) (vAt bl j))))
  let x := ldlSolve rows (rz ++ vZip dsub v.beq (mVec p.aeq me n it.z))
  let dz := col (fun j => if fixedVar v j then 0 else vAt x j)
  let ds := vZip dadd (mVec p.ain mi n dz) rs
  { z := dz, sl := ds, y := x.drop n,
    lu := row (fun i => if side (vAt v.u i) then
      dadd (dsub (vAt ru i) (vAt it.lu i)) (dmul (ddiv (vAt it.lu i) (dsub (vAt v.u i) (vAt it.sl i))) (vAt ds i)) else 0),
    ll := row (fun i => if side (vAt v.l i) then
      dsub (dsub (vAt rl i) (vAt it.ll i)) (dmul (ddiv (vAt it.ll i) (dsub (vAt it.sl i) (vAt v.l i))) (vAt ds i)) else 0),
    nu := col (fun j => if side (vAt v.zmax j) && !fixedVar v j then
      dadd (dsub (vAt bu j) (vAt it.nu j)) (dmul (ddiv (vAt it.nu j) (dsub (vAt v.zmax j) (vAt it.z j))) (vAt dz j)) else 0),
    nl := col (fun j => if side (vAt v.zmin j) && !fixedVar v j then
      dsub (dsub (vAt bl j) (vAt it.nl j)) (dmul (ddiv (vAt it.nl j) (dsub (vAt it.z j) (vAt v.zmin j))) (vAt dz j)) else 0) }

/-- Every gap and multiplier of the finite sides with its change along a direction. -/
def gapPairs (v : QVecs) (it d : Iter) : List (Nat × Nat) :=
  (List.range it.sl.length).flatMap (fun i =>
    (if side (vAt v.u i) then [(dsub (vAt v.u i) (vAt it.sl i), fneg f64 (vAt d.sl i)), (vAt it.lu i, vAt d.lu i)] else []) ++
    (if side (vAt v.l i) then [(dsub (vAt it.sl i) (vAt v.l i), vAt d.sl i), (vAt it.ll i, vAt d.ll i)] else [])) ++
  (List.range it.z.length).flatMap (fun j =>
    if fixedVar v j then [] else
    (if side (vAt v.zmax j) then [(dsub (vAt v.zmax j) (vAt it.z j), fneg f64 (vAt d.z j)), (vAt it.nu j, vAt d.nu j)] else []) ++
    (if side (vAt v.zmin j) then [(dsub (vAt it.z j) (vAt v.zmin j), vAt d.z j), (vAt it.nl j, vAt d.nl j)] else []))

/-- The largest step along a direction that keeps every gap and multiplier positive, and at most +∞ (R330). -/
def boundaryStep (v : QVecs) (it d : Iter) : Nat :=
  (gapPairs v it d).foldl (fun t p => if dlt p.2 0 then fmin f64 t (ddiv p.1 (fneg f64 p.2)) else t) (finf f64 false)

/-- An iterate moved by a step along a direction; a fixed variable holds its value. -/
def moved (it d : Iter) (al : Nat) : Iter :=
  let go (x y : List Nat) : List Nat := vZip (fun a b => dadd a (dmul al b)) x y
  { z := go it.z d.z, sl := go it.sl d.sl, y := go it.y d.y, lu := go it.lu d.lu, ll := go it.ll d.ll,
    nu := go it.nu d.nu, nl := go it.nl d.nl }

/-- Predictor, σ := (μ_aff / μ)³, corrector with the same factors, and α := min(1, 0.99 × the largest step) (R330). Without
finite sides there is nothing to centre. -/
def mehrotra (p : QpSt) (n me mi : Nat) (v : QVecs) (rows : List (List Nat × Nat)) (it : Iter) : Iter × Nat :=
  let aff := direction p n me mi v rows it 0 {}
  let mu := muOf v it
  let r := ddiv (muOf v (moved it aff (fmin f64 (f64i 1) (boundaryStep v it aff)))) mu
  let t := if (gapProds v it).isEmpty then 0 else dmul (dmul (dmul r r) r) mu
  let d := direction p n me mi v rows it t aff
  (d, fmin f64 (f64i 1) (dmul (ddiv (f64i 99) (f64i 100)) (boundaryStep v it d)))

/-- An iterate holds no Inf and no NaN. -/
def iterFin (it : Iter) : Bool :=
  vFin it.z && vFin it.sl && vFin it.y && vFin it.lu && vFin it.ll && vFin it.nu && vFin it.nl

/-- The step along a direction with up to `k` halvings of α (R330); none when every trial holds an Inf or a NaN. -/
def tryStep (it d : Iter) : Nat → Nat → Option Iter
  | 0, al => if iterFin (moved it d al) then some (moved it d al) else none
  | k + 1, al => if iterFin (moved it d al) then some (moved it d al) else tryStep it d k (dhalf al)

/-! ## Outcomes (R334 to R337) -/

/-- The acceptance test of R334; answers z_p where it passes. -/
def accepted (s : State) (q : Nat) (v : QVecs) (it : Iter) : Option (List Nat) :=
  let p := getQp s q
  let (n, me, mi) := (qN s q, qMe s q, qMi s q)
  let tol := f64of32 (getF s BSN_Q_TOLACC_VAL q)
  let zp := boxClamp it.z v.zmin v.zmax
  let r := mVec p.ain mi n zp
  if vFin zp && fle f64 (vInf (vZip dsub (mVec p.aeq me n zp) v.beq)) tol &&
      (List.range mi).all (fun i => fle f64 (dsub (vAt v.l i) tol) (vAt r i) && fle f64 (vAt r i) (dadd (vAt v.u i) tol)) then
    some zp
  else none

/-- ½zᵀHz + fᵀz. -/
def objOf (s : State) (q : Nat) (v : QVecs) (z : List Nat) : Nat :=
  dadd (dhalf (vDot z (hVec (getQp s q).h (qN s q) z))) (vDot v.f z)

/-- The shift base moved by one step (R335). -/
def shifted (s : State) (q : Nat) (z : List Nat) : List Nat :=
  let ofs := getF s BSN_Q_SHIFT_OFS q
  let st := getF s BSN_Q_SHIFT_STRIDE q
  let steps := getF s BSN_Q_SHIFT_STEPS q
  (List.range z.length).map (fun k =>
    if ofs ≤ k ∧ k < ofs + st * (steps - 1) then vAt z (k + st) else vAt z k)

/-- The result area of a context. -/
def qRes (s : State) (q : Nat) : Nat := getF s BSN_Q_RES_ADDR q

/-- Event bits of a decision (context EVT_LAT). -/
def qEvents (flags : Nat) : Nat :=
  1 + 2 * bits flags 2 1 + 4 * bits flags 3 1 + 8 * bits flags 5 1 + 16 * bits flags 7 1 + 32 * bits flags 8 1 +
    64 * bits flags 6 1

/-- A result is decided: status, counters, delivery and its place in the write path. -/
def postResult (s : State) (q : Nat) (v : Solve) (r : QpRes) : State :=
  let s1 := { s with bsn := { s.bsn with decided := s.bsn.decided ++ [r] } }
  let s2 := setF (setF (setF s1 BSN_Q_LAST_FLAGS r.flags q) BSN_Q_LAST_ITER r.iter q) BSN_Q_LAST_DECIDED r.why q
  let s3 := setF (setF (setF s2 BSN_Q_LASTSEQ_VAL r.call.ticket q) BSN_Q_DEC_LO_VAL r.stamp q) BSN_Q_DEC_HI_VAL (r.stamp / 2 ^ 32) q
  let cnt := if bitOf r.flags 0 then BSN_Q_CNT0_A else if bitOf r.flags 1 then BSN_Q_CNT0_B
             else if bitOf r.flags 2 then BSN_Q_CNT1_A else BSN_Q_CNT1_B
  let s4 := maxF (incF s3 cnt q) BSN_Q_TMAX_NS (r.stamp - v.at_) q
  let s5 := setB s4 BSN_Q_STAT_HAVE_BASE (!bitOf r.flags 3) q
  let s6 := if bits r.flags 0 2 ≠ 0 then setF s5 BSN_Q_STAT_SHIFTS 0 q
            else if bitOf r.flags 2 then setF s5 BSN_Q_STAT_SHIFTS (getF s5 BSN_Q_STAT_SHIFTS q + 1) q else s5
  let s7 := statSample (latch s6 .bsnCtx q (qEvents r.flags)) 6 q (f64i (r.stamp - v.at_))
  if bitOf v.opt 2 then s7
  else
    let ds := (List.range 16).filter (fun i => getB s7 BSN_Q_DLV_EN q i)
    let l := ds.map (fun i => (v.d, getF s7 BSN_Q_DLV_LPC q i, f32of64 (vAt r.z (getF s7 BSN_Q_DLV_IDX q i))))
    { s7 with bsn := { s7.bsn with dlv := s7.bsn.dlv ++ l } }

/-- The flags of a solve that do not name its delivery: PIVREG and ILLPOSED. -/
def pivFlags (v : Solve) : Nat := 64 * b2n (decide (v.nreg > 0)) + 128 * b2n v.ill

/-- A result that carries an iterate: CONVERGED or SUBOPT. -/
def iterResult (s : State) (q : Nat) (v : Solve) (it : Iter) (z : List Nat) (flags why : Nat) : QpRes :=
  { ctx := q, call := v.call, d := v.d, code := 0, flags := flags + pivFlags v, iter := v.k, why := why, stamp := now s,
    obj := objOf s q v.vecs z, rp := it.rp, rd := it.rd, mu := it.mu, nreg := v.nreg, z := z, y := it.y, lam := lamOf it }

/-- f, z_min and z_max of a solve whose vectors were not read: as its operands give them, or as the previous solve had them
(DEDUCED, log entry 152). -/
def solveVecs (s : State) (q : Nat) (v : Solve) : QVecs × State :=
  if v.ready then (v.vecs, s)
  else
    let n := qN s q
    let old := ((getQp s q).prev.getD {})
    let get (s : State) (a : Nat) (d : List Nat) : List Nat × State :=
      if areaOk true a (8 * n) then readVec s a n else (d, s)
    let (f, s0) := get s (v.addrs.getD 0 0) old.f
    let (lo, s1) := get s0 (v.addrs.getD 4 0) old.zmin
    let (hi, s2) := get s1 (v.addrs.getD 5 0) old.zmax
    ({ f := f, zmin := lo, zmax := hi }, s2)

/-- OBJ of a delivered z; open where no f is known (DESIGN CHOICE, log entry 152). -/
def objShow (s : State) (q : Nat) (v : QVecs) (z : List Nat) : Nat × State :=
  if v.f.length = qN s q then (objOf s q v z, s) else fresh 64 s

/-- The shift base: z of the latest result of the context, from the result area once it is written there (R335). -/
def baseZ (s : State) (q : Nat) : List Nat × State :=
  match (s.bsn.decided.filter (fun r => r.ctx == q)).getLast? with
  | some r => (r.z, s)
  | none => readVec s (qRes s q + 0x40) (qN s q)

/-- The shift path of R335, or FALLBACK alone where `fb`. `code` completes the call. -/
def shiftPath (s00 : State) (q : Nat) (v : Solve) (flags why code : Nat) (fb : Bool) : State :=
  let (vs, s0) := solveVecs s00 q v
  let nan := fqnan f64
  let out (s : State) (z : List Nat) (bit : Nat) : State :=
    let (obj, s1) := objShow s q vs z
    postResult s1 q v
      { ctx := q, call := v.call, d := v.d, code := code, flags := bit + flags + pivFlags v, iter := v.k, why := why,
        stamp := now s1, obj := obj, rp := nan, rd := nan, mu := nan, nreg := v.nreg, z := z,
        y := List.replicate (qMe s1 q) 0, lam := List.replicate (qMi s1 q) 0 }
  if !fb && decide (getF s0 BSN_Q_SHIFT_STEPS q ≥ 2) && getB s0 BSN_Q_STAT_HAVE_BASE q &&
      decide (getF s0 BSN_Q_STAT_SHIFTS q < getF s0 BSN_Q_ITER_K_SHIFT q) then
    let (z, s1) := baseZ s0 q
    out s1 (boxClamp (shifted s1 q z) vs.zmin vs.zmax) 4
  else
    let (z, s1) := readVec s0 (getF s0 BSN_Q_FB_ADDR q) (qN s0 q)
    out s1 z 8

/-- Acceptance of the last completed iterate, else the shift path: the deadline, the cap and a failed iteration. -/
def acceptOrShift (s : State) (q : Nat) (v : Solve) (flags why : Nat) : State :=
  match v.last with
  | none => shiftPath s q v flags why 0 false
  | some it =>
    match accepted s q v.vecs it with
    | some zp => postResult s q v (iterResult s q v it zp (2 + flags) why)
    | none => shiftPath s q v flags why 0 false

/-! ## Scheduling (R339) -/

/-- Phase and waiting state shown in Q_STAT, and the count of undecided solves. -/
def qShow (s : State) (q : Nat) : State :=
  let p := getQp s q
  let busy := getB s BSN_RUNNING_BUSY && getF s BSN_RUNNING_CTX == q
  let ph := match p.run with
    | none => 0
    | some v => if !v.started then 1 else if busy && !v.ready && bitOf v.opt 0 then 3 else 2
  let s1 := setB (setF s BSN_Q_STAT_PHASE ph q) BSN_Q_STAT_WAITING p.wait.isSome q
  let s2 := setF s1 BSN_Q_STAT_ITER (match p.run with | some v => v.k | none => 0) q
  let und := s2.bsn.qps.foldl (fun n x => n + b2n x.2.run.isSome + b2n x.2.wait.isSome) 0
  setF s2 BSN_RUNNING_UNDEC und

/-- The context whose undecided solve has the earliest deadline. -/
def nextSolve (s : State) : Option Nat :=
  (s.bsn.qps.foldl (fun (acc : Option (Nat × Nat)) x =>
    match x.2.run with
    | none => acc
    | some v =>
      match acc with
      | none => some (v.d, x.1)
      | some (d, _) => if v.d < d then some (v.d, x.1) else acc) none).map Prod.snd

/-- The idle engine starts the next unit. -/
def bsnStart (s : State) : State :=
  if getB s BSN_RUNNING_BUSY then s
  else
    match nextSolve s with
    | none => s
    | some q =>
      let p := getQp s q
      let s1 := setQp s q { p with run := p.run.map (fun v => { v with started := true }) }
      let s2 := setF (setF s1 BSN_RUNNING_BUSY 1) BSN_RUNNING_CTX q
      qShow { s2 with bsn := { s2.bsn with unitAt := now s } } q

/-- The unit in progress ends or is abandoned: its time counts as busy. -/
def unitOver (s : State) : State :=
  if getB s BSN_RUNNING_BUSY then
    let s1 := setF s BSN_RUNNING_BUSY 0
    let from_ := max s.bsn.unitAt (now s / 1000000000 * 1000000000)
    { s1 with bsn := { s1.bsn with busy := s1.bsn.busy + (now s - from_) } }
  else s

/-- A second of PTP time begins: BSN.UTIL shows the one that ended. -/
def bsnSecond (s : State) : State :=
  let t := now s / 1000000000 * 1000000000
  let run := if getB s BSN_RUNNING_BUSY then t - max s.bsn.unitAt (t - 1000000000) else 0
  setF { s with bsn := { s.bsn with busy := 0 } } BSN_UTIL_NS (s.bsn.busy + run)

/-- The running solve of a context is over: the waiting one takes its place. A unit of it in progress is abandoned. -/
def solveOver (s : State) (q : Nat) : State :=
  let p := getQp s q
  let s1 := setQp s q { p with run := p.wait, wait := none }
  let s2 := if getB s1 BSN_RUNNING_BUSY ∧ getF s1 BSN_RUNNING_CTX = q then unitOver s1 else s1
  qShow (bsnStart (qShow s2 q)) q

/-! ## Units (R325, R330 to R333) -/

/-- The six vectors of a solve as its operands name them: (address index, length). -/
def vecLens (s : State) (q : Nat) : List (Nat × Nat) :=
  [(0, qN s q), (1, qMe s q), (2, qMi s q), (3, qMi s q), (4, qN s q), (5, qN s q)]

/-- An operand address breaks R324, or asks for a previous vector that does not exist. -/
def addrBad (s : State) (q : Nat) (v : Solve) : Bool :=
  let noPrev := (getQp s q).prev.isNone
  (vecLens s q).any (fun p =>
    let a := v.addrs.getD p.1 0
    if p.1 = 1 ∧ p.2 = 0 then false else if a = 0xFFFFFFFF then noPrev else !areaOk true a (8 * p.2)) ||
  (v.addrs.getD 6 0 != 0xFFFFFFFF && !areaOk true (v.addrs.getD 6 0) (8 * qN s q)) || decide (v.opt ≥ 8)

/-- The vectors of a solve read at its start. -/
def readVecs (s : State) (q : Nat) (v : Solve) : QVecs × State :=
  let old := (getQp s q).prev.getD {}
  let get (s : State) (k n : Nat) (d : List Nat) : List Nat × State :=
    let a := v.addrs.getD k 0
    if n = 0 then ([], s) else if a = 0xFFFFFFFF then (d, s) else readVec s a n
  let (f, s1) := get s 0 (qN s q) old.f
  let (b, s2) := get s1 1 (qMe s q) old.beq
  let (l, s3) := get s2 2 (qMi s q) old.l
  let (u, s4) := get s3 3 (qMi s q) old.u
  let (lo, s5) := get s4 4 (qN s q) old.zmin
  let (hi, s6) := get s5 5 (qN s q) old.zmax
  ({ f := f, beq := b, l := l, u := u, zmin := lo, zmax := hi }, s6)

/-- The values of a solve's vectors fail R325. -/
def vecsBad (v : QVecs) : Bool :=
  let lo := v.l ++ v.zmin
  let hi := v.u ++ v.zmax
  !vFin v.f || !vFin v.beq || lo.any (fisNan f64) || hi.any (fisNan f64) || lo.any (· == finf f64 false) ||
  hi.any (· == finf f64 true) || (v.l.zip v.u).any (fun p => feq f64 p.1 p.2)

/-- Some lower bound lies above its upper bound (R333). -/
def boundsCross (v : QVecs) : Bool := (v.l.zip v.u).any (fun p => dlt p.2 p.1) || (v.zmin.zip v.zmax).any (fun p => dlt p.2 p.1)

/-- The matrices of a context copied from memory; none where an address breaks R321 or an entry is not finite. -/
def copyMats (s : State) (q : Nat) : Option (List Nat × List Nat × List Nat) × State :=
  let (n, me, mi) := (qN s q, qMe s q, qMi s q)
  let ok (a k : Nat) : Bool := k == 0 || areaOk false a (8 * k)
  let ah := getF s BSN_Q_H_ADDR q
  let ae := getF s BSN_Q_AEQ_ADDR q
  let ai := getF s BSN_Q_AIN_ADDR q
  if !ok ah (n * n) || !ok ae (me * n) || !ok ai (mi * n) then (none, s)
  else
    let (h, s1) := readVec s ah (n * n)
    let (e, s2) := readVec s1 ae (me * n)
    let (i, s3) := readVec s2 ai (mi * n)
    let hOk := (List.range n).all (fun j => (List.range n).all (fun r => decide (r < j) || fisFin f64 (vAt h (j * n + r))))
    (if hOk && vFin e && vFin i then some (h, e, i) else none, s3)

/-- The setup of a solve ends. -/
def setupEnd (s : State) (q : Nat) (v : Solve) : State :=
  if addrBad s q v then solveOver (shiftPath s q v 0 3 0x13 false) q
  else
    let (vs, s1) := readVecs s q v
    if vecsBad vs then solveOver (shiftPath s1 q { v with vecs := vs, ready := true } 0 3 0x13 false) q
    else
      let (mats, s2) := if bitOf v.opt 0 then copyMats s1 q else (some ((getQp s1 q).h, (getQp s1 q).aeq, (getQp s1 q).ain), s1)
      let v1 := { v with vecs := vs, ready := true }
      let s3 := setQp s2 q { getQp s2 q with prev := some vs }
      match mats with
      | none => solveOver (shiftPath s3 q v1 0 3 0x12 false) q
      | some (h, e, i) =>
        let s4 := setQp s3 q { getQp s3 q with h := h, aeq := e, ain := i }
        if boundsCross vs then solveOver (shiftPath s4 q v1 32 3 0 false) q
        else
          let a0 := v.addrs.getD 6 0
          let (z0, s5) :=
            if a0 ≠ 0xFFFFFFFF then readVec s4 a0 (qN s4 q)
            else if bitOf v.opt 1 ∧ getB s4 BSN_Q_STAT_HAVE_BASE q then
              let (z, s5) := baseZ s4 q
              (boxClamp (shifted s5 q z) vs.zmin vs.zmax, s5)
            else (List.replicate (qN s4 q) 0, s4)
          let it := startIter (qN s5 q) (qMe s5 q) (qMi s5 q) i vs z0
          bsnStart (qShow (setQp s5 q { getQp s5 q with run := some { v1 with cur := it } }) q)

/-- The infeasibility test of R333 after iteration `k`, `rps` latest first. -/
def infeasible (s : State) (q k : Nat) (rps : List Nat) (mu mu1 : Nat) : Bool :=
  let rp := rps.headD 0
  decide (k ≥ 10) && dlt (f64of32 (getF s BSN_Q_TOLP_VAL q)) rp &&
  fle f64 (ddiv (dmul (f64i 9) (rps.getD 5 0)) (f64i 10)) rp && fle f64 (dmul mu (f64i 1000000)) mu1

/-- The iterate is converged (R332). -/
def converged (s : State) (q : Nat) (it : Iter) : Bool :=
  fle f64 it.rp (f64of32 (getF s BSN_Q_TOLP_VAL q)) && fle f64 it.rd (f64of32 (getF s BSN_Q_TOLD_VAL q)) &&
  fle f64 it.mu (f64of32 (getF s BSN_Q_TOLMU_VAL q))

/-- An iteration of a solve ends; a pivot that is Inf or NaN makes it fail (R330). Infeasibility detected at the cap shows
CAPPED with INFEAS (R332; DEDUCED, log entry 152). -/
def iterEnd (s : State) (q : Nat) (v : Solve) : State :=
  let (n, me, mi) := (qN s q, qMe s q, qMi s q)
  let (rows, np, bad) := factorise s q v.vecs v.cur
  let s2 := incF s BSN_Q_NREG_COUNT q 0 np
  let v1 := { v with nreg := v.nreg + np, ill := v.ill || decide (np > getF s BSN_Q_ITER_N_ILL q) }
  let (d, al) := mehrotra (getQp s q) n me mi v.vecs rows v.cur
  match (if bad then none else tryStep v.cur d 3 al) with
  | none => solveOver (acceptOrShift s2 q v1 256 3) q
  | some it0 =>
    let it := measured (getQp s2 q) n me mi v.vecs it0
    let k := v.k + 1
    let mu1 := if k = 1 then it.mu else v.mu1
    let v2 := { v1 with k := k, cur := it, last := some it, rps := it.rp :: v1.rps, mu1 := mu1 }
    let cap := decide (k ≥ getF s2 BSN_Q_ITER_CAP q)
    if converged s2 q it then
      solveOver (postResult s2 q v2 (iterResult s2 q v2 it (boxClamp it.z v2.vecs.zmin v2.vecs.zmax) 1 0)) q
    else if infeasible s2 q k v2.rps it.mu mu1 then solveOver (shiftPath s2 q v2 (32 + 16 * b2n cap) 3 0 false) q
    else if cap then solveOver (acceptOrShift s2 q v2 16 1) q
    else bsnStart (qShow (setQp s2 q { getQp s2 q with run := some v2 }) q)

/-- A solve is withdrawn: it completes with a code and leaves no result; the CANCEL calls that waited for it complete with
a code of theirs (R342). -/
def withdraw (s : State) (v : Solve) (code ccode : Nat) : State := completeAll (complete s v.call code 0) v.cancel ccode

/-- The undecided solves of context `q` whose decision instant D − t_dlv has come are decided; the unit in progress is
abandoned (R29, R337, R340). A CANCEL that waited for the end of the unit finds its solve decided and completes with nothing
withdrawn (DEDUCED from R97, R340, R342; log entry 101). -/
def deadlineDecide (s : State) (q : Nat) : State :=
  match (getQp s q).run with
  | none => s
  | some v =>
    let s1 := if now s + 4000 ≥ v.d then
        let s0 := if getB s BSN_RUNNING_BUSY ∧ getF s BSN_RUNNING_CTX = q then unitOver s else s
        solveOver (completeAll (acceptOrShift s0 q v 0 2) v.cancel 0) q
      else s
    match (getQp s1 q).run, (getQp s q).wait with
    | some w, some w' => if w.call = w'.call ∧ now s + 4000 ≥ w.d then solveOver (acceptOrShift s1 q w 0 2) q else s1
    | _, _ => s1

/-- The unit in progress ends, and the next begins (R339). A unit that would end after the decision instant of its solve has
been abandoned at it (R337). -/
def execBsnUnit (s : State) : Res :=
  if !getB s BSN_RUNNING_BUSY then .next (bsnStart s)
  else
    let q := getF s BSN_RUNNING_CTX
    let s1 := maxF (unitOver s) BSN_UNITMAX_NS (now s - s.bsn.unitAt)
    match (getQp s q).run with
    | none => .next (bsnStart s1)
    | some v =>
      if now s + 4000 > v.d then .next (deadlineDecide s q)
      else if !v.cancel.isEmpty then .next (solveOver (withdraw s1 v cABORTED 0) q)
      else .next (if v.ready then iterEnd s1 q v else setupEnd s1 q v)

/-! ## Deadline, result write and delivery (R29, R327, R340, R344) -/

/-- BSN_DEADLINE_DECISION of context `q`. -/
def execBsnDeadlineDecision (q : Nat) (s : State) : Res := .next (deadlineDecide s q)

/-- The decided result with the earliest deadline. -/
def nextResult (s : State) : Option QpRes :=
  s.bsn.decided.foldl (fun acc r => match acc with | none => some r | some b => if r.d < b.d then some r else acc) none

/-- OSTAT of a result (Table BSN-3). -/
def ostat (r : QpRes) : Nat := r.call.ticket + r.flags * 2 ^ 32 + r.iter * 2 ^ 41 + r.why * 2 ^ 48

/-- A decided result is written: the area, then OSTAT, then the completion. -/
def resultWrite (s : State) (r : QpRes) : State :=
  let a := qRes s r.ctx
  let s1 := { s with bsn := { s.bsn with decided := s.bsn.decided.erase r } }
  let s2 := wrBs s1 (a + 8) (leBytes 8 r.stamp ++ leBytes 8 r.obj ++ leBytes 8 r.rp ++ leBytes 8 r.rd ++ leBytes 8 r.mu ++
    leBytes 4 r.nreg ++ leBytes 12 0 ++ vecBytes r.z ++ vecBytes r.y ++ vecBytes r.lam)
  complete (wrN s2 a 8 (ostat r)) r.call r.code r.flags

/-- The write path writes the decided result with the earliest deadline. -/
def execBsnResultWrite (s : State) : Res :=
  match nextResult s with
  | none => .next s
  | some r => .next (resultWrite s r)

/-- Results whose deadline has come are written. -/
def writesDue : Nat → State → State
  | 0, s => s
  | n + 1, s =>
    match nextResult s with
    | none => s
    | some r => if r.d ≤ now s then writesDue n (resultWrite s r) else s

/-- What R29 has done by now: every solve whose D − t_dlv has come is decided, every result whose D has come is written. -/
def bsnSettle (s : State) : State :=
  let s1 := forEach (mkeys s.bsn.qps) s deadlineDecide
  writesDue s1.bsn.decided.length s1

/-- Deliveries whose deadline has come reach their loop contexts, after the results are written (R29, R30, R344). -/
def bsnDeliver (s0 : State) : State :=
  let s := bsnSettle s0
  let due := s.bsn.dlv.filter (fun d => decide (d.1 ≤ now s))
  let s1 := { s with bsn := { s.bsn with dlv := s.bsn.dlv.filter (fun d => !decide (d.1 ≤ now s)) } }
  forEach due s1 (fun s d => setLoop s d.2.1 { getLoop s d.2.1 with bnext := (getLoop s d.2.1).bnext ++ [(d.1, d.2.2)] })

/-- An uncorrectable error in the scratch of context `q` (R338). -/
def execScratchUncorr (q : Nat) (s : State) : Res :=
  if q ≥ 16 then .next s
  else
    let s1 := latch (unitErr s .bsnCtx q 0x0C18) .bsn 0 1
    if !inRun s .bsnCtx q then .next s1
    else
      let p := getQp s1 q
      let s2 := match p.run with | some v => completeAll (shiftPath s1 q v 0 3 0x18 true) v.cancel cABORTED | none => s1
      let s3 := match p.wait with | some v => withdraw s2 v cABORTED cABORTED | none => s2
      let s4 := setQp s3 q { getQp s3 q with wait := none }
      .next (endQueued (setF (setSt (solveOver s4 q) .bsnCtx q stFAULT) (hBusy .bsnCtx) 0 q) 3 q cABORTED)

/-! ## Calls (R324, R340 to R342, R346) -/

/-- The deadlines of the undecided solves, but for one call. -/
def deadlines (s : State) : List Nat :=
  s.bsn.qps.flatMap (fun x => (x.2.run.toList ++ x.2.wait.toList).map Solve.d)

/-- SOLVE to context `q` is taken. -/
def execSolve (q : Nat) (s : State) : Res :=
  match takeCall s 3 q 0 with
  | none => .next s
  | some (c, s) =>
    let (d, s1) := dsc s c 0 8
    let (b, s2) := engRd s1 (c.addr + 0x18) 32
    let w (i : Nat) : Nat := leNat ((b.drop (4 * i)).take 4)
    let v : Solve := { call := c, d := d, at_ := now s, addrs := (List.range 7).map w, opt := w 7 }
    let p := getQp s2 q
    if d > now s + 60000000000 then .next (complete s2 c 0x17 0)
    else if ((deadlines s2).filter (fun x => decide (x < d + 4000) && decide (d < x + 4000))).length ≥ 4 then
      .next (complete s2 c 0x16 0)
    else
      match p.run with
      | none =>
        let s3 := setQp s2 q { p with run := some v }
        if d ≤ now s + 4000 then .next (solveOver (acceptOrShift s3 q v 0 2) q) else .next (qShow (bsnStart (qShow s3 q)) q)
      | some r =>
        if !r.started then
          let s3 := setQp (complete s2 r.call cSUPERSEDED 0) q { p with run := some v }
          if d ≤ now s + 4000 then .next (solveOver (acceptOrShift s3 q v 0 2) q) else .next (qShow (bsnStart (qShow s3 q)) q)
        else if d ≤ r.d then .next (complete s2 c 0x15 0)
        else
          let s3 := match p.wait with | some o => complete s2 o.call cSUPERSEDED 0 | none => s2
          .next (qShow (setQp s3 q { p with wait := some v }) q)

/-- CANCEL to context `q`: its undecided solves are withdrawn, the running one at the end of its unit. -/
def execBsnCancel (q : Nat) (s : State) : Res :=
  match takeCall s 3 q 1 with
  | none => .next s
  | some (c, s) =>
    let p := getQp s q
    let dropWait (s : State) : State :=
      setQp (match p.wait with | some v => withdraw s v cABORTED 0 | none => s) q { p with wait := none }
    match p.run with
    | none => .next (complete (qShow (dropWait s) q) c 0 0)
    | some v =>
      if getB s BSN_RUNNING_BUSY ∧ getF s BSN_RUNNING_CTX = q then
        .next (qShow (setQp (dropWait s) q { p with wait := none, run := some { v with cancel := v.cancel ++ [c] } }) q)
      else .next (complete (solveOver (dropWait (withdraw s v cABORTED 0)) q) c 0 0)

/-- The footprint that a context holds, in 4 KB units: from RUN until it enters STOP (R322, R338). -/
def footHeld (s : State) (q : Nat) : Nat :=
  if stOf s .bsnCtx q = stRUN ∨ stOf s .bsnCtx q = stFAULT then footOf s q else 0

/-- Q_STAT as it reads. -/
def qStat (s : State) (q : Nat) : Nat := setBits (regW s BSN_Q_STAT_PHASE q 0) 16 10 (footHeld s q)

/-- SCRATCH.USED. -/
def scratchUsed (s : State) : Nat := ((List.range 16).map (footHeld s)).sum

/-- READ of context `q` (Table BSN-7). -/
def execBsnRead (q : Nat) (s : State) : Res :=
  match takeCall s 3 q 2 with
  | none => .next s
  | some (c, s) =>
    let o := getF s BSN_Q_LASTSEQ_VAL q + getF s BSN_Q_LAST_FLAGS q * 2 ^ 32 + getF s BSN_Q_LAST_ITER q * 2 ^ 41 +
      getF s BSN_Q_LAST_DECIDED q * 2 ^ 48
    let s1 := dscOut (dscOut s c 0 4 (qStat s q)) c 8 8 o
    .next (complete (dscOut s1 c 16 8 (getF s BSN_Q_DEC_LO_VAL q + getF s BSN_Q_DEC_HI_VAL q * 2 ^ 32)) c 0 0)

/-! ## RUN (R322, R323) -/

/-- The result area of context `p` and a range of bytes meet. -/
def resMeets (s : State) (p a n : Nat) : Bool := meets (qRes s p) (64 + 8 * (qN s p + qMe s p + qMi s p)) a n

/-- Contexts in RUN besides `q`. -/
def otherRuns (s : State) (q : Nat) : List Nat := (List.range 16).filter (fun p => p != q && inRun s .bsnCtx p)

/-- The enabled deliveries of a context: (index, loop context). -/
def dlvOf (s : State) (q : Nat) : List (Nat × Nat) :=
  ((List.range 16).filter (fun i => getB s BSN_Q_DLV_EN q i)).map (fun i => (getF s BSN_Q_DLV_IDX q i, getF s BSN_Q_DLV_LPC q i))

/-- A delivery map breaks R344. -/
def dlvBad (s : State) (q : Nat) : Bool :=
  let m := dlvOf s q
  let others := (otherRuns s q).flatMap (fun p => (dlvOf s p).map Prod.snd)
  m.any (fun d => decide (d.1 ≥ qN s q) || others.contains d.2) || decide ((m.map Prod.snd).eraseDups.length < m.length)

/-- The checks of a RUN request that need no matrices; the code that refuses it. -/
def bsnRunCheck (s : State) (q : Nat) : Option Nat :=
  let (n, me, mi) := (qN s q, qMe s q, qMi s q)
  let st := getF s BSN_Q_SHIFT_STEPS q
  let pos (f : Fld) : Bool := limOk (getF s f q)
  if getF s BSN_Q_ITER_CAP q = 0 ∨ getF s BSN_Q_ITER_CAP q > 64 ∨
      !([BSN_Q_TOLP_VAL, BSN_Q_TOLD_VAL, BSN_Q_TOLMU_VAL, BSN_Q_TOLACC_VAL, BSN_Q_EPSPIV_VAL, BSN_Q_DREG_VAL].all pos) then
    some 0x0C01
  else if n = 0 ∨ n > 256 ∨ me > 128 ∨ mi > 512 then some 0x0C11
  else if !areaOk true (qRes s q) (64 + 8 * (n + me + mi)) ∨ !areaOk true (getF s BSN_Q_FB_ADDR q) (8 * n) ∨
      (otherRuns s q).any (fun p => resMeets s p (qRes s q) (64 + 8 * (n + me + mi)) ||
        resMeets s p (getF s BSN_Q_FB_ADDR q) (8 * n)) then some 0x0C1A
  else if st = 1 ∨ (st ≠ 0 ∧ (st > 256 ∨ getF s BSN_Q_SHIFT_STRIDE q = 0 ∨
      getF s BSN_Q_SHIFT_OFS q + getF s BSN_Q_SHIFT_STRIDE q * st > n)) then some 0x0C19
  else if dlvBad s q then some 0x0C14
  else if (otherRuns s q).foldl (fun t p => t + footOf s p) (footOf s q) > 1024 then some 0x0C10
  else none

/-- A context enters RUN with its matrices: OSTAT 0, no shift history. -/
def bsnEnterRun (s : State) (q : Nat) (h e i : List Nat) : State :=
  let s1 := wrN (setQp s q { h := h, aeq := e, ain := i }) (qRes s q) 8 0
  setF (setF s1 BSN_Q_STAT_HAVE_BASE 0 q) BSN_Q_STAT_SHIFTS 0 q

/-- REQ_RES of a refused RUN request, with its code (R143). -/
def runRefused (s : State) (b : Blk) (i code : Nat) : State := unitErr (setF (setF s (hRes b) 3 i) (hBusy b) 0 i) b i code

/-- The copy of the matrices of a context's RUN request is complete: the context enters RUN, or the request is refused
(R323). -/
def execBsnMatrixCopyDone (q : Nat) (s : State) : Res :=
  if q ≥ 16 ∨ stOf s .bsnCtx q ≠ stCONFIG ∨ !getB s (hBusy .bsnCtx) q then .next s
  else
    let (fb, s0) := readVec s (getF s BSN_Q_FB_ADDR q) (qN s q)
    let (mats, s1) := copyMats s0 q
    match bsnRunCheck s1 q with
    | some code => .next (runRefused s1 .bsnCtx q code)
    | none =>
      match mats with
      | none => .next (runRefused s1 .bsnCtx q 0x0C12)
      | some (h, e, i) =>
        if !vFin fb then .next (runRefused s1 .bsnCtx q 0x0C1A)
        else
          let s2 := setF (setF (setSt s1 .bsnCtx q stRUN) (hRes .bsnCtx) 0 q) (hBusy .bsnCtx) 0 q
          .next (bsnEnterRun s2 q h e i)

/-- A context leaves RUN: its undecided solves end NOT_RUN. -/
def bsnLeaveRun (s : State) (q : Nat) : State :=
  let p := getQp s q
  let s1 := match p.run with | some v => withdraw s v cNOTRUN cNOTRUN | none => s
  let s2 := match p.wait with | some v => withdraw s1 v cNOTRUN cNOTRUN | none => s1
  let s3 := solveOver (setQp s2 q { getQp s2 q with wait := none }) q
  endQueued s3 3 q cNOTRUN

end Sys2Proof.Machine
end

