-- ==== Sys2Proof/Machine/Can.lean ====
section
/-!
DEFINITION. The CAN FD channels: transmit FIFO and express mailboxes, reception and filters, stamps and snapshot pairs,
identifier conflicts, error states, sleep and wake (R397 to R410, R462, R374).
-/

namespace Sys2Proof.Machine

open R

/-- A channel. -/
def getCan (s : State) (k : Nat) : CanCh := mget s.can.chs k {}

/-- The pending frames of the mailboxes, as C_Q.MBX shows them. -/
def mbxBits (v : CanCh) : Nat := ([0, 1, 2, 3].map (fun m => if (mget v.mbox m none).isSome then 2 ^ m else 0)).sum

/-- A channel, replaced; C_Q and the half-full condition follow. -/
def setCan (s : State) (k : Nat) (v : CanCh) : State :=
  let s1 := { s with can := { s.can with chs := mput {} s.can.chs k v } }
  let s2 := setF (setF (setF s1 CAN_C_Q_TXF v.fifo.length k) CAN_C_Q_MBX (mbxBits v) k) CAN_C_Q_RXF v.rx.length k
  level s2 .canCh k 6 (decide (v.rx.length ≥ 128))

/-- The free-running counter of R405: 10 MHz, one count per 25 TICK periods. -/
def canCount (s : State) : Nat := s.ticks / 25 % 2 ^ 32

/-! ## Error states (ISO 11898-1) -/

/-- Error counters in force: TEC, REC, RP, STATE, and the level conditions. Entry into bus-off counts in BOFFS and records
BUS_OFF. -/
def canErrs (s : State) (k tec rec_ : Nat) : State :=
  let was := getF s CAN_C_ERR_STATE k
  let off := decide (tec > 255) || was == 2
  let st := if off then 2 else if tec > 127 ∨ rec_ > 127 then 1 else 0
  let s1 := setCan s k { getCan s k with tec := tec, rec_ := rec_ }
  let s2 := setF (setF s1 CAN_C_ERR_TEC (sat 255 tec) k) CAN_C_ERR_REC (sat 127 rec_) k
  let s3 := setF (setB s2 CAN_C_ERR_RP (decide (rec_ > 127)) k) CAN_C_ERR_STATE st k
  let s4 := level (level s3 .canCh k 0 (st == 2)) .canCh k 1 (st == 1)
  if st = 2 ∧ was ≠ 2 then unitErr (incF s4 CAN_C_ERR_BOFFS k) .canCh k 0x0F1A else s4

/-- Error counters back to 0 and the error-active state. -/
def canErrClear (s : State) (k : Nat) : State := canErrs (setF s CAN_C_ERR_STATE 0 k) k 0 0

/-- The channel takes part in bus traffic: in RUN, awake, integrated, not in bus-off. -/
def canOnBus (s : State) (k : Nat) : Bool :=
  decide (k < 4) && inRun s .canCh k && !getB s CAN_C_ERR_ASLEEP k && !(getCan s k).waking && getF s CAN_C_ERR_STATE k != 2

/-- The channel may transmit: neither bus monitoring nor restricted operation, and no SLEEP waits for bus idle. -/
def canMaySend (s : State) (k : Nat) : Bool :=
  canOnBus s k && !getB s CAN_C_CFG_LISTEN k && !getB s CAN_C_CFG_REST k && (getCan s k).sleep.isEmpty

/-- A bus error that the channel detects beside its own transmission: the receive error counter rises by 1 or 8, or the
transmit error counter by 8. In restricted operation and in bus monitoring the counters stand (ISO 11898-1). -/
def execCanBusError (k kind : Nat) (s : State) : Res :=
  if !canOnBus s k || getB s CAN_C_CFG_LISTEN k || getB s CAN_C_CFG_REST k then .next s
  else
    let v := getCan s k
    match kind with
    | 0 => .next (canErrs s k v.tec (sat 135 (v.rec_ + 1)))
    | 1 => .next (canErrs s k v.tec (sat 135 (v.rec_ + 8)))
    | 2 => .next (canErrs s k (v.tec + 8) v.rec_)
    | _ => .next s

/-- 128 occurrences of 11 recessive bits end bus-off. -/
def execBusOffRecovery (k : Nat) (s : State) : Res :=
  if k < 4 ∧ inRun s .canCh k ∧ getF s CAN_C_ERR_STATE k = 2 then .next (canErrClear s k) else .next s

/-! ## Transmission (R399 to R402, R410) -/

/-- A length of Table CAN-1 for the format. -/
def canLenOk (fdf : Bool) (n : Nat) : Bool := decide (n ≤ 8) || (fdf && [12, 16, 20, 24, 32, 48, 64].contains n)

/-- The arbitration value: the bits of the arbitration field as sent, dominant 0, first bit highest. -/
def arbVal (f : CanFrame) : Nat :=
  if f.ide then f.id / 2 ^ 18 * 2 ^ 21 + 2 ^ 20 + 2 ^ 19 + f.id % 2 ^ 18 * 2 + b2n f.rtr
  else f.id * 2 ^ 21 + b2n f.rtr * 2 ^ 20

/-- The frame of a TX or EXPRESS descriptor (Table CAN-4). -/
def canOperand (s : State) (c : Call) : CanFrame × Nat × State :=
  let (id, s1) := dsc s c 0 4
  let (fl, s2) := dsc s1 c 4 1
  let (ln, s3) := dsc s2 c 5 1
  let (mb, s4) := dsc s3 c 6 1
  let rtr := bitOf id 30
  let (d, s5) := engRd s4 (c.addr + 0x20) (if rtr then 0 else min ln 64)
  ({ id := id % 2 ^ 29, ide := bitOf id 29, rtr := rtr, fdf := bitOf fl 0, brs := bitOf fl 1, len := ln, data := d }, mb, s5)

/-- FRAME_INVALID of R410. -/
def canFrameBad (s : State) (k : Nat) (f : CanFrame) : Bool :=
  !canLenOk f.fdf f.len || (f.fdf && !getB s CAN_C_CFG_FD_EN k) || (f.rtr && f.fdf) || (!f.ide && decide (f.id ≥ 2048))

/-- TX: the frame is appended to the transmit FIFO. -/
def execCanTx (k : Nat) (s : State) : Res :=
  match takeCall s 5 k 0 with
  | none => .next s
  | some (c, s0) =>
    let (f, _, s1) := canOperand s0 c
    if canFrameBad s1 k f then .next (complete s1 c 0x14 0)
    else if getB s1 CAN_C_ERR_ASLEEP k then .next (complete s1 c 0x18 0)
    else
      let v := getCan s1 k
      .next (setCan s1 k { v with fifo := v.fifo ++ [{ call := c, frame := f }] })

/-- EXPRESS: the frame is loaded into its mailbox. -/
def execExpress (k : Nat) (s : State) : Res :=
  match takeCall s 5 k 1 with
  | none => .next s
  | some (c, s0) =>
    let (f, m, s1) := canOperand s0 c
    if m > 3 then .next (complete s1 c 0x1B 0)
    else if canFrameBad s1 k f then .next (complete s1 c 0x14 0)
    else if getB s1 CAN_C_ERR_ASLEEP k then .next (complete s1 c 0x18 0)
    else
      let v := getCan s1 k
      if v.cur = some (some m) then .next (complete s1 c 0x12 0)
      else
        let s2 := setCan s1 k { v with mbox := mput none v.mbox m (some { call := c, frame := f }) }
        match mget v.mbox m none with
        | some old => .next (complete s2 old.call cSUPERSEDED 0)
        | none => .next s2

/-- The place of a pending frame by its ticket: none the FIFO, some m mailbox m; the FIFO index. -/
def canFind (v : CanCh) (t : Nat) : Option (Option Nat × Nat × CanTx) :=
  match [0, 1, 2, 3].find? (fun m => match mget v.mbox m none with | some x => x.call.ticket == t | none => false) with
  | some m => (mget v.mbox m none).map (fun x => (some m, 0, x))
  | none =>
    match v.fifo.findIdx? (fun x => x.call.ticket == t) with
    | some i => (v.fifo[i]?).map (fun x => (none, i, x))
    | none => none

/-- ABORT of a pending frame. -/
def execCanAbort (k : Nat) (s : State) : Res :=
  match takeCall s 5 k 2 with
  | none => .next s
  | some (c, s0) =>
    let (t, s1) := dsc s0 c 0 4
    let v := getCan s1 k
    match canFind v t with
    | none => .next (complete s1 c 0x13 0)
    | some (pl, i, x) =>
      let y := { x with abort := x.abort ++ [c] }
      match pl with
      | some m =>
        if v.cur = some (some m) then .next (setCan s1 k { v with mbox := mput none v.mbox m (some y) })
        else .next (complete (complete (setCan s1 k { v with mbox := mput none v.mbox m none }) x.call cABORTED 0) c 0 0)
      | none =>
        if v.cur = some none ∧ i = 0 then .next (setCan s1 k { v with fifo := v.fifo.set 0 y })
        else .next (complete (complete (setCan s1 k { v with fifo := v.fifo.eraseIdx i }) x.call cABORTED 0) c 0 0)

/-- The frame selected when the bus offers arbitration: the pending mailbox frame with the lowest arbitration value, else
the FIFO head (R399). -/
def canSelect (v : CanCh) : Option (Option Nat) :=
  let best := [0, 1, 2, 3].foldl (fun (b : Option (Nat × Nat)) m =>
    match mget v.mbox m none with
    | none => b
    | some x => match b with
      | none => some (m, arbVal x.frame)
      | some (_, a) => if arbVal x.frame < a then some (m, arbVal x.frame) else b) none
  match best with
  | some (m, _) => some (some m)
  | none => if v.fifo.isEmpty then none else some none

/-- The bus offers arbitration: the selected frame enters it, stamped at its start of frame. -/
def execCanArbitration (k : Nat) (s : State) : Res :=
  let v := getCan s k
  if !canMaySend s k || v.cur.isSome then .next s
  else
    match canSelect v with
    | none => .next s
    | some none =>
      .next (setCan s k { v with cur := some none, sof := canCount s,
                                 fifo := v.fifo.modify 0 (fun x => { x with n := x.n + 1 }) })
    | some (some m) =>
      .next (setCan s k { v with cur := some (some m), sof := canCount s,
                                 mbox := mput none v.mbox m ((mget v.mbox m none).map (fun x => { x with n := x.n + 1 })) })

/-- An identifier conflict is recorded (R407). -/
def canConflict (s : State) (k : Nat) (f : CanFrame) (rx : Bool) : State :=
  let s1 := latch (unitErr s .canCh k 0x0F15) .canCh k 4
  if getB s1 CAN_C_CONFLICT_VALID k then s1
  else setB (setB (setB (setF s1 CAN_C_CONFLICT_ID f.id k) CAN_C_CONFLICT_IDE f.ide k) CAN_C_CONFLICT_DIR rx k)
    CAN_C_CONFLICT_VALID true k

/-- The frame in transmission, and the channel without it. -/
def canCur (v : CanCh) : Option (CanTx × CanCh) :=
  match v.cur with
  | none => none
  | some none => match v.fifo with
    | [] => none
    | x :: t => some (x, { v with fifo := t, cur := none })
  | some (some m) => (mget v.mbox m none).map (fun x => (x, { v with mbox := mput none v.mbox m none, cur := none }))

/-- A failed attempt ends: the frame stays for a retry, or an ABORT removes it (R402). -/
def canFail (s : State) (k : Nat) : State :=
  let v := getCan s k
  match canCur v with
  | none => setCan s k { v with cur := none }
  | some (x, w) =>
    if x.abort.isEmpty then setCan s k { v with cur := none }
    else completeAll (complete (setCan s k w) x.call cABORTED 0) x.abort 0

/-- A transmission attempt ends. -/
def execCanTxDone (k : Nat) (e : CanEnd) (s : State) : Res :=
  let v := getCan s k
  match canCur v with
  | none => .next s
  | some (x, w) =>
    match e with
    | .ok =>
      let s1 := canErrs (setCan s k w) k (v.tec - 1) v.rec_
      let s2 := complete (dscOut s1 x.call 8 4 v.sof) x.call 0 (sat 32767 x.n)
      .next (completeAll s2 x.abort 0x13)
    | .lost => .next (canFail s k)
    | .err up conflict =>
      let s1 := if conflict then canConflict s k x.frame false else s
      let s2 := if up || conflict then canErrs s1 k (v.tec + 8) v.rec_ else s1
      .next (canFail s2 k)

/-! ## Reception (R403, R404, R407) -/

/-- The first filter that matches a frame. -/
def canFilter (s : State) (k : Nat) (f : CanFrame) : Option Nat :=
  (List.range 128).find? (fun i =>
    getB s CAN_C_FID_EN k i && (getB s CAN_C_FID_IDE k i == f.ide) &&
    ((f.id ^^^ getF s CAN_C_FID_VAL k i) &&& getF s CAN_C_FMASK_VAL k i) == 0)

/-- One of the channel's own transmit identifiers. -/
def canOwnId (s : State) (k : Nat) (f : CanFrame) : Bool :=
  (List.range 32).any (fun i => getB s CAN_C_TXID_EN k i && (getB s CAN_C_TXID_IDE k i == f.ide) && getF s CAN_C_TXID_ID k i == f.id)

/-- A frame of another node is received without error; its start of frame was `ago` counts before now. -/
def execCanFrameRx (k : Nat) (f : CanFrame) (ago : Nat) (s : State) : Res :=
  if !canOnBus s k || (f.fdf && (f.rtr || !getB s CAN_C_CFG_FD_EN k)) || !canLenOk f.fdf f.len || decide (f.id ≥ 2 ^ 29) ||
     (!f.ide && decide (f.id ≥ 2048)) then .next s
  else
    let v := getCan s k
    let (r, s0) :=
      if getB s CAN_C_CFG_LISTEN k || getB s CAN_C_CFG_REST k then (v.rec_, s)
      else if v.rec_ > 127 then (let (x, s') := fresh 8 s; (119 + x % 9, s'))
      else (v.rec_ - 1, s)
    let s1 := canErrs s0 k v.tec r
    let own := canOwnId s1 k f
    let s2 := if own then canConflict s1 k f true else s1
    match canFilter s2 k f with
    | none => .next (incF s2 CAN_C_CNT_NOMATCH k)
    | some i =>
      if getB s2 CAN_C_FMASK_ACT k i then .next s2
      else
        let w := getCan s2 k
        if w.rx.length ≥ 256 then .next (latch (unitErr (incF s2 CAN_C_CNT_OVF k) .canCh k 0x0F16) .canCh k 8)
        else
          let r : CanRx := { frame := f, filter := i, conflict := own, stamp := (canCount s2 + 2 ^ 32 - ago % 2 ^ 32) % 2 ^ 32 }
          .next (latch (setCan s2 k { w with rx := w.rx ++ [r] }) .canCh k 32)

/-- A received frame record (Table CAN-3). -/
def canRecord (r : CanRx) : List Byte :=
  let f := r.frame
  leBytes 4 (f.id % 2 ^ 29 + b2n f.ide * 2 ^ 29 + b2n f.rtr * 2 ^ 30) ++
  leBytes 1 (b2n f.fdf + 2 * b2n f.brs + 4 * b2n f.esi + 8 * b2n r.conflict) ++ leBytes 1 f.len ++ leBytes 1 r.filter ++
  leBytes 1 0 ++ leBytes 4 r.stamp ++ leBytes 4 0 ++ (f.data ++ List.replicate 64 0).take 64

/-- RXREAD moves frames into the descriptor. -/
def execRxread (k : Nat) (s : State) : Res :=
  match takeCall s 5 k 3 with
  | none => .next s
  | some (c, s0) =>
    let (mx, s1) := dsc s0 c 0 2
    if mx = 0 ∨ mx > 16 then .next (complete s1 c 0x1B 0)
    else
      let v := getCan s1 k
      let l := v.rx.take mx
      let s2 := setCan s1 k { v with rx := v.rx.drop mx }
      .next (complete (wrBs s2 (c.addr + 0x18) (l.flatMap canRecord)) c 0 l.length)

/-! ## Sleep and wake (R408, R409, R462) -/

/-- SLEEP with OP 0, or with a reserved OP. -/
def execCanSleep (k : Nat) (s : State) : Res :=
  match takeCallIf s 5 k 4 0 1 (fun op => op != 1) with
  | none => .next s
  | some (c, s0) =>
    let (op, s1) := dsc s0 c 0 1
    let v := getCan s1 k
    if op > 1 then .next (complete s1 c 0x1B 0)
    else if getB s1 CAN_C_ERR_ASLEEP k then .next (complete s1 c 0 0)
    else if !v.fifo.isEmpty || mbxBits v != 0 then .next (complete s1 c 0x17 0)
    else .next (setCan s1 k { v with sleep := v.sleep ++ [c] })

/-- The transceiver confirms its low-power mode. -/
def execCanSleepConfirmed (k : Nat) (s : State) : Res :=
  let v := getCan s k
  if v.sleep.isEmpty || !inRun s .canCh k then .next s
  else .next (completeAll (setB (setCan s k { v with sleep := [] }) CAN_C_ERR_ASLEEP true k) v.sleep 0)

/-- The cause and instant of a wake. -/
def canWakeNote (s : State) (k cause : Nat) : State :=
  setF (setF (setF s CAN_C_ERR_WCAUSE cause k) CAN_C_WAKE_LO_STAMP (now s) k) CAN_C_WAKE_HI_STAMP (now s / 2 ^ 32) k

/-- SLEEP with OP 1: a local wake. -/
def execCanWakeLocal (k : Nat) (s : State) : Res :=
  match takeCallIf s 5 k 4 0 1 (fun op => op == 1) with
  | none => .next s
  | some (c, s1) =>
    let v := getCan s1 k
    if !getB s1 CAN_C_ERR_ASLEEP k then .next (complete s1 c 0 0)
    else
      let s2 := if v.waking then s1 else canWakeNote s1 k 0
      .next (setCan s2 k { v with waking := true, wake := v.wake ++ [c] })

/-- True when a frame is a wake frame of the channel. -/
def wakeFrame (s : State) (k : Nat) (f : CanFrame) : Bool :=
  let dm := getF s CAN_C_WKDM_LO_VAL k + getF s CAN_C_WKDM_HI_VAL k * 2 ^ 32
  !f.fdf && (f.ide == getB s CAN_C_WKCFG_WK_IDE k) && ((f.id ^^^ getF s CAN_C_WKID_VAL k) &&& getF s CAN_C_WKMASK_VAL k) == 0 &&
  (!getB s CAN_C_WKCFG_DLC_EN k || f.dlc.getD f.len == getF s CAN_C_WKCFG_WK_DLC k) && (dm == 0 || (leNat (f.data.take 8) &&& dm) != 0)

/-- The cause with which the transceiver wakes; none where it stays asleep. -/
def wakeCause (s : State) (k : Nat) (e : CanWakeEv) : Option Nat :=
  match e, getB s CAN_C_WKCFG_WK_MODE k with
  | .dominant ns, false => if ns ≥ getF s CAN_C_WKCFG_WK_FILT k * 100 then some 1 else none
  | .frame f, true => if wakeFrame s k f then some 2 else none
  | .frameErrors, true => some 3
  | _, _ => none

/-- The transceiver of a sleeping channel sees activity. -/
def execCanWake (k : Nat) (e : CanWakeEv) (s : State) : Res :=
  if k ≥ 4 ∨ !inRun s .canCh k ∨ !getB s CAN_C_ERR_ASLEEP k ∨ (getCan s k).waking then .next s
  else
    match wakeCause s k e with
    | none => .next s
    | some w => .next (latch (setCan (canWakeNote s k w) k { getCan s k with waking := true }) .canCh k 16)

/-- The controller has seen 11 recessive bits: a RUN request or a wake completes. -/
def execCanBusIntegrated (k : Nat) (s : State) : Res :=
  if k ≥ 4 then .next s
  else if stOf s .canCh k = stCONFIG ∧ getB s (hBusy .canCh) k then
    let s1 := setF (setSt s .canCh k stRUN) (hBusy .canCh) 0 k
    let s2 := setCan s1 k { getCan s1 k with rx := [] }
    .next (setB (canErrClear s2 k) CAN_C_CFG_REST (!outPath s2) k)
  else
    let v := getCan s k
    if inRun s .canCh k ∧ v.waking then
      .next (completeAll (setB (setCan s k { v with waking := false, wake := [] }) CAN_C_ERR_ASLEEP false k) v.wake 0)
    else .next s

/-! ## Snapshot pairs (R406) -/

/-- A snapshot pair is taken. -/
def canPair (s : State) (old : Option (Nat × Nat)) : State :=
  setF { s with can := { s.can with p1 := (canCount s, now s), p0 := old } } CAN_SNAP_CNT1_VAL (canCount s)

/-- The pair at an instant k × 100 ms. -/
def canSnapshot (s : State) : State := canPair s (some s.can.p1)

/-- The pair at the end of a step; pair 0 is invalid. -/
def canStepPair (s : State) : State := canPair s none

/-- SNAP_CNT1 is read: the five other registers latch. -/
def execSnapCnt1Read (s : State) : Res :=
  let q := s.can.p0.getD (0, 0)
  let s1 := setF (setF s CAN_SNAP_T1_LO_VAL s.can.p1.2) CAN_SNAP_T1_HI_VAL (s.can.p1.2 / 2 ^ 32)
  .next (setF (setF (setF s1 CAN_SNAP_CNT0_VAL q.1) CAN_SNAP_T0_LO_VAL q.2) CAN_SNAP_T0_HI_VAL (q.2 / 2 ^ 32))

/-! ## Instance states -/

/-- Bit rate limits and wake rate: the code byte that refuses a RUN, or 0 (R398, R403, R409). -/
def canRunCheck (s : State) (k : Nat) : Nat :=
  let brp := getF s CAN_C_NBT_BRP k + 1
  let t1 := getF s CAN_C_NBT_TSEG1 k + 1
  let t2 := getF s CAN_C_NBT_TSEG2 k + 1
  let sjw := getF s CAN_C_NBT_SJW k + 1
  let nb := brp * (1 + t1 + t2)
  let dt1 := getF s CAN_C_DBT_DTSEG1 k + 1
  let dt2 := getF s CAN_C_DBT_DTSEG2 k + 1
  let db := (getF s CAN_C_DBT_DBRP k + 1) * (1 + dt1 + dt2)
  let fd := getB s CAN_C_CFG_FD_EN k
  let bad := decide (nb < 80) || decide (nb > 4000) || decide (sjw > t2) || decide (t1 < 2) ||
    (fd && (decide (db < 10) || decide (db > nb) || decide (getF s CAN_C_DBT_DSJW k + 1 > dt2)))
  let filt := (List.range 128).any (fun i => !getB s CAN_C_FID_IDE k i &&
    (decide (getF s CAN_C_FID_VAL k i ≥ 2048) || decide (getF s CAN_C_FMASK_VAL k i ≥ 2048)))
  let rate := match getF s CAN_C_WKCFG_WK_RATE k with | 0 => 640 | 1 => 320 | 2 => 160 | _ => 80
  let fl := getF s CAN_C_WKCFG_WK_FILT k
  let wk := if getB s CAN_C_WKCFG_WK_MODE k then nb != rate else decide (fl < 5) || decide (fl > 50)
  if bad then 0x10 else if filt then 0x11 else if wk then 0x19 else 0

/-- Every call of the channel that has not taken effect ends with a code byte; the frames are gone. -/
def canEndCalls (s : State) (k code : Nat) : State :=
  let v := getCan s k
  let mb := [0, 1, 2, 3].filterMap (fun m => mget v.mbox m none)
  let txs := v.fifo ++ mb
  let s1 := setCan s k { v with fifo := [], mbox := [], cur := none, sleep := [], waking := false, wake := [] }
  let s2 := completeAll s1 (byTicket (txs.map (fun x => x.call) ++ txs.flatMap (fun x => x.abort) ++ v.sleep ++ v.wake)) code
  endQueued s2 5 k code

/-- The channel leaves RUN: its calls end, it leaves sleep, the receive FIFO keeps its content. -/
def canLeaveRun (s : State) (k code : Nat) : State :=
  canErrClear (setB (setB (canEndCalls s k code) CAN_C_ERR_ASLEEP false k) CAN_C_CFG_REST false k) k

/-- The output path is enabled or disabled: restricted operation ends or begins, and a sleeping channel is woken into it
(R374, R462). -/
def canOutput (s : State) (on : Bool) : State :=
  forEach [0, 1, 2, 3] s (fun s k =>
    if !inRun s .canCh k then s
    else
      let v := getCan s k
      let s1 := if getB s CAN_C_ERR_ASLEEP k && !on then
          completeAll (setB (setCan (canWakeNote s k 0) k { v with waking := false, wake := [] }) CAN_C_ERR_ASLEEP false k) v.wake 0
        else s
      let s2 := if on then s1 else canFail s1 k
      setB s2 CAN_C_CFG_REST (!on) k)

end Sys2Proof.Machine
end

