-- ==== Sys2Proof/Machine/Time.lean ====
section
/-!
DEFINITION. The time unit: servo, sources, steps, PTP, alarms, timed outputs and capture inputs (R376 to R396, R427).
-/

namespace Sys2Proof.Machine

open R

/-! ## The servo (R379 to R381) -/

/-- INC, 32.32 nanoseconds. -/
def getInc (s : State) : Nat := getF s TIME_INC_HI_VAL * 2 ^ 32 + getF s TIME_INC_LO_VAL

/-- INC set; the latest 16 values are kept. -/
def setInc (s : State) (v : Nat) : State :=
  setF (setF { s with time := { s.time with incs := (v :: s.time.incs).take 16 } } TIME_INC_LO_VAL v) TIME_INC_HI_VAL (v / 2 ^ 32)

/-- Servo state: 0 FREE, 1 ACQUIRING, 2 LOCKED, 3 HOLDOVER. -/
def servo (s : State) : Nat := getF s TIME_STATE_SERVO

/-- UNSYNC set or cleared, with its event condition. -/
def setUnsync (s : State) (on : Bool) : State := level (setB s TIME_STATE_UNSYNC on) .time 0 0 on

/-- A mapping record enters the recorder's queue (R427). -/
def mapRecord (s : State) : State :=
  recPush s
    { typ := 3, key := 0, ptp := now s, opsec := s.mram.opsec, sub := opSub s,
      detail := leBytes 1 (servo s) ++ leBytes 1 (getF s TIME_STATE_SRC) }

/-- The servo enters a state. -/
def enterServo (s : State) (st : Nat) : State :=
  let s1 := setF { s with time := { s.time with nIn := 0, nOut := 0 } } TIME_STATE_SERVO st
  match st with
  | 0 => setUnsync s1 true
  | 1 => setUnsync s1 true
  | 2 =>
    let s2 := latch (setUnsync s1 false) .time 0 2
    if s2.time.mapped then s2 else mapRecord { s2 with time := { s2.time with mapped := true } }
  | _ =>
    let n := s.time.incs.length
    let mean := if n = 0 then getInc s else (s.time.incs.foldl (· + ·) 0 + n / 2) / n
    let s2 := { s1 with time := { s1.time with holdAt := now s } }
    latch (setF (setF s2 TIME_INC_LO_VAL mean) TIME_INC_HI_VAL (mean / 2 ^ 32)) .time 0 4

/-- An offset source. -/
def getSrc (s : State) (k : Nat) : Source := mget s.time.srcs k {}
/-- An offset source, replaced. -/
def setSrc (s : State) (k : Nat) (v : Source) : State := { s with time := { s.time with srcs := mput {} s.time.srcs k v } }

/-- Priority of a source: 1 PTP, 2 PARTNER, 3 PROGRAM; 0 disabled. -/
def srcPri (s : State) (k : Nat) : Nat :=
  match k with
  | 1 => getF s TIME_SRC_CFG_PRI_PTP
  | 2 => getF s TIME_SRC_CFG_PRI_PARTNER
  | 3 => getF s TIME_SRC_CFG_PRI_PROGRAM
  | _ => 0

/-- A power of two of seconds in ns, for a signed 4-bit exponent. -/
def logNs (e : Nat) : Nat :=
  let i := sint 4 e
  if i < 0 then 1000000000 / 2 ^ (-i).toNat else 1000000000 * 2 ^ i.toNat

/-- The timeout of a source (Table TIME-2). -/
def srcTmo (s : State) (k : Nat) : Nat :=
  match k with
  | 1 => max (getF s TIME_PTP_INT_ANN_TMO * logNs (getF s TIME_PTP_INT_LOG_ANN)) (4 * logNs (getF s TIME_PTP_INT_LOG_SYNC))
  | 2 => 4 * period s 0
  | _ => 2000000000

/-- The source in use changes (R381). -/
def useSrc (s : State) (k : Nat) : State :=
  if getF s TIME_STATE_SRC = k then s
  else latch (setF { s with time := { s.time with fresh := true } } TIME_STATE_SRC k) .time 0 32

/-- The valid source of highest priority, the lower code on a tie; 0 none. -/
def bestSrc (s : State) : Nat :=
  [1, 2, 3].foldl (fun b k => if (getSrc s k).valid && decide (srcPri s k > srcPri s b) then k else b) 0

/-! ## Steps (R382 to R384) -/

/-- An instant shifted by `d`. -/
def shiftAt (d : Int) (t : Nat) : Nat := ((t : Int) + d).toNat

/-- The durations in progress of the field links, the local points and the tasks keep their length over a step (R384; DEDUCED,
log entry 121). -/
def shiftField (s : State) (d : Int) : State :=
  let f := shiftAt d
  let z (t : Nat) : Nat := if t = 0 then 0 else f t
  let fo (o : Option Nat) : Option Nat := o.map f
  let ports := mmap {} (fun _ (p : PortSt) =>
    { p with aq := p.aq.map (fun a => { a with since := f a.since, sentAt := z a.sentAt }), busyTo := z p.busyTo }) s.lnk.ports
  let stas := mmap {} (fun _ (a : Sta) => { a with initAt := z a.initAt, identAt := z a.identAt }) s.lnk.stas
  let l := s.lio
  let lio := { l with
    dos := mmap {} (fun _ (v : DoSt) => { v with offAt := z v.offAt, tested := fo v.tested }) l.dos,
    ais := mmap {} (fun _ (v : AiSt) => { v with shunt := fo v.shunt, deadFrom := z v.deadFrom, deadTo := z v.deadTo }) l.ais,
    conv := mmap {} (fun _ (v : ConvSt) => { v with calAt := z v.calAt }) l.conv,
    stepAt := z l.stepAt, ovAt := z l.ovAt, pulse := l.pulse.map (fun p => { p with at_ := f p.at_ }), pulseEnd := z l.pulseEnd,
    vsOff := mmap none (fun _ v => fo v) l.vsOff, calEnd := z l.calEnd }
  { s with lnk := { s.lnk with ports := ports, stas := stas }, lio := lio,
           tsk := { s.tsk with tasks := mmap {} (fun _ (t : Task) => { t with relAt := z t.relAt }) s.tsk.tasks, migTo := z s.tsk.migTo,
                               engq := mmap [] (fun _ q => q.map (fun c => { c with since := f c.since })) s.tsk.engq } }

/-- The same for the time unit, the pair unit and injections. -/
def shiftOwn (s : State) (d : Int) : State :=
  let f := shiftAt d
  let z (t : Nat) : Nat := if t = 0 then 0 else f t
  let fo (o : Option Nat) : Option Nat := o.map f
  let ports := mmap {} (fun _ (p : PtpPort) =>
    { p with since := z p.since, foreign := p.foreign.map (fun x => { x with at_ := f x.at_ }) }) s.time.ports
  { s with
    time := { s.time with srcs := mmap {} (fun _ (v : Source) => { v with at_ := fo v.at_ }) s.time.srcs,
                          holdAt := z s.time.holdAt, prgAt := fo s.time.prgAt, ports := ports },
    pair := { s.pair with listenTo := z s.pair.listenTo, abdAt := s.pair.abdAt.map (fun x => (f x.1, x.2)), tko := fo s.pair.tko },
    loops := mmap {} (fun _ (l : LoopSt) => { l with inj := l.inj.map (fun j => { j with since := f j.since }) }) s.loops,
    saf := { s.saf with tripAt := fo s.saf.tripAt }, bsn := { s.bsn with unitAt := z s.bsn.unitAt } }

/-- The absolute instants that the units hold are shifted by a step (R384). -/
def shiftInstants (s : State) (d : Int) : State :=
  let f := shiftAt d
  let fo (o : Option Nat) : Option Nat := o.map f
  let late (c : Call) : Call := { c with since := f c.since }
  let gens := mmap {} (fun _ (g : Gen) =>
    { g with t0 := f g.t0, tArr := f g.tArr, above := fo g.above, ss1 := fo g.ss1, wait := g.wait.map (fun x => (f x.1, late x.2)) }) s.gens
  let axes := mmap {} (fun _ (a : Axis) => { a with still := fo a.still }) s.axes
  let z (t : Nat) : Nat := if t = 0 then 0 else f t
  let groups := mmap {} (fun _ (g : Grp) =>
    { g with tss1 := z g.tss1, rwAt := z g.rwAt, runAt := z g.runAt, clearAt := z g.clearAt, reintAt := fo g.reintAt }) s.saf.groups
  let stas := mmap {} (fun _ (a : SafSta) => { a with tAcc := fo a.tAcc, again := fo a.again }) s.saf.stas
  let ins := mmap {} (fun _ (a : SafIn) =>
    { a with at_ := z a.at_, rise := fo a.rise, lowAt := fo a.lowAt, miss := fo a.miss, pulses := a.pulses.map (fun p => (f p.1, f p.2)) }) s.saf.ins
  let solve (v : Solve) : Solve := { v with d := f v.d, at_ := f v.at_ }
  let qps := mmap {} (fun _ (q : QpSt) => { q with run := q.run.map solve, wait := q.wait.map solve }) s.bsn.qps
  let loops := mmap {} (fun _ (l : LoopSt) =>
    { l with feAt := fo l.feAt, frAt := fo l.frAt, swap := fo l.swap, lastAt := fo l.lastAt, smp := l.smp.map (fun m => { m with t := f m.t }),
             wait := l.wait.map late, bnext := l.bnext.map (fun x => (f x.1, x.2)) }) s.loops
  let s := forEach gens s (fun s g => setF (setF s PROF_P_TARR_LO_VAL g.2.tArr g.1) PROF_P_TARR_HI_VAL (g.2.tArr / 2 ^ 32) g.1)
  { s with gens := gens, axes := axes, loops := loops, loopFree := z s.loopFree, saf := { s.saf with groups := groups, stas := stas, ins := ins },
           bsn := { s.bsn with qps := qps }, pair := { s.pair with h1 := fo s.pair.h1, h2 := fo s.pair.h2 },
           statAt := mmap 0 (fun _ t => f t) s.statAt }

/-- Cycle starts of period `p` that lie in (a, b). -/
def startsIn (p a b : Nat) : Nat := if p = 0 ∨ b ≤ a + 1 then 0 else (b - 1) / p - a / p

/-- Releases of the classes with a task, none in FAULT, dropped by a step from `t` to `t'`: cycle starts before each class's first cycle start
whose input close lies after `t'` (R383). -/
def droppedBy (s : State) (t t' : Nat) : Nat :=
  (([0, 1, 2].filter (fun c => hasTask s (c + 2) && !inClassFault s c)).map (fun c =>
    let p := period s c
    startsIn p t ((t' + s.tl.tGuard) / p * p + 1))).sum

/-- Timed output `n`. -/
def getTp (s : State) (n : Nat) : TpSt := mget s.time.tps n {}

/-- Pending edges and schedule shown in TP_STAT. -/
def setTp (s : State) (n : Nat) (v : TpSt) : State :=
  setB (setF { s with time := { s.time with tps := mput {} s.time.tps n v } } TIME_TP_STAT_PEND v.edges.length 0 n)
    TIME_TP_STAT_PERIODIC v.per.isSome 0 n

/-- The next edge of a timed output: (instant, level). -/
def tpNext (v : TpSt) : Option (Nat × Bool) :=
  match v.edges with
  | e :: _ => some e
  | [] =>
    match v.per with
    | none => none
    | some (st, p, h, _) => if v.k % 2 = 0 then some (st + v.k / 2 * p, true) else some (st + v.k / 2 * p + h, false)

/-- The next edge is carried out: the pin takes its level. -/
def tpTake (s : State) (n : Nat) : State :=
  let v := getTp s n
  match tpNext v with
  | none => s
  | some (_, l) =>
    let s1 := tpLevel s n l
    match v.edges with
    | _ :: t => setTp s1 n { v with edges := t }
    | [] =>
      match v.per with
      | none => s1
      | some (_, _, _, c) =>
        if c ≠ 0 ∧ v.k + 1 ≥ 2 * c then setTp s1 n { v with per := none, k := 0 } else setTp s1 n { v with k := v.k + 1 }

/-- LATE of a timed output, counted up. -/
def tpLateCount (s : State) (n k : Nat) : State :=
  if k = 0 then s
  else latch (setF s TIME_TP_STAT_LATE (sat (2 ^ TIME_TP_STAT_LATE.width - 1) (getF s TIME_TP_STAT_LATE 0 n + k)) 0 n) .time 0 64

/-- The edges of a periodic schedule up to an instant are carried out: the pin takes the level of the last one, and the schedule
goes on with the edge that follows, the first rise after the step or the fall of a pulse under way (R393; DEDUCED, log entry
150). -/
def tpLatePer (s : State) (n t : Nat) : State :=
  let v := getTp s n
  match v.per with
  | none => s
  | some (st, p, h, c) =>
    let upTo (a : Nat) : Nat := if t < a then 0 else (t - a) / p + 1
    let cap (x : Nat) : Nat := if c = 0 then x else min c x
    let k := max v.k (cap (upTo st) + cap (upTo (st + h)))
    if k = v.k then s
    else
      let s1 := tpLateCount (tpLevel s n (k % 2 == 1)) n (k - v.k)
      if c ≠ 0 ∧ k ≥ 2 * c then setTp s1 n { v with per := none, k := 0 } else setTp s1 n { v with k := k }

/-- Edges that a forward step passes are carried out late, in order (R393). -/
def tpLate : Nat → State → Nat → Nat → State
  | 0, s, _, _ => s
  | m + 1, s, n, t =>
    match (getTp s n).edges with
    | e :: _ => if e.1 ≤ t then tpLate m (tpLateCount (tpTake s n) n 1) n t else s
    | [] => tpLatePer s n t

/-- TIME.ALARMS shows the armed alarms. -/
def setAlarm (s : State) (n : Nat) (v : Option (Nat × Nat)) : State :=
  let m := mput none s.time.alarms n v
  setF { s with time := { s.time with alarms := m } } TIME_ALARMS_ARMED (m.foldl (fun b p => b + 2 ^ p.1) 0)

/-- ALARM `n` enters an entry with the stamp `t` in the TIME task's queue. -/
def alarmEntry (s : State) (n t : Nat) : State :=
  evPush s 7 { source := 0x0E + 256 * 0x1FF, tag := n, stamp := t }

/-- An alarm whose instants a step passes: one entry with the earliest, then its first instant after the step (R391). -/
def alarmStep (s : State) (n t : Nat) : State :=
  match mget s.time.alarms n none with
  | none => s
  | some (a, p) =>
    if a > t then s
    else
      let s1 := alarmEntry s n a
      if p = 0 then setAlarm s1 n none else setAlarm s1 n (some (a + ((t - a) / (p * 1000) + 1) * (p * 1000), p))

/-- The time counter is stepped by `d` ns, a multiple of 4, at one TICK edge. Of the instants that a forward step passes none is
carried out: releases are dropped, outputs taken for an apply instant among them are not applied (R383). -/
def doStep (s : State) (d : Int) : State :=
  let t := now s
  let total : Int := ((s.sec * 1000000000 + s.ns : Nat) : Int) + d
  let t' := total.toNat
  let skipped (x : Nat) : Bool := decide (t < x) && decide (x ≤ t')
  let s0 := { s with sec := t' / 1000000000 % 2 ^ 64, ns := t' % 1000000000,
                     time := { s.time with fresh := true, step := none } }
  let s1 := shiftOwn (shiftField (shiftInstants s0 d) d) d
  let s2 := setF (setF (setF (incF s1 TIME_STEPS_STEPS) TIME_STATE_STEP_PEND 0) TIME_LASTSTEP_LO_VAL (pat 64 d))
    TIME_LASTSTEP_HI_VAL (pat 64 d / 2 ^ 32)
  let s3 := forEach (List.range (nPort s2)) s2 (fun s p => setPort s p { getPort s p with step := true })
  let s4 := mapRecord (recCond (latch (canStepPair s3) .time 0 8) 0x0E1C 0 0 (leBytes 8 (pat 64 d)))
  if d > 0 then
    let s5 := { (incF s4 TIME_STEPS_DROPPED 0 0 (if s.tsk.rel then droppedBy s t t' else 0)) with
      time := { s4.time with skipTo := t' + s.tl.tGuard },
      saf := { s4.saf with pend := s4.saf.pend && !skipped (s4.saf.cycAt + period s 3 - (s.tl.tGuard + 30000)) },
      lio := { s4.lio with taken := s4.lio.taken.filter (fun x => !skipped x.2.1),
                           pairNext := s4.lio.pairNext.filter (fun x => !skipped x.2.1) } }
    let s6 := forEach (List.range 8) s5 (fun s n => alarmStep s n (now s))
    forEach (List.range 4) s6 (fun s n => tpLate 17 s n (now s))
  else { s4 with time := { s4.time with skipTo := 0 } }

/-- A step may be made at once: no cyclic task released since the last restart, HALT, or a role that does not own the
process (R382). -/
def stepFree (s : State) : Bool := !s.tsk.rel || decide (s.tsk.ph = .halted) || decide (role s ≥ 2)

/-- −θ rounded to a multiple of 4 ns; `theta` in 1/65,536 ns. -/
def stepOf (theta : Int) : Int := 4 * ((-theta + 131072) / 262144)

/-- INC for a rate correction of y ppb (R380). -/
def incOf (y : Nat) : Nat :=
  let k := dsub (f64i 1) (ddiv y (f64i 1000000000))
  (ftoInt f64 true 0 18446744073709551615 (dmul (f64i 17179869184) k)).1.toNat

/-- y goes into force. -/
def setRate (s : State) (y : Nat) : State :=
  let s1 := setInc { s with time := { s.time with y := y } } (incOf y)
  setF s1 TIME_FREQ_VAL (pat 32 (ftoInt f64 true (-2147483648) 2147483647 (dmul y (f64i 1000))).1)

/-- F64 kept between ±500,000 ppb. -/
def clampPpb (x : Nat) : Nat := if dlt x (f64i (-500000)) then f64i (-500000) else if dlt (f64i 500000) x then f64i 500000 else x

/-- OFFSET_HIGH set or cleared. -/
def offsetHigh (s : State) (on : Bool) : State :=
  let s1 := level (setB s TIME_STATE_OFFSET_HIGH on) .time 0 4 on
  if on && !getB s TIME_STATE_OFFSET_HIGH then unitErr s1 .time 0 0x0E1A else s1

/-- What an accepted sample makes of the servo state (Table TIME-1): it ends FREE and HOLDOVER, and samples within and beyond
LOCK_THR are counted. -/
def servoCount (s : State) (theta : Int) : State :=
  let s1 := if servo s = 0 ∨ servo s = 3 then enterServo s 1 else s
  let within := theta.natAbs ≤ getF s TIME_STEP_CFG_LOCK_THR * 4 * 65536
  let nIn := if within then s1.time.nIn + 1 else 0
  let nOut := if within then 0 else s1.time.nOut + 1
  let s2 := { s1 with time := { s1.time with nIn := nIn, nOut := nOut } }
  if servo s2 = 1 ∧ nIn ≥ 8 then enterServo s2 2
  else if servo s2 = 2 ∧ nOut ≥ 4 then enterServo s2 1 else s2

/-- The servo takes an accepted sample of the source in use: θ in 1/65,536 ns, Δt in ns since that source's previous one
(R380, R382). The first sample after a step or a source change, whatever it leads to, has Δt = 0. -/
def servoSample (s : State) (theta : Int) (dtNs : Nat) : State :=
  let th := ddiv (f64i theta) (f64i 65536)
  let ofs := clampI (-2147483648) 2147483647 ((theta + 32768) / 65536)
  let first := s.time.fresh
  let s0 := { s with time := { s.time with fresh := false } }
  let s1 := servoCount (statSample (setF s0 TIME_OFS_VAL (pat 32 ofs)) 5 0 th) theta
  let thr := getF s TIME_STEP_CFG_STEP_THR * 1000
  if theta.natAbs > thr * 65536 then
    if stepFree s1 then doStep s1 (stepOf theta)
    else if getB s1 TIME_STEP_CFG_STEP_RUN ∧ theta < 0 then
      setF { s1 with time := { s1.time with step := some (stepOf theta, now s1) } } TIME_STATE_STEP_PEND 1
    else setRate (offsetHigh s1 true) (if theta > 0 then f64i 500000 else f64i (-500000))
  else
    let dt := if first then 0 else nsSec dtNs
    let i := clampPpb (dadd s1.time.i (dmul (dmul (f64of32 (getF s TIME_KI_VAL)) th) dt))
    let y := clampPpb (dadd (dmul (f64of32 (getF s TIME_KP_VAL)) th) i)
    setRate (offsetHigh { s1 with time := { s1.time with i := i } } false) y

/-- An accepted sample of source `k`: it counts toward the source's validity, may make the source the one in use, and is
taken by the servo if it is (R381). -/
def timeSample (s : State) (k : Nat) (theta : Int) : State :=
  if !inRun s .time || srcPri s k = 0 then s
  else
    let v := getSrc s k
    let n := sat 8 (v.n + 1)
    let dt := match v.at_ with | some t => now s - t | none => 0
    let s1 := setSrc s k { n := n, valid := decide (n ≥ 8), at_ := some (now s) }
    let cur := getF s1 TIME_STATE_SRC
    let s2 := if n ≥ 8 ∧ (cur = 0 ∨ srcPri s1 k > srcPri s1 cur) then useSrc s1 k else s1
    if getF s2 TIME_STATE_SRC = k then servoSample s2 theta dt else s2

/-- A source times out: it is valid no more; a servo that used it takes the valid source of highest priority, or a LOCKED
servo goes to HOLDOVER (R379, R381). -/
def execSourceTimeout (k : Nat) (s : State) : Res :=
  let v := getSrc s k
  match v.at_ with
  | none => .next s
  | some t =>
    if now s < t + srcTmo s k ∨ k = 0 ∨ k > 3 then .next s
    else
      let s1 := setSrc s k {}
      if getF s1 TIME_STATE_SRC ≠ k then .next s1
      else
        let b := bestSrc s1
        let s2 := useSrc s1 b
        .next (if b = 0 ∧ servo s2 = 2 then enterServo s2 3 else s2)

/-- HOLDOVER has lasted HOLD_TMO (R379). -/
def execHoldoverTimeout (s : State) : Res :=
  if servo s = 3 ∧ now s ≥ s.time.holdAt + getF s TIME_HOLD_CFG_HOLD_TMO * 1000000000 then .next (enterServo s 0) else .next s

/-- The step that waits is due: at once where R382 allows it, else at a C2 output deadline after the request (R383). -/
def stepDue (s : State) : Bool :=
  match s.time.step with
  | none => false
  | some (_, at_) => stepFree s || (decide (now s > at_) && reaches s (period s 2) s.tl.tGuard)

/-- The step that waits is made. -/
def timeStep (s : State) : State :=
  match s.time.step with
  | none => s
  | some (d, _) => doStep s d

/-- TIME leaves RUN (R379). -/
def timeLeaveRun (s : State) : State :=
  let s1 := { s with time := { s.time with srcs := [], step := none, ports := [] } }
  let s2 := setF (setF (setF s1 TIME_STATE_STEP_PEND 0) TIME_PTP_STAT_HP0 0) TIME_PTP_STAT_HP1 0
  let s3 := useSrc (offsetHigh s2 false) 0
  if servo s3 = 2 then enterServo s3 3 else if servo s3 = 0 then s3 else enterServo s3 0

/-- NOW_SEC_LO is read: the other three latch (R377). -/
def execNowSecLoRead (s : State) : Res :=
  let s1 := setF (setF s TIME_NOW_SEC_LO_VAL s.sec) TIME_NOW_SEC_HI_VAL (s.sec / 2 ^ 32)
  .next (setF (setF s1 TIME_NOW_NS_VAL s.ns) TIME_NOW_FRAC_VAL s.frac)

/-! ## PTP (R385 to R388) -/

/-- A PTP port. -/
def getPtp (s : State) (p : Nat) : PtpPort := mget s.time.ports p {}
/-- A PTP port, replaced. -/
def setPtp (s : State) (p : Nat) (v : PtpPort) : State := { s with time := { s.time with ports := mput {} s.time.ports p v } }

/-- A port runs PTP. -/
def ptpOn (s : State) (p : Nat) : Bool :=
  inRun s .time && (match getF s TIME_PTP_CFG_MODE with
    | 1 => p == getF s TIME_PTP_CFG_PTP_PORT
    | 2 => decide (p < 2)
    | _ => false)

/-- portState of a port: 4 LISTENING, 6 MASTER, 7 PASSIVE, 9 SLAVE. -/
def ptpState (s : State) (p : Nat) : Nat := if p = 0 then getF s TIME_PTP_STAT_HP0 else getF s TIME_PTP_STAT_HP1

/-- portState set. -/
def setPtpState (s : State) (p v : Nat) : State := if p = 0 then setF s TIME_PTP_STAT_HP0 v else setF s TIME_PTP_STAT_HP1 v

/-- A PTP message that the supported subset does not take is discarded and counted. -/
def ptpDiscard (s : State) : State := incF s TIME_PTP_CNT_DISC

/-- The supported subset takes a message: its transport and domain are those configured, it needs no option outside Table
TIME-3, and the port runs PTP (R385). -/
def ptpTakes (s : State) (p : Nat) (m : PtpMsg) : Bool :=
  ptpOn s p && m.dom == getF s TIME_PTP_CFG_DOMAIN && m.tr == getF s TIME_PTP_CFG_TRANSPORT && !m.opt

/-- A path delay measurement is filtered (R387). -/
def ptpDelay (s : State) (p : Nat) (d : Int) : State :=
  let v := getPtp s p
  let show_ (s : State) (d : Int) : State := setF s TIME_PTP_DLY_NS (pat 32 ((d + 32768) / 65536))
  match v.dly with
  | none => show_ (setPtp s p { v with dly := some d, rej := 0 }) d
  | some o =>
    if (d - o).natAbs > getF s TIME_PTP_INT_DLY_GATE * 65536 then
      let s1 := incF s TIME_PTP_CNT_DLY_REJ
      if v.rej + 1 ≥ 16 then setPtp s1 p { v with dly := none, rej := 0 } else setPtp s1 p { v with rej := v.rej + 1 }
    else
      let d' := o + (d - o) / 8
      show_ (setPtp s p { v with dly := some d', rej := 0 }) d'

/-- A Follow_Up arrives: with the Sync of its sequenceId and a filtered delay it gives a sample. -/
def execPtpFollowUpRx (p : Nat) (m : PtpMsg) (s : State) : Res :=
  if !ptpTakes s p m then .next (ptpDiscard s)
  else
    let v := getPtp s p
    match v.sync with
    | none => .next s
    | some (y, t2) =>
      if ptpState s p ≠ 9 ∨ y.seq ≠ m.seq ∨ y.src ≠ m.src ∨ y.srcPort ≠ m.srcPort then .next s
      else
        let ms : Int := (((t2 : Int) - (m.ts : Int)) * 65536) - y.corr - m.corr
        let s1 := setPtp s p { v with sync := none, ms := some ms }
        match v.dly with
        | none => .next s1
        | some d => .next (timeSample s1 1 (ms - d))

/-- A Delay_Resp to the outstanding Delay_Req: d = ((t2 − t1) + (t4 − t3)) / 2. Under P2P it is discarded and counted. -/
def execPtpDelayRespRx (p : Nat) (m : PtpMsg) (s : State) : Res :=
  if !ptpTakes s p m || getB s TIME_PTP_CFG_DELAY then .next (ptpDiscard s)
  else
    let v := getPtp s p
    match v.req, v.ms with
    | some (q, t3), some ms =>
      if !m.own ∨ q ≠ m.seq then .next s
      else
        let sm : Int := ((m.ts : Int) - (t3 : Int)) * 65536 - m.corr
        .next (ptpDelay (setPtp s p { v with req := none }) p ((ms + sm) / 2))
    | _, _ => .next s

/-- A message leaves a port. -/
def ptpSend (s : State) (p : Nat) (l : List PtpMsg) : State := setPtp s p { getPtp s p with tx := l }

/-- A message of this clock on a port. -/
def ownMsg (s : State) (p kind seq ts : Nat) : PtpMsg :=
  { kind := kind, tr := getF s TIME_PTP_CFG_TRANSPORT, dom := getF s TIME_PTP_CFG_DOMAIN, seq := seq, src := s.time.clockId, srcPort := p + 1, ts := ts }

/-- A message of the Pdelay exchange: a Pdelay_Req is answered, Pdelay_Resp and its Follow_Up give a link delay. -/
def execPtpPdelayRx (p : Nat) (m : PtpMsg) (s : State) : Res :=
  if !ptpTakes s p m || !getB s TIME_PTP_CFG_DELAY then .next (ptpDiscard s)
  else
    let v := getPtp s p
    match m.kind with
    | 4 => .next (ptpSend s p [{ ownMsg s p 5 m.seq (now s) with own := false }, ownMsg s p 6 m.seq (now s)])
    | 5 =>
      if !m.twoStep then .next (ptpDiscard s)
      else match v.req with
        | some (q, _) => if m.own ∧ q = m.seq then .next (setPtp s p { v with presp := some (m.ts, now s, m.corr) }) else .next s
        | none => .next s
    | 6 =>
      match v.req, v.presp with
      | some (q, t1), some (t2, t4, c) =>
        if !m.own ∨ q ≠ m.seq then .next s
        else
          let rt : Int := (((t4 : Int) - (t1 : Int)) - ((m.ts : Int) - (t2 : Int))) * 65536 - c - m.corr
          .next (ptpDelay (setPtp s p { v with req := none, presp := none }) p (rt / 2))
      | _, _ => .next s
    | _ => .next (ptpDiscard s)

/-- The data set of a clock as an Announce carries it, compared by the default algorithm: priority1, class, accuracy,
variance, priority2, identity, in that order, lower the better; then steps removed and the sender. -/
def annKey (m : PtpMsg) : List Nat := [m.prio1, m.cls, m.acc, m.var, m.prio2, m.gm, m.steps, m.src, m.srcPort]

/-- Lexicographic order. -/
def lexLt : List Nat → List Nat → Bool
  | a :: l, b :: r => decide (a < b) || (a == b && lexLt l r)
  | _, _ => false

/-- The own data set D0, with timeSource 0xA0, the internal oscillator (Table TIME-3). -/
def ownAnn (s : State) : PtpMsg :=
  { kind := 7, prio1 := getF s TIME_PTP_CFG_PRIO1, cls := 248, acc := 0xFE, var := 0xFFFF, prio2 := getF s TIME_PTP_CFG_PRIO2,
    gm := s.time.clockId, src := s.time.clockId, tsrc := 0xA0 }

/-- The best qualified foreign master of a port: heard twice, and not older than the announce receipt timeout. -/
def erBest (s : State) (p : Nat) : Option PtpMsg :=
  let tmo := getF s TIME_PTP_INT_ANN_TMO * logNs (getF s TIME_PTP_INT_LOG_ANN)
  ((getPtp s p).foreign.filter (fun f => decide (f.n ≥ 2) && decide (now s < f.at_ + tmo))).foldl
    (fun b f => match b with | none => some f.ann | some x => if lexLt (annKey f.ann) (annKey x) then some f.ann else b) none

/-- A Sync arrives, its SFD stamped now; its Follow_Up completes it. A port in slave state takes those of its parent, the best
foreign master. -/
def execPtpSyncRx (p : Nat) (m : PtpMsg) (s : State) : Res :=
  if !ptpTakes s p m || !m.twoStep then .next (ptpDiscard s)
  else if ptpState s p ≠ 9 ∨ !(erBest s p).any (fun x => x.src == m.src && x.srcPort == m.srcPort) then .next s
  else .next (setPtp s p { getPtp s p with sync := some (m, now s) })

/-- Of two data sets of one grandmaster, `m` is the better by topology: with equal steps removed, or with one step fewer where the
receiver's identity is above that of the sender (data set comparison, part 2). -/
def topoBetter (s : State) (m x : PtpMsg) : Bool :=
  m.gm == x.gm && (m.steps == x.steps || (m.steps + 1 == x.steps && decide (s.time.clockId > x.src)))

/-- The parent data set shown in PTP_STAT, PTP_GM and UTC. -/
def ptpParent (s : State) (m : PtpMsg) (steps : Nat) : State :=
  let old := getF s TIME_PTP_GM_LO_ID * 2 ^ 32 + getF s TIME_PTP_GM_HI_ID
  let new := (m.gm % 2 ^ 32) * 2 ^ 32 + m.gm / 2 ^ 32
  let s1 := setF (setF s TIME_PTP_STAT_GM_CLASS m.cls) TIME_PTP_STAT_STEPS_RM steps
  let s2 := setF (setF s1 TIME_PTP_GM_LO_ID m.gm) TIME_PTP_GM_HI_ID (m.gm / 2 ^ 32)
  let s3 := setB (setB (setB (setF s2 TIME_UTC_OFFSET m.utc) TIME_UTC_VALID m.utcOk) TIME_UTC_LEAP61 m.l61) TIME_UTC_LEAP59 m.l59
  if old = new then s3 else latch s3 .time 0 256

/-- The state decision of clause 9.3 over the ports that run PTP; with no qualified foreign master the data sets are the own
ones. -/
def ptpDecide (s : State) : State :=
  let ps := [0, 1].filter (ptpOn s)
  let best := ps.foldl (fun (b : Option (Nat × PtpMsg)) p =>
    match erBest s p with
    | none => b
    | some m => match b with
      | none => some (p, m)
      | some (_, x) => if lexLt (annKey m) (annKey x) then some (p, m) else b) none
  let slaveOnly := getF s TIME_PTP_CFG_MODE == 1 && getB s TIME_PTP_CFG_SLAVE_ONLY
  let tmo := getF s TIME_PTP_INT_ANN_TMO * logNs (getF s TIME_PTP_INT_LOG_ANN)
  let ownWins : Bool := match best with | none => true | some (_, m) => !slaveOnly && lexLt (annKey (ownAnn s)) (annKey m)
  let s1 := forEach ps s (fun s p =>
    let st := match best with
      | none => if slaveOnly || decide (now s < (getPtp s p).since + tmo) then 4 else 6
      | some (q, m) =>
        if ownWins then 6 else if p = q then 9
        else match erBest s p with
          | some x => if topoBetter s m x then 7 else 6
          | none => 6
    let s' := if st = ptpState s p then s else setPtp s p { getPtp s p with sync := none, ms := none, req := none, presp := none }
    setPtpState s' p st)
  match best with
  | some (_, m) => if ownWins then ptpParent s1 (ownAnn s1) 0 else ptpParent s1 m (m.steps + 1)
  | none => if ps.isEmpty then s1 else ptpParent s1 (ownAnn s1) 0

/-- An Announce arrives: the foreign master is noted and the states are decided. -/
def execPtpAnnounceRx (p : Nat) (m : PtpMsg) (s : State) : Res :=
  if !ptpTakes s p m then .next (ptpDiscard s)
  else if m.src = s.time.clockId ∨ m.steps ≥ 255 then .next s
  else
    let v := getPtp s p
    let same (f : Foreign) : Bool := f.ann.src == m.src && f.ann.srcPort == m.srcPort
    let fs := match v.foreign.find? same with
      | some f => v.foreign.map (fun g => if same g then { ann := m, n := f.n + 1, at_ := now s } else g)
      | none => v.foreign ++ [{ ann := m, n := 1, at_ := now s }]
    .next (ptpDecide (setPtp s p { v with foreign := fs }))

/-- A master port sends Sync and Follow_Up with the counter's time. -/
def execPtpSyncTx (p : Nat) (s : State) : Res :=
  let s := ptpDecide s
  if !ptpOn s p ∨ ptpState s p ≠ 6 then .next s
  else
    let v := getPtp s p
    let s1 := setPtp s p { v with seqSync := (v.seqSync + 1) % 65536 }
    .next (ptpSend s1 p [ownMsg s p 0 v.seqSync 0, ownMsg s p 1 v.seqSync (now s)])

/-- The slave port sends a Delay_Req, or, under P2P, any port a Pdelay_Req. -/
def execPtpDelayReqTx (p : Nat) (s : State) : Res :=
  let p2p := getB s TIME_PTP_CFG_DELAY
  if !ptpOn s p ∨ (!p2p ∧ ptpState s p ≠ 9) then .next s
  else
    let v := getPtp s p
    let s1 := setPtp s p { v with seqReq := (v.seqReq + 1) % 65536, req := some (v.seqReq, now s), presp := none }
    .next (ptpSend s1 p [ownMsg s p (if p2p then 4 else 2) v.seqReq 0])

/-- A master port answers a Delay_Req with its receive stamp. -/
def execPtpDelayReqRx (p : Nat) (m : PtpMsg) (s : State) : Res :=
  if !ptpTakes s p m || getB s TIME_PTP_CFG_DELAY then .next (ptpDiscard s)
  else if ptpState s p ≠ 6 then .next s
  else .next (ptpSend s p [{ ownMsg s p 3 m.seq (now s) with corr := m.corr }])

/-- A master port sends an Announce of the data set in force. -/
def execPtpAnnounceTx (p : Nat) (s : State) : Res :=
  let s := ptpDecide s
  if !ptpOn s p ∨ ptpState s p ≠ 6 then .next s
  else
    let v := getPtp s p
    let q := 1 - p
    let d := match (if ptpState s q = 9 then erBest s q else none) with
      | some m => { m with steps := m.steps + 1 }
      | none => ownAnn s
    let s1 := setPtp s p { v with seqAnn := (v.seqAnn + 1) % 65536 }
    .next (ptpSend s1 p [{ d with kind := 7, tr := getF s TIME_PTP_CFG_TRANSPORT, dom := getF s TIME_PTP_CFG_DOMAIN, seq := v.seqAnn, src := s.time.clockId, srcPort := p + 1 }])

/-! ## Calls (R390 to R396) -/

/-- The oldest queued TIME call of a function to an instance, where its first operand byte meets `ok`. -/
def timeCall (s : State) (inst fn : Nat) (ok : Nat → Bool) : Option (Call × Nat × State) :=
  let q := getEngq s 6
  match q.find? (fun c => c.inst == inst && c.fn == fn) with
  | none => none
  | some c =>
    let (op, s1) := dsc (dscBegin (setEngq s 6 (q.erase c)) c) c 0 1
    if ok op then some (c, op, s1) else none

/-- OFFSET hands the servo a sample. -/
def execOffset (s : State) : Res :=
  match timeCall s 0 2 (fun _ => true) with
  | none => .next s
  | some (c, _, s) =>
    let (th, s1) := dsc s c 0 8
    let (st, s2) := dsc s1 c 8 8
    let inUse := getF s TIME_STATE_SRC == 3
    if !inUse ∧ (srcPri s2 3 = 0 ∨ (getSrc s2 3).valid) then .next (complete s2 c 0x16 0)
    else if st + 1000000000 < c.since then .next (complete s2 c 0x17 0)
    else if (match s2.time.prgAt with | some t => decide (c.since < t + 10000000) | none => false) then .next (complete s2 c 0x18 0)
    else .next (complete (timeSample { s2 with time := { s2.time with prgAt := some c.since } } 3 (sint 64 th * 65536)) c 0 0)

/-- ALARM `n` is armed; a reserved OP completes ILLEGAL. -/
def execAlarmArm (n : Nat) (s : State) : Res :=
  match timeCall s n 3 (fun op => op != 1) with
  | none => .next s
  | some (c, op, s) =>
    let (t, s1) := dsc s c 8 8
    let (p, s2) := dsc s1 c 16 4
    if op > 1 then .next (complete s2 c 0x1B 0)
    else if !hasTask s2 7 then .next (complete s2 c 0x15 0)
    else if t < c.since + 2000 then .next (complete s2 c 0x14 0)
    else .next (complete (setAlarm s2 n (some (t, p))) c 0 0)

/-- ALARM `n` is cancelled. -/
def execAlarmCancel (n : Nat) (s : State) : Res :=
  match timeCall s n 3 (fun op => op == 1) with
  | none => .next s
  | some (c, _, s) => .next (complete (setAlarm s n none) c 0 0)

/-- The instant of ALARM `n` has come (R30 step 7). -/
def alarmExpiry (n : Nat) (s : State) : State :=
  match mget s.time.alarms n none with
  | none => s
  | some (t, p) => if t > now s then s else setAlarm (alarmEntry s n t) n (if p = 0 then none else some (t + p * 1000, p))

/-- Consecutive instants rise by at least `g`. -/
def rising (g : Nat) : List Nat → Bool
  | a :: b :: t => decide (a + g ≤ b) && rising g (b :: t)
  | _ => true

/-- The edges that stay when edges from `t` on are replaced. -/
def tpKeep (v : TpSt) (t : Nat) : List (Nat × Bool) := v.edges.filter (fun e => decide (e.1 < t))

/-- TPEDGE of a list on TP `n`; a reserved code completes ILLEGAL. -/
def execTpedgeList (n : Nat) (s : State) : Res :=
  match timeCall s n 0 (fun op => op == 0 || decide (op > 2)) with
  | none => .next s
  | some (c, op, s) =>
    let (mode, s1) := dsc s c 1 1
    let (cnt, s2) := dsc s1 c 2 2
    let (b, s3) := engRd s2 (c.addr + 0x18) (16 * min cnt 16)
    let es := (List.range (min cnt 16)).map (fun i =>
      (leNat ((b.drop (16 * i)).take 8), (leNat ((b.drop (16 * i + 8)).take 1)) % 2 == 1))
    let v := getTp s3 n
    let t0 := match es with | e :: _ => e.1 | [] => 0
    let gap := if tpRouted s3 n then 100000 else 16
    let keep := if mode = 1 then tpKeep v t0 else v.edges
    if op > 2 ∨ mode > 1 ∨ cnt = 0 ∨ cnt > 16 then .next (complete s3 c 0x1B 0)
    else if t0 < c.since + 2000 then .next (complete s3 c 0x10 0)
    else if !rising gap ((keep ++ es).map Prod.fst) then .next (complete s3 c 0x11 0)
    else if mode = 0 ∧ v.per.isSome ∨ (keep ++ es).length > 16 then .next (complete s3 c 0x13 0)
    else .next (complete (setTp s3 n { v with edges := keep ++ es, per := none, k := 0 }) c 0 0)

/-- TPEDGE of a periodic schedule on TP `n`. -/
def execTpedgePeriodic (n : Nat) (s : State) : Res :=
  match timeCall s n 0 (fun op => op == 1) with
  | none => .next s
  | some (c, _, s) =>
    let (mode, s1) := dsc s c 1 1
    let (cnt, s2) := dsc s1 c 2 2
    let (st, s3) := dsc s2 c 8 8
    let (p, s4) := dsc s3 c 16 4
    let (h, s5) := dsc s4 c 20 4
    let v := getTp s5 n
    let keep := if mode = 1 then tpKeep v st else v.edges
    if mode > 1 then .next (complete s5 c 0x1B 0)
    else if st < c.since + 2000 then .next (complete s5 c 0x10 0)
    else if !rising (if tpRouted s5 n then 100000 else 16) (keep.map Prod.fst ++ [st]) then .next (complete s5 c 0x11 0)
    else if p < 32 ∨ h < 16 ∨ h + 16 ≥ p ∨ (tpRouted s5 n ∧ p < 200000) then .next (complete s5 c 0x12 0)
    else if mode = 0 ∧ v.per.isSome then .next (complete s5 c 0x13 0)
    else .next (complete (setTp s5 n { edges := keep, per := some (st, p, h, cnt), k := 0 }) c 0 0)

/-- TPEDGE CANCEL on TP `n`: nothing pending, the pin at IDLE_LVL; a reserved MODE completes ILLEGAL (R396). -/
def execTpedgeCancel (n : Nat) (s : State) : Res :=
  match timeCall s n 0 (fun op => op == 2) with
  | none => .next s
  | some (c, _, s) =>
    let (mode, s) := dsc s c 1 1
    .next (if mode > 1 then complete s c 0x1B 0 else complete (tpLevel (setTp s n {}) n (getB s TIME_TP_CFG_IDLE_LVL 0 n)) c 0 0)

/-- The next armed edge of TP `n` whose instant has come appears at the pin. -/
def tpEdge (n : Nat) (s : State) : State :=
  match tpNext (getTp s n) with
  | none => s
  | some (t, _) => if n < 4 ∧ t ≤ now s then tpTake s n else s

/-- The timed outputs as the output path is enabled or disabled: disabled, nothing stays armed (R394). TP_STAT.HIZ shows the
path itself. -/
def tpRelease (s : State) (on : Bool) : State :=
  if on then s else forEach (List.range 4) s (fun s n => setTp s n {})

/-- The FIFO of capture input `n`. -/
def getTc (s : State) (n : Nat) : List (Nat × Bool) := mget s.time.tcs n []

/-- The FIFO of capture input `n`, replaced and shown. -/
def setTc (s : State) (n : Nat) (v : List (Nat × Bool)) : State :=
  setF { s with time := { s.time with tcs := mput [] s.time.tcs n v } } TIME_TC_STAT_FILL v.length 0 n

/-- An edge on capture input `n` to a level, at this TICK edge. -/
def tcEdge (n : Nat) (lvl : Bool) (s : State) : State :=
  if n ≥ 4 then s
  else
    let s1 := setB s TIME_TC_STAT_LEVEL lvl 0 n
    if bitOf (getF s TIME_TC_CFG_EDGE 0 n) (if lvl then 0 else 1) then
      let q := getTc s1 n
      if q.length < 16 then setTc s1 n (q ++ [(now s, lvl)])
      else latch (unitErrAt (incF s1 TIME_TC_STAT_DROPPED 0 n) .time 0 0x0E19 n []) .time 0 128
    else s1

/-- TCREAD of capture input `n`. -/
def execTcread (n : Nat) (s : State) : Res :=
  match timeCall s n 1 (fun _ => true) with
  | none => .next s
  | some (c, _, s) =>
    let (mx, s1) := dsc s c 0 2
    if mx = 0 ∨ mx > 16 then .next (complete s1 c 0x1B 0)
    else
      let q := getTc s1 n
      let l := q.take mx
      let lv := (l.zip (List.range l.length)).foldl (fun b p => if p.1.2 then b + 2 ^ p.2 else b) 0
      let s2 := wrBs (dscOut s1 c 2 2 lv) (c.addr + 0x18) (l.flatMap (fun p => leBytes 8 p.1))
      .next (complete (setTc s2 n (q.drop mx)) c 0 l.length)

/-! ## RUN -/

/-- The checks of a RUN request of TIME; the code that refuses it. -/
def timeRunCheck (s : State) : Option Nat :=
  let f (x : Nat) : Bool := fisFin f32 x && fle f32 0 x
  let i4 (x : Nat) (lo hi : Int) : Bool := decide (lo ≤ sint 4 x) && decide (sint 4 x ≤ hi)
  let thr := getF s TIME_STEP_CFG_STEP_THR
  let lk := getF s TIME_STEP_CFG_LOCK_THR
  let ht := getF s TIME_HOLD_CFG_HOLD_TMO
  if f (getF s TIME_KP_VAL) && f (getF s TIME_KI_VAL) && decide (10 ≤ thr) && decide (3 ≤ lk) && decide (lk ≤ 25000) &&
      decide (1 ≤ ht) && decide (ht ≤ 3600) && decide (getF s TIME_HOLD_CFG_SYNC_WAIT ≤ 60) &&
      decide (getF s TIME_PTP_CFG_MODE ≤ 2) && i4 (getF s TIME_PTP_INT_LOG_SYNC) (-4) 1 && i4 (getF s TIME_PTP_INT_LOG_DREQ) (-4) 1 &&
      i4 (getF s TIME_PTP_INT_LOG_ANN) (-3) 3 && decide (2 ≤ getF s TIME_PTP_INT_ANN_TMO) && decide (getF s TIME_PTP_INT_ANN_TMO ≤ 10) then none
  else some 0x0E01

/-- TIME enters RUN: the ports that run PTP listen. -/
def timeEnterRun (s : State) : State :=
  forEach [0, 1] s (fun s p => if ptpOn s p then setPtpState (setPtp s p { since := now s }) p 4 else s)

end Sys2Proof.Machine
end

