-- ==== Sys2Proof/Machine/Rec.lean ====
section
/-!
DEFINITION. The event recorder: records and their marks, the write of a queued request, statistics intervals, the start-up
scan, and the calls to REC (R425 to R435).
-/

namespace Sys2Proof.Machine

open R

/-- Number of circulating slots (R428). -/
def nCirc : Nat := 245760

/-- A record slot: fixed slot n at n, circulating slot k at 4,096 + k. -/
def getRec (s : State) (k : Nat) : List Byte := mget s.mram.recs k []

/-- A record slot, replaced. -/
def putRec (s : State) (k : Nat) (r : List Byte) : State :=
  { s with mram := { s.mram with recs := mput [] s.mram.recs k r } }

/-- Bytes of a record covered by VMARK (Tables REC-2 to REC-4). -/
def recCovered (r : List Byte) : List Byte :=
  if leNat (r.take 1) % 16 = 1 then r.take 0x30 ++ (r.drop 0x38).take 4 else r.take 0x3C

/-- A slot is valid (R429). -/
def recValid (r : List Byte) : Bool :=
  let ty := leNat (r.take 1) % 16
  decide (1 ≤ ty) && decide (ty ≤ 3) && leNat ((r.drop 0x3C).take 4) == crcEth (recCovered r)

/-- SEQ of a record. -/
def recSeq (r : List Byte) : Nat := leNat ((r.drop 0x0C).take 4)

/-- The first `n` bytes of `l`, filled with zeros. -/
def padTo (n : Nat) (l : List Byte) : List Byte := l.take n ++ List.replicate (n - l.length) 0

/-- The 64 bytes of a new record for a request with number `seq` (Tables REC-1 to REC-4). -/
def recBytes (s : State) (r : RecReq) (seq : Nat) : List Byte :=
  let hdr := leBytes 1 (r.typ + 16 * r.kind) ++ leBytes 3 s.mram.pcc ++ leBytes 4 r.opsec ++ leBytes 2 r.sub ++
    leBytes 2 r.key ++ leBytes 4 seq
  let body :=
    match r.typ with
    | 1 => leBytes 2 r.inst ++ leBytes 1 r.origin ++ leBytes 1 (b2n r.unsync) ++ leBytes 8 r.ptp ++ padTo 20 r.detail ++
           leBytes 4 r.opsec ++ leBytes 2 r.sub ++ leBytes 2 0 ++ leBytes 4 0
    | 3 => leBytes 8 r.ptp ++ padTo 36 r.detail
    | _ => padTo 44 r.detail
  let b := hdr ++ body
  b ++ leBytes 4 (crcEth (recCovered (b ++ [0, 0, 0, 0])))

/-- The slot that the next new record takes (R428). -/
def recSlot (s : State) : Nat :=
  if getF s REC_STAT_FIXNEXT < 4096 then getF s REC_STAT_FIXNEXT else 4096 + getF s REC_CIRCNEXT_VAL

/-- A new record is written and the write points advance (R428, R429). -/
def recNew (s : State) (r : RecReq) : State :=
  let k := recSlot s
  let s1 := wrapF (putRec s k (recBytes s r (getF s REC_SEQ_VAL))) REC_SEQ_VAL
  let s2 :=
    if k < 4096 then
      let s' := wrapF s1 REC_STAT_FIXNEXT
      if k = 4095 then level s' .rcd 0 1 true else s'
    else
      let n := k - 4096 + 1
      if n = nCirc then level (setB (setF s1 REC_CIRCNEXT_VAL 0) REC_STAT_WRAPPED true) .rcd 0 2 true
      else setF s1 REC_CIRCNEXT_VAL n
  let s3 := if r.typ = 1 then { s2 with rcd := { s2.rcd with last := some (k, r.key, r.inst) } } else s2
  if r.typ = 3 then latch (setB s3 REC_STAT_MAPPED true) .rcd 0 8 else s3

/-- The slot into which an occurrence is folded (R430). -/
def recFold (s : State) (r : RecReq) : Option Nat :=
  match s.rcd.last with
  | none => none
  | some (k, key, inst) =>
    if r.typ = 1 ∧ key = r.key ∧ inst = r.inst ∧ leNat (((getRec s k).drop 0x36).take 2) < 65535 then some k else none

/-- The word at 0x30 of a slot written by a fold. -/
def recRefold (s : State) (k : Nat) (r : RecReq) : State :=
  let b := getRec s k
  let rep := leNat ((b.drop 0x36).take 2) + 1
  putRec s k (b.take 0x30 ++ leBytes 4 r.opsec ++ leBytes 2 r.sub ++ leBytes 2 rep ++ b.drop 0x38)

/-- One request is written or folded; a COND call completes. -/
def recOne (s : State) (r : RecReq) : State :=
  match recFold s r with
  | some k =>
    let s1 := recRefold s k r
    match r.call with | some c => complete s1 c 0 1 | none => s1
  | none =>
    let s1 := recNew s r
    match r.call with | some c => complete s1 c 0 0 | none => s1

/-- Condition records are published (NOTIFY of Table HOST-3): the server of the host-service class sends each to every
subscribed session, the other module hands the entries to its next RELAY frames (R370). -/
def notify (s : State) (es : List (List Byte)) : State :=
  if getF s PAIR_ROLE_ROLE = 0 ∨ getB s PAIR_ROLE_HS_OWN then
    { s with host := { s.host with sess := s.host.sess.map (fun x =>
      (x.1, if x.2.sub then { x.2 with seq := (x.2.seq + es.length) % 2 ^ 32, note := es.getLastD x.2.note } else x.2)) } }
  else { s with host := { s.host with entries := s.host.entries ++ es } }

/-- The condition record written last is published. -/
def notifyLast (s : State) : State := notify s ((s.rcd.last.map (fun x => getRec s x.1)).toList)

/-- The recorder writes: REC_DROPPED where requests were dropped and space has returned, else the front of the queue
(R431). -/
def recWrite (s : State) : State :=
  if s.recDrop ≠ 0 ∧ s.recQ.length < 64 then
    let r : RecReq := { typ := 1, key := 0x1110, ptp := now s, unsync := getB s TIME_STATE_UNSYNC, opsec := s.mram.opsec,
                        sub := opSub s, detail := leBytes 4 s.recDrop }
    let s1 := latch { s with recDrop := 0 } .rcd 0 1
    notifyLast (recOne (errShow s1 .rcd 0 0x1110) r)
  else
    match s.recQ with
    | [] => s
    | r :: t =>
      let s1 := recOne { s with recQ := t } r
      if r.typ = 1 then notifyLast s1 else s1

/-- The next queued request is written; none before the scan has ended, and none while REC is in FAULT. -/
def execRecordWrite (s : State) : Res :=
  if getB s REC_STAT_SCANNED && stOf s .rcd != stFAULT then .next (recWrite s) else .next s

/-- The queue is written to its end (R431, at the power-fail warning). -/
def recFlush : Nat → State → State
  | 0, s => s
  | n + 1, s => if s.recQ.isEmpty && s.recDrop == 0 then s else recFlush n (recWrite s)

/-! ## Statistics (R432, R433) -/

/-- The body of a statistics record (Table REC-3). -/
def statBody (a : StatAcc) : List Byte :=
  let nan := fqnan f32
  let one (x : Nat) := leBytes 4 (if a.count = 0 then nan else f32of64 x)
  let bins := (List.range 16).foldl (fun acc i =>
    let n := mget a.bins i 0
    acc + (if a.count = 0 then 0 else (2 * 16383 * n + a.count) / (2 * a.count)) * 2 ^ (14 * i)) 0
  leBytes 4 (sat (2 ^ 32 - 1) a.count) ++ one a.lo ++ one a.hi ++ one (fdiv f64 a.sum (f64i a.count)) ++ leBytes 28 bins

/-- The interval of a statistic in ns. -/
def statIv (s : State) (i : Nat) : Nat := getF s REC_S_INT_SEC 0 i * 1000000000

/-- The interval of every declared statistic whose boundary has come ends: its record is requested and the next interval
starts with no samples. -/
def execStatIntervalEnd (s : State) : Res :=
  .next (forEach (List.range 64) s (fun s i =>
    let at_ := mget s.statAt i 0
    if !inRun s .rcd || !getB s REC_S_SRC_EN 0 i || decide (at_ = 0) || decide (now s < at_) || decide (statIv s i = 0) then s
    else
      let nxt := at_ + ((now s - at_) / statIv s i + 1) * statIv s i
      let s1 := recPush s { typ := 2, kind := getF s REC_S_SRC_KIND 0 i, key := getF s REC_S_SRC_ID 0 i,
                            opsec := s.mram.opsec, sub := opSub s, detail := statBody (mget s.stats i {}) }
      { s1 with stats := mput {} s1.stats i {}, statAt := mput 0 s1.statAt i nxt }))

/-- STAT_INVALID of a RUN request: the code byte, or 0 (R432). -/
def recRunCheck (s : State) : Nat :=
  let on := (List.range 64).filter (fun i => getB s REC_S_SRC_EN 0 i)
  let src (i : Nat) := (getF s REC_S_SRC_KIND 0 i, getF s REC_S_SRC_ID 0 i)
  let twice := on.any (fun i => on.any (fun j => decide (i < j) && (src i == src j)))
  let bad := on.any (fun i =>
    let iv := getF s REC_S_INT_SEC 0 i
    let lo := getF s REC_S_LO_VAL 0 i
    let hi := getF s REC_S_HI_VAL 0 i
    decide (iv = 0) || decide (86400 % iv ≠ 0) || !fisFin f32 lo || !fisFin f32 hi || !flt f32 lo hi)
  if twice || bad then 0x11 else 0

/-- REC enters RUN: every declared statistic starts an interval. -/
def recEnterRun (s : State) : State :=
  forEach (List.range 64) { s with stats := [], statAt := [] } (fun s i =>
    if getB s REC_S_SRC_EN 0 i && decide (statIv s i ≠ 0) then
      { s with statAt := mput 0 s.statAt i ((now s / statIv s i + 1) * statIv s i) }
    else s)

/-- REC leaves RUN: its queued calls end, and with them the COND calls whose record waits in the write queue, which have not
taken effect (R101); the running intervals write no record. -/
def recLeaveRun (s : State) (code : Nat) : State :=
  let s1 := { s with stats := [], statAt := [], recQ := s.recQ.filter (fun r => r.call.isNone) }
  endAllQueued (completeAll s1 (byTicket (s.recQ.filterMap RecReq.call)) code) 7 code

/-! ## Start-up scan (R434) -/

/-- The newest valid circulating record, by SEQ relative to the first valid one. -/
def recNewest (l : List (Nat × Nat)) : Option (Nat × Nat) :=
  match l with
  | [] => none
  | (k0, q0) :: t =>
    let rel (q : Nat) : Nat := (q + 2 ^ 32 + 2 ^ 31 - q0) % 2 ^ 32
    some (t.foldl (fun b p => if rel p.2 > rel b.2 then p else b) (k0, q0))

/-- The slots among listed ones, rising, that are not valid and lie between valid slots. -/
def recHoles (l : List Nat) : Nat :=
  match l.head?, l.getLast? with
  | some a, some b => b - a + 1 - l.length
  | _, _ => 0

/-- The scan at power-on finds the write points. -/
def recScan (s : State) : State :=
  let ok := s.mram.recs.filter (fun p => recValid p.2)
  let fixed := (ok.filter (fun p => decide (p.1 < 4096))).map Prod.fst
  let circ := (ok.filter (fun p => decide (4096 ≤ p.1))).map (fun p => (p.1 - 4096, recSeq p.2))
  let fnext := ((List.range 4096).find? (fun n => !fixed.contains n)).getD 4096
  let newest := recNewest circ
  let (cn, sq, wrap) := match newest with
    | none =>
      let q := if fnext = 0 then 0 else (recSeq (getRec s (fnext - 1)) + 1) % 2 ^ 32
      (0, q, false)
    | some (k, q) => ((k + 1) % nCirc, (q + 1) % 2 ^ 32, circ.any (fun p => decide (p.1 > k)) || decide (k + 1 = nCirc))
  let torn := recHoles fixed + recHoles (circ.map Prod.fst)
  let s1 := setF (setF (setF { s with rcd := {} } REC_STAT_FIXNEXT fnext) REC_CIRCNEXT_VAL cn) REC_SEQ_VAL sq
  let s2 := setB (setB (setB s1 REC_STAT_WRAPPED wrap) REC_STAT_SCANNED true) REC_STAT_MAPPED false
  let s3 := level (level (setF s2 REC_DROP_TORN (sat 65535 torn)) .rcd 0 1 (fnext == 4096)) .rcd 0 2 wrap
  if torn = 0 then s3 else latch (unitErr s3 .rcd 0 0x1113) .rcd 0 16

/-- A word of the slot that WIN selects, as WINDATA shows it. -/
def recWord (s : State) (k : Nat) : Nat :=
  let i := getF s REC_WIN_INDEX
  let r := if getB s REC_WIN_AREA then (if i < nCirc then getRec s (4096 + i) else []) else if i < 4096 then getRec s i else []
  leNat ((r.drop (4 * k)).take 4)

/-! ## Calls to REC (R435) and the operating second (R426) -/

/-- COND: a program condition enters the write queue; it completes when its record or fold is valid. -/
def execCond (s : State) : Res :=
  match takeCall s 7 0 0 with
  | none => .next s
  | some (c, s0) =>
    let (code, s1) := dsc s0 c 0 2
    let (inst, s2) := dsc s1 c 2 2
    let (d, s3) := engRd s2 (c.addr + 0x18) 20
    if code < 0x1180 ∨ code > 0x11FF then .next (complete s3 c 0x12 0)
    else if s3.recQ.length ≥ 64 then .next (complete s3 c 3 0)
    else
      .next (recPush s3 { typ := 1, key := code, inst := inst, origin := 1, ptp := now s3,
                          unsync := getB s3 TIME_STATE_UNSYNC, detail := d, opsec := s3.mram.opsec, sub := opSub s3,
                          call := some c })

/-- STAT: a sample is added to a declared statistic of kind 7. -/
def execStat (s : State) : Res :=
  match takeCall s 7 0 1 with
  | none => .next s
  | some (c, s0) =>
    let (id, s1) := dsc s0 c 0 1
    let (x, s2) := dsc s1 c 4 4
    if (List.range 64).any (fun i => getB s2 REC_S_SRC_EN 0 i && getF s2 REC_S_SRC_KIND 0 i == 7 && getF s2 REC_S_SRC_ID 0 i == id)
    then .next (complete (statSample s2 7 id (f64of32 x)) c 0 0)
    else .next (complete s2 c 0x11 0)

/-- A whole operating second: OPSEC advances in the header; the temperatures are sampled (kind 8 of Table REC-5). -/
def execOperatingSecond (s : State) : Res :=
  let s1 := { s with mram := { s.mram with opsec := (s.mram.opsec + 1) % 2 ^ 32 }, opAt := s.ticks }
  .next (forEach [0, 1, 2, 3] s1 (fun s i =>
    statSample s 8 i (fdiv f64 (f64i (sint 16 (getF s PWR_TEMP_T 0 i))) (f64i 10))))

end Sys2Proof.Machine
end

