-- ==== Sys2Proof/Machine/Panel.lean ====
section
/-!
DEFINITION. The Stillwater panel: regions and frame buffer, the update queue, updates with temperature band and VCOM, the
discharge sequence, and the handling of an interrupted update (R436 to R441).
-/

namespace Sys2Proof.Machine

open R

/-- A region is enabled. -/
def rgnOn (s : State) (r : Nat) : Bool := getB s PNL_RSIZE_EN 0 r

/-- The pixels of frame buffer word `w` that lie in region `r`, as a mask. Word w holds pixels 32 × (w mod 10) on of row
w / 10 (R437). -/
def rgnMask (s : State) (r w : Nat) : Nat :=
  let x0 := getF s PNL_RPOS_X0 0 r
  let y0 := getF s PNL_RPOS_Y0 0 r
  let y := w / 10
  if y < y0 ∨ y ≥ y0 + getF s PNL_RSIZE_H 0 r then 0
  else
    let a := 32 * (w % 10)
    let lo := max x0 a
    let hi := min (min (x0 + getF s PNL_RSIZE_W 0 r) 296) (a + 32)
    if hi ≤ lo then 0 else 2 ^ (hi - a) - 2 ^ (lo - a)

/-- The bits of `new` where `m` is 1, of `old` elsewhere. -/
def mix (m new old : Nat) : Nat := (new &&& m) + (old - (old &&& m))

/-- The pixels of a frame buffer word that lie in an enabled region of SRC 6. -/
def prgMask (s : State) (w : Nat) : Nat :=
  (List.range 8).foldl (fun b r => if rgnOn s r && getF s PNL_RSIZE_SRC 0 r == 6 then b ||| rgnMask s r w else b) 0

/-- A write of a frame buffer word: pixels outside every region of SRC 6 keep their value (R437). -/
def fbWrite (s : State) (w v : Nat) : State := setF s PNL_FB_PIX (mix (prgMask s w) v (getF s PNL_FB_PIX 0 w)) 0 w

/-- The words of a region. -/
def rgnWords (s : State) (r : Nat) : List Nat := (List.range 1280).filter (fun w => rgnMask s r w != 0)

/-- STAT.QLEN, and the time at which the queue became empty. -/
def setPq (s : State) (q : List (Nat × Bool)) : State :=
  let e := if q.isEmpty && !s.pnl.q.isEmpty then tickNs s else s.pnl.emptyAt
  setF { s with pnl := { s.pnl with q := q, emptyAt := e } } PNL_STAT_QLEN q.length

/-- The result of an update request. -/
def updRes (s : State) (code : Nat) (repl : Bool) : State := setB (setF s PNL_UPD_RES_CODE code) PNL_UPD_RES_REPLACED repl

/-- An update is requested for region `r` (R438). The entry of a running update is the first and is never replaced. -/
def pnlRequest (s : State) (r : Nat) (full : Bool) : State :=
  let q := s.pnl.q
  if q.length < 8 then updRes (setPq s (q ++ [(r, full)])) 0x1200 false
  else
    let from_ := if s.pnl.run.isSome then 1 else 0
    match (q.drop from_).findIdx? (fun e => e.1 == r) with
    | some i => updRes (setPq s (q.set (from_ + i) (r, full))) 0x1200 true
    | none => latch (unitErr (updRes s 0x1210 false) .pnl 0 0x1210) .pnl 0 2

/-- A write of PNL.UPD. -/
def execPnlUpd (v : Nat) (s : State) : Res :=
  let r := v % 8
  if !inRun s .pnl then .next s
  else if rgnOn s r && getF s PNL_RSIZE_SRC 0 r == 6 then .next (pnlRequest s r (bitOf v 3))
  else .next (updRes s 0x1212 false)

/-- The module manager redraws a region of SRC 0 to 5: its pixels are the spec's content in a rendering that the spec does
not give, so each word is a free value; an update is requested. -/
def execPanelRedraw (r : Nat) (s : State) : Res :=
  if r ≥ 8 ∨ !inRun s .pnl ∨ !rgnOn s r ∨ getF s PNL_RSIZE_SRC 0 r > 5 ∨ s.pnl.boot then .next s
  else if mget s.pnl.drawAt r 0 ≠ 0 ∧ tickNs s < mget s.pnl.drawAt r 0 + 2000000000 then .next s
  else
    let s1 := forEach (rgnWords s r) s (fun s w =>
      let (v, s') := fresh 32 s
      setF s' PNL_FB_PIX (mix (rgnMask s' r w) v (getF s' PNL_FB_PIX 0 w)) 0 w)
    let s2 := { s1 with pnl := { s1.pnl with drawAt := mput 0 s1.pnl.drawAt r (tickNs s1) } }
    .next (pnlRequest s2 r false)

/-- The band of a panel temperature in 0.1 °C (Table PNL-2). -/
def pnlBand (t : Int) : Nat := if t < 0 then 0 else if t < 100 then 1 else if t < 250 then 2 else if t < 500 then 3 else 4

/-- VCOM by linear interpolation of the VTi table, clamped beyond its ends; between two whole mV either may be taken. -/
def pnlVcom (s : State) (t : Int) : Int × State :=
  let pt (i : Nat) : Int × Int := (sint 16 (getF s PNL_VT_T 0 i), sint 16 (getF s PNL_VT_V 0 i))
  if t ≤ (pt 0).1 then ((pt 0).2, s)
  else
    match (List.range 7).find? (fun i => decide (t < (pt (i + 1)).1)) with
    | none => ((pt 7).2, s)
    | some i =>
      let (t0, v0) := pt i
      let (t1, v1) := pt (i + 1)
      let n := (v1 - v0) * (t - t0)
      if n % (t1 - t0) = 0 then (v0 + n / (t1 - t0), s)
      else
        let (b, s') := pick s
        (v0 + n / (t1 - t0) + (if b then 1 else 0), s')

/-- The frames of an update in a temperature band (Table PNL-2). -/
def pnlFrames (band : Nat) (full : Bool) : Nat := ([40, 25, 15, 12, 10].getD band 10) * (if full then 2 else 1)

/-- The panel dirty map shown in DIRTY. -/
def setDirty (s : State) (m : Nat) (disch : Bool) : State :=
  setB (setF { s with mram := { s.mram with panelDirty := m, panelDisch := disch } } PNL_DIRTY_LIVE m) PNL_DIRTY_DISCH disch

/-- The queue's first update starts with the panel at `t`: band, VCOM, supplies on in 5 ms where they are off, dirty bit,
pixels taken, frames of 10 ms (Table PNL-2); below −15 °C it waits. -/
def pnlStart (s : State) (t : Int) : State :=
  match s.pnl.q with
  | [] => s
  | (r, full) :: _ =>
    let s0 := setF { s with pnl := { s.pnl with coldAt := tickNs s } } PNL_TEMP_VAL (pat 16 t)
    if t < -150 then
      if getB s0 PNL_STAT_COLD then s0 else level (unitErr (setB s0 PNL_STAT_COLD true) .pnl 0 0x1211) .pnl 0 2 true
    else
      let s1 := setF (level (setB s0 PNL_STAT_COLD false) .pnl 0 2 false) PNL_STAT_BAND (pnlBand t)
      let (v, s2) := pnlVcom s1 t
      let s3 := setF (setF (setF s2 PNL_VCOM_VAL (pat 16 v)) PNL_STAT_STATE 2) PNL_STAT_REGION r
      let s4 := setDirty s3 (s3.mram.panelDirty ||| 2 ^ r) false
      let px := (rgnWords s4 r).foldl (fun (m : NMap Nat) w => mput 0 m w (getF s4 PNL_FB_PIX 0 w)) []
      let on := if getF s PNL_STAT_STATE = 0 then 5000000 else 0
      { s4 with pnl := { s4.pnl with run := some px,
                                     doneAt := tickNs s + on + 10000000 * pnlFrames (pnlBand t) full } }

/-- One update runs from the queue; `t` is the panel temperature in 0.1 °C. -/
def execPanelUpdate (t : Int) (s : State) : Res :=
  if !inRun s .pnl || s.pnl.run.isSome || getB s PNL_STAT_COLD || s.pwr.pf then .next s else .next (pnlStart s t)

/-- The temperature is read again, 10 s after the last reading, while an update waits for it. -/
def execPanelColdRecheck (t : Int) (s : State) : Res :=
  if !inRun s .pnl || !getB s PNL_STAT_COLD || s.pnl.run.isSome || s.pwr.pf ||
      decide (tickNs s < s.pnl.coldAt + 10000000000) then .next s
  else .next (pnlStart s t)

/-- The update's entry leaves the queue; with no further update queued, the handling of R441 is done. -/
def pnlPop (s : State) : State :=
  setPq { s with pnl := { s.pnl with run := none, boot := s.pnl.boot && !s.pnl.q.tail.isEmpty } } s.pnl.q.tail

/-- The frames of the running update have been driven: the panel shows the pixels taken, the dirty bit clears. -/
def execPanelUpdateDone (s : State) : Res :=
  match s.pnl.run, s.pnl.q with
  | some px, (r, _) :: _ =>
    if tickNs s < s.pnl.doneAt then .next s
    else
    let s1 := forEach (rgnWords s r) s (fun s w =>
      { s with mram := { s.mram with panelImg := mput 0 s.mram.panelImg w
                                        (mix (rgnMask s r w) (mget px w 0) (mget s.mram.panelImg w 0)) } })
    let d := s1.mram.panelDirty
    let s2 := setDirty s1 (if bitOf d r then d - 2 ^ r else d) s1.mram.panelDisch
    .next (pnlPop (latch s2 .pnl 0 1))
  | _, _ => .next s

/-- A supply goes out of range: the running update is abandoned, its dirty bit stays. -/
def execPanelSupplyFault (s : State) : Res :=
  if s.pnl.run.isNone then .next s
  else .next (latch (unitErr (pnlPop s) .pnl 0 0x1213) .pnl 0 8)

/-- The discharge sequence ends: supplies off, DISCHARGED set (R440). -/
def pnlDischarge (s : State) : State := setDirty (setF s PNL_STAT_STATE 0) s.mram.panelDirty true

/-- With the queue empty for 1 s, or at start-up with no dirty bit and DISCHARGED clear, the discharge sequence runs. -/
def execPanelDischarge (s : State) : Res :=
  if s.pnl.boot && s.pnl.q.isEmpty && s.mram.panelDirty == 0 then .next { pnlDischarge s with pnl := { s.pnl with boot := false } }
  else if s.pnl.q.isEmpty && getF s PNL_STAT_STATE != 0 && decide (tickNs s ≥ s.pnl.emptyAt + 1000000000) then
    .next (pnlDischarge s)
  else .next s

/-- The power-fail warning: the frame in progress ends, the update is interrupted with its dirty bit set and its pixels in
whatever state the frames left them, and the discharge sequence runs (R441). -/
def pnlPowerfail (s : State) : State :=
  let s1 := match s.pnl.run, s.pnl.q with
    | some _, (r, _) :: _ => forEach (rgnWords s r) s (fun s w =>
        let (v, s') := fresh 32 s
        { s' with mram := { s'.mram with panelImg := mput 0 s'.mram.panelImg w (mix (rgnMask s' r w) v (mget s'.mram.panelImg w 0)) } })
    | _, _ => s
  let s2 := { s1 with pnl := { s1.pnl with run := none } }
  if getF s2 PNL_STAT_STATE = 0 then s2 else pnlDischarge s2

/-- REGION_INVALID of a RUN request, or a VCOM table that does not rise: the code byte, or 0 (R436, R439). -/
def pnlRunCheck (s : State) : Nat :=
  let badR (r : Nat) : Bool :=
    let x0 := getF s PNL_RPOS_X0 0 r
    let w := getF s PNL_RSIZE_W 0 r
    let h := getF s PNL_RSIZE_H 0 r
    rgnOn s r && (decide (x0 % 8 ≠ 0) || decide (w % 8 ≠ 0) || decide (x0 + w > 296) || decide (h = 0) ||
      decide (getF s PNL_RPOS_Y0 0 r + h > 128) || decide (getF s PNL_RSIZE_SRC 0 r > 7))
  let rise := (List.range 7).all (fun i => decide (sint 16 (getF s PNL_VT_T 0 i) < sint 16 (getF s PNL_VT_T 0 (i + 1))))
  if (List.range 8).any badR then 0x12 else if rise then 0 else 1

/-- The panel state at power-on: the dirty map found, the frame buffer retained from the panel's image. -/
def pnlPowerOn (s : State) : State :=
  let s1 := setF (setDirty s s.mram.panelDirty s.mram.panelDisch) PNL_DIRTY_BOOT s.mram.panelDirty
  let s2 := forEach s1.mram.panelImg s1 (fun s p => setF s PNL_FB_PIX p.2 0 p.1)
  { s2 with pnl := { s2.pnl with boot := s.mram.panelDirty != 0 || !s.mram.panelDisch } }

/-- PNL enters RUN: for the dirty bits found at power-on, full updates to white are queued and CLEAR_REFRESH is latched
(R441). -/
def pnlEnterRun (s : State) : State :=
  let rs := (List.range 8).filter (fun r => bitOf s.mram.panelDirty r)
  if !s.pnl.boot || rs.isEmpty then s
  else
    let s1 := forEach rs s (fun s r =>
      forEach (rgnWords s r) s (fun s w => setF s PNL_FB_PIX (mix (rgnMask s r w) 0 (getF s PNL_FB_PIX 0 w)) 0 w))
    latch (unitErr (setPq s1 (rs.map (fun r => (r, true)))) .pnl 0 0x1214) .pnl 0 16

/-- PNL leaves RUN: the queue is given up and nothing waits for the temperature; the dirty bit of a running update stays, and
supplies that are on are discharged after 1 s as with any empty queue. -/
def pnlLeaveRun (s : State) : State := level (setB (setPq { s with pnl := { s.pnl with run := none } } []) PNL_STAT_COLD false) .pnl 0 2 false

end Sys2Proof.Machine
end

