-- ==== Sys2Proof/Machine/Units.lean ====
section
/-!
DEFINITION. STOP, CONFIG and RUN of every unit and instance: the checks of a RUN request, the resource assignment, and
what an instance does as it enters and leaves RUN (R143, R144, R147, R457, R458).
-/

namespace Sys2Proof.Machine

open R

/-! ## Resource assignment (R457, R458) -/

/-- The first refused resource is kept in SYS.RA_REF: kind (0 DO, 1 TP, 2 profile channel, 3 safety address), number. -/
def raRef (s : State) (kind n unit : Nat) : State :=
  if getB s SYS_RA_REF_VALID then setF s SYS_RA_REF_OVR 1
  else setF (setF (setF (setF s SYS_RA_REF_KIND kind) SYS_RA_REF_NUMBER n) SYS_RA_REF_UNIT unit) SYS_RA_REF_VALID 1

/-- A DO that an output entry holds against Table CMB-1: a DO that carries a timed output, with an entry of an owner other
than LIO, or, where the safety map counts (`saf`), a DO of a safety pair, with an entry of an owner other than the safety engine. -/
def doConflict (s : State) (saf : Bool) : Option Nat :=
  (List.range 16).find? (fun n =>
    (tableList s).any (fun k =>
      let e := tableEntry s k
      e.src == 2 && e.isOut && e.point == 0x20 + n &&
      ((tpRouted s n && e.ownKind != 4) || (saf && (pairOf s n).isSome && e.ownKind != 1))))

/-- A DO of a pair of the safety image that asks for RUN, with an output entry of another owner latched in the local I/O. -/
def pairConflict (s : State) : Option Nat :=
  let s1 := { s with saf := { s.saf with img := s.saf.loaded.getD s.saf.img } }
  (List.range 16).find? (fun n =>
    (pairOf s1 n).isSome &&
    s.chn.chans.any (fun x => let e := x.2.latched; e.src == 2 && e.isOut && e.point == 0x20 + n && e.ownKind != 1))

/-- A profile channel that a second axis in RUN holds. -/
def profConflict (s : State) (a : Nat) : Bool :=
  (List.range (nAxis s)).any (fun b => b != a && inRun s .vaxAx b && getF s VAX_A_CFG_PG b == getF s VAX_A_CFG_PG a)

/-- A safety station of a port whose safety address another safety station has: of the port itself, of a port in RUN, or of
the whole module (`all`). -/
def safAddrConflict (s : State) (all : Bool) (p : Nat) : Option Nat :=
  [0, 1, 2, 3].find? (fun q =>
    let i := 4 * p + q
    stConfigured s i && stSafety s i &&
    (List.range (nSta s)).any (fun j => j != i && (all || j / 4 == p || inRun s .lnkPort (j / 4)) && stConfigured s j && stSafety s j && stGet s j 0x18 4 == stGet s i 0x18 4))

/-- The conflict that refuses a RUN request of a block copy, judged against the instances in RUN: (kind, number, unit
byte). -/
def resConflict (s : State) (b : Blk) (i : Nat) : Option (Nat × Nat × Nat) :=
  match b with
  | .lio => (doConflict s (inRun s .saf)).map (fun n => (0, n, 7))
  | .saf => if inRun s .lio then (pairConflict s).map (fun n => (0, n, 8)) else none
  | .vaxAx => if profConflict s i then some (2, getF s VAX_A_CFG_PG i, 0x0B) else none
  | .lnkPort => (safAddrConflict s false i).map (fun q => (3, 4 * i + q, 6))
  | _ => none

/-! ## The channel map (R147) -/

/-- First bit and number of bits of an output entry's value in its station's data or at its local point. -/
def entryBits (e : ChEntry) : Nat × Nat :=
  if e.src = 1 then (8 * e.byteOfs + e.bitOfs, if e.raw = 8 then 1 else 8 * rawSize e.raw) else (0, 1)

/-- Two output entries write overlapping bits of one destination. -/
def entriesMeet (a b : ChEntry) : Bool :=
  let (x, m) := entryBits a
  let (y, n) := entryBits b
  a.isOut && b.isOut && a.src == b.src && a.point == b.point && a.fast == b.fast && decide (x < y + n) && decide (y < x + m)

/-- The channel for which R147 refuses a RUN: an invalid entry, the later of two that overlap, or the 33rd fast channel of
a direction. -/
def mapBad (s : State) (sel : ChEntry → Bool) : Option Nat :=
  let l := (tableList s).filterMap (fun n => let e := tableEntry s n; if e.used && sel e then some (n, e) else none)
  let fastN (out : Bool) := (l.filter (fun x => x.2.fast && x.2.isOut == out)).map Prod.fst
  match l.find? (fun x => !entryOk s x.2 || l.any (fun y => decide (y.1 < x.1) && entriesMeet x.2 y.2)) with
  | some x => some x.1
  | none => match (fastN false)[32]?, (fastN true)[32]? with
    | some n, _ => some n
    | none, some n => some n
    | none, none => none

/-- MAP_INVALID is recorded in CHN with the channel in BAD_ENTRY. -/
def mapRefused (s : State) (n : Nat) : State := badEntry (unitErrAt s .chn 0 0x0511 n []) n

/-! ## Task configuration (R21, R113, R117) -/

/-- The timeline parameters lie in the ranges of Table ARC-5, those of the fast lane on every port. -/
def timelineRange (s : State) : Bool :=
  let t := s.tl
  let c0 := period s 0
  decide (4000 ≤ t.tGuard) && decide (t.tGuard ≤ 50000) && decide (t.tGuard < t.tSl) && decide (t.tSl ≤ c0) &&
  decide (t.tAo + t.tGuard ≤ c0) &&
  (List.range (nPort s)).all (fun p =>
    nFast s p != 0 && decide (t.tFsl * nFast s p ≤ c0) && decide ((t.tFao + 4000) * nFast s p ≤ c0))

/-- The task configuration meets the limits of R113, Table TSK-4 and Table ARC-5. -/
def tskCfgOk (s : State) : Bool :=
  let segs (t : Nat) : List Nat := (List.range (nSeg s t)).map (fun k => segCore s (4 * t + k))
  let tasks := (List.range 16).filter (fun t => hasTask s t)
  let c0 := getF s TSK_PERIOD_C0_US
  let c1 := getF s TSK_PERIOD_C1_US
  let c2 := getF s TSK_PERIOD_C2_US
  let ps := getF s TSK_PERIOD_S_US
  let bud (t : Nat) : Bool :=
    let b := getF s TSK_T_BUDGET_NS 0 t
    if t ≤ 1 then decide (10000000 ≤ b) && decide (b ≤ 5000000000)
    else if t ≤ 4 then true
    else if t = 5 then decide (2000 ≤ b) && decide (b ≤ 250 * c0)
    else if t = 6 then decide (2000 ≤ b) && decide (b ≤ 10000000)
    else decide (2000 ≤ b) && decide (b ≤ 100000000)
  let div (a b : Nat) : Bool := b != 0 && a % b == 0
  tasks.all (fun t => (segs t).all (fun c => decide (c < 6)) && decide (segs t).Nodup && bud t) &&
  [250, 500, 1000, 2000].contains c0 && decide (1000 ≤ c1) && decide (c1 ≤ 50000) && div c1 c0 && div 1000000 c1 &&
  decide (10000 ≤ c2) && decide (c2 ≤ 1000000) && div c2 c1 && div 1000000 c2 &&
  decide (1000 ≤ ps) && decide (ps ≤ 20000) && div ps c0 && div 1000000 ps &&
  getF s TSK_OVR_SKIPMAX_C0 != 0 && getF s TSK_OVR_SKIPMAX_C1 != 0 && getF s TSK_OVR_SKIPMAX_C2 != 0 && timelineRange s

/-! ## The pair's checks (R357, R365 to R367) -/

/-- G_max in ns (R365). -/
def gMax (s : State) : Nat := 6 * period s 0 + 1500000

/-- Instances of a block that are configured: not in STOP. -/
def configured (s : State) (b : Blk) : Nat := ((List.range (copies s b)).filter (fun i => stOf s b i != stSTOP)).length

/-- Bytes that kinds 1 to 8 of tier F can take for the configured instances, record headers included (Table PAIR-7). -/
def fixedF (s : State) : Nat :=
  264 + 40 + 56 * configured s .loopCtx + 104 * configured s .profCh + 40 * configured s .vaxAx + 24 * configured s .bsnCtx +
  10248 + ((actSlot s).fast.map (fun r => r.2 + 8)).sum

/-- Dual-homed stations whose T_HOLD does not exceed G_max. -/
def holdShort (s : State) : List Nat :=
  (List.range (nSta s)).filter (fun i =>
    stConfigured s i && bitOf (stGet s i 0x11 1) 2 && decide (stGet s i 0x14 4 * 1000 ≤ gMax s))

/-- BOUND(n) of a group rides through every takeover for a class (R366). -/
def rides (s : State) (g c : Nat) : Bool :=
  decide (getF s PAIR_GPOL_N 0 g ≥ ceilDiv (gMax s - s.tl.tGuard) (period s c))

/-- A group is SHORT: BOUND with an n below the ride-through value of the class of one of its output channels. -/
def gapShort (s : State) (g : Nat) : Bool :=
  getB s PAIR_GPOL_POL 0 g &&
  (tableList s).any (fun n => let e := tableEntry s n; e.used && e.isOut && gapGroup s n == g && !rides s g e.cls)

/-- The listen window starts; with the key in HALT or WIPE only as part of the start-up (R350, R373). -/
def listenStart (s : State) : State :=
  if keyPos s ≥ 2 ∧ s.tsk.ph ≠ .none then s
  else
    setB { s with pair := { s.pair with listenTo := now s + 200000000, heard := false, hb := none, claim := none } }
      PAIR_ROLE_LISTEN true

/-- A role is taken, with the code of its change (R349). -/
def setRole (s : State) (r code : Nat) : State :=
  latch (setF (setF s PAIR_ROLE_ROLE r) PAIR_ROLE_CODE code) .pair 0 1

/-- CAN channels and timed outputs follow the output path where it is no longer what it was (R374, R394, R462). -/
def pathFollow (old : Bool) (s : State) : State :=
  if outPath s = old then s else tpRelease (canOutput s (outPath s)) (outPath s)

/-- PAIR enters RUN: the checks of R366 and R367 are reported, G_max is shown, the side of a paired module is that of its cable
(R347), and the role is SOLO, or HALTED with the listen window started (Table PAIR-3). -/
def pairEnterRun (s : State) : State :=
  let h := holdShort s
  let s1 := setF (setF s PAIR_GMAX_NS (gMax s)) PAIR_HOLD_CHK_COUNT (sat 511 h.length)
  let s2 := setF s1 PAIR_HOLD_CHK_FIRST (h.headD 0)
  let gs := (List.range 16).filter (gapShort s)
  let s3 := forEach (List.range 16) s2 (fun s g => setB s PAIR_GPOL_SHORT (gs.contains g) 0 g)
  let s4 := setB s3 PAIR_HOLD_CHK_GAP_SHORT (!gs.isEmpty)
  let s5 := if h.isEmpty then s4 else unitErr s4 .pair 0 0x0D20
  let s6 := if gs.isEmpty then s5 else unitErr s5 .pair 0 0x0D21
  if getB s6 PAIR_CFG_PAIRED then
    pathFollow (outPath s) (listenStart (setRole (setF s6 PAIR_ROLE_SIDE (getF s6 PAIR_ILK_STRAP)) 4 0x0D00))
  else pathFollow (outPath s) (setRole s6 0 0x0D00)

/-! ## RUN: check, start, entry and exit -/

/-- The code that refuses a RUN request of a block copy, apart from resource conflicts and the channel map. -/
def runCode (s : State) (b : Blk) (i : Nat) : Option Nat :=
  match b with
  | .loopCtx => loopRunCheck s i
  | .profCh => profRunCheck s i
  | .vaxAx => vaxRunCheck s i
  | .bsnCtx => bsnRunCheck s i
  | .lio => lioRunCheck s
  | .time => timeRunCheck s
  | .trc => trcRunCheck s
  | .canCh => if canRunCheck s i = 0 then none else some (0x0F00 + canRunCheck s i)
  | .rcd => if recRunCheck s = 0 then none else some (0x1100 + recRunCheck s)
  | .pnl => if pnlRunCheck s = 0 then none else some (0x1200 + pnlRunCheck s)
  | .saf => if safCheck s (s.saf.loaded.getD s.saf.img) then none else some 0x0817
  | .lnkPort => match portPlan s i with | .error c => some c | .ok _ => none
  | .pair =>
    if getF s PAIR_CFG_HS_SETTLE < 10 ∨ getF s PAIR_CFG_HS_SETTLE > 600 ∨
        (List.range 16).any (fun g => getB s PAIR_GPOL_POL 0 g && getF s PAIR_GPOL_N 0 g == 0) then some 0x0D01
    else if getB s PAIR_CFG_PAIRED && decide (fixedF s > 49152) then some 0x0D18 else none
  | .tsk => if tskCfgOk s then none else some 0x0301
  | .pwr => if getF s PWR_POLICY_RESP = 0 ∨ getF s PWR_POLICY_RESP > 1000 then some 0x0201 else none
  | .host =>
    if getF s HOST_CFG_MAXSESS = 0 ∨ getF s HOST_CFG_MAXSESS > 8 ∨ getF s HOST_CFG_NMEA_TMO = 0 ∨ s.host.cfg.acl.length > 32 ∨
        s.host.cfg.points.length > 2048 ∨ s.host.cfg.groups.length > 4 then some 0x1001 else none
  | .sys | .chn | .lnk | .loop | .prof | .vax | .bsn | .can => none

/-- The channel for which R147 refuses the RUN of a port or of the local I/O sequencer. -/
def mapCheck (s : State) (b : Blk) (i : Nat) : Option Nat :=
  match b with
  | .lnkPort => mapBad s (fun e => e.src == 1 && e.point / 4 == i)
  | .lio => mapBad s (fun e => e.src == 2)
  | _ => none

/-- The plan of a port is fixed in its registers (R179 to R183); a window longer than P_AWIN.LEN can show saturates there
(DESIGN CHOICE, log entry 118). -/
def portFix (s : State) (p : Nat) : State :=
  match portPlan s p with
  | .error _ => s
  | .ok x =>
    let s1 := setF (setF s LNK_P_BUDGET_W_OUT x.wOut p) LNK_P_BUDGET_W_IN x.wIn p
    let s2 := setF (setF s1 LNK_P_TXFER_T_IN (x.tIn / 10) p) LNK_P_TXFER_T_OUT (x.tOut / 10) p
    let s3 := setF (setF s2 LNK_P_ACAP_A_UP x.aUp p) LNK_P_ACAP_A_DN x.aDn p
    let s4 := setF (setF s3 LNK_P_AWIN_AWIN (pat 16 x.awin) p) LNK_P_AWIN_LEN (sat 65535 x.wlen) p
    setPort s4 p { slots := x.slots, fslots := x.fslots, winLen := x.wlen * 10, step := (getPort s4 p).step }

/-- A port enters RUN: its plan is fixed, its entries are latched, every configured station is ABSENT (R149, R185). -/
def portEnterRun (s : State) (p : Nat) : State :=
  let s1 := latchOwned (portFix s p) (fun o => o.1 == .lnkPort && o.2 == p)
  forEach [0, 1, 2, 3] s1 (fun s q =>
    if stConfigured s (4 * p + q) then setSta (setStation s (4 * p + q) 0 0) (4 * p + q) {} else s)

/-- A block copy enters RUN. -/
def enterRun (s : State) (b : Blk) (i : Nat) : State :=
  match b with
  | .loopCtx => loopEnterRun s i
  | .profCh => profEnterRun s i
  | .vaxAx => vaxEnterRun s i
  | .lio => latchOwned (lioEnterRun s) (fun o => o.1 == .lio)
  | .time => timeEnterRun s
  | .trc => trcEnterRun s
  | .rcd => recEnterRun s
  | .pnl => pnlEnterRun s
  | .saf => safEnterRun s
  | .lnkPort => portEnterRun s i
  | .chn => latchOwned s (fun o => o.1 == .chn)
  | .pair => pairEnterRun s
  | .sys | .pwr | .tsk | .lnk | .loop | .prof | .vax | .bsn | .bsnCtx | .can | .canCh | .host => s

/-- Every running segment stops at its next instruction boundary; every task is idle. -/
def stopTasks (s : State) : State :=
  forEach (List.range 16) s (fun s t =>
    if (getTask s t).live then taskStat (setTask (stopSegs s t) t { getTask s t with live := false }) t else s)

/-- A block copy leaves RUN through STOP: its calls end NOT_RUN. -/
def leaveRun (s : State) (b : Blk) (i : Nat) : State :=
  match b with
  | .loopCtx => loopLeaveRun s i
  | .profCh => profLeaveRun s i
  | .vaxAx => vaxLeaveRun s i
  | .bsnCtx => bsnLeaveRun s i
  | .canCh => canLeaveRun s i cNOTRUN
  | .lio => lioLeaveRun s
  | .time => endAllQueued (timeLeaveRun s) 6 cNOTRUN
  | .trc => trcLeaveRun s
  | .rcd => recLeaveRun s cNOTRUN
  | .pnl => pnlLeaveRun s
  | .saf => safLeaveRun s
  | .lnkPort => portLeave s i cNOTRUN
  | .tsk => { stopTasks s with tsk := { (stopTasks s).tsk with rel := false } }
  | .pair =>
    let s1 := { s with pair := { s.pair with claim := none, ownWait := false } }
    pathFollow (outPath s) (setB (setRole (setB (setB s1 PAIR_ILK_OUT false) PAIR_ROLE_OUTPATH false)
      (if getB s PAIR_CFG_PAIRED then 4 else 0) 0x0D00) PAIR_ROLE_LISTEN false)
  | .sys | .pwr | .chn | .lnk | .loop | .prof | .vax | .bsn | .can | .host => s

/-- A RUN request from CONFIG: the configuration is checked; valid, it is latched, with BUSY until the first boundary. -/
def runRequest (s : State) (b : Blk) (i : Nat) : State :=
  let s := cfgLand s b i
  match mapCheck s b i with
  | some n => runRefused (mapRefused s n) b i 0x0511
  | none =>
    match resConflict s b i with
    | some (k, n, u) => runRefused (raRef s k n u) b i 0x0119
    | none =>
      match runCode s b i with
      | some c => runRefused s b i c
      | none =>
        let s1 := setF (setF (cfgLatch s b i) (hRes b) 0 i) (hBusy b) 1 i
        if b = .lio then lioRunStart s1 else s1

/-- SYS accepts CONFIG only while LIO and TIME are in STOP or CONFIG (R458). -/
def configAllowed (s : State) (b : Blk) : Bool := b != .sys || (decide (stOf s .lio < 2) && decide (stOf s .time < 2))

/-- A request acts on the state of a block copy (Table TSK-15): 0 none, 1 STOP, 2 CONFIG, 3 RUN. -/
def unitReq (s : State) (b : Blk) (i req : Nat) : State :=
  let st := stOf s b i
  let ok (s : State) : State := setF s (hRes b) 0 i
  if req = 0 then s
  else if getB s (hBusy b) i then setF s (hRes b) 2 i
  else match req with
    | 1 =>
      if st = stRUN then setF (ok s) (hBusy b) 1 i
      else if st = stFAULT ∧ b = .tsk then setF s (hRes b) 1 i
      else ok (cfgLand (setSt s b i stSTOP) b i)
    | 2 =>
      if st = stRUN ∨ st = stFAULT then setF s (hRes b) 1 i
      else if st = stCONFIG then ok s
      else if configAllowed s b then ok (setSt s b i stCONFIG) else setF s (hRes b) 1 i
    | 3 =>
      if st = stFAULT then setF s (hRes b) 1 i
      else if st = stRUN then ok s
      else if st = stSTOP ∧ !configAllowed s b then setF s (hRes b) 1 i
      else runRequest (setSt s b i stCONFIG) b i
    | _ => s

/-- PAIR takes requests only in the roles SOLO and HALTED. -/
def roleRefused (s : State) (b : Blk) : Bool := b == .pair && !(role s == 0 || role s == 4)

/-- A write of UNIT_CTL.REQ by the program (`mg` false) or by management: management needs TUNE or HALT (Table TSK-6),
and HALT for SAF (R263); the program reaches no request of SAF. -/
def unitWrite (s : State) (b : Blk) (i req : Nat) (mg : Bool) : State :=
  if i ≥ copies s b ∨ req = 0 then s
  else if b = .saf ∧ !mg then s
  else if b = .saf ∧ keyPos s ≠ 2 then unitErr s .saf 0 0x0818
  else if mg ∧ keyPos s ≠ 1 ∧ keyPos s ≠ 2 then s
  else if roleRefused s b then unitErr (setF s (hRes b) 1 i) .pair 0 0x0D1C
  else unitReq s b i req

/-- A STOP request. -/
def execUnitReqStop (b : Blk) (i : Nat) (mg : Bool) (s : State) : Res := .next (unitWrite s b i 1 mg)
/-- A CONFIG request. -/
def execUnitReqConfig (b : Blk) (i : Nat) (mg : Bool) (s : State) : Res := .next (unitWrite s b i 2 mg)
/-- A RUN request. -/
def execUnitReqRun (b : Blk) (i : Nat) (mg : Bool) (s : State) : Res := .next (unitWrite s b i 3 mg)

/-- A RUN that waits may complete: not that of a CAN channel or a QP context, which have events of their own, that of LIO only
after its calibration (R218), that of SAF at an S cycle start (R263). -/
def runDue (s : State) (b : Blk) : Bool :=
  match b with
  | .canCh | .bsnCtx => false
  | .lio => decide (now s ≥ s.lio.calEnd)
  | .saf => reaches s (period s 3) 0
  | _ => true

/-- A STOP that waits may complete: that of SAF at an S output deadline (R263). -/
def stopDue (s : State) (b : Blk) : Bool := b != .saf || reaches s (period s 3) s.tl.tGuard

/-- A block copy leaves RUN for STOP. -/
def stopped (s : State) (b : Blk) (i : Nat) : State :=
  let s1 := cfgLand (setF (setSt (leaveRun s b i) b i stSTOP) (hBusy b) 0 i) b i
  if b = .loopCtx then loopShow s1 i else s1

/-- A block copy whose RUN waits enters RUN. -/
def intoRun (s : State) (b : Blk) (i : Nat) : State := setF (enterRun (setSt s b i stRUN) b i) (hBusy b) 0 i

/-- The pending transition of a block copy completes. -/
def boundary (s : State) (b : Blk) (i : Nat) : State :=
  if i ≥ copies s b ∨ !getB s (hBusy b) i then s
  else if stOf s b i = stRUN then (if stopDue s b then stopped s b i else s)
  else if runDue s b then intoRun s b i
  else s

/-- An instance reaches the boundary at which its pending transition completes. -/
def execUnitBoundaryTransition (b : Blk) (i : Nat) (s : State) : Res := .next (boundary s b i)

/-- A block copy taken to RUN by the module itself, without waiting: STOP or CONFIG to RUN where its checks pass, FAULT
where they fail. -/
def toRun (s : State) (b : Blk) (i : Nat) : State :=
  if stOf s b i = stRUN ∨ stOf s b i = stFAULT then s
  else
    let s1 := runRequest (setSt s b i stCONFIG) b i
    if getB s1 (hBusy b) i then (if b = .saf then intoRun s1 b i else boundary s1 b i) else s1

/-- A block copy taken to STOP by the module itself, at once. -/
def toStop (s : State) (b : Blk) (i : Nat) : State :=
  if stOf s b i = stRUN then stopped s b i
  else cfgLand (setF (setSt s b i stSTOP) (hBusy b) 0 i) b i

/-- Every copy of a block. -/
def allCopies (s : State) (b : Blk) : List Nat := List.range (copies s b)

end Sys2Proof.Machine
end

