-- ==== Sys2Proof/Machine/Restart.lean ====
section
/-!
DEFINITION. The program's stop and restart: the timer cells and their image, the retentive banks and the warm-restart
header, the warm condition, steps W1 to W7, and TSK.CMD RESTART (R36, R56, R124, R126 to R131, R463 to R465, R480).
-/

namespace Sys2Proof.Machine

open R

/-! ## Timer cells (R56, R129) -/

/-- The content of a timer cell that is not listed: after a restart, ST of a cell of TSK is the present count. -/
def timerDef (s : State) (k : Nat) : TCell := if k < 4096 then { st := s.tsk.timerBase } else {}
/-- A timer cell: cells of TSK from 0, those of safety core c from c × 4,096. -/
def getTimer (s : State) (k : Nat) : TCell := mget s.tsk.timers k (timerDef s k)
/-- A timer cell, replaced; an ACTIVE module notes the change for its checkpoints (R358). -/
def setTimer (s : State) (k : Nat) (v : TCell) : State :=
  let s1 := { s with tsk := { s.tsk with timers := mput (timerDef s k) s.tsk.timers k v } }
  if getF s PAIR_ROLE_ROLE = 1 ∧ k < 4096 then
    { s1 with pair := { s1.pair with timerAt := mput 0 s1.pair.timerAt k (now s + 1) } }
  else s1

/-- The preset of a cell in ns (R57). -/
def presetNs (v : TCell) : Nat := v.pt * (if v.unit = 0 then 1000 else if v.unit = 1 then 1000000 else 1000000000)

/-- The elapsed time of a cell, saturated at its preset. -/
def elapsed (s : State) (v : TCell) : Nat := min ((tickNs s : Int) - v.st).toNat (presetNs v)

/-- The 12 bytes of a cell in the timer image: PT, then IN, Q, the unit and the elapsed time in units of 4 ns (R129). -/
def cellBytes (s : State) (v : TCell) : List Byte :=
  leBytes 4 v.pt ++ leBytes 8 (b2n v.inp + 2 * b2n v.q + 4 * (v.unit % 4) + 16 * (elapsed s v / 4))

/-- The timer image of 48 KB, by byte: 12 bytes per cell of TSK (R129). A cell that is not listed has zeros. -/
def timerImage (s : State) : NMap Byte :=
  s.tsk.timers.foldl (fun m p =>
    if p.1 < 4096 then
      ((cellBytes s p.2).zip (List.range 12)).foldl (fun m x => mput 0 m (p.1 * 12 + x.2) x.1) m
    else m) []

/-- The cell that 12 bytes of the timer image hold; ST is the elapsed time. -/
def cellOf (im : NMap Byte) (k : Nat) : TCell :=
  let b := (List.range 12).map (fun i => mget im (k * 12 + i) 0)
  let w := leNat (b.drop 4)
  { pt := leNat (b.take 4), inp := bitOf w 0, q := bitOf w 1, unit := bits w 2 2, st := (w / 16 * 4 : Nat) }

/-- The cells of TSK replaced by listed ones, whose ST holds an elapsed time: ST := present count − elapsed (R129). A cell
that is not listed is reset. -/
def timersSet (s : State) (cells : NMap TCell) : State :=
  let base : Int := tickNs s
  let safety := s.tsk.timers.filter (fun p => decide (p.1 ≥ 4096))
  let s1 := { s with tsk := { s.tsk with timers := safety, timerBase := base } }
  forEach cells s1 (fun s p => setTimer s p.1 { p.2 with st := base - p.2.st })

/-- The timer cells of TSK loaded from a timer image (R129). -/
def timersFrom (s : State) (im : NMap Byte) : State :=
  timersSet s (((mkeys im).map (fun a => a / 12)).dedup.map (fun k => (k, cellOf im k)))

/-! ## Retentive banks (R36) -/

/-- The bank that takes the next copy: the banks alternate. -/
def copyBank (s : State) : Nat := 1 - s.mram.bank

/-- A retentive bank. -/
def getBank (s : State) (b : Nat) : List (Nat × Byte) := if b = 0 then s.mram.bank0 else s.mram.bank1

/-- A page of RETAIN copied to a bank. A 64-bit word with an uncorrectable error is never returned as data: the bank keeps what
it held of it (R34; DESIGN CHOICE, log entry 100). -/
def pageCopy (s : State) (b p : Nat) : State :=
  let s := if badIn s (0x00800000 + p * 256) 256 then memFault s 0x00800000 else s
  let new := (List.range 256).foldl (fun m i =>
    if badIn s (0x00800000 + p * 256 + i) 1 then m
    else mput 0 m (p * 256 + i) (rdB s (0x00800000 + p * 256 + i))) (getBank s b)
  let d := s.mram.dirty.filter (fun x => x != 8192 * b + p)
  if b = 0 then { s with mram := { s.mram with bank0 := new, dirty := d } }
  else { s with mram := { s.mram with bank1 := new, dirty := d } }

/-- The changed pages that await their copy to a bank. -/
def pagesFor (s : State) (b : Nat) : List Nat :=
  (s.mram.dirty.filter (fun x => x / 8192 == b)).map (fun x => x % 8192)

/-- A copy to the bank in turn is complete: the header names it, with the program's generation, the timer image and the
snapshot instant of the data: at a partner that of the S applied last, at an owner the latest C1 output deadline, where an S is
taken (R350; DEDUCED, log entry 148). -/
def copyDone (s : State) (tim : NMap Byte) : State :=
  let snap := if owns s then (now s + s.tl.tGuard) / period s 1 * period s 1 - s.tl.tGuard else getF s PAIR_SNAPS_LO_STAMP + 2 ^ 32 * getF s PAIR_SNAPS_HI_STAMP
  { s with mram := { s.mram with bank := copyBank s, copied := true, valid := true, gen := (actSlot s).gen, timers := tim,
                                 stamp := snap } }

/-- The program is stopped: its stop has taken the timer image, which stands until the restart, so that the time while the
module is stopped does not count (R129). -/
def timersHeld (s : State) : Bool := s.tsk.ph == .halted || s.tsk.ph == .none || s.tsk.ph == .failed

/-- The timer image that a completed copy writes. -/
def stopImage (s : State) : NMap Byte := if timersHeld s then s.mram.timers else timerImage s

/-- A changed page of RETAIN is copied in the background; with the last one the copy is complete. -/
def execRetainPageCopy (p : Nat) (s : State) : Res :=
  let b := copyBank s
  if (pagesFor s b).contains p then
    let s1 := pageCopy s b p
    .next (if pagesFor s1 b = [] then copyDone s1 (stopImage s1) else s1)
  else .next s

/-- The remaining pages are copied and the header is marked ORDERLY (R124, Table PWR-1). What stopped tasks have written to
RETAIN needs no fence for it: it leaves the store buffers first (row 15 of Table ORD-4). -/
def finalCopy (s : State) : State :=
  let s := forEach (List.range 6) s (fun s c => sbDrain s c (fun w => decide (0x00800000 ≤ w) && decide (w < 0x00A00000)))
  let s1 := forEach (pagesFor s (copyBank s)) s (fun s p => pageCopy s (copyBank s) p)
  let s2 := copyDone s1 (stopImage s1)
  { s2 with mram := { s2.mram with orderly := true } }

/-- A region of memory loaded with bytes at offsets, the rest 0; its words hold no uncorrectable error any more. -/
def memLoad (s : State) (lo hi : Nat) (cells : List (Nat × Byte)) : State :=
  let keep := s.mem.filter (fun p => decide (p.1 < lo) || decide (hi ≤ p.1))
  { s with mem := cells.foldl (fun m p => if lo + p.1 < hi then mput 0 m (lo + p.1) p.2 else m) keep,
           bad := s.bad.filter (fun w => decide (w * 8 < lo) || decide (hi ≤ w * 8)) }

/-- The pages in which RETAIN differs from a bank. -/
def pagesDiffer (s : State) (b : Nat) : List Nat :=
  let bank := getBank s b
  let now_ := (s.mem.filter (fun p => decide (0x00800000 ≤ p.1) && decide (p.1 < 0x00A00000)))
  let ks := (bank.map Prod.fst).filter (fun k => mget s.mem (0x00800000 + k) 0 != mget bank k 0) ++
            (now_.map (fun p => p.1 - 0x00800000)).filter (fun k => mget s.mem (0x00800000 + k) 0 != mget bank k 0)
  (ks.map (fun k => k / 256)).dedup

/-- The pages that differ from either bank await their copies. -/
def remark (s : State) : State :=
  { s with mram := { s.mram with dirty := pagesDiffer s 0 ++ (pagesDiffer s 1).map (fun p => 8192 + p) } }

/-! ## The warm condition (R126) -/

/-- The retentive shadow is intact and the last stop was orderly. -/
def shadowOk (s : State) : Bool := s.tsk.shadow && !badIn s 0x00800000 0x00200000

/-- The warm-restart header is valid for the active slot. -/
def headerOk (s : State) : Bool :=
  s.mram.valid && (s.mram.orderly || s.mram.copied) && s.mram.gen == (actSlot s).gen

/-- The warm condition. -/
def warmOk (s : State) : Bool := shadowOk s || headerOk s

/-! ## Stopping -/

/-- The engines go to STOP. -/
def stopEngines (s : State) : State :=
  forEach [Blk.loopCtx, .profCh, .vaxAx, .bsnCtx] s (fun s b => forEach (allCopies s b) s (fun s i => toStop s b i))

/-- The program stops: the timer image is that of the stop, running tasks stop, no task is released, the classes' channels go
to their substitutes, the engines go to STOP (R124, R129). -/
def stopProgram (s : State) : State :=
  let s1 := stopTasks { s with mram := { s.mram with timers := stopImage s } }
  let s2 := forEach [2, 3, 4] s1 (fun s t => setF s TSK_T_STAT_SKIPPING 0 0 t)
  stopEngines (skipLevel { s2 with tsk := { s2.tsk with rel := false, ph := .halted, closed := [], migPend := false } })

/-- The OUT slots of every channel at substitute values, the IN images not VALID (W4). -/
def imagesInit (s : State) : State :=
  let s0 := { s with lnk := { s.lnk with stas := s.lnk.stas.map (fun x => (x.1, { x.2 with rcv := false })) } }
  forEach ((tableList s0 ++ chanList s0).dedup) s0 (fun s n =>
    let c := getChan s n
    let e := if c.cached.used then c.cached else tableEntry s n
    let v := e.subst % 2 ^ tyBits e.img
    let st := if e.used && !e.isOut then csWord 0 0 4 else 0
    setChan s n { c with inVal := 0, inSt := st, tkVal := 0, tkSt := st, finVal := 0, finSt := if e.fast then st else 0,
                         seen := false, good := none, age := 0, last := 0, srcAt := 0,
                         outVal := if e.used && e.isOut then v else 0, lnkVal := if e.used && e.isOut then v else 0,
                         dueVal := if e.used && e.isOut then v else 0 })

/-- The restart is abandoned: TSK enters FAULT with INIT_FAIL, outputs at substitute values, or one COLD restart starts
after a failed WARM-INIT with WARM_FAIL = COLD (R131). -/
def initFail (s : State) (warm : Bool) : State :=
  let s1 := imagesInit (stopProgram s)
  if warm && getB s1 TSK_RESTART_CFG_WARM_FAIL then
    { s1 with tsk := { s1.tsk with ph := .halted, due := some (false, 3, false) } }
  else unitErr (setSt { s1 with tsk := { s1.tsk with ph := .failed } } .tsk 0 stFAULT) .tsk 0 0x0318

/-! ## Restart (Table TSK-8) -/

/-- A block copy has a configuration: it is in CONFIG, or a CFG field of it was written. -/
def hasCfg (s : State) (b : Blk) (i : Nat) : Bool :=
  stOf s b i == stCONFIG ||
  (fieldsOf b).any (fun f => f.acc == .cfg && (List.range f.cnt).any (fun k => (mkeys s.regs).contains (f.addr i k)))

/-- A profile switch in progress is abandoned: the instances it stopped keep the settings of the last completed profile, or
what they last latched where that profile was never stored, and a held request is acted on after the restart (R463). -/
def dropSwitch (s : State) : State :=
  match s.tsk.profSw with
  | none => s
  | some w =>
    let p := mget s.tsk.profiles (getF s TSK_PROF_ACT) {}
    let new := mget s.tsk.profiles w.target {}
    let os := ((mkeys p.sets ++ mkeys new.sets).filterMap profOwner).dedup
    let old : Profile := { sets := (mkeys s.regs ++ mkeys s.lat).dedup.map (fun a => (a, inForce s a)) }
    let s1 := profWrite s (if p.stored then p else old) os
    setF (setF { s1 with tsk := { s1.tsk with profSw := none, profLate := [], profHeld := none,
                                              profReq := s1.tsk.profHeld.or s1.tsk.profReq } } TSK_PROF_BUSY 0) TSK_PROF_HELD 0

/-- The program stops at t_h, the C0 output deadline after HALT was accepted: a profile switch under way is abandoned, RETAIN
is copied, the header marked ORDERLY (R124). -/
def programHalt (s : State) : State :=
  let s1 := finalCopy (dropSwitch (stopProgram s))
  { s1 with tsk := { s1.tsk with haltPend := false, shadow := true } }

/-- Event queues and the fault queue are emptied without delivery and without counting as drops; the task registers that
count since the last restart start again (W1). -/
def clearQueues (s : State) : State :=
  let s1 := forEach (List.range 16) s (fun s t =>
    let s1 := setTask s t { getTask s t with evq := [], evDrop := 0, live := false, faulted := false }
    setF (setF (setF (setF s1 TSK_T_STAT_ST 0 0 t) TSK_T_STAT_QLEN 0 0 t) TSK_T_STAT_SKIPRUN 0 0 t) TSK_T_RELS_COUNT 0 0 t)
  level (setF { s1 with tsk := { s1.tsk with fq := [], fqDrop := 0 } } TSK_FQ_COUNT 0) .tsk 0 0 false

/-- W1: outputs at substitute values, tasks and engines in STOP, injections and traces ended, queues emptied
(R127, R319, R465). -/
def stepW1 (s : State) (cold : Bool) : State :=
  let s2 := dropSwitch (stopProgram (vaxRestart { s with pair := { s.pair with pre := [] } } cold))
  let s3 := if [1, 2, 4].contains (trcState s2) then trcLeaveRun s2 else s2
  setSt (wdRestart (clearQueues s3)) .tsk 0 stRUN

/-- W2 to W4: RETAIN, timer cells, DATA and images (R128, R129). -/
def stepW4 (s : State) (warm : Bool) : State :=
  let p := actSlot s
  let s1 :=
    if warm then
      if shadowOk s then setF s TSK_RESTART_SRC 0
      else setF (memLoad s 0x00800000 0x00A00000 (getBank s s.mram.bank)) TSK_RESTART_SRC 1
    else memLoad s 0x00800000 0x00A00000 p.retainInit
  let s2 := remark s1
  let s3 :=
    if warm then timersFrom s2 s2.mram.timers
    else timersSet s2 (p.presets.foldl (fun m c => if c.cell < 4096 then mput {} m c.cell { pt := c.pt, unit := c.unit } else m) [])
  imagesInit { memLoad s3 0 0x00800000 p.dataInit with host := { s3.host with fields := [] } }

/-- W5: units taken to RUN in the order time, ports, channel unit, CAN, loop, profile, valve axis, Basin. -/
def stepW5 (s : State) : State :=
  let go (s : State) (b : Blk) : State := forEach (allCopies s b) s (fun s i => if hasCfg s b i then toRun s b i else s)
  let s1 := toRun (go (toRun s .time 0) .lnkPort) .chn 0
  forEach [Blk.canCh, .loopCtx, .profCh, .vaxAx, .bsnCtx] s1 go

/-- W5 is complete: no unit that it takes to RUN still waits for its boundary, as a CAN channel does for its bus and a QP
context for the copy of its matrices. -/
def w5Done (s : State) : Bool :=
  [Blk.time, .lnkPort, .chn, .canCh, .loopCtx, .profCh, .vaxAx, .bsnCtx].all (fun b =>
    (allCopies s b).all (fun i => !getB s (hBusy b) i))

/-- W6: the INIT task is released once W5 is complete; until then the restart waits (R127). -/
def stepW6 (s : State) : State :=
  match s.tsk.ph with
  | .units warm =>
    if w5Done s then
      let s1 := releaseTask s (if warm then 1 else 0)
      scheduleAll { s1 with tsk := { s1.tsk with ph := .init warm } }
    else s
  | _ => s

/-- W1 to W6 of a restart of a type with its CAUSE; a unit that W5 leaves waiting holds W6 back. An active slot without a
program is NO_PROGRAM: the module stays halted. -/
def restart (s : State) (warm : Bool) (cause : Nat) (fell : Bool) : State :=
  let s0 := { s with tsk := { s.tsk with due := none } }
  if (actSlot s0).gen = 0 then unitErr (stopProgram s0) .sys 0 0x0118
  else
    let s1 := stepW5 (stepW4 (stepW1 s0 (!warm)) warm)
    let s2 := setF (setB (setF (setB s1 TSK_RESTART_TYPE warm) TSK_RESTART_CAUSE cause) TSK_RESTART_FELLBACK fell) TSK_KEY_WIPED 0
    stepW6 { s2 with tsk := { s2.tsk with ph := .units warm, shadow := true } }

/-- A restart is chosen under Table TSK-7: 0 power-on, 1 leaving HALT, 2 command. Leaving HALT after WIPE and a preference
for COLD give COLD; otherwise WARM where the warm condition is met, else COLD with WARM_INVALID recorded. -/
def chooseRestart (s : State) (cause : Nat) (forceCold : Bool) : State :=
  let put (s : State) (w f : Bool) : State := { s with tsk := { s.tsk with due := some (w, cause, f) } }
  if forceCold || (cause == 0 && !getB s TSK_RESTART_CFG_PWRON) || (cause == 1 && getB s TSK_KEY_WIPED) then put s false false
  else if warmOk s then put s true false
  else put (unitErr s .tsk 0 0x0317) false true

/-- A key position has been accepted, or KEY_FAULT latched, since power-on (R121). -/
def keyKnown (s : State) : Bool := s.tsk.keyAcc || getB s TSK_KEY_KFAULT

/-- S8 acts on the key position in force: halted in HALT and WIPE; a paired module follows Table PAIR-3; otherwise the
restart of Table TSK-7. -/
def s8Act (s : State) : State :=
  if keyPos s ≥ 2 then
    let s1 := { s with tsk := { s.tsk with ph := .halted }, pair := { s.pair with claim := none } }
    let s2 := setB s1 PAIR_ROLE_LISTEN false
    if role s = 0 ∨ role s = 4 then s2 else setRole s2 4 0x0D00
  else if role s = 0 then
    if (actSlot s).gen = 0 then { s with tsk := { s.tsk with ph := .halted } } else chooseRestart s 0 s.pwr.progFb
  else s

/-- S8 is reached: the running firmware image is no longer on trial (R451), and S8 acts once the key is known. -/
def reachS8 (s : State) : State :=
  let m := s.mram
  let m' := if m.fwRun then { m with fwB := { m.fwB with trial := false } } else { m with fwA := { m.fwA with trial := false } }
  let s1 := setF { s with mram := m' } SYS_BOOT_STEP 8
  if keyKnown s1 then s8Act s1 else s1

/-- The WARM restart that is due runs W1 to W6. -/
def execRestartWarm (s : State) : Res :=
  match s.tsk.due with
  | some (true, c, f) => .next (restart s true c f)
  | _ => .next s

/-- The COLD restart that is due runs W1 to W6. -/
def execRestartCold (s : State) : Res :=
  match s.tsk.due with
  | some (false, c, f) => .next (restart s false c f)
  | _ => .next s

/-- W7 is due: the INIT task has ended and a C2 cycle starts. -/
def w7Due (s : State) : Bool :=
  match s.tsk.ph with
  | .init w => !(getTask s (if w then 1 else 0)).live && !(getTask s (if w then 1 else 0)).faulted && reaches s (period s 2) 0
  | _ => false

/-- The event area of a task, as the program image names it (R115). -/
def evArea (s : State) (t : Nat) : Option Nat := ((actSlot s).evAreas.find? (fun x => x.1 == t)).map Prod.snd

/-- The ERROR task is released with the bitmaps of the stations declared DOWN (R116). -/
def releaseError (s : State) : State :=
  if s.tsk.errMap = 0 then s
  else
    let m := s.tsk.errMap
    let d := s.tsk.errDown
    let s1 := { s with tsk := { s.tsk with errMap := 0, errDown := 0 } }
    if hasTask s1 5 then
      match evArea s1 5 with
      | none => releaseTask s1 5
      | some a => releaseTask (wrN (wrN s1 a 32 m) (a + 32) 32 d) 5
    else s1

/-- Held event entries enter their queues (R480). -/
def heldRelease (s : State) : State :=
  let hs := s.tsk.held
  forEach hs { s with tsk := { s.tsk with held := [] } } (fun s h => evPush s h.task h.entry)

/-- The cyclic tasks are released together for the first time: held events enter their queues, a changed pin value is a
profile request, start-up is at S9 (R463, R480). -/
def firstRelease (s : State) : State :=
  let s1 := heldRelease { s with tsk := { s.tsk with rel := true, ph := .running }, mram := { s.mram with orderly := false } }
  let s2 := forEach [2, 3, 4] (releaseError s1) (fun s t => if hasTask s t then releaseTask s t else s)
  let pins := getF s2 TSK_PROF_PINS
  let s3 := if !getB s2 TSK_PROF_SRCSEL && s2.tsk.profReq.isNone && pins != getF s2 TSK_PROF_ACT then
              { s2 with tsk := { s2.tsk with profReq := some pins } } else s2
  scheduleAll (setF s3 SYS_BOOT_STEP 9)

/-- W7: at the first C2 cycle start after the INIT task has ended, C0, C1 and C2 are released together. -/
def execCyclicFirstRelease (s : State) : Res := if w7Due s then .next (firstRelease s) else .next s

/-! ## TSK.CMD (Table TSK-17) -/

/-- The result of a TSK command. A code reported only here does not enter UNIT_ERR (R475). -/
def cmdRes (s : State) (op code : Nat) : State := setF (setF s TSK_CMD_RES_CODE code) TSK_CMD_RES_OP op

/-- TSK.CMD RESTART WARM (OP 1) or COLD (OP 2): in TUNE only (Table TSK-6), on the owner of the process (log entry 20). -/
def restartCmd (s : State) (warm : Bool) : State :=
  let op := if warm then 1 else 2
  if !inTune s then cmdRes s op 0x0314
  else if !owns s then cmdRes s op 0x031D
  else if warm && !warmOk s then cmdRes s op 0x0317
  else cmdRes { s with tsk := { s.tsk with due := some (warm, 2, false) } } op 0x0300

/-- TSK.CMD RESTART WARM. -/
def execTskRestartWarm (s : State) : Res := .next (restartCmd s true)
/-- TSK.CMD RESTART COLD. -/
def execTskRestartCold (s : State) : Res := .next (restartCmd s false)

end Sys2Proof.Machine
end

