-- ==== Sys2Proof/Machine/Change.lean ====
section
/-!
DEFINITION. Online change: the states of Table TSK-9, the migration map, switch and revert points (R132 to R138).
-/

namespace Sys2Proof.Machine

open R

/-- The online change state: 0 IDLE, 1 LOADED, 2 ARMED, 3 SWITCHED, 4 REVERT-ARMED (Table TSK-9). -/
def olc (s : State) : Nat := getF s TSK_SLOT_OLC

/-- The online change state set, with no postponement counted. -/
def setOlc (s : State) (v : Nat) : State := setF (setF s TSK_SLOT_OLC v) TSK_SLOT_POSTP 0

/-- An ACTIVE module sends a CTRL frame to its partner (R372). -/
def ctrlSend (s : State) (m : CtrlMsg) : State :=
  if role s = 1 then { s with pair := { s.pair with ctrlTx := s.pair.ctrlTx ++ [m] } } else s

/-! ## The migration map (R136, Tables TSK-10 to TSK-12) -/

/-- Bytes of an entry's source and destination. -/
def migLens (e : MigEntry) : Nat × Nat :=
  if e.op = 3 then (e.len * tySize (e.types % 8), e.len * tySize (e.types / 16 % 8)) else (e.len, e.len)

/-- Cost of an entry in CORE cycles (Table TSK-12). -/
def migCost (e : MigEntry) : Nat := if e.op = 3 then 1 + e.len else 1 + ceilDiv e.len 64

/-- The cost of a map: 200 plus the sum of its entry costs. -/
def mapCost (m : MigMap) : Nat := m.entries.foldl (fun t e => t + migCost e) 200

/-- A range lies in DATA and RETAIN, which adjoin. -/
def inData (a n : Nat) : Bool := decide (a + n ≤ 0x00A00000)

/-- An entry is well formed and addresses nothing outside DATA and RETAIN and the constant pool. -/
def migEntryOk (m : MigMap) (e : MigEntry) : Bool :=
  let (ls, ld) := migLens e
  decide (1 ≤ e.len) && decide (e.len ≤ 4096) && decide (e.op < 4) && e.rsv == 0 && inData e.dst ld &&
  (if e.op = 3 then e.types % 16 < 8 && e.types < 128 && inData e.src ls
   else e.types == 0 &&
     (if e.op = 0 then inData e.src ls else if e.op = 1 then decide (e.src + e.len ≤ m.pool.length) else decide (e.src < 256)))

/-- The bytes of an entry (Table TSK-11). -/
def migEntryBytes (e : MigEntry) : List Byte :=
  leBytes 4 e.dst ++ leBytes 4 e.src ++ leBytes 2 e.len ++ leBytes 1 e.op ++ leBytes 1 e.types ++ leBytes 4 e.rsv

/-- The CRC of a map: the header with CRC = 0, the entries and the pool (Table TSK-10). -/
def mapCrc (m : MigMap) : Nat :=
  crcEth (leBytes 4 m.magic ++ leBytes 4 m.fromGen ++ leBytes 4 m.toGen ++ leBytes 4 m.count ++ leBytes 4 m.cost ++
    leBytes 4 m.poolOfs ++ leBytes 4 m.pool.length ++ leBytes 4 0 ++ m.entries.flatMap migEntryBytes ++ m.pool)

/-- The load check of a map in an image of `size` bytes (R133, R136). -/
def mapOk (m : MigMap) (size fromGen toGen : Nat) : Bool :=
  m.magic == 0x0050414D && m.fromGen == fromGen && m.toGen == toGen && m.count == m.entries.length &&
  decide (m.entries.length ≤ 16384) && m.cost == mapCost m && decide (m.cost ≤ 20000) && decide (m.pool.length ≤ 1048576) &&
  decide (m.poolOfs + m.pool.length ≤ size) && m.crc == mapCrc m && m.entries.all (migEntryOk m)

/-- `n` elements converted as CVT does (R61). -/
def migConv (s : State) (e : MigEntry) : Nat → List Byte
  | 0 => []
  | n + 1 =>
    let t := e.types % 8
    let u := e.types / 16 % 8
    let i := e.len - (n + 1)
    leBytes (tySize u) (tyCvt true t u (rdN s (e.src + i * tySize t) (tySize t))).1 ++ migConv s e n

/-- One entry of the map runs; none where its source holds an uncorrectable error. -/
def migRun (m : MigMap) (s : State) (e : MigEntry) : Option State :=
  let bs :=
    match e.op with
    | 0 => rdBs s e.src e.len
    | 1 => (m.pool.drop e.src).take e.len
    | 2 => List.replicate e.len (BitVec.ofNat 8 e.src)
    | _ => migConv s e e.len
  if (e.op = 0 ∨ e.op = 3) ∧ badIn s e.src (migLens e).1 then none else some (wrBs s e.dst bs)

/-- The entries run in map order; the second component is false where an uncorrectable error stops the map. -/
def migAll (m : MigMap) (s : State) : List MigEntry → State × Bool
  | [] => (s, true)
  | e :: t => match migRun m s e with
    | some s' => migAll m s' t
    | none => (s, false)

/-! ## The switch point (R134, R135) -/

/-- Every accepted call that has not completed. -/
def pendingCalls (s : State) : List Call :=
  s.tsk.engq.flatMap (fun q => q.2) ++ s.loops.flatMap (fun x => x.2.wait) ++
  s.gens.flatMap (fun x => x.2.wait.map Prod.snd) ++ s.axes.flatMap (fun x => x.2.start.toList ++ x.2.stop.toList) ++
  s.bsn.qps.flatMap (fun x => (x.2.run.toList ++ x.2.wait.toList).flatMap (fun v => v.call :: v.cancel)) ++
  s.bsn.decided.map QpRes.call ++ s.lnk.ports.flatMap (fun x => x.2.aq.filterMap AReq.call ++ x.2.iout.map IoutReq.call) ++
  s.lnk.stas.filterMap (fun x => x.2.reinit) ++
  s.can.chs.flatMap (fun x => x.2.fifo.flatMap (fun t => t.call :: t.abort) ++
    x.2.mbox.flatMap (fun b => b.2.toList.flatMap (fun t => t.call :: t.abort)) ++ x.2.sleep ++ x.2.wake) ++
  s.recQ.filterMap RecReq.call

/-- A destination range of a map overlaps the descriptor of a pending call or a Basin result area. -/
def mapMeets (s : State) (m : MigMap) : Bool :=
  m.entries.any (fun e =>
    let n := (migLens e).2
    (pendingCalls s).any (fun c => meets e.dst n c.addr c.len) ||
    (List.range 16).any (fun q => inRun s .bsnCtx q && meets e.dst n (qRes s q) (64 + 8 * (qN s q + qMe s q + qMi s q))))

/-- The conditions of R134 for a map at the cycle start `tb`, where `gen` is the generation of the new image: the standby
acknowledged it at its load, and condition 5 holds with it for a revert as for a switch (DEDUCED, log entry 94). -/
def switchOk (s : State) (m : MigMap) (tb gen : Nat) : Bool :=
  (List.range 16).all (fun t => !(getTask s t).live) && !([0, 1, 2].any (inClassFault s)) &&
  !(deadlines s).any (fun d => decide (tb ≤ d) && decide (d < tb + m.cost + 4)) && !mapMeets s m &&
  (role s != 1 || s.pair.pgen == gen)

/-- The other slot becomes active, its tasks with the segments, cores, bands and budgets of its configuration; they are
released from `tb` + t_mig on. -/
def activate (s : State) (tb cost : Nat) : State :=
  let s1 := setF s TSK_SLOT_ACTIVE (1 - getF s TSK_SLOT_ACTIVE)
  let tsk := (actSlot s1).cfgRegs.filter (fun w => decide (0x40020100 ≤ w.1) && decide (w.1 < 0x40020300) && decide (w.1 % 32 < 8))
  let s2 := forEach tsk s1 (fun s w =>
    setRegW s (if w.1 % 32 < 4 then TSK_T_CFG_NSEG else TSK_T_BUDGET_NS) 0 ((w.1 - 0x40020100) / 32) w.2)
  latch { s2 with tsk := { s2.tsk with migTo := tb + cost }, mram := { s2.mram with slotB := getB s2 TSK_SLOT_ACTIVE } } .tsk 0 256

/-- A switch (`back` false) or a revert at a C2 cycle start: made, stopped by an uncorrectable error, or postponed. After a
map that an error stopped, the change state is that of the slot that stays active: LOADED for a switch, SWITCHED for a
revert (DEDUCED, log entry 95). -/
def switchPoint (s : State) (back : Bool) : State :=
  let tb := lastStart s 2
  let m := if back then (actSlot s).revMap else (idleSlot s).map
  if switchOk s m tb (if back then actSlot s else idleSlot s).gen then
    match migAll m s m.entries with
    | (s1, true) => setOlc (activate s1 tb m.cost) (if back then 1 else 3)
    | (s1, false) => setOlc (forEach [0, 1, 2] s1 (fun s c => classFault s c 0x031C)) (if back then 3 else 1)
  else
    let s1 := setF s TSK_SLOT_POSTP (getF s TSK_SLOT_POSTP + 1)
    if getF s1 TSK_SLOT_POSTP ≥ 8 then latch (unitErr (setOlc s1 (if back then 3 else 1)) .tsk 0 0x031B) .tsk 0 512 else s1

/-! ## Commands (Table TSK-17) -/

/-- A change command: refused in a key position outside `keys`, and in a state other than `from_` or on a module that does
not own the process; else the state becomes `to`. -/
def olcCmd (s : State) (op : Nat) (keys : List Nat) (fromSt toSt : Nat) : State :=
  if !keys.contains (keyPos s) then cmdRes s op 0x0314
  else if olc s ≠ fromSt ∨ !owns s then cmdRes s op 0x031D
  else cmdRes (setOlc s toSt) op 0x0300

/-- TSK.CMD SWITCH: LOADED to ARMED, in TUNE. -/
def execTskSwitch (s : State) : Res := .next (olcCmd s 3 [1] 1 2)

/-- The slots as NOR holds them. -/
def norSlots (s : State) : State := { s with mram := { s.mram with norA := s.tsk.slotA, norB := s.tsk.slotB } }

/-- The old slot is freed, in NOR too (R138). -/
def freeOld (s : State) : State := norSlots (setIdleSlot s {})

/-- TSK.CMD COMMIT: SWITCHED to IDLE, the old slot freed, in RUN, TUNE and HALT; forwarded to the partner. -/
def execTskCommit (s : State) : Res :=
  let s1 := olcCmd s 4 [0, 1, 2] 3 0
  .next (if getF s1 TSK_CMD_RES_CODE = 0x0300 then ctrlSend (freeOld s1) .commit else s1)

/-- TSK.CMD REVERT: SWITCHED to REVERT-ARMED, in TUNE; forwarded to the partner. -/
def execTskRevert (s : State) : Res :=
  let s1 := olcCmd s 5 [1] 3 4
  .next (if getF s1 TSK_CMD_RES_CODE = 0x0300 then ctrlSend s1 .revert else s1)

/-- TSK.CMD CANCEL: ARMED to LOADED, REVERT-ARMED to SWITCHED. -/
def execTskCancel (s : State) : Res :=
  .next (if olc s = 4 then olcCmd s 7 [0, 1, 2, 3] 4 3 else olcCmd s 7 [0, 1, 2, 3] 2 1)

end Sys2Proof.Machine
end

