-- ==== Sys2Proof/Machine/LoadCheck.lean ====
section
/-!
DEFINITION. The checks of a program image at load: variant, absent resources, timeline limits, tasks and their cores,
migration maps, the safety section (R4, R21, R37, R110, R113, R133, R204, R267, R414).
-/

namespace Sys2Proof.Machine

open R

/-- A signature that names key `sig` is valid for an image of a kind: a present key, marked SAFETY exactly for safety
sections (R414). A slot of the identity store holds 1 + 2 × key + SAFETY. -/
def sigOk (s : State) (sig kind : Nat) : Bool :=
  s.mram.keys.any (fun e => e.2 == 1 + 2 * sig + (if kind = 1 then 1 else 0))

/-- The signatures of an image and of its safety section, where it has one (R267, R414); what they cover is not computed
(DESIGN CHOICE, log entry 15). -/
def signed (s : State) (p : Slot) : Bool := sigOk s p.sig 0 && (!p.simg.there || sigOk s p.simg.sig 1)

/-- The active slot replaced. -/
def setActSlot (s : State) (p : Slot) : State :=
  if getB s TSK_SLOT_ACTIVE then { s with tsk := { s.tsk with slotB := p } } else { s with tsk := { s.tsk with slotA := p } }

/-- The configuration of an image in force by itself: the state against which its load is judged. -/
def cfgOf (s : State) (p : Slot) : State :=
  cfgMemSet (p.cfgRegs.foldl cfgApply { setActSlot (cfgClear s) p with tl := p.tl }) p.cfgMem

/-- The configuration fields that name a channel: of every copy of their block and every index. -/
def chanFlds : List Fld :=
  [LOOP_L_OUT_CHAN, LOOP_L_POS_CHAN, LOOP_L_TRK_CHAN, LOOP_L_LAW_FB_CHAN, PROF_P_INITCH_CHAN, VAX_A_CH_POSW, VAX_A_CH_CTL]

/-- Nothing that a safety section names is absent from the variant: channels of its map and gates, stations (R4). -/
def safPresent (s : State) (im : SImage) : Bool :=
  im.map.all (fun m => (m.2.chan == 0xFFFF || decide (m.2.chan < nChan s)) && (decide (m.2.kind > 1) || decide (m.2.point < nSta s))) &&
  im.gates.all (fun g => decide (g.chan < nChan s))

/-- The configuration words that name the output channel of a loop context or the channels of a valve axis name channels that
this instance owns (R156). -/
def cfgOwns (s : State) (p : Slot) : Bool :=
  p.cfgRegs.all (fun w =>
    match blkAt w.1 with
    | some (.loopCtx, c, o) =>
      let e := tableEntry s (getF s LOOP_L_OUT_CHAN c)
      o != LOOP_L_OUT_CHAN.off || (e.used && e.isOut && e.ownKind == 2 && e.ownInst == c)
    | some (.vaxAx, a, o) =>
      o != VAX_A_CH_POSW.off ||
        [getF s VAX_A_CH_POSW a, getF s VAX_A_CH_CTL a].all (fun n =>
          let e := tableEntry s n
          e.used && e.isOut && e.ownKind == 3 && e.ownInst == a)
    | _ => true)

/-- Nothing that the configuration names is absent from the variant: port and axis registers, table entries, channels and
stations in registers, the tables' stations and axes, HOST points, the safety map and gates (R4). -/
def cfgPresent (s : State) (p : Slot) : Bool :=
  p.cfgRegs.all (fun w => match blkAt w.1 with | none => true | some (b, i, _) => decide (i < copies s b)) &&
  p.cfgMem.all (fun w => w.2.all (· == 0) || (isCfgMem w.1 && cfgMemHas s w.1 && cfgMemHas s (w.1 + w.2.length - 1))) &&
  chanFlds.all (fun f => (List.range (copies s f.blk)).all (fun i => (List.range f.cnt).all (fun k => decide (getF s f i k < nChan s)))) &&
  (List.range 64).all (fun k =>
    let kind := getF s REC_S_SRC_KIND 0 k
    let id := getF s REC_S_SRC_ID 0 k
    !getB s REC_S_SRC_EN 0 k || ((decide (kind > 1) || decide (id < nChan s)) && (kind != 4 || decide (id < nPort s)))) &&
  (List.range 64).all (fun k => getF s PAIR_GRNGA_COUNT 0 k == 0 ||
    decide (getF s PAIR_GRNGA_FIRST 0 k + getF s PAIR_GRNGA_COUNT 0 k ≤ nChan s)) &&
  (List.range (nAxis s)).all (fun i => decide (getF s VAX_A_CFG_STATION i < nSta s)) &&
  (tableList s).all (fun n =>
    let e := tableEntry s n
    (e.src != 1 || decide (e.point < nSta s)) && (e.ownKind != 3 || decide (e.ownInst < nAxis s))) &&
  p.host.points.all (fun m => decide (m.src > 1) || decide (m.ref < nChan s)) &&
  safPresent s p.simg

/-- The limits and constraints of Table ARC-5 on the timeline parameters, and R204's on a mapped local AI. -/
def timelineOk (s : State) : Bool :=
  let t := s.tl
  timelineRange s &&
  (List.range (nPort s)).all (fun p => (placeAll s p (period s 0) (upFrames s p) []).isSome && outXferOk s p) &&
  ((tableList s).all (fun n =>
     let e := tableEntry s n
     !(e.src == 2 && decide (0x30 ≤ e.point) && decide (e.point < 0x40)) || decide (t.tGuard + 15000 ≤ t.tSl)))

/-- Tasks 0, 1 and 2 are there, and each task has an entry point for exactly the segments that its configuration gives a
core (R110, R113). -/
def tasksOk (s : State) (p : Slot) : Bool :=
  [0, 1, 2].all (fun t => (mkeys p.entries).contains (4 * t)) &&
  (mkeys p.entries).all (fun k => decide (k < 64) && (mkeys p.entries).contains (k / 4 * 4) && decide (k % 4 < nSeg s (k / 4))) &&
  ((List.range 16).filter (fun t => hasTask s t)).all (fun t =>
    (List.range (nSeg s t)).all (fun k => (mkeys p.entries).contains (4 * t + k)))

/-- The configuration of an image, judged by itself. -/
def imageCfgOk (s : State) (p : Slot) : Bool :=
  let c := cfgOf s p
  cfgPresent c p && cfgOwns c p && timelineOk c && tskCfgOk c && tasksOk c p

/-- Register words of the resource assignment and of the cycle periods. -/
def fixedCfg (p : Slot) : List (Nat × Nat) :=
  p.cfgRegs.filter (fun w => (decide (0x40000060 ≤ w.1) && decide (w.1 < 0x40000064)) ||
                             (decide (0x40020060 ≤ w.1) && decide (w.1 < 0x40020070)))

/-- The checks of a program image besides its own signature (R4, R37, R133, R267): variant, size, configuration and safety
section always; for a change also the migration maps and what a change cannot alter. -/
def progOk (s : State) (p : Slot) (change : Bool) : Bool :=
  let a := actSlot s
  p.variant == getF s SYS_ORDER_VARIANT && decide (p.size ≤ 50331648) && p.gen != 0 && imageCfgOk s p &&
  decide (p.fast.length ≤ 64) && decide ((p.fast.map Prod.snd).sum ≤ 16384) &&
  (!p.simg.there || sigOk s p.simg.sig 1) &&
  (!change || (mapOk p.map p.size a.gen p.gen && mapOk p.revMap p.size p.gen a.gen && p.cfgMem == a.cfgMem &&
               fixedCfg p == fixedCfg a && p.simg == a.simg))

end Sys2Proof.Machine
end

