-- ==== Sys2Proof/Machine/Profile.lean ====
section
/-!
DEFINITION. Stored profiles: what a profile holds, STORE, requests by pins and by command, and the profile switch
(R139 to R142, R461, R463, R466 to R468).
-/

namespace Sys2Proof.Machine

open R

/-! ## Content (Table TSK-13) -/

/-- The settings in force, as latched in their instances (R140): every register of the left column of Table TSK-13 that
differs from its reset word. -/
def profNow (s : State) : List (Nat × Nat) :=
  ((mkeys s.regs ++ mkeys s.lat).dedup.filter (fun a => (profOwner a).isSome)).filterMap (fun a =>
    let v := inForce s a &&& profMask a
    if v = profRst a then none else some (a, v))

/-- A stored profile. -/
def getProfile (s : State) (n : Nat) : Profile := mget s.tsk.profiles n {}

/-- The block copies whose settings differ from a profile. -/
def profDiff (s : State) (p : Profile) : List (Blk × Nat) :=
  let cur := profNow s
  let d := cur.filter (fun w => !p.sets.contains w) ++ p.sets.filter (fun w => !cur.contains w)
  (d.filterMap (fun w => profOwner w.1)).dedup

/-- A profile sets nothing that Table TSK-13 does not list, and no instance that it sets breaks a limit of its unit against
the loaded configuration and program (R139). -/
def profileOk (s : State) (p : Profile) : Bool :=
  let os := (p.sets.filterMap (fun w => profOwner w.1)).dedup
  p.sets.all (fun w => (profOwner w.1).isSome && w.2 &&& profMask w.1 == w.2) &&
  os.all (fun o => (runCode (profWrite s p os) o.1 o.2).isNone)

/-! ## STORE (R140) -/

/-- A profile is stored from the settings in force and the parameter block of the program; forwarded to the partner. -/
def profStoreNow (s : State) (n : Nat) : State :=
  let a := (actSlot s).paramAddr
  let (param, s1) := engRd s a 64
  let p : Profile := { stored := true, sets := profNow s1, param := param }
  if profileOk s1 p then
    cmdRes (ctrlSend { s1 with tsk := { s1.tsk with profiles := mput {} s1.tsk.profiles n p } } (.profStore n p)) 8 0x0300
  else cmdRes s1 8 0x031E

/-- TSK.CMD STORE: in TUNE and HALT; during a profile switch it is carried out when the switch completes. -/
def execTskStore (n : Nat) (s : State) : Res :=
  if keyPos s ≠ 1 ∧ keyPos s ≠ 2 then .next (cmdRes s 8 0x0314)
  else if s.tsk.profSw.isSome then .next { s with tsk := { s.tsk with profStore := some (n % 4) } }
  else .next (profStoreNow s (n % 4))

/-! ## Requests (R141, R461) -/

/-- A request for profile `n`: held during a switch, ignored for the profile in force, else acted on at a C2 cycle
start. -/
def profRequest (s : State) (n : Nat) : State :=
  if s.tsk.profSw.isSome then setF { s with tsk := { s.tsk with profHeld := some n } } TSK_PROF_HELD 1
  else if n = getF s TSK_PROF_ACT then s
  else { s with tsk := { s.tsk with profReq := some n } }

/-- TSK.CMD SELECT: refused in WIPE, on a module that does not own the process, and for a profile that was never stored;
the last value stays readable, and counts only when the source is the command. -/
def execTskSelect (n : Nat) (s : State) : Res :=
  let n := n % 4
  if keyPos s = 3 then .next (cmdRes s 6 0x0314)
  else if !owns s then .next (cmdRes s 6 0x031D)
  else if !(getProfile s n).stored then .next (cmdRes s 6 0x031E)
  else
    let s1 := cmdRes (setF s TSK_PROF_CMDVAL n) 6 0x0300
    .next (if getB s TSK_PROF_SRCSEL then profRequest s1 n else s1)

/-- The pins have shown a value for 100 ms. A value that names a profile never stored makes no request (DESIGN CHOICE, log
entry 108). -/
def execProfilePinRequest (v : Nat) (s : State) : Res :=
  let v := v % 4
  let s1 := setF s TSK_PROF_PINS v
  if getB s TSK_PROF_SRCSEL || !owns s || keyPos s == 3 || !(getProfile s v).stored then .next s1 else .next (profRequest s1 v)

/-! ## The switch (R142, Table TSK-14) -/

/-- A profile switch may start: on the owner, outside a migration, no online change armed. -/
def switchStarts (s : State) : Bool :=
  owns s && s.tsk.rel && s.tsk.profSw.isNone && olc s != 2 && olc s != 4 && decide (now s ≥ s.tsk.migTo)

/-- A profile channel whose SS1 lock has ended takes its profile through STOP, CONFIG and RUN (R467). -/
def profLateRun (s : State) : State :=
  let go := s.tsk.profLate.filter (fun g => !(getGen s g).lock)
  let p := getProfile s (getF s TSK_PROF_ACT)
  forEach go { s with tsk := { s.tsk with profLate := s.tsk.profLate.filter (fun g => (getGen s g).lock) } } (fun s g =>
    toRun (profWrite (setSt (toStop s .profCh g) .profCh g stCONFIG) p [(.profCh, g)]) .profCh g)

/-- t_b: every instance that differs goes to STOP and takes its new configuration in CONFIG; the parameter block is copied.
A profile channel under the SS1 lock waits; the responsiveness bound waits for the end of the switch. -/
def profStart_ (s : State) (n : Nat) : State :=
  let p := getProfile s n
  let diff := profDiff s p
  let locked (o : Blk × Nat) : Bool := o.1 == .profCh && (getGen s o.2).lock
  let mine := diff.filter (fun o => !locked o && o.1 != .pwr)
  let s1 := forEach mine s (fun s o => setSt (toStop s o.1 o.2) o.1 o.2 stCONFIG)
  let s2 := wrBs (profWrite s1 p mine) (actSlot s1).paramAddr p.param
  setF { s2 with tsk := { s2.tsk with profReq := none, profSw := some ⟨n, mine, now s⟩,
                                      profLate := (diff.filter locked).map Prod.snd } } TSK_PROF_BUSY 1

/-- A C2 cycle start, after its releases: a profile that waited for the end of an SS1 lock is taken, and a requested switch
starts. -/
def profSwitchStart (s : State) : State :=
  if !switchStarts s then s
  else
    let s1 := profLateRun s
    match s1.tsk.profReq with
    | none => s1
    | some n =>
      if n = getF s1 TSK_PROF_ACT ∨ !(getProfile s1 n).stored then { s1 with tsk := { s1.tsk with profReq := none } }
      else profStart_ s1 n

/-- An instance is taken to RUN; one that fails goes to FAULT. -/
def profRunOne (s : State) (o : Blk × Nat) : State :=
  let s1 := toRun s o.1 o.2
  if inRun s1 o.1 o.2 || getB s1 (hBusy o.1) o.2 then s1 else setSt s1 o.1 o.2 stFAULT

/-- The switch completes: profile in force, PROFILE_DONE or PROFILE_PARTIAL, held request, held STORE. -/
def profFinish (s : State) (w : ProfSw) : State :=
  let s1 := forEach w.insts s profRunOne
  let partial_ := !s1.tsk.profLate.isEmpty || w.insts.any (fun o => stOf s1 o.1 o.2 == stFAULT)
  let s2 := profWrite s1 (getProfile s1 w.target) [(.pwr, 0)]
  let s3 := setF (setF (setF s2 TSK_PROF_ACT w.target) TSK_PROF_BUSY 0) TSK_PROF_HELD 0
  let s4 := { s3 with mram := { s3.mram with profAct := w.target },
                      tsk := { s3.tsk with profSw := none, profHeld := none, profStore := none,
                                           profReq := if s3.tsk.profHeld = some w.target then none else s3.tsk.profHeld } }
  let s5 := if partial_ then latch (unitErr s4 .tsk 0 0x031F) .tsk 0 128 else latch s4 .tsk 0 64
  match s.tsk.profStore with | some k => profStoreNow s5 k | none => s5

/-- The first C0 cycle start after the new configuration was written. -/
def execProfileSwitchRun (s : State) : Res :=
  match s.tsk.profSw with
  | none => .next s
  | some w => if decide (now s > w.tb) && reaches s (period s 0) 0 then .next (profFinish s w) else .next s

/-- The owner after a takeover evaluates its own selection source (R461); a switch that was in progress starts again
(R372). -/
def profTakeover (s : State) (sw : Option Nat) : State :=
  let own := if getB s TSK_PROF_SRCSEL then getF s TSK_PROF_CMDVAL else getF s TSK_PROF_PINS
  let act := getF s TSK_PROF_ACT
  let req := match sw with | some n => some n | none => if own = act then none else some own
  { s with tsk := { s.tsk with profReq := req } }

end Sys2Proof.Machine
end

