-- ==== Sys2Proof/Machine/PairOps.lean ====
section
/-!
DEFINITION. The redundant pair: identity checks, roles and epochs, the interlock, checkpoint snapshots and their
application, and what an owner gives up (R102, R347 to R374).
-/

namespace Sys2Proof.Machine

open R

/-! ## Identity, epoch, interlock -/

/-- The module is paired and PAIR runs (R347, Table PAIR-3). -/
def pairOn (s : State) : Bool := getB s PAIR_CFG_PAIRED && inRun s .pair
/-- The pair unit's data, replaced. -/
def setPair (s : State) (p : PairSt) : State := { s with pair := p }
/-- A 64-bit stamp in a pair of registers. -/
def stamp64 (s : State) (lo hi : Fld) : Nat := getF s lo + 2 ^ 32 * getF s hi
/-- A 64-bit stamp written to a pair of registers. -/
def setStamp64 (s : State) (lo hi : Fld) (t : Nat) : State := setF (setF s lo (t % 2 ^ 32)) hi (t / 2 ^ 32)
/-- SNAPF. -/
def snapF (s : State) : Nat := stamp64 s PAIR_SNAPF_LO_STAMP PAIR_SNAPF_HI_STAMP
/-- SNAPS. -/
def snapS (s : State) : Nat := stamp64 s PAIR_SNAPS_LO_STAMP PAIR_SNAPS_HI_STAMP
/-- SNAPB. -/
def snapB (s : State) : Nat := stamp64 s PAIR_SNAPB_LO_STAMP PAIR_SNAPB_HI_STAMP
/-- SNAPF written. -/
def setSnapF (s : State) (t : Nat) : State := setStamp64 s PAIR_SNAPF_LO_STAMP PAIR_SNAPF_HI_STAMP t
/-- SNAPS written. -/
def setSnapS (s : State) (t : Nat) : State := setStamp64 s PAIR_SNAPS_LO_STAMP PAIR_SNAPS_HI_STAMP t
/-- SNAPB written. -/
def setSnapB (s : State) (t : Nat) : State := setStamp64 s PAIR_SNAPB_LO_STAMP PAIR_SNAPB_HI_STAMP t

/-- The role epoch set, in its register and in MRAM (R368). -/
def setEpoch (s : State) (e : Nat) : State :=
  let s1 := setF s PAIR_EPOCH_EPOCH e
  { s1 with mram := { s1.mram with epoch := e % 2 ^ 32 } }

/-- The epoch set to one more than the highest seen (R368). SYNC frames with a higher epoch have been adopted. -/
def raiseEpoch (s : State) : State := setEpoch s (max (roleEpoch s) (getF s LNK_EPOCH_MAX_EPOCH) + 1)

/-- The output path follows the interlock: ILK_OUT asserted and ILK_IN not asserted; CAN channels and timed outputs
follow the path (R355, R374, R394, R462). -/
def pathUpdate (s : State) : State :=
  let on := getB s PAIR_CFG_PAIRED && getB s PAIR_ILK_OUT && !getB s PAIR_ILK_IN
  pathFollow (outPath s) (setB s PAIR_ROLE_OUTPATH on)

/-- A level of ILK_IN as it has been read: 0 clear, 1 asserted, 2 between the thresholds or reversed, which latches ILK_FAULT
(R354); an unpaired module ignores the cable (R347). It has then been stable for 10 µs. -/
def ilkLevel (s : State) (lvl : Nat) : State :=
  let s1 := setB (setB s PAIR_ILK_IN (lvl == 1)) PAIR_ILK_IN_CLEAR (lvl == 0)
  let s2 := if lvl = 0 ∧ !getB s PAIR_ILK_IN_CLEAR then setPair s1 { s1.pair with clearAt := tickNs s - 10000 } else s1
  if lvl ≥ 2 ∧ getB s PAIR_CFG_PAIRED then latch (unitErr (setB s2 PAIR_ILK_FAULT true) .pair 0 0x0D1B) .pair 0 64 else s2

/-- ILK_OUT driven or dropped. -/
def setIlkOut (s : State) (on : Bool) : State := pathUpdate (setB s PAIR_ILK_OUT on)

/-- ILK_IN has been clear for 10 µs (R361). -/
def ilkClear10 (s : State) : Bool := getB s PAIR_ILK_IN_CLEAR && decide (tickNs s ≥ s.pair.clearAt + 10000)

/-- The partner is a healthy standby, as the owner sees it (R351, R362). -/
def healthyStandby (s : State) : Bool :=
  role s == 1 && getF s PAIR_ROLE_PARTNER == 3 && getB s PAIR_ROLE_HEALTHY && !s.pair.refused

/-- The partner receives checkpoints: SYNC up, in STANDBY-SYNCING or STANDBY, not refused. -/
def partnerRx (s : State) : Bool :=
  getB s PAIR_SYNC_LINK && !s.pair.refused && (getF s PAIR_ROLE_PARTNER == 2 || getF s PAIR_ROLE_PARTNER == 3)

/-- Units of Table PWR-2 leave their idle states (R449). -/
def wakeAll (s : State) : State :=
  let s1 := setF (setF (setF s PWR_IDLE_LC 0) PWR_IDLE_LOOP 0) PWR_IDLE_PROF 0
  let s2 := setF (setF (setF s1 PWR_IDLE_VAX 0) PWR_IDLE_BSN 0) PWR_IDLE_TRC 0
  { s2 with pwr := { s2.pwr with idleAt := [] } }

/-! ## Giving up ownership (R102, R362, R368) -/

/-- Every accepted call that has not completed ends ABORTED. -/
def abortCalls (s : State) : State :=
  let s1 := completeAll s (byTicket (pendingCalls s)) cABORTED
  { s1 with tsk := { s1.tsk with engq := [] },
            loops := mmap {} (fun _ v => { v with wait := [] }) s1.loops,
            gens := mmap {} (fun _ v => { v with wait := [] }) s1.gens,
            axes := mmap {} (fun _ v => { v with start := none, stop := none }) s1.axes,
            bsn := { s1.bsn with qps := mmap {} (fun _ v => { v with run := none, wait := none }) s1.bsn.qps, decided := [] },
            lnk := { stas := mmap {} (fun _ v => { v with reinit := none }) s1.lnk.stas,
                     ports := mmap {} (fun _ v => { v with iout := [], aq := v.aq.filter (fun a => a.call.isNone) }) s1.lnk.ports },
            recQ := s1.recQ.map (fun r => { r with call := none }) } |>
  fun s => forEach [0, 1, 2, 3] s (fun s k => setCan s k { getCan s k with fifo := [], mbox := [], cur := none, sleep := [], wake := [] })

/-- The applied state is dropped: no tier is valid, nothing is staged or held, and items have not been applied (R349). -/
def dropApplied (s : State) : State :=
  let s1 := { setPair s { s.pair with gotF := false, gotS := false, stage := [], stamps := [], held := [], hTimers := [] } with
              saf := { s.saf with rcd := {} } }
  let s2 := setB (setB (setB s1 PAIR_TIERS_F_VALID false) PAIR_TIERS_S_VALID false) PAIR_TIERS_B_VALID false
  setSnapB (setSnapS (setSnapF s2 0) 0) 0

/-- The resynchronisation of a module that has become STANDBY-SYNCING starts (R371). -/
def resyncStart (s : State) : State := setF (setF (dropApplied s) PAIR_RESYNC_PHASE 1) PAIR_RESYNC_PCT 0

/-- What does not pass from one owner to the next is emptied: event queues, fault queue, alarms, scheduled edges, injections,
trace and capture (R364). -/
def emptyQueues (s : State) : State :=
  let s1 := forEach (List.range 16) s (fun s t => setF (setTask s t { getTask s t with evq := [], evDrop := 0 }) TSK_T_STAT_QLEN 0 0 t)
  let s2 := setF { s1 with tsk := { s1.tsk with fq := [], fqDrop := 0 }, time := { s1.time with alarms := [] },
                           loops := s1.loops.map (fun x => (x.1, { x.2 with inj := none })) } TSK_FQ_COUNT 0
  let s3 := forEach (List.range 4) s2 (fun s n => setTp s n {})
  if [1, 2, 4].contains (trcState s3) then trcLeaveRun s3 else s3

/-- The module ceases to own: tasks stop at their next instruction boundary, calls end ABORTED, ILK_OUT drops, and what is not
carried over is emptied. -/
def leaveOwner (s : State) (r code : Nat) : State :=
  let s1 := emptyQueues (abortCalls (stopTasks (setIlkOut s false)))
  let s2 := { s1 with tsk := { s1.tsk with rel := false, held := [] }, lio := { s1.lio with wd := [] },
                      pair := { s1.pair with abd := none, planned := none, abdAt := none, tko := none, abdRx := false, hush := 0,
                                             rearm := [], imgTx := [], fullDue := false } }
  let s3 := unitErr (setRole (setF (setF s2 PAIR_RESYNC_PHASE 0) PAIR_RESYNC_PCT 0) r code) .pair 0 code
  if r = 2 then resyncStart s3 else s3

/-- Demotion on a higher epoch (R368). -/
def demote (s : State) : State := latch (leaveOwner s 2 0x0D1A) .pair 0 32

/-- A resynchronisation ends with RESYNC_FAIL; the module resumes at a new listen window (R371). -/
def resyncFail (s : State) : State :=
  if getF s PAIR_RESYNC_PHASE = 0 then s
  else listenStart (unitErr (setRole (setF s PAIR_RESYNC_PHASE 0) 4 0x0D1D) .pair 0 0x0D1D)

/-! ## SYNC frames (R352, R368) -/

/-- A SYNC frame is checked: none where it is discarded and counted. A higher epoch is adopted; an ACTIVE module that
receives a higher epoch with a claim of ownership demotes itself. -/
def syncAccept (s : State) (h : SyncHdr) : Option State × State :=
  if !pairOn s then (none, s)
  else if !h.good ∨ h.ver ≠ 1 then (none, incF s PAIR_FRCNT_CRCERR)
  else if h.epoch < roleEpoch s then (none, incF s PAIR_FRCNT_STALE)
  else
    let s1 := if h.epoch > roleEpoch s then setEpoch s h.epoch else s
    let s2 := if h.epoch > roleEpoch s ∧ role s = 1 ∧ h.role = 1 then demote s1 else s1
    (some s2, s2)

/-! ## Host-service class (R368, R370) -/

/-- This module takes the host-service class, with a raised epoch. -/
def hsTake (s : State) : State :=
  if getB s PAIR_ROLE_HS_OWN then s
  else latch (setF (setB (raiseEpoch s) PAIR_ROLE_HS_OWN true) PAIR_HS_SIDE (getF s PAIR_ROLE_SIDE)) .pair 0 128

/-- This module gives up the host-service class. -/
def hsGive (s : State) : State :=
  if !getB s PAIR_ROLE_HS_OWN then s
  else latch (setF (setB s PAIR_ROLE_HS_OWN false) PAIR_HS_SIDE (1 - getF s PAIR_ROLE_SIDE)) .pair 0 128

/-- The relay of R370 is active: the class is served by the module that does not own the process. -/
def relayActive (s : State) : Bool :=
  pairOn s && getB s PAIR_SYNC_LINK && ((role s == 1 && !getB s PAIR_ROLE_HS_OWN) || (role s != 1 && getB s PAIR_ROLE_HS_OWN))

/-! ## Snapshots (R28, R357 to R359) -/

/-- A page of memory as a snapshot shows it: its pre-image where a task that has not ended in an output close has written
it, be it still running or stopped by a fault or an overrun (R28, R358). -/
def snapPage (s : State) (p : Nat) : List Byte :=
  match s.pair.pre.find? (fun x => x.1 % 2 ^ 20 == p) with
  | some x => x.2
  | none => rdBs s (p * 256) 256

/-- Bytes of a fast range as a snapshot shows them. -/
def snapBytes (s : State) (a n : Nat) : List Byte :=
  (List.range n).map (fun i => (snapPage s ((a + i) / 256)).getD ((a + i) % 256) 0)

/-- A page lies in a fast range as a whole (R357). -/
def inFast (s : State) (p : Nat) : Bool :=
  (actSlot s).fast.any (fun r => decide (r.1 ≤ p * 256) && decide (p * 256 + 256 ≤ r.1 + r.2))

/-- The OUT value a snapshot shows: that of the latest on-time output close of its class. -/
def snapOut (s : State) (n : Nat) : Nat :=
  let c := getChan s n
  if c.latched.ownKind = 0 then c.lnkVal else c.outVal

/-- The PROGRAM record. -/
def recProgram (s : State) : TierRec :=
  .program (olc s) (getF s TSK_PROF_ACT) (s.tsk.profSw.map ProfSw.target)
    (([0, 1, 2].map (fun c => if inClassFault s c then 2 ^ c else 0)).sum)
    ([2, 3, 4].map (fun t => (t, getF s TSK_T_STAT_SKIPRUN 0 t))) s.saf.img.id (actSlot s).gen

/-- The safety record of the owner (R264). Beside what R264 lists it carries what R242, R243, R247, R259 and R260 judge
after a takeover: entry into RESET-WAIT, clearing of STUCK_RESET, REINT, accepted containers, first cause and stamp
(DEDUCED, log entry 104). -/
def safRecord (s : State) : SafRec :=
  { valid := true, stamp := now s,
    gst := (grpList s).foldl (fun m g => mput 4 m g (gShown s g)) [],
    gcause := (grpList s).foldl (fun m g => mput [] m g
      [getF s SAF_GCAUSE_CAUSES 0 g, getF s SAF_GCAUSE_FIRST 0 g, getF s SAF_GINFO_INST 0 g,
       getF s SAF_GSTAMP_LO_STAMP 0 g + getF s SAF_GSTAMP_HI_STAMP 0 g * 2 ^ 32]) [],
    grps := s.saf.groups,
    ins := s.saf.ins.filter (fun x => isReset s x.1), stuck := getF s SAF_RST_STUCK,
    stas := s.saf.stas,
    keepA := (s.mem.filter (fun c => decide (0x10001F000 ≤ c.1) && decide (c.1 < 0x100020000))).map (fun c => (c.1 - 0x10001F000, c.2)),
    keepB := (s.mem.filter (fun c => decide (0x10003F000 ≤ c.1) && decide (c.1 < 0x100040000))).map (fun c => (c.1 - 0x10003F000, c.2)) }

/-- The loops as they are after every sample at instants before now, those whose update is still to end included: what the
tier F shows of them (R28). -/
def loopsSampled (s : State) : State :=
  ((pendingSamples s).filter (fun p => decide (p.2.t < now s))).foldl (fun s p => loopUpdate s p.1 p.2) s

/-- Kinds 1 to 8 of tier F (Table PAIR-7), without data that cannot be read for an uncorrectable error (R362). -/
def fixedRecs (s : State) : List TierRec :=
  let run (b : Blk) : List Nat := (allCopies s b).filter (fun i => inRun s b i)
  let l := loopsSampled s
  [recProgram s, .tickets s.tsk.tickets] ++
  (run .loopCtx).map (fun c =>
    let v := getLoop l c
    .loop c (lMode l c) (lLaw l c) (lBank l c) v.uPrev v.iPrev v.dPrev v.wPrev v.yPrev v.feAt v.frAt
      (getF l LOOP_L_STAT_FCAUSE c)) ++
  (run .profCh).map (fun g => .prof g { getGen s g with wait := [] } (profStat s g)) ++
  (run .vaxAx).map (fun a => .vax a (axSt s a) (getF s VAX_A_M_VAL a) (getF s VAX_A_OFS_VAL a) (getF s VAX_A_STAT_REFOK a)
    (getAxis s a).still) ++
  (run .bsnCtx).map (fun q => .bsn q (getF s BSN_Q_STAT_SHIFTS q) (getF s BSN_Q_STAT_HAVE_BASE q)) ++
  [.safety (safRecord s)] ++
  ((actSlot s).fast.filter (fun r => !badIn s r.1 r.2)).map (fun r => .fastvar r.1 (snapBytes s r.1 r.2))

/-- Bytes of a record, its header of 8 included (Table PAIR-7). -/
def recSize : TierRec → Nat
  | .program .. => 264
  | .tickets _ => 40
  | .loop .. => 56
  | .prof .. => 104
  | .vax .. => 40
  | .bsn .. => 24
  | .safety r => 8 + 8 * r.gst.length + r.keepA.length + r.keepB.length
  | .fastvar _ d => 8 + d.length
  | .outdelta _ v => 8 + 8 * v.length
  | .page _ _ => 264
  | .region _ n out _ => 264 * (n - out.length)
  | .timer _ c => 8 + 12 * c.length
  | .force f s => 8 + 16 * f.length + 4 * s.length

/-- Bytes of records. -/
def recsSize (l : List TierRec) : Nat := (l.map recSize).sum

/-- The OUT slots of channels, in rising order, as records of consecutive slots within `room` bytes, and those left out:
8 bytes for a slot, 8 more for a record (Table PAIR-7). `run` holds the record begun: first channel and values. -/
def outRecs (s : State) (run : Option (Nat × List Nat)) : List Nat → Nat → List TierRec × List Nat
  | [], _ => ((match run with | some (f, v) => [.outdelta f v] | none => []), [])
  | n :: l, room =>
    match run with
    | some (f, v) =>
      if f + v.length = n ∧ 8 ≤ room then outRecs s (some (f, v ++ [snapOut s n])) l (room - 8)
      else if 16 ≤ room then
        let (r, b) := outRecs s (some (n, [snapOut s n])) l (room - 16)
        (.outdelta f v :: r, b)
      else ([.outdelta f v], n :: l)
    | none => if 16 ≤ room then outRecs s (some (n, [snapOut s n])) l (room - 16) else ([], n :: l)

/-- OUT slots that changed since the acknowledged F, as records, with those that do not fit left out (R359). -/
def outDeltas (s : State) (room : Nat) : List TierRec × List Nat :=
  outRecs s none ((s.pair.outAt.filter (fun x => decide (x.2 > snapF s))).map Prod.fst) room

/-- The F snapshot of a C0 output deadline. Slots left out stay changed: the acknowledgement of this F does not cover them. -/
def takeF (s : State) : State :=
  let fx := fixedRecs s
  let (od, out) := outDeltas s (65536 - recsSize fx)
  let s1 := if out.isEmpty then s else incF s PAIR_CKCNT_F_CARRY
  setF (setPair s1 { s1.pair with txF := fx ++ od, txTiers := s1.pair.txTiers ++ [0],
                                  outAt := out.foldl (fun m n => mput 0 m n (now s + 1)) s1.pair.outAt })
    PAIR_XFER_F_BYTES (recsSize (fx ++ od))

/-- The pages that changed since the acknowledged S, outside fast ranges; one that cannot be read is left out (R362). -/
def changedPages (s : State) : List Nat :=
  (s.pair.pageAt.filter (fun x => decide (x.2 > snapS s) && !inFast s x.1 && !badIn s (x.1 * 256) 256)).map Prod.fst

/-- A cell with its elapsed time in place of ST. -/
def cellSnap (s : State) (k : Nat) : TCell :=
  let v := getTimer s k
  { v with st := elapsed s v }

/-- ns that bytes take on SYNC at 1,180 MB/s (R352). -/
def syncNs (n : Nat) : Nat := n * 1000 / 1180

/-- The S snapshot of a C1 output deadline: not taken with more than 8,192 changed pages. A transfer that has not ended by
now was abandoned. -/
def takeS (s : State) : State :=
  let s0 := if s.pair.lateS then incF (setPair s { s.pair with lateS := false }) PAIR_CKCNT_S_LATE else s
  let ps := changedPages s0
  if ps.length > 8192 then latch (unitErr (incF s0 PAIR_CKCNT_S_OVF) .pair 0 0x0D19) .pair 0 16
  else
    let cells := (s0.pair.timerAt.filter (fun x => decide (x.2 > snapS s0))).map (fun x => .timer x.1 [cellSnap s0 x.1])
    let l := ps.map (fun p => .page (p * 256) (snapPage s0 p)) ++ cells
    setF (setPair s0 { s0.pair with txS := l, txTiers := s0.pair.txTiers ++ [1], lateS := decide (syncNs (recsSize l) > period s0 1) })
      PAIR_XFER_S_PAGES ps.length

/-- The pages of a range of memory as a snapshot shows them, but those in fast ranges where `slow`, and those that cannot be
read for an uncorrectable error. -/
def regionRec (s : State) (p0 n : Nat) (slow : Bool) : TierRec :=
  let out := (List.range' p0 n).filter (fun p => (slow && inFast s p) || badIn s (p * 256) 256)
  let pre := (s.pair.pre.map (fun x => x.1 % 2 ^ 20)).dedup.filter (fun p => decide (p0 ≤ p) && decide (p < p0 + n))
  let cells := s.mem.filter (fun c => decide (p0 ≤ c.1 / 256) && decide (c.1 / 256 < p0 + n) && !pre.contains (c.1 / 256)) ++
    pre.flatMap (fun p => (List.range' (p * 256) 256).zip (snapPage s p))
  .region (p0 * 256) n out (cells.filter (fun c => !out.contains (c.1 / 256)))

/-- All of RETAIN outside fast ranges, all cells, forces and PROGRAM: a B snapshot; with `data` all of DATA and RETAIN: the full
tier of R371. -/
def fullRecs (s : State) (data : Bool) : List TierRec :=
  (if data then regionRec s 0 40960 false else regionRec s 32768 8192 true) :: .timer 0 ((List.range 4096).map (cellSnap s)) ::
    [.force s.chn.forces s.mram.sims, recProgram s]

/-- The B snapshot before a whole second. -/
def takeB (s : State) : State :=
  let s0 := if s.pair.lateB then incF (setPair s { s.pair with lateB := false }) PAIR_CKCNT_B_LATE else s
  let l := fullRecs s0 false
  setPair s0 { s0.pair with txB := l, txTiers := s0.pair.txTiers ++ [2], lateB := decide (syncNs (recsSize l) > 1000000000) }

/-- The images of a resynchronisation, in the order of R371; images that the partner holds with the same generation and CRC are
left out. -/
def imgList (s : State) (b : HbBody) : List ImgBody :=
  [.config (cfgWords s) (cfgMemOf s) s.tsk.profiles] ++
  (if b.genA = s.tsk.slotA.gen ∧ b.crcA = s.tsk.slotA.crc then [] else [.image 0 s.tsk.slotA]) ++
  (if b.genB = s.tsk.slotB.gen ∧ b.crcB = s.tsk.slotB.crc then [] else [.image 1 s.tsk.slotB]) ++ [.safety s.saf.img]

/-! ## Sending (R352, R353) -/

/-- Bytes of a relayed host write: its number and epoch, and each value with its address and length (DESIGN CHOICE, log entry
139). -/
def relaySize (w : RelayW) : Nat := 8 + (w.parts.map (fun p => 8 + p.data.length)).sum

/-- Bytes of a RELAY body (log entry 139). -/
def relayBytes (m : RelayMsg) : Nat :=
  8 * m.points.length + 64 * m.entries.length + 8 * m.replies.length + (m.writes.map relaySize).sum + 16 * m.fields.length

/-- A tier leaves in DATA frames, with its MARK unless the transfer cannot end before the next snapshot of the tier (R359).
The bytes over which DCRC is formed are not laid out in full (log entry 143). -/
def tierSend (d tier : Nat) (recs : List TierRec) (late : Bool) (s : State) : State :=
  let n := recsSize recs
  let s1 := if n = 0 then s else syncSend s 2 tier d n (.data recs)
  let (crc, s2) := fresh 32 s1
  if late then s2 else syncSend s2 3 tier d 16 (.mark (ceilDiv n 8192) n crc)

/-- The frames of output deadline `d`, in the order of R353: HB, F with its MARK, CTRL, RELAY at a C1 output deadline, S, B and
IMG. -/
def sendFrames (s : State) (d : Nat) (c1 : Bool) : State :=
  let p := s.pair
  let tier (t : Nat) (l : List TierRec) (late : Bool) (s : State) : State := if p.txTiers.contains t then tierSend d t l late s else s
  let s1 := match p.hbTx with | some (_, b) => syncSend1 s 1 3 d (.hb b) | none => s
  let s2 := tier 0 p.txF false s1
  let s3 := forEach p.ctrlTx s2 (fun s m => syncSend1 s 4 3 d (.ctrl m))
  let s4 := match p.relayTx with | some m => if c1 then syncSend s3 5 3 d (relayBytes m) (.relay m) else s3 | none => s3
  let s5 := tier 2 p.txB p.lateB (tier 1 p.txS p.lateS s4)
  let s6 := forEach p.imgTx s5 (fun s m =>
    match m with
    | .tier l => syncSend s 6 4 d (recsSize l) (.img m)
    | .image _ i => syncSend s 6 4 d i.size (.img m)
    | _ => syncSend1 s 6 4 d (.img m))
  setPair s6 { s6.pair with ctrlTx := [], imgTx := [] }

/-! ## Application at the partner (R360) -/

/-- The key of an item: kind × 2^40 + ID. -/
def itemKey (kind id : Nat) : Nat := kind * 2 ^ 40 + id

/-- An item applied, when the snapshot is later than that of its last application. -/
def applyItem (s : State) (snap kind id : Nat) (f : State → State) : State :=
  if mget s.pair.stamps (itemKey kind id) 0 < snap then
    let s1 := f s
    setPair s1 { s1.pair with stamps := mput 0 s1.pair.stamps (itemKey kind id) snap }
  else s

/-- A state record held for a takeover. -/
def holdRec (s : State) (kind id : Nat) (r : TierRec) : State :=
  setPair s { s.pair with held := mput none s.pair.held (itemKey kind id) (some r) }

/-- A force table and simulation bitmap applied (R166, R372). -/
def applyForces (s : State) (f : NMap Force) (sims : NMap Nat) : State :=
  let nf := (f.filter (fun p => p.2.kind == 1)).length
  let ns := (f.filter (fun p => p.2.kind == 2)).length
  let s1 := { s with chn := { s.chn with forces := f }, mram := { s.mram with forces := f, sims := sims } }
  let s2 := forEach (List.range 8) s1 (fun s i => setF s CHN_SIM_SIM (mget sims i 0) 0 i)
  level (level (setF (setF s2 CHN_FCNT_FORCES nf) CHN_FCNT_SIMS ns) .chn 0 0 (decide (nf > 0))) .chn 0 1 (sims.any (fun x => x.2 != 0))

/-- The safety record of a tier F: its content, but for group states that a later SSTATE or heartbeat has brought. -/
def applySafRec (s : State) (r : SafRec) : State :=
  let h := s.saf.rcd
  let r' := if h.valid ∧ h.stamp > r.stamp then
      { r with stamp := h.stamp, known := h.known, gst := h.gst, gcause := h.gcause,
               grps := (mkeys h.gst ++ mkeys h.grps).foldl (fun m g =>
                 let a := mget h.grps g {}
                 mput {} m g { mget m g {} with tss1 := a.tss1, v0 := a.v0, rwAt := a.rwAt }) r.grps }
    else { r with known := h.known }
  { s with saf := { s.saf with rcd := r' } }

/-- The slot of a generation becomes active at the partner (R360). -/
def followGen (s : State) (gen : Nat) : State :=
  if (actSlot s).gen = gen ∨ (idleSlot s).gen ≠ gen then s
  else
    let s1 := setF s TSK_SLOT_ACTIVE (1 - getF s TSK_SLOT_ACTIVE)
    { s1 with mram := { s1.mram with slotB := getB s1 TSK_SLOT_ACTIVE } }

/-- A tier record applied at the partner. -/
def applyRec (snap : Nat) (s : State) (r : TierRec) : State :=
  match r with
  | .program _ _ _ _ _ _ gen => applyItem s snap 1 0 (fun s => holdRec (followGen s gen) 1 0 r)
  | .tickets _ => applyItem s snap 2 0 (fun s => holdRec s 2 0 r)
  | .loop c _ _ _ _ _ _ _ _ _ _ _ => applyItem s snap 3 c (fun s => holdRec s 3 c r)
  | .prof g _ _ => applyItem s snap 4 g (fun s => holdRec s 4 g r)
  | .vax a _ _ _ _ _ => applyItem s snap 5 a (fun s => holdRec s 5 a r)
  | .bsn q _ _ => applyItem s snap 6 q (fun s => holdRec s 6 q r)
  | .safety x => applyItem s snap 7 0 (fun s => applySafRec s x)
  | .fastvar a d => applyItem s snap 8 a (fun s => wrBs s a d)
  | .outdelta n vs =>
    (List.range vs.length).foldl (fun s i => applyItem s snap 9 (n + i) (fun s =>
      setChan s (n + i) { getChan s (n + i) with outVal := vs.getD i 0, lnkVal := vs.getD i 0, dueVal := vs.getD i 0 })) s
  | .page a d => applyItem s snap 10 a (fun s => wrBs s a d)
  | .region a n out cells =>
    forEach (List.range n) s (fun s i =>
      let p := a + i * 256
      if out.contains (p / 256) then s
      else
        applyItem s snap 10 p (fun s => wrBs s p ((List.range' p 256).map (fun x =>
          ((cells.find? (fun c => c.1 == x)).map Prod.snd).getD 0))))
  | .timer k cs =>
    (List.range cs.length).foldl (fun s i => applyItem s snap 11 (k + i) (fun s =>
      setPair s { s.pair with hTimers := mput none s.pair.hTimers (k + i) (some (cs.getD i {}, snap)) })) s
  | .force f sims => applyItem s snap 12 0 (fun s => applyForces s f sims)

/-! ## Loading held states (step T3 of Table PAIR-9) -/

/-- One held record loaded; loop supervision timers start afresh (R364). -/
def loadHeld (s : State) (r : TierRec) : State :=
  match r with
  | .program o prof sw flt skips _ _ =>
    let s1 := setF (setOlc s (if o = 2 then 1 else o)) TSK_PROF_ACT prof
    let s2 := forEach [0, 1, 2] s1 (fun s c =>
      setF s TSK_T_STAT_ST (if bitOf flt c then 3 else 0) 0 (c + 2))
    let s3 := forEach skips s2 (fun s x => setF s TSK_T_STAT_SKIPRUN x.2 0 x.1)
    profTakeover (level s3 .tsk 0 0 (decide (flt ≠ 0))) sw
  | .tickets t => { s with tsk := { s.tsk with tickets := t } }
  | .loop c m law bank u i d w y _ _ cause =>
    let l := { (getLoop s c) with uPrev := u, iPrev := i, dPrev := d, wPrev := w, yPrev := y }
    let s1 := setLoop (setSt s .loopCtx c stRUN) c { l with feAt := none, frAt := none, wait := [], inj := none, smp := none }
    loopShow (setF (setF (setF (setF s1 LOOP_L_STAT_MODE m c) LOOP_L_STAT_LAW law c) LOOP_L_STAT_ACTBANK bank c) LOOP_L_STAT_FCAUSE cause c) c
  | .prof g v st => setRegW (setGen (setSt s .profCh g stRUN) g v) PROF_P_STAT_MOVING g 0 (st % 64)
  | .vax a st m ofs refok still =>
    let s1 := setAxis (setSt s .vaxAx a stRUN) a { still := still }
    let s2 := setF (setF (setF (setF s1 VAX_A_STAT_AXST st a) VAX_A_M_VAL m a) VAX_A_OFS_VAL ofs a) VAX_A_STAT_REFOK refok a
    match still with
    | some b => setF s2 VAX_A_STAT_COIL (stillCoil s2 a b (now s2)) a
    | none => s2
  | .bsn q n b =>
    let (mats, s1) := copyMats (setF (setF (setSt s .bsnCtx q stRUN) BSN_Q_STAT_SHIFTS n q) BSN_Q_STAT_HAVE_BASE b q) q
    match mats with
    | some (h, e, i) => setQp s1 q { h := h, aeq := e, ain := i }
    | none => s1
  | _ => s

/-- Every timer cell gets ST := present count − (elapsed + t_k − its snapshot instant). -/
def loadTimers (s : State) : State :=
  forEach s.pair.hTimers s (fun s x =>
    match x.2 with
    | some (c, snap) => setTimer s x.1 { c with st := (tickNs s : Int) - (c.st + ((now s : Int) - snap)) }
    | none => s)

/-- Group states with their deadline brought to the held record by an SSTATE or a heartbeat (R265): a group newly in
RESET-WAIT entered it at that deadline; one in SAFE-RUN has no cause latched (R247). -/
def recGroups (r : SafRec) (gst : NMap Nat) (stamp : Nat) : SafRec :=
  gst.foldl (fun r x =>
    let r1 := if x.2 = 3 ∧ mget r.gst x.1 4 ≠ 3 then
        { r with grps := mput {} r.grps x.1 { mget r.grps x.1 {} with rwAt := stamp } } else r
    if x.2 = 0 then { r1 with gcause := mput [] r1.gcause x.1 [] } else r1) { r with stamp := stamp, known := stamp } |>
  fun r => { r with gst := gst }

/-- An SSTATE frame brought to the held record (R265). -/
def recSstate (r : SafRec) (f : SstFrame) : SafRec :=
  let r1 := recGroups r f.gst f.stamp
  let r2 := f.tss1.foldl (fun (r : SafRec) x =>
    { r with grps := mput {} r.grps x.1 { mget r.grps x.1 {} with tss1 := x.2, v0 := mget f.v0 x.1 0 } }) r1
  f.gst.foldl (fun (r : SafRec) x =>
    let b := mget f.first x.1 0
    if x.2 ≠ 0 ∧ (mget r.gcause x.1 []).isEmpty then { r with gcause := mput [] r.gcause x.1 [2 ^ b, b] } else r) r2

/-- The latched causes of a group as the held record has them: instance and stamp of a first cause that came by an SSTATE
alone are open (log entry 104). -/
def causesFrom (s : State) (g : Nat) (l : List Nat) : State :=
  let s0 := clearCause s g
  match l with
  | [c, f, i, t] =>
    let s1 := setF (setF (setF s0 SAF_GCAUSE_CAUSES c 0 g) SAF_GCAUSE_FIRST f 0 g) SAF_GINFO_INST i 0 g
    setF (setF s1 SAF_GSTAMP_LO_STAMP (t % 2 ^ 32) 0 g) SAF_GSTAMP_HI_STAMP (t / 2 ^ 32) 0 g
  | [c, f] =>
    let (i, s1) := fresh 16 s0
    let (t, s2) := fresh 64 s1
    let s3 := setF (setF (setF s2 SAF_GCAUSE_CAUSES c 0 g) SAF_GCAUSE_FIRST f 0 g) SAF_GINFO_INST i 0 g
    setF (setF s3 SAF_GSTAMP_LO_STAMP (t % 2 ^ 32) 0 g) SAF_GSTAMP_HI_STAMP (t / 2 ^ 32) 0 g
  | _ => s0

/-- SKEEP of both cores as the held record has it. -/
def keepFrom (s : State) (r : SafRec) : State :=
  let inKeep (a : Nat) : Bool :=
    (decide (0x10001F000 ≤ a) && decide (a < 0x100020000)) || (decide (0x10003F000 ≤ a) && decide (a < 0x100040000))
  let s1 := { s with mem := s.mem.filter (fun c => !inKeep c.1) }
  let s2 := forEach r.keepA s1 (fun s c => wrB s (0x10001F000 + c.1) c.2)
  forEach r.keepB s2 (fun s c => wrB s (0x10003F000 + c.1) c.2)

/-- SAF starts from the held record (R266): SDATA from the image, SKEEP from the record, groups as held; groups in SAFE-RUN
trip with the event cause 8 where their state at the latest S output deadline at or before h is not known. Where no valid
record exists every group trips with it, SKEEP comes from the image, and TAKEOVER_NOSTATE is recorded. -/
def safTakeover (s : State) (h : Nat) : State :=
  if !inRun s .saf then s
  else
    let r := s.saf.rcd
    let dl := (h + s.tl.tGuard) / period s 3 * period s 3 - s.tl.tGuard
    let known := r.valid && decide (r.known ≥ dl)
    let s0 := safStores s
    let s1 := if r.valid then keepFrom s0 r else unitErr s0 .saf 0 0x0820
    let s2 := forEach (grpList s1) s1 (fun s g =>
      let c := if r.valid then mget r.gst g 2 else 2
      let trip := !r.valid || (!known && c == 0)
      let v : Grp := if r.valid then mget r.grps g {} else {}
      let s1 := setGState (setGrp s g { v with next := none, ev := if trip then 0x100 else 0 }) g (if trip then 2 else c)
      let s2 := causesFrom s1 g (if r.valid then mget r.gcause g [] else [])
      if trip then addCause s2 g 0x100 0 else s2)
    let s3 := forEach (safStations s2.saf.img) s2 (fun s i =>
      let v : SafSta := if r.valid then mget r.stas i {} else {}
      setPass (setSs s i v) i v.pass)
    let s4 := { s3 with saf := { s3.saf with ins := if r.valid then r.ins else [], relAt := s3.rcNs, pend := false,
                                             busyA := false, busyB := false, blk := [], cont := [], hold := true } }
    tripLevel (stuckLevel (setF s4 SAF_RST_STUCK (if r.valid then r.stuck else 0)))

end Sys2Proof.Machine
end

