-- ==== Sys2Proof/Machine/Pair.lean ====
section
/-!
DEFINITION. The redundant pair at work: heartbeats, listen window, claim, takeover, abdication, switchover, SYNC frames,
and what the pair unit does at an output deadline (R348 to R374).
-/

namespace Sys2Proof.Machine

open R

/-! ## Health and heartbeat contents (R351, R353) -/

/-- No unit of the module is in FAULT. -/
def noFault (s : State) : Bool := allBlocks.all (fun b => (List.range (copies s b)).all (fun i => stOf s b i != stFAULT))

/-- The module holds the program of a generation. -/
def holdsGen (s : State) (g : Nat) : Bool := s.tsk.slotA.gen == g || s.tsk.slotB.gen == g

/-- The age of the latest valid tier: from its snapshot instant (R351). -/
def tierAge (s : State) (snap : Nat) : Nat := now s - snap

/-- The tiers are valid and young enough: F 4 × T_C0, S 3 × T_C1, B 3 s (R351). -/
def tiersFresh (s : State) : Bool :=
  getB s PAIR_TIERS_F_VALID && getB s PAIR_TIERS_S_VALID && getB s PAIR_TIERS_B_VALID &&
  decide (tierAge s (snapF s) ≤ 4 * period s 0) && decide (tierAge s (snapS s) ≤ 3 * period s 1) &&
  decide (tierAge s (snapB s) ≤ 3000000000)

/-- This module, in STANDBY, is healthy (R351). -/
def selfHealthy (s : State) : Bool :=
  decide (keyPos s ≤ 1) && getB s PAIR_SYNC_LINK && (getB s PAIR_HB_P1_OK || getB s PAIR_HB_P2_OK) &&
  tiersFresh s &&
  (match s.pair.hb with | some b => (!getB s TIME_STATE_UNSYNC || b.unsync) | none => false) &&
  holdsGen s s.pair.ogen && noFault s

/-- Stations UP. -/
def stationsUp (s : State) : Nat := ((List.range (nSta s)).filter (fun i => stConfigured s i && stState s i == 2)).length

/-- A digest of the configuration that heartbeats carry; its CRC is not fixed further (R352): sum of the words. -/
def cfgDigest (s : State) : Nat := ((cfgWords s).map (fun w => w.1 + w.2)).sum % 2 ^ 32

/-- The heartbeat of output deadline `d`. -/
def hbBody (s : State) (abd : Bool) (cause : Nat) : HbBody :=
  { key := keyPos s, healthy := role s == 3 && selfHealthy s, outpath := outPath s, abd := abd, cause := cause,
    up := stationsUp s, ackF := if role s = 1 then 0 else snapF s, ackS := if role s = 1 then 0 else snapS s,
    ackB := if role s = 1 then 0 else snapB s, warm := s.mram.stamp,
    pairId := getF s PAIR_ID_ID, variant := getF s SYS_ORDER_VARIANT, proto := 1, fwMaj := getF s SYS_FW_VERSION / 256,
    fwMin := getF s SYS_FW_VERSION % 256, cfgCrc := cfgDigest s, simg := s.saf.img.id, genA := s.tsk.slotA.gen,
    genB := s.tsk.slotB.gen, crcA := s.tsk.slotA.crc, crcB := s.tsk.slotB.crc, olc := olc s, gst := (grpList s).foldl (fun m g => mput 4 m g (gShown s g)) [],
    unsync := getB s TIME_STATE_UNSYNC, resync := role s == 2 }

/-- The output deadline of the C0 cycle start that comes next. -/
def deadline0 (s : State) : Nat := nextStart s 0 - s.tl.tGuard

/-- The header of a heartbeat (Table PAIR-4): its output deadline. -/
def hbHdr (s : State) : SyncHdr := syncHdr s 3 (deadline0 s)

/-! ## Receiving heartbeats -/

/-- The identity fields of a heartbeat compared (Table PAIR-1). -/
def pairCheck (s : State) (h : SyncHdr) (b : HbBody) : State :=
  let v := b.variant != getF s SYS_ORDER_VARIANT
  let i := b.pairId != getF s PAIR_ID_ID
  let p := b.proto != 1
  let f := b.fwMaj != getF s SYS_FW_VERSION / 256
  let d := h.side == getF s PAIR_ROLE_SIDE
  let new (fl : Fld) (x : Bool) : Bool := x && !getB s fl
  let s1 := setB (setB (setB (setB (setB s PAIR_MISMATCH_VARIANT v) PAIR_MISMATCH_ID i) PAIR_MISMATCH_PROTO p) PAIR_MISMATCH_FW f)
    PAIR_MISMATCH_SIDE d
  let s2 := if new PAIR_MISMATCH_VARIANT v then unitErr s1 .pair 0 0x0D10 else s1
  let s3 := if new PAIR_MISMATCH_ID i || new PAIR_MISMATCH_PROTO p || new PAIR_MISMATCH_FW f then unitErr s2 .pair 0 0x0D11 else s2
  let s4 := if new PAIR_MISMATCH_SIDE d then unitErr s3 .pair 0 0x0D12 else s3
  let any := new PAIR_MISMATCH_VARIANT v || new PAIR_MISMATCH_ID i || new PAIR_MISMATCH_PROTO p || new PAIR_MISMATCH_FW f ||
    new PAIR_MISMATCH_SIDE d
  setPair (if any then latch s4 .pair 0 256 else s4) { s4.pair with refused := v || i || p || f }

/-- Heartbeats missed between two stamps of a path. -/
def missed (s : State) (h : Option Nat) : Nat :=
  match h with
  | none => 0
  | some t => (now s - t + period s 0 / 2) / period s 0 - 1

/-- PATH_DEGRADED clears after 16 consecutive heartbeats on the path `p` that was silent. -/
def degradedClear (s : State) (p n : Nat) : State :=
  if p = s.pair.degPath ∧ n ≥ 16 ∧ getB s PAIR_HB_DEGRADED
  then level (setB s PAIR_HB_DEGRADED false) .pair 0 2 false else s

/-- Consecutive heartbeats of a path with one more: a missed one starts the count again. -/
def consec (n miss : Nat) : Nat := if miss = 0 then sat 16 (n + 1) else 1

/-- A path 1 heartbeat stamped. -/
def hb1 (s : State) : State :=
  let n := getF s PAIR_HB_P1_MISS + missed s s.pair.h1
  let s1 := setB (setF s PAIR_HB_P1_MISS (sat 255 n)) PAIR_HB_P1_OK true
  let s2 := setPair s1 { s1.pair with h1 := some (now s), n1 := consec s.pair.n1 (missed s s.pair.h1) }
  degradedClear s2 1 s2.pair.n1

/-- A path 2 heartbeat stamped. -/
def hb2 (s : State) : State :=
  let n := getF s PAIR_HB_P2_MISS + missed s s.pair.h2
  let s1 := setB (setF s PAIR_HB_P2_MISS (sat 255 n)) PAIR_HB_P2_OK true
  let s2 := setPair s1 { s1.pair with h2 := some (now s), n2 := consec s.pair.n2 (missed s s.pair.h2) }
  degradedClear s2 2 s2.pair.n2

/-- The partner's report of its health at the owner; a fall latches bit 3. -/
def healthFrom (s : State) (on : Bool) : State :=
  if role s ≠ 1 then s
  else
    let s1 := setB s PAIR_ROLE_HEALTHY on
    if getB s PAIR_ROLE_HEALTHY && !on then latch s1 .pair 0 8 else s1

/-- The group word of a heartbeat updates the held safety record, when its deadline is later than the content's (R265). -/
def hbGroups (s : State) (h : SyncHdr) (b : HbBody) : State :=
  if role s = 1 ∨ h.role ≠ 1 ∨ h.snap ≤ s.saf.rcd.stamp then s
  else { s with saf := { s.saf with rcd := recGroups s.saf.rcd b.gst h.snap } }

/-- The owner answers a resynchronisation request with the images; the full tier follows at a C1 output deadline. -/
def resyncServe (s : State) (b : HbBody) : State :=
  if role s ≠ 1 ∨ s.pair.refused then s
  else if b.resync && getF s PAIR_RESYNC_PHASE == 0 then
    setF (setPair s { s.pair with imgTx := imgList s b, fullDue := true }) PAIR_RESYNC_PHASE 1
  else if !b.resync && getF s PAIR_RESYNC_PHASE != 0 then setF (setF s PAIR_RESYNC_PHASE 0) PAIR_RESYNC_PCT 0
  else s

/-- A partner heartbeat on path 1 (R348, R353). A frame of another pair ID is discarded and counted. -/
def execHbRx (h : SyncHdr) (b : HbBody) (s : State) : Res :=
  match syncAccept s h with
  | (none, s') => .next s'
  | (some s1, _) =>
    if b.pairId ≠ getF s PAIR_ID_ID then .next (incF (pairCheck s h b) PAIR_FRCNT_CRCERR)
    else
      let s2 := pairCheck s1 h b
      let s3 := setF (hb1 s2) PAIR_ROLE_PARTNER h.role
      let s4 := setPair s3 { s3.pair with hb := some b, heard := true, ogen := if h.role = 1 then h.gen else s3.pair.ogen,
                                          abdRx := s3.pair.abdRx || (b.abd && role s3 == 3),
                                          abdRxAt := if s3.pair.abdRx then s3.pair.abdRxAt else tickNs s3,
                                          abdD := if s3.pair.abdRx then s3.pair.abdD else h.snap }
      let s5 := healthFrom s4 (b.healthy && !s4.pair.refused)
      let s6 := if role s5 = 1 then setSnapB (setSnapS (setSnapF s5 (max (snapF s5) b.ackF)) (max (snapS s5) b.ackS)) b.ackB else s5
      let s7 := hbGroups (resyncServe s6 b) h b
      let s8 := if h.hs ∧ getB s7 PAIR_ROLE_HS_OWN ∧ h.epoch > roleEpoch s then hsGive s7 else s7
      .next (if role s8 = 2 ∧ h.role ≠ 1 ∧ h.role ≠ 5 then resyncFail s8 else s8)

/-- A path 2 pulse: stamped, and a PARTNER sample of the time servo outside ownership (R353, R389). -/
def execHbPulseRx (s : State) : Res :=
  if !pairOn s then .next s
  else
    let s1 := hb2 s
    if role s1 < 2 then .next s1
    else
      let t : Int := now s1
      let g : Int := s1.tl.tGuard
      let p : Int := period s1 0
      let d := (t + g + p / 2) / p * p - g
      .next (timeSample s1 2 ((d - (t - (getF s1 TIME_PAIR_DLY_NS : Int))) * 65536))

/-- A path has brought no heartbeat for t_det (R353). With both silent, the partner counts as gone, and the module that
does not serve the host-service class takes it (R370). -/
def execHbPathSilent (p : Nat) (s : State) : Res :=
  let h := if p = 1 then s.pair.h1 else s.pair.h2
  let ok := match h with | some t => decide (now s ≥ t + 4 * period s 0) | none => false
  if !pairOn s || !ok || p == 0 || decide (p > 2) then .next s
  else
    let s1 := if p = 1 then setPair (setB s PAIR_HB_P1_OK false) { s.pair with n1 := 0 }
              else setPair (setB s PAIR_HB_P2_OK false) { s.pair with n2 := 0 }
    if getB s1 PAIR_HB_P1_OK || getB s1 PAIR_HB_P2_OK then
      .next (if getB s1 PAIR_HB_DEGRADED then s1
             else level (unitErr (setB (setPair s1 { s1.pair with degPath := p }) PAIR_HB_DEGRADED true) .pair 0 0x0D13) .pair 0 2 true)
    else
      let s2 := healthFrom (setF s1 PAIR_ROLE_PARTNER 7) false
      .next (if role s2 = 1 ∨ role s2 = 3 then hsTake s2 else s2)

/-! ## Listen window, claim (R350, R356) -/

/-- What a claim starts: 1 the restart after power-on, 3 that after the key left HALT. -/
def listenKind (s : State) : Nat := if s.tsk.ph = .none then 1 else 3

/-- What the end of the listen window leads to (Table PAIR-3, R350). A level of ILK_IN that is neither asserted nor clear
leaves the module HALTED. -/
def listenOver (s : State) : State :=
  let s1 := setB s PAIR_ROLE_LISTEN false
  let sync := resyncStart (setRole s1 2 0x0D00)
  let claim := setPair s1 { s1.pair with claim := some (listenKind s1) }
  if getB s PAIR_MISMATCH_SIDE then (setRole s1 4 0x0D12)
  else if getB s PAIR_ILK_IN ∨ (s.pair.heard ∧ getF s PAIR_ROLE_PARTNER = 1) then sync
  else if !getB s PAIR_ILK_IN_CLEAR then (setRole s1 4 0x0D1B)
  else if s.pair.heard ∧ getF s PAIR_ROLE_PARTNER = 5 then
    let w := match s.pair.hb with | some b => b.warm | none => 0
    if s.mram.stamp > w ∨ (s.mram.stamp = w ∧ getF s PAIR_ROLE_SIDE = getF s PAIR_CFG_PROC_PREF) then claim else sync
  else claim

/-- The listen window ends; in a start-up S7 then gives way to S8 (Table PWR-3). -/
def execListenWindowEnd (s : State) : Res :=
  if !pairOn s ∨ !getB s PAIR_ROLE_LISTEN ∨ now s < s.pair.listenTo then .next s
  else
    let s1 := listenOver s
    .next (if getF s1 SYS_BOOT_STEP = 7 then reachS8 s1 else s1)

/-- The module owns after a claim: role ACTIVE, output path, host-service class where no partner serves it, and the restart
that the claim starts. -/
def takeOwn (s : State) (k : Nat) : State :=
  let s1 := pathUpdate (setRole (setF (setPair s { s.pair with claim := none, ownWait := false }) PAIR_RESYNC_PHASE 0) 1 0x0D00)
  let s2 := if getF s1 PAIR_ROLE_PARTNER = 7 then hsTake s1 else s1
  chooseRestart s2 (if k = 3 then 1 else 0) (k != 3 && s2.pwr.progFb)

/-! ## Takeover (R361 to R364, Table PAIR-9) -/

/-- Both heartbeat paths are silent, and ILK_IN has been clear for 10 µs. -/
def ownerSilent (s : State) : Bool := ilkClear10 s && !getB s PAIR_HB_P1_OK && !getB s PAIR_HB_P2_OK

/-- ABDICATE was received, and ILK_IN has since been clear for 10 µs. -/
def abdicated (s : State) : Bool := ilkClear10 s && s.pair.abdRx && decide (tickNs s ≥ s.pair.abdRxAt + 10000)

/-- The takeover condition of R361. -/
def takeoverDue (s : State) : Bool :=
  pairOn s && role s == 3 && !getB s PAIR_MISMATCH_SIDE && !s.pair.ownWait && (ownerSilent s || abdicated s)

/-- What a claim starts, where one is due: a STANDBY-SYNCING module claims when its partner is silent, with the power-on
preference (Table PAIR-3). -/
def claimKind (s : State) : Option Nat :=
  match s.pair.claim with
  | some k => some k
  | none => if role s = 2 ∧ ownerSilent s then some 1 else none

/-- The latest heartbeat of the former owner. -/
def lastBeat (s : State) : Nat := max (s.pair.h1.getD 0) (s.pair.h2.getD 0)

/-- h of R365: the output deadline of an abdication, else the stamp of the latest heartbeat. -/
def tkoH (s : State) : Nat := if s.pair.abdRx ∧ !ownerSilent s then s.pair.abdD else lastBeat s

/-- T1 to T5 after the epoch was raised: staging discarded, held states loaded, claimed, output path enabled. Launches wait for
step T7 (R363), local watchdogs re-arm at their classes' first output closes (R374), and queues of an earlier ownership are empty
(R364). -/
def takeover (s : State) : State :=
  let h := tkoH s
  let stale := !getB s PAIR_ROLE_HEALTHY
  let s0 := emptyQueues s
  let s1 := wakeAll { setPair s0 { s0.pair with stage := [], claim := none, ownWait := false } with lio := { s0.lio with wd := [] } }
  let s2 := loadTimers (s1.pair.held.foldl (fun s r => match r.2 with | some r => loadHeld s r | none => s) s1)
  let s3 := safTakeover (setSt s2 .tsk 0 stRUN) h
  let s4 := setIlkOut (setRole s3 1 0x0D1E) true
  let s5 := setStamp64 (setStamp64 s4 PAIR_TKO_LO_STAMP PAIR_TKO_HI_STAMP (now s)) PAIR_TKOH_LO_STAMP PAIR_TKOH_HI_STAMP h
  let s6 := setPair s5 { s5.pair with tko := some h, written := [], gapPend := true, hush := 2, rearm := [0, 1, 2], abdRx := false, held := [], hTimers := [],
                                      pageAt := [], outAt := [], timerAt := [], pre := [], seen := 0, pgen := 0 }
  let lit := ([0, 1, 2].filter (fun c => !inClassFault s6 c)).map (fun c => (c, 1))
  let s7 := { s6 with tsk := { s6.tsk with ph := .running, rel := false, closed := lit, shadow := true } }
  let s8 := latch (errShow (setSnapS (setSnapF (setB s7 PAIR_ROLE_HEALTHY false) 0) 0) .pair 0 0x0D1E) .pair 0 2
  let s9 := if stale then unitErr s8 .pair 0 0x0D17 else s8
  if getB s9 PAIR_HB_P1_OK || getB s9 PAIR_HB_P2_OK then s9 else hsTake s9

/-- What a claim of kind `k` makes of the module that owns: a takeover, or a restart. -/
def ownBy (s : State) (k : Nat) : State := if k = 2 then takeover s else takeOwn s k

/-- A claim of kind `k`: the epoch is raised and ILK_OUT asserted; `lvl` is the level of ILK_IN read 10 µs later. Where it is
not asserted the module owns. On a collision side B drops ILK_OUT, and side A keeps it and waits (R356). -/
def claimStep (s : State) (k lvl : Nat) : State :=
  let s1 := ilkLevel (raiseEpoch s) lvl
  if lvl ≠ 1 then ownBy (setIlkOut s1 true) k
  else if getB s1 PAIR_ROLE_SIDE then s1
  else setIlkOut (setPair s1 { s1.pair with ownWait := true, claim := some k }) true

/-- A claim that is due; it needs ILK_IN clear, no side conflict and the key not in HALT. -/
def execClaim (lvl : Nat) (s : State) : Res :=
  match claimKind s with
  | none => .next s
  | some k =>
    if !pairOn s ∨ !getB s PAIR_ILK_IN_CLEAR ∨ getB s PAIR_MISMATCH_SIDE ∨ keyPos s ≥ 2 ∨ s.pair.ownWait then .next s
    else .next (claimStep s k lvl)

/-- ILK_IN has a level for 10 µs. The output path follows; a side A that waits after a collision owns when ILK_IN is no
longer asserted. -/
def execIlkInChange (lvl : Nat) (s : State) : Res :=
  let s1 := ilkLevel s lvl
  let s2 := if getB s1 PAIR_CFG_PAIRED then pathUpdate s1 else s1
  if s2.pair.ownWait ∧ lvl ≠ 1 then
    match s2.pair.claim with
    | some k => .next (ownBy s2 k)
    | none => .next (setPair s2 { s2.pair with ownWait := false })
  else .next s2

/-- A STANDBY whose takeover is due claims, with the level of ILK_IN read 10 µs later, and takes over. -/
def execTakeover (lvl : Nat) (s : State) : Res :=
  .next (if takeoverDue s then claimStep s 2 lvl else s)

/-! ## Abdication (R362) -/

/-- The causes of fault abdication present, as bits: 0 memory, 1 power-fail, 2 SAF FAULT, 3 class FAULT, 4 stations. -/
def abdBits (s : State) : Nat :=
  b2n s.pair.memErr + 2 * b2n s.pwr.pf + 4 * b2n (getB s PAIR_ABD_ABD_SAF && stOf s .saf == stFAULT) +
  8 * b2n ([0, 1, 2].any (fun c => bitOf (getF s PAIR_ABD_ABD_CLASS) c && inClassFault s c)) +
  16 * b2n (getF s PAIR_ABD_ABD_STA != 0 &&
    (match s.pair.hb with | some b => decide (b.up ≥ stationsUp s + getF s PAIR_ABD_ABD_STA) | none => false))

/-- New causes are judged: a fault abdication is due with a healthy standby; without one the cause is recorded. -/
def judgeAbd (s : State) : State :=
  if role s ≠ 1 then s
  else
    let b := abdBits s
    let new := b &&& (0x1F ^^^ s.pair.seen)
    let s1 := setPair s { s.pair with seen := b }
    if new = 0 ∨ s1.pair.abdAt.isSome then s1
    else if healthyStandby s1 then
      setPair s1 { s1.pair with abd := some (((List.range 5).find? (fun i => bitOf new i)).getD 0 + 1) }
    else recCond s1 0x0D14 0 0 (leBytes 1 new)

/-- A cause of abdication arises on an ACTIVE module. -/
def execAbdication (s : State) : Res := if pairOn s then .next (judgeAbd s) else .next s

/-- The result of a PAIR command. -/
def pairRes (s : State) (op code : Nat) : State := setF (setF s PAIR_CMD_RES_CODE code) PAIR_CMD_RES_OP op

/-- A planned switchover is requested: 0 by command, 1 by the key. -/
def planSwitch (s : State) (k : Nat) : State := setPair s { s.pair with planned := some (k, 0) }

/-- PAIR.CMD SWITCHOVER. -/
def execSwitchover (s : State) : Res :=
  if !pairOn s ∨ role s ≠ 1 then .next (pairRes s 1 0x0D1C)
  else if !healthyStandby s then .next (pairRes s 1 0x0D14)
  else .next (planSwitch (pairRes s 1 0x0D00) 0)

/-- PAIR.CMD RESYNC: a STANDBY or STANDBY-SYNCING module requests a full resynchronisation; an owner asks its partner. -/
def execResync (s : State) : Res :=
  if !pairOn s ∨ role s = 0 ∨ role s = 4 then .next (pairRes s 2 0x0D1C)
  else if role s = 1 then .next (ctrlSend (pairRes s 2 0x0D00) .resyncReq)
  else .next (resyncStart (setRole (pairRes s 2 0x0D00) 2 0x0D00))

/-- PAIR.CMD HS_MOVE: the host-service class moves to the other module. -/
def execHsMove (s : State) : Res :=
  if !pairOn s ∨ (role s ≠ 1 ∧ role s ≠ 3) ∨ !getB s PAIR_SYNC_LINK then .next (pairRes s 3 0x0D1C)
  else
    let s1 := pairRes s 3 0x0D00
    let s2 := setPair s1 { s1.pair with ctrlTx := s1.pair.ctrlTx ++ [.hsMove] }
    .next (if getB s PAIR_ROLE_HS_OWN then hsGive s2 else hsTake s2)

/-- The module on side HS_PREF has qualified for HS_SETTLE: it takes the host-service class with a CTRL HS_MOVE. -/
def execHsSettleExpiry (s : State) : Res :=
  match s.pair.settle with
  | some t =>
    if pairOn s ∧ getF s PAIR_ROLE_SIDE = getF s PAIR_CFG_HS_PREF ∧ !getB s PAIR_ROLE_HS_OWN ∧
        tickNs s ≥ t + getF s PAIR_CFG_HS_SETTLE * 1000000000 then
      .next (hsTake (setPair s { s.pair with ctrlTx := s.pair.ctrlTx ++ [.hsMove] }))
    else .next s
  | none => .next s

/-- An abdicating module drops ILK_OUT: a fault abdication once the MARK of F(d) has been sent, at d + 200 µs at the
latest; a planned one when both tiers are acknowledged, or at d + 500 µs. The module becomes HALTED with the key in HALT,
else STANDBY-SYNCING. -/
def execAbdicateIlkDrop (s : State) : Res :=
  match s.pair.abdAt with
  | none => .next s
  | some (d, planned) =>
    if planned ∧ !(snapF s ≥ d ∧ snapS s ≥ d) ∧ now s < d + 500000 then .next s
    else .next (leaveOwner s (if keyPos s ≥ 2 then 4 else 2) 0x0D1F)

/-! ## SYNC frames at the partner (R360, R371, R372) -/

/-- The module receives tiers: STANDBY-SYNCING or STANDBY, partner not refused. -/
def receives (s : State) : Bool := (role s == 2 || role s == 3) && !s.pair.refused

/-- A DATA frame enters the staging set of its tier. -/
def execSyncDataRx (h : SyncHdr) (recs : List TierRec) (s : State) : Res :=
  match syncAccept s h with
  | (none, s') => .next s'
  | (some s1, _) =>
    if !receives s1 then .next s1
    else
      let st := mget s1.pair.stage h.tier {}
      let st := if st.snap = h.snap then st else { snap := h.snap, gen := h.gen }
      let st' := { st with frames := st.frames + 1, bytes := st.bytes + h.len, recs := st.recs ++ recs }
      .next (setPair s1 { s1.pair with stage := mput {} s1.pair.stage h.tier st' })

/-- The ages of the held tiers: cycles and seconds from their snapshot instants, 255 where none is held (PAIR.TIERS). -/
def agesShow (s : State) : State :=
  let age (v : Fld) (snap unit : Nat) : Nat := if getB s v then sat 255 (tierAge s snap / unit) else 255
  setF (setF (setF s PAIR_TIERS_F_AGE (age PAIR_TIERS_F_VALID (snapF s) (period s 0)))
    PAIR_TIERS_S_AGE (age PAIR_TIERS_S_VALID (snapS s) (period s 1)))
    PAIR_TIERS_B_AGE (age PAIR_TIERS_B_VALID (snapB s) 1000000000)

/-- A tier has become valid: its flag, snapshot instant and age. -/
def tierValid (s : State) (tier snap : Nat) : State :=
  agesShow (match tier with
  | 0 => setPair (setSnapF (setB s PAIR_TIERS_F_VALID true) snap) { s.pair with gotF := true }
  | 1 => setPair (setSnapS (setB s PAIR_TIERS_S_VALID true) snap) { s.pair with gotS := true }
  | _ => setSnapB (setB s PAIR_TIERS_B_VALID true) snap)

/-- The resynchronisation is complete once the full tier and one F and one S after it are applied. -/
def resyncDone (s : State) : State :=
  if role s = 2 ∧ getF s PAIR_RESYNC_PHASE = 3 ∧ s.pair.gotF ∧ s.pair.gotS then
    setF (setF (setRole s 3 0x0D00) PAIR_RESYNC_PHASE 0) PAIR_RESYNC_PCT 0
  else s

/-- The step at a restart from a tier B (R389): a module that resynchronises and takes its time from the partner removes an offset
of T_C0 / 2 or more from the owner's time, which SNAP gives but for the age of the tier, an open value (DESIGN CHOICE, log entry
126). -/
def partnerStep (s : State) (tier snap : Nat) : State :=
  if role s ≠ 2 ∨ tier ≠ 2 ∨ !inRun s .time ∨ srcPri s 2 = 0 then s
  else
    let (age, s1) := fresh 24 s
    let th : Int := (now s1 : Int) - (snap + age : Nat)
    if th.natAbs * 2 < period s1 0 then s1 else doStep s1 (stepOf (th * 65536))

/-- A MARK: the tier is valid when frame and byte counts and DCRC match and its generation is held; it is then applied. -/
def execSyncMarkRx (h : SyncHdr) (frames bytes : Nat) (dcrcOk : Bool) (s : State) : Res :=
  match syncAccept s h with
  | (none, s') => .next s'
  | (some s1, _) =>
    let st := mget s1.pair.stage h.tier {}
    if !receives s1 ∨ h.tier > 2 ∨ st.snap ≠ h.snap ∨ st.frames ≠ frames ∨ st.bytes ≠ bytes ∨ !dcrcOk then .next s1
    else
      let s2 := setPair s1 { s1.pair with stage := mput {} s1.pair.stage h.tier {} }
      if !holdsGen s2 h.gen then .next (unitErr s2 .pair 0 0x0D16)
      else
        let s3 := st.recs.foldl (applyRec h.snap) s2
        .next (partnerStep (resyncDone (tierValid s3 h.tier h.snap)) h.tier h.snap)

/-- A CTRL frame (R370, R372). -/
def ctrlApply (s : State) (m : CtrlMsg) : State :=
  match m with
  | .olcImage img =>
    let first := (actSlot s).gen == 0
    if role s < 2 ∨ !signed s img ∨ !progOk s img (!first) then s
    else
      let s1 := norSlots (if first then setActSlot s img else setIdleSlot s img)
      setPair s1 { s1.pair with ctrlTx := s1.pair.ctrlTx ++ [.olcAck img.gen] }
  | .olcAck g => if role s = 1 then setPair s { s.pair with pgen := g } else s
  | .commit => if role s < 2 then s else freeOld s
  | .revert => s
  | .profStore k p =>
    if role s < 2 then s else { s with tsk := { s.tsk with profiles := mput {} s.tsk.profiles k p } }
  | .force f sims => if role s < 2 then s else applyForces s f sims
  | .hsMove => if getB s PAIR_ROLE_HS_OWN then hsGive s else hsTake s
  | .resyncReq => if role s = 2 ∨ role s = 3 then resyncStart (setRole s 2 0x0D00) else s

/-- A CTRL frame arrives. -/
def execSyncCtrlRx (h : SyncHdr) (m : CtrlMsg) (s : State) : Res :=
  match syncAccept s h with
  | (none, s') => .next s'
  | (some s1, _) => if s1.pair.refused then .next s1 else .next (ctrlApply s1 m)

/-- The configuration of the owner taken by the partner: where it differs, the instances in RUN take it through STOP and
RUN. -/
def takeConfig (s : State) (regs : List (Nat × Nat)) (mem : List (Nat × List Byte)) (profs : NMap Profile) : State :=
  let s0 := { s with tsk := { s.tsk with profiles := profs } }
  if cfgWords s0 = regs ∧ cfgMemOf s0 = mem then s0
  else
    let go : List (Blk × Nat) := [Blk.lnkPort, .chn, .lio, .canCh].flatMap (fun b =>
      ((allCopies s0 b).filter (fun i => inRun s0 b i)).map (fun i => (b, i)))
    let s1 := forEach go s0 (fun s o => toStop s o.1 o.2)
    let s2 := cfgMemSet (regs.foldl cfgApply (cfgClear s1)) mem
    forEach go s2 (fun s o => toRun s o.1 o.2)

/-- The safety section of the owner is kept: SAF takes it at its next RUN, so that no section is replaced while SAF runs (R267;
DEDUCED, log entry 145). -/
def takeSafety (s : State) (im : SImage) : State :=
  if s.saf.img = im then s else { s with saf := { s.saf with loaded := some im } }

/-- An IMG frame arrives (R371). -/
def execSyncImgRx (h : SyncHdr) (b : ImgBody) (s : State) : Res :=
  match syncAccept s h with
  | (none, s') => .next s'
  | (some s1, _) =>
    if role s1 ≠ 2 ∨ s1.pair.refused then .next s1
    else
      let (pct, s2) := fresh 7 s1
      let s2 := setF s2 PAIR_RESYNC_PCT (sat 100 pct)
      match b with
      | .config regs mem profs => .next (takeConfig s2 regs mem profs)
      | .image k img =>
        let t := if k = 0 then { s2.tsk with slotA := img } else { s2.tsk with slotB := img }
        .next (setPair { s2 with tsk := t } { s2.pair with norPend := true })
      | .safety im => .next (setF (takeSafety s2 im) PAIR_RESYNC_PHASE 2)
      | .tier recs =>
        let s3 := recs.foldl (applyRec h.snap) (followGen s2 h.gen)
        .next (setF (setPair s3 { s3.pair with gotF := false, gotS := false }) PAIR_RESYNC_PHASE 3)

/-- The background write of the resynchronised images into serial NOR completes (R371). -/
def execPartnerNorWriteDone (s : State) : Res :=
  if s.pair.norPend then
    .next { s with pair := { s.pair with norPend := false },
                   mram := { s.mram with norA := s.tsk.slotA, norB := s.tsk.slotB } }
  else .next s

/-- An SSTATE frame updates the held safety record, when its deadline is later than that of the content (R265). -/
def execSstateRx (h : SyncHdr) (f : SstFrame) (s : State) : Res :=
  match syncAccept s h with
  | (none, s') => .next s'
  | (some s1, _) =>
    if !receives s1 ∨ f.stamp ≤ s1.saf.rcd.stamp then .next s1
    else .next { s1 with saf := { s1.saf with rcd := recSstate s1.saf.rcd f } }

/-! ## The SYNC link (R349, R359) -/

/-- The SYNC link goes down. Whether the SFP+ module is there and whether a signal is lost then is not given (log entry 120). An
unpaired module ignores SYNC (R347); an owner's resynchronisation of its partner ends (R371). -/
def syncLost (s : State) : State :=
  if !getB s PAIR_SYNC_LINK then s
  else if !getB s PAIR_CFG_PAIRED then setB s PAIR_SYNC_LINK false
  else
    let s0 := if role s = 1 then
        setF (setF (setPair s { s.pair with imgTx := [], fullDue := false }) PAIR_RESYNC_PHASE 0) PAIR_RESYNC_PCT 0 else s
    let s1 := level (unitErr (incF (setB s0 PAIR_SYNC_LINK false) PAIR_SYNC_DOWNS) .pair 0 0x0D22) .pair 0 9 true
    let s2 := healthFrom s1 false
    let s3 := if role s2 = 3 then setB s2 PAIR_ROLE_HEALTHY false else s2
    let (sfp, s4) := pick (setPair s3 { s3.pair with downAt := some (tickNs s3) })
    let (los, s5) := pick s4
    let s6 := setB (setB s5 PAIR_SYNC_SFP sfp) PAIR_SYNC_LOS los
    if role s6 = 2 then resyncFail s6 else s6

/-- SYNC_LINK_LOST. -/
def execSyncLinkLost (s : State) : Res := .next (syncLost s)

/-- The SYNC link comes up; its SerDes PLL is then locked. -/
def execSyncLinkRestored (s : State) : Res :=
  let s1 := setB (setB (setB (setB s SYS_PLL_SD_LOCK true) PAIR_SYNC_LINK true) PAIR_SYNC_SFP true) PAIR_SYNC_LOS false
  .next (level (setPair s1 { s1.pair with downAt := none }) .pair 0 9 false)

/-- The SYNC link has been down for 1 s: a STANDBY becomes STANDBY-SYNCING; an owner resynchronises its partner in full. -/
def execSyncLinkDown (s : State) : Res :=
  if !pairOn s ∨ !s.pair.downAt.any (fun t => decide (tickNs s ≥ t + 1000000000)) then .next s
  else if role s = 3 then .next (resyncStart (setRole s 2 0x0D22))
  else if role s = 1 then .next (setSnapS (setSnapF s 0) 0)
  else .next s

/-! ## At a C0 output deadline (R28, R353, R359, R362) -/

/-- Ages of the held tiers, and this module's health. -/
def tierAges (s : State) : State :=
  let s1 := agesShow s
  if role s1 = 3 then setB s1 PAIR_ROLE_HEALTHY (selfHealthy s1) else s1

/-- Snapshots of an ACTIVE module whose program is not halted, for a partner that receives them. -/
def snapshots (s : State) (c1 sec : Bool) : State :=
  if role s ≠ 1 ∨ !partnerRx s ∨ s.tsk.ph ≠ .running then s
  else
    let s1 := takeF s
    let s2 := if c1 then takeS s1 else s1
    let s3 := if sec then takeB s2 else s2
    if c1 ∧ s3.pair.fullDue then
      setSnapS (setSnapF (setF (setPair s3 { s3.pair with imgTx := s3.pair.imgTx ++ [.tier (fullRecs s3 true)], fullDue := false })
        PAIR_RESYNC_PHASE 3) (now s3)) (now s3)
    else s3

/-- A planned switchover at a C1 output deadline: made with a healthy standby and at most 1,024 changed pages, else counted;
after 8 deadlines a SWITCHOVER is postponed, and a HALT becomes a fault abdication, or the stop of R124 where no healthy
standby is left. -/
def plannedDue (s : State) : State :=
  match s.pair.planned with
  | none => s
  | some (k, n) =>
    if healthyStandby s ∧ (changedPages s).length ≤ 1024 then
      setPair s { s.pair with planned := none, abdAt := some (now s, true) }
    else if n + 1 < 8 then setPair s { s.pair with planned := some (k, n + 1) }
    else if k = 0 then pairRes (setPair s { s.pair with planned := none }) 1 0x0D15
    else if healthyStandby s then setPair s { s.pair with planned := none, abd := some 6 }
    else { setPair s { s.pair with planned := none } with tsk := { s.tsk with haltPend := true } }

/-- The module abdicates at this deadline: it releases no task after it, and running tasks stop. -/
def abdicateNow (s : State) : State := { stopTasks s with tsk := { (stopTasks s).tsk with rel := false } }

/-- The gap of a takeover, measured at the new owner's first launch (step T7 of R363), and the record of the takeover with it
(R425, R431), which is also that of a gap beyond the T_HOLD of a station (R367). -/
def gapShow (s : State) : State :=
  if s.pair.gapPend ∧ s.pair.hush = 0 then
    let h := s.pair.tko.getD 0
    let gap := sat 4294967295 (now s - h)
    recCond (setF (setPair s { s.pair with gapPend := false }) PAIR_TKO_GAP_NS gap) 0x0D1E 0 0 (leBytes 4 gap)
  else s

/-- Since when this module qualifies for the host-service class (R370). -/
def settleKeep (s : State) : State :=
  let ok := role s == 1 || (role s == 3 && getB s PAIR_ROLE_HEALTHY)
  let t := if ok then some (s.pair.settle.getD (tickNs s)) else none
  let left := match t with | some t => getF s PAIR_CFG_HS_SETTLE - (tickNs s - t) / 1000000000 | none => getF s PAIR_CFG_HS_SETTLE
  setB (setF (setPair s { s.pair with settle := t }) PAIR_HS_SETTLE (if getB s PAIR_ROLE_HS_OWN then 0 else left)) PAIR_HS_RELAY (relayActive s)

/-- What the pair unit does at a C0 output deadline, after the launches: abdication is decided, snapshots are taken, the SYNC
frames and the pulse of path 2 sent. `c1` and `sec`: the deadline is also that of C1, and that before a whole second. -/
def pairDeadline (s : State) (c1 sec : Bool) : State :=
  if !pairOn s then s
  else
    let s1 := judgeAbd (gapShow (setPair s { s.pair with txTiers := [], frames := [], pulseAt := some (now s) }))
    let s2 := if c1 ∧ role s1 = 1 then plannedDue s1 else s1
    let fault := s1.pair.abd
    let s3 := match fault with
      | some _ => if role s2 = 1 then setPair s2 { s2.pair with abd := none, planned := none, abdAt := some (now s2, false) } else s2
      | none => s2
    let going := s3.pair.abdAt.isSome && s2.pair.abdAt != s1.pair.abdAt || fault.isSome
    let s4 := setPair s3 { s3.pair with hbTx := some (hbHdr s3, hbBody s3 s3.pair.abdAt.isSome (fault.getD 0)) }
    let s5 := sendFrames (tierAges (snapshots s4 c1 sec)) (deadline0 s4) c1
    settleKeep (if going then abdicateNow s5 else s5)

end Sys2Proof.Machine
end

