-- ==== Sys2Proof/Machine/Key.lean ====
section
/-!
DEFINITION. The key switch: positions accepted, leaving TUNE, HALT, WIPE, KEY_FAULT (R121 to R125, R373).
-/

namespace Sys2Proof.Machine

open R

/-- The key switch leaves TUNE (R123): injections stop at the next sample, an unswitched online change is cancelled, a
requested revert is withdrawn. -/
def leaveTune (s : State) : State :=
  let loops := s.loops.map (fun l => (l.1, match l.2.inj with
    | some j => { l.2 with inj := some { j with dur := 0 } }
    | none => l.2))
  let s1 := { s with loops := loops }
  if olc s1 = 1 ∨ olc s1 = 2 then setOlc s1 0 else if olc s1 = 4 then setOlc s1 3 else s1

/-- HALT is accepted (R124, Table PAIR-3): the owner stops the program at the next C0 output deadline, or switches over to
a healthy standby; a standby becomes HALTED and its applied state, the RETAIN of its SRAM with it, is discarded (R349; DEDUCED, log
entry 146). -/
def haltAccepted (s : State) : State :=
  if role s = 1 ∧ healthyStandby s then planSwitch s 1
  else if owns s then
    if s.tsk.ph = .none ∨ s.tsk.ph = .halted then { s with tsk := { s.tsk with ph := .halted, due := none } }
    else { s with tsk := { s.tsk with haltPend := true, due := none } }
  else
    let s0 := setIlkOut (setB s PAIR_ROLE_LISTEN false) false
    let s1 := setF (dropApplied (setPair s0 { s0.pair with claim := none, ownWait := false })) PAIR_RESYNC_PHASE 0
    let s2 := { s1 with tsk := { s1.tsk with ph := .halted, due := none, shadow := false } }
    if role s2 = 4 then s2 else setRole s2 4 0x0D00

/-- The key leaves HALT or WIPE for RUN or TUNE: a restart under Table TSK-7, or a new listen window. -/
def haltLeft (s : State) : State :=
  let s1 := { setPair s { s.pair with planned := if s.pair.planned.any (fun p => p.1 == 1) then none else s.pair.planned } with
              tsk := { s.tsk with haltPend := false } }
  if owns s1 then chooseRestart s1 1 false
  else if role s1 = 4 ∧ pairOn s1 then listenStart s1
  else s1

/-- WIPE is accepted (R125): RETAIN, both banks, the timer image, forces, simulation and the warm-restart header are
cleared. -/
def wipe (s : State) : State :=
  let s1 := memLoad s 0x00800000 0x00A00000 []
  let s2 := { s1 with mram := { s1.mram with valid := false, orderly := false, copied := false, bank := 0, gen := 0, stamp := 0,
                                             bank0 := [], bank1 := [], dirty := [], timers := [] },
                      tsk := { s1.tsk with shadow := false } }
  recCond (setF (applyForces s2 [] []) TSK_KEY_WIPED 1) 0x0320 0 0 []

/-- KEY_FAULT is latched: `raw` is the code the contacts show. -/
def keyFault (s : State) : State :=
  let s1 := latch (unitErr (setF s TSK_KEY_KFAULT 1) .tsk 0 0x0315) .tsk 0 16
  if getF s1 SYS_BOOT_STEP = 8 ∧ s1.tsk.ph = .none ∧ !keyKnown s then s8Act s1 else s1

/-- A valid position is accepted. -/
def keyAccept (s : State) (code : Nat) : State :=
  let old := keyPos s
  let known := keyKnown s
  let s1 := setF (setF (setF s TSK_KEY_POS code) TSK_KEY_RAW code) TSK_KEY_KFAULT 0
  let s2 := { s1 with tsk := { s1.tsk with keyAcc := true } }
  let s3 := if old = code then s2 else latch s2 .tsk 0 32
  if s3.tsk.ph = .none ∧ getF s3 SYS_BOOT_STEP ≠ 8 then (if code = 3 ∧ old ≠ 3 then wipe s3 else s3)
  else if s3.tsk.ph = .none ∧ !known then s8Act s3
  else if old = code then s3
  else
    let s4 := if old = 1 then leaveTune s3 else s3
    let s5 := if code = 2 ∧ old < 2 then haltAccepted s4 else s4
    let s6 := if code < 2 ∧ old ≥ 2 then haltLeft s5 else s5
    if code = 3 then wipe s6 else s6

/-- WIPE may be accepted: HALT was the accepted position immediately before (R121), and a paired module is HALTED, so that
ownership never stands in WIPE (R373; DEDUCED, log entry 147). -/
def wipeAllowed (s : State) : Bool := keyPos s == 2 && s.tsk.keyAcc && (role s == 0 || role s == 4)

/-- A position code has been stable for 50 ms, WIPE for 3 s. WIPE that is not allowed latches KEY_FAULT. -/
def execKeyPositionAccept (code : Nat) (s : State) : Res :=
  if code > 3 then .next s
  else if code = 3 ∧ keyPos s ≠ 3 ∧ !wipeAllowed s then .next (keyFault (setF s TSK_KEY_RAW 3))
  else .next (keyAccept s code)

/-- KEY_FAULT: `code` 3 is a WIPE code that does not meet the conditions of R121; 4 and above a contact pattern that has
given no valid code for 50 ms, whose RAW reading the spec leaves open. The last accepted position stays in force. -/
def execKeyFaultDetect (code : Nat) (s : State) : Res :=
  if code < 3 then .next s
  else if code = 3 then
    .next (if wipeAllowed s ∨ keyPos s = 3 then s else keyFault (setF s TSK_KEY_RAW 3))
  else
    let (r, s1) := fresh 2 s
    .next (keyFault (setF s1 TSK_KEY_RAW r))

end Sys2Proof.Machine
end

