-- ==== Sys2Proof/Machine/ChnCmd.lean ====
section
/-!
DEFINITION. The commands of the channel unit: writes to the channel table, invalidation and re-read, the force table and
the simulation bitmap (R148, R149, R163 to R166, R469).
-/

namespace Sys2Proof.Machine

open R

/-! ## The channel table -/

/-- The key switch permits a management write of `n` bytes from byte `o` of a channel table entry (R148): mapping bytes in
TUNE and HALT, bytes 0x10 to 0x3B in TUNE, USER always. -/
def chtabKeyOk (s : State) (o n : Nat) : Bool :=
  (n == 0 || decide (o ≥ 16) || keyPos s == 1 || keyPos s == 2) &&
  (n == 0 || decide (o + n ≤ 16) || decide (o ≥ 60) || keyPos s == 1)

/-- `chtabKeyOk` of every entry that `n` bytes at an address touch; the first argument bounds their number. -/
def chtabKeysOk : Nat → State → Nat → Nat → Bool
  | 0, _, _, _ => true
  | k + 1, s, a, n =>
    if n = 0 then true
    else
      let room := 64 - a % 64
      chtabKeyOk s (a % 64) (min n room) && chtabKeysOk k s (a + room) (n - room)

/-- A management write to the channel table: none where the key switch refuses it. -/
def chtabMgmt (s : State) (a : Nat) (bs : List Byte) : Option (State × Bool) :=
  if chtabKeysOk (bs.length / 64 + 2) s a bs.length then some (chtabWrite s a bs) else none

/-- A write of bytes at an offset of the channel table, from the program or from management (`mg`). -/
def execChtabWrite (mg : Bool) (ofs : Nat) (bs : List Byte) (s : State) : Res :=
  let a := 0x02000000 + ofs
  if ofs + bs.length > 0x100000 then .next s
  else if mg then .next (match chtabMgmt s a bs with | some (s1, _) => s1 | none => s)
  else .next (chtabWrite s a bs).1

/-- A management write to CHN.INV: one entry, or all of them (R149). Entries beyond the variant have no cached copy. -/
def execChnInv (v : Nat) (s : State) : Res :=
  if bitOf v 31 then .next (invalidateAll s)
  else
    let n := v % 2 ^ 14
    .next (if n < nChan s then invalidate s n else s)

/-- The channel unit completes the re-read of the cached entry of a channel. -/
def execCacheRereadDone (n : Nat) (s : State) : Res := .next (reread s n)

/-! ## The force table (R163, R164) -/

/-- The access sets: management, program. -/
def ctlSel (mg : Bool) : Fld := if mg then CHN_MF_SEL_ENTRY else CHN_PF_SEL_ENTRY
/-- The value of the entry that a set selects. -/
def ctlVal (s : State) (mg : Bool) : Nat :=
  if mg then getF s CHN_MF_VLO_VAL + 2 ^ 32 * getF s CHN_MF_VHI_VAL else getF s CHN_PF_VLO_VAL + 2 ^ 32 * getF s CHN_PF_VHI_VAL

/-- The control register of a set. -/
def ctlPut (s : State) (mg : Bool) (kind chan : Nat) : State :=
  if mg then setF (setF s CHN_MF_CTL_CHAN chan) CHN_MF_CTL_KIND kind
  else setF (setF s CHN_PF_CTL_CHAN chan) CHN_PF_CTL_KIND kind

/-- The code that refuses a control write to the selected entry: writer, key switch, channel, safety channel, entry in use
for another channel, second entry of a channel. -/
def ctlCheck (s : State) (mg : Bool) (kind chan : Nat) : Option Nat :=
  let i := getF s (ctlSel mg)
  let f := getForce s i
  let e := tableEntry s chan
  if kind = 3 ∨ (!mg ∧ (kind = 1 ∨ f.kind = 1)) then some 0x0515
  else if mg ∧ kind = 0 then (if keyPos s = 3 then some 0x0514 else none)
  else if mg ∧ !inTune s then some 0x0514
  else if kind = 0 then none
  else if chan ≥ nChan s ∨ !e.used then some 0x0517
  else if kind = 1 ∧ e.safety then some 0x0513
  else if f.kind ≠ 0 ∧ f.chan ≠ chan then some 0x0512
  else if s.chn.forces.any (fun p => p.1 != i && p.2.kind != 0 && p.2.chan == chan) then some 0x0516
  else none

/-- A write of the control register of a set: the selected entry is taken, changed or freed; a refused write changes
nothing. An ACTIVE owner sends the change to its partner (R372). -/
def ctlWrite (s : State) (mg : Bool) (kind chan : Nat) : State :=
  match ctlCheck s mg kind chan with
  | some code => unitErr s .chn 0 code
  | none =>
    let v : Force := if kind = 0 then {} else { kind := kind, chan := chan, val := ctlVal s mg }
    let s1 := setForce (ctlPut s mg kind chan) (getF s (ctlSel mg)) v
    ctrlSend s1 (.force s1.chn.forces s1.mram.sims)

/-- Management frees the selected entry. -/
def execMfCtlFree (chan : Nat) (s : State) : Res := .next (ctlWrite s true 0 (chan % 2 ^ 14))
/-- Management applies a FORCE entry. -/
def execMfCtlForce (chan : Nat) (s : State) : Res := .next (ctlWrite s true 1 (chan % 2 ^ 14))
/-- Management applies a SIM entry. -/
def execMfCtlSim (chan : Nat) (s : State) : Res := .next (ctlWrite s true 2 (chan % 2 ^ 14))
/-- The program frees the selected entry. -/
def execPfCtlFree (chan : Nat) (s : State) : Res := .next (ctlWrite s false 0 (chan % 2 ^ 14))
/-- The program applies a SIM entry. -/
def execPfCtlSim (chan : Nat) (s : State) : Res := .next (ctlWrite s false 2 (chan % 2 ^ 14))
/-- The program writes kind FORCE: ignored, with FORCE_WRITER. -/
def execPfCtlForce (chan : Nat) (s : State) : Res := .next (ctlWrite s false 1 (chan % 2 ^ 14))

/-! ## Station simulation (R165, R166, R469) -/

/-- The bits of CHN.SIMi whose stations the variant has. -/
def simMask (s : State) (i : Nat) : Nat := if i * 32 < nSta s then 0xFFFFFFFF else 0

/-- The code that refuses a write of `v` to CHN.SIMi, judged on the changes it would make. -/
def simCheck (s : State) (i v : Nat) : Option Nat :=
  let old := getF s CHN_SIM_SIM 0 i
  let set := (List.range 32).filter (fun j => bitOf v j && !bitOf old j)
  if v = old then none
  else if keyPos s = 3 ∨ (set ≠ [] ∧ !inTune s) then some 0x0514
  else if set.any (fun j => stSafety s (i * 32 + j)) then some 0x0513
  else none

/-- A write to CHN.SIMi. -/
def simWrite (s : State) (i w : Nat) : State :=
  let v := (w % 2 ^ 32) &&& simMask s i
  match simCheck s i v with
  | some code => unitErr s .chn 0 code
  | none =>
    let s1 := setF s CHN_SIM_SIM v 0 i
    let s2 := { s1 with mram := { s1.mram with sims := mput 0 s1.mram.sims i v } }
    let s3 := level s2 .chn 0 1 ((List.range 8).any (fun k => getF s2 CHN_SIM_SIM 0 k != 0))
    if v = getF s CHN_SIM_SIM 0 i then s3 else ctrlSend s3 (.force s3.chn.forces s3.mram.sims)

/-- A write to CHN.SIMi. -/
def execSimBitmapWrite (i v : Nat) (s : State) : Res := .next (if i < 8 then simWrite s i v else s)

end Sys2Proof.Machine
end

