-- ==== Sys2Proof/Machine/Fault.lean ====
section
/-!
DEFINITION. Faults of the cores and of tasks (R75, R103 to R108, R114, R117, R232), and the events of tasks: barriers that
open, synchronous calls that end, releases of event tasks, budgets (R100, R107, R114, R115, R117).
-/

namespace Sys2Proof.Machine

open R

/-- LE_FAULT as the word of special register 0x02. -/
def leWord (l : LeFault) : Nat :=
  l.code % 2 ^ 16 + l.task % 16 * 2 ^ 16 + l.seg % 4 * 2 ^ 20 + l.core % 8 * 2 ^ 22 + b2n l.ovr * 2 ^ 30 + b2n l.valid * 2 ^ 31

/-- A fault enters the LE_FAULT of a core: the first one stands until VALID is cleared (R75). -/
def leRecord (l : LeFault) (code task seg core pc addr : Nat) : LeFault :=
  if l.valid then { l with ovr := true }
  else { code := code, task := task, seg := seg, core := core, ovr := l.ovr, valid := true, pc := pc, addr := addr }

/-- The 16 bytes of a fault record without its stamp, as the recorder takes them (R431). -/
def faultDetail (r : FaultRec) : List Byte := leBytes 4 r.fault ++ leBytes 4 r.pc ++ leBytes 4 r.addr ++ leBytes 4 r.info

/-- A fault record with the count of those dropped before it (Table ORD-11). -/
def withDrops (s : State) (r : FaultRec) : FaultRec := { r with info := r.info % 65536 + s.tsk.fqDrop * 65536 }

/-- A fault record enters the fault queue of 8; one that finds it full is dropped and counted in the next (R106). -/
def fqPush (s : State) (r : FaultRec) : State :=
  if s.tsk.fq.length < 8 then
    setF { s with tsk := { s.tsk with fq := s.tsk.fq ++ [r], fqDrop := 0 } } TSK_FQ_COUNT (s.tsk.fq.length + 1)
  else latch (incF { s with tsk := { s.tsk with fqDrop := sat 65535 (s.tsk.fqDrop + 1) } } TSK_FQ_DROPPED) .tsk 0 8

/-- The task stops after a fault of one of its segments: the other segments stop, an INIT task abandons the restart, a
cyclic task reaches no output close and runs late no more, an event task ends (R103, R105, R108, R118, R131). `unit`: the
code is one of TSK. -/
def taskFault (s : State) (t code : Nat) (l : LeFault) (unit : Bool) : State :=
  let sib := (segsOf s t).any (fun k => k != t * 4 + l.seg && (getSeg s k).ph != .idle && (getSeg s k).ph != .ended)
  let r : FaultRec := withDrops s
    { fault := leWord l, pc := l.pc, addr := l.addr, info := b2n (t == 6) + 2 * b2n sib, stamp := now s }
  let s1 := stopSegs s t
  let q := getTask s1 t
  let s2 := setTask s1 t { q with live := false, faulted := decide (2 ≤ t ∧ t ≤ 4) }
  let s3 := skipLevel (setF (taskStat (setF s2 TSK_T_STAT_LASTCODE (code % 65536) 0 t) t) TSK_T_STAT_SKIPPING 0 0 t)
  let s4 := if unit then unitErrAt s3 .tsk 0 code t (faultDetail r) else recCond s3 code t 0 (faultDetail r)
  let s4 := if 2 ≤ t ∧ t ≤ 4 then s4 else dropPre s4 t
  let s5 := if t = 6 then incF s4 TSK_FQ_NESTED else fqPush s4 r
  scheduleAll (if t ≤ 1 then initFail s5 (t == 1) else s5)

/-- A fault on a core: the code and its address are recorded; the segment and its task stop, a safety core's task stops
with an engine trip (SMEM_UNCORR for an uncorrectable error in its store, log entry 106, else CORE_FAULT; R232, R261), and a
core that runs no segment stops until one starts on it. The address is 0 where the fault has
none. -/
def coreFault (s : State) (c code addr : Nat) : State :=
  let k := getCore s c
  let (t, g) := match k.run with | some key => (key / 4, key % 4) | none => (0, 0)
  let l := leRecord k.le code t g (c % 8) k.ctx.pc addr
  let s1 := setCore s c { k with le := l }
  if c ≥ 6 then
    let s2 := setCore s1 c { getCore s1 c with mode := .stopped }
    if code = 0x0415 then engineTrip s2 0x15 0 else engineTrip s2 0x12 (code + (if c = 7 then 2 ^ 31 else 0))
  else
    match k.run with
    | some key => taskFault s1 (key / 4) code l false
    | none =>
      let r : FaultRec := withDrops s { fault := leWord l, pc := l.pc, addr := l.addr, info := 0, stamp := now s }
      fqPush (recCond (setCore s1 c { getCore s1 c with mode := .stopped }) code 0 0 (faultDetail r)) r

/-- A task is stopped as if it had faulted, with a code of TSK. The record names a running segment of the task where there
is one, else the first that has not ended. -/
def taskStop (s : State) (t code : Nat) : State :=
  let key := ((segsOf s t).find? (fun k => (getSeg s k).ph == .running)).getD (((openSegs s t).head?).getD (t * 4))
  let c := segCore s key
  let k := getCore s c
  let pc := if k.run = some key then k.ctx.pc else (getSeg s key).ctx.pc
  let l := leRecord { k.le with valid := false } code t (key % 4) c pc 0
  let s1 := if k.run = some key then setCore s c { k with le := leRecord k.le code t (key % 4) c pc 0 } else s
  taskFault s1 t code l true

/-- The waiting segments of a task are at different barriers: the task stops with BARRIER_MISMATCH (R114). -/
def barrierJudge (s : State) (t : Nat) : State :=
  if (getTask s t).live && barrierMixed s t then taskStop s t 0x0311 else s

/-! ## Events of tasks -/

/-- A barrier at which every segment of the task has arrived opens; the segments become ready again. -/
def execBarrierOpen (t : Nat) (s : State) : Res :=
  if t < 16 ∧ (getTask s t).live then
    .next (if (barrierMet s t).isSome then barrierOpen s t else barrierJudge s t)
  else .next s

/-- What WA holds when a synchronous call ends: the completion word, or SYNC_TIMEOUT once the bound has passed; none while
the wait goes on (R100). -/
def syncEnd (s : State) (unit ticket addr due : Nat) : Option DWord :=
  let w := rdN s (addr + 8) 8
  if w / 2 ^ 63 = 1 ∧ w % 2 ^ 32 = ticket then some (BitVec.ofNat 64 w)
  else if tickNs s ≥ due then some (BitVec.ofNat 64 (ticket + (engCode unit + 5) * 2 ^ 32))
  else none

/-- A synchronous ECALL ends, by its completion word or at the wait bound. `key` below 64 is a segment, 64 + c a core that
runs no segment. -/
def execSyncEcallComplete (key : Nat) (s : State) : Res :=
  if key < 64 then
    let g := getSeg s key
    match g.ph with
    | .inEcall u t a due =>
      match syncEnd s u t a due with
      | some w => .next (scheduleAll (taskStat (setSeg s key { ph := .ready, ctx := { g.ctx with wa := w }, ord := backOrd s key }) (key / 4)))
      | none => .next s
    | _ => .next s
  else
    let c := key - 64
    let k := getCore s c
    match k.mode with
    | .inEcall u t a due =>
      match syncEnd s u t a due with
      | some w => .next (setCore s c { k with mode := .ready, ctx := { k.ctx with wa := w } })
      | none => .next s
    | _ => .next s

/-- The program runs and no migration map does: event tasks may be released (R107, R115, R135). -/
def tasksOn (s : State) : Bool := (s.tsk.ph == .running && s.tsk.rel) && owns s && decide (now s ≥ s.tsk.migTo)

/-- The oldest fault record moves to the fault record area and the FAULT task is released; without a FAULT task the record
only leaves the queue. -/
def execFaultTaskRelease (s : State) : Res :=
  match s.tsk.fq with
  | [] => .next s
  | r :: rest =>
    if (getTask s 6).live ∨ !tasksOn s then .next s
    else
      let s1 := setF { s with tsk := { s.tsk with fq := rest } } TSK_FQ_COUNT rest.length
      if hasTask s1 6 then
        .next (scheduleAll (releaseTask (wrBs s1 (actSlot s1).faultArea (faultDetail r ++ leBytes 8 r.stamp)) 6))
      else .next s1

/-- An entry of an event queue as the event area holds it (Table TSK-3). -/
def evBytes (e : EvEntry) : List Byte :=
  leBytes 4 e.source ++ leBytes 2 e.tag ++ leBytes 2 e.dropped ++ leBytes 8 e.stamp ++ leBytes 4 e.cond ++ leBytes 12 0

/-- The oldest entry of the queue of TIME or a USER task moves to its event area, and the task is released. -/
def execEventTaskRelease (t : Nat) (s : State) : Res :=
  let q := getTask s t
  match q.evq with
  | [] => .next s
  | e :: rest =>
    if t < 7 ∨ t > 15 ∨ q.live ∨ !tasksOn s ∨ !hasTask s t then .next s
    else
      let s1 := setF (setTask s t { q with evq := rest }) TSK_T_STAT_QLEN rest.length 0 t
      let s2 := match evArea s1 t with | some a => wrBs s1 a (evBytes e) | none => s1
      .next (scheduleAll (releaseTask s2 t))

/-- The largest CYC count of a task's segments, without the additions of Table HXI-1. -/
def taskCyc (s : State) (t : Nat) : Nat :=
  (segsOf s t).foldl (fun m k =>
    let c := segCore s k
    max m (if (getCore s c).run = some k then (getCore s c).ctx.cyc else (getSeg s k).ctx.cyc)) (getTask s t).exec

/-- A task has used up its budget: its CYC count with the additions of Table HXI-1, a free value (log entry 31), has reached
T_BUDGET, or, for ERROR, the wall clock release + budget (R117). Answers the state that has used the free value. -/
def budgetOver (s : State) (t : Nat) : Bool × State :=
  let b := getF s TSK_T_BUDGET_NS 0 t
  let (x, s1) := fresh 32 s
  (decide (taskCyc s t + x ≥ b) || (t == 5 && decide (now s ≥ (getTask s t).relAt + b)), s1)

/-- An event or INIT task reaches its budget: it is stopped as if it had faulted, with BUDGET. -/
def execTaskBudgetExpiry (t : Nat) (s : State) : Res :=
  if t < 16 ∧ (t ≤ 1 ∨ 5 ≤ t) ∧ (getTask s t).live then
    let (spent, s1) := budgetOver s t
    .next (if spent then taskStop s1 t 0x0310 else s1)
  else .next s

end Sys2Proof.Machine
end

