-- ==== Sys2Proof/Machine/HostOps.lean ====
section
/-!
DEFINITION. What the host unit does at the instants of the timeline: host-fed inputs, the values of the Modbus points, host
writes applied by the owner of the process, the relay to the other module (R370, R417, R420 to R424).
-/

namespace Sys2Proof.Machine

open R

/-! ## Answers -/

/-- A session. -/
def getSess (s : State) (k : Nat) : Sess := mget s.host.sess k {}

/-- MGMT_CHANGE: an accepted request of ENGINEER or ADMIN privilege that changes state (R413). -/
def mgmtChange (s : State) (k op : Nat) : State := recCond s 0x101D op 2 (leBytes 8 (getSess s k).fp)

/-- A WRITE is accepted: it is recorded where its session has ENGINEER or ADMIN privilege (R413). -/
def mgmtWrite (s : State) (k : Nat) : State := if (getSess s k).priv ≥ 3 then mgmtChange s k 3 else s

/-- The answer to a management request (Table HOST-2). -/
def mkRsp (s : State) (op status detail : Nat) (data : List Byte) : Rsp :=
  { op := op, id := s.host.reqId, status := status, role := role s, hso := role s == 0 || getB s PAIR_ROLE_HS_OWN, epoch := roleEpoch s,
    detail := detail, data := data }

/-- A management request is answered. -/
def answer (s : State) (op status detail : Nat) (data : List Byte) : State :=
  { s with host := { s.host with rsp := some (mkRsp s op status detail data) } }

/-- A Modbus request is answered: 0 with data, or an exception (R419). -/
def mbAnswer (s : State) (fn exc : Nat) (data : List Nat) : State :=
  let s1 := { s with host := { s.host with mbRsp := some (fn, exc, data) } }
  if exc = 0 then incF s1 HOST_MB_CNT_A else incF s1 HOST_MB_CNT_B

/-! ## Modbus points (R420, R421) -/

/-- The type code of a point's type; a BIT is a byte of which bit 0 counts. -/
def mbTy (p : MbPoint) : Nat := [0, 1, 2, 3, 4, 6].getD p.typ 0

/-- A channel's value in the type of a point: bit 0 for a BIT, else converted as CVT does. -/
def mbCast (p : MbPoint) (e : ChEntry) (v : Nat) : Nat :=
  if p.typ = 0 then v % 2 else (tyCvt true e.img (mbTy p) v).1

/-- The present value of a point: of a channel the value that its image slot shows to a reader outside the owning class, 0
where no channel of that direction stands there (R146, R154, R155). -/
def mbVal (s : State) (p : MbPoint) : Nat × State :=
  if p.src = 0 then (mbCast p (getChan s p.ref).latched (inView s 9 p.ref).1, s)
  else if p.src = 1 then
    let (x, s1) := engOut s p.ref
    let c := getChan s1 p.ref
    let v := if c.latched.ownKind = 4 then outShown s1 p.ref else x
    (if c.cached.used && c.cached.isOut then mbCast p c.latched v else 0, s1)
  else if p.typ = 0 then
    let (v, s1) := engN s p.ref 1
    (bits v p.bit 1, s1)
  else engN s p.ref (tySize (mbTy p))

/-- The values of every point, by index. -/
def mbSnapshot (s : State) : NMap Nat × State :=
  (List.range s.host.cfg.points.length).foldl (fun (acc : NMap Nat × State) i =>
    match s.host.cfg.points[i]? with
    | none => acc
    | some p =>
      let (v, s1) := mbVal acc.2 p
      (mput 0 acc.1 i v, s1)) ([], s)

/-! ## Host writes (R370, R422) -/

/-- One value of a host write made by the owner: whole bytes, or one bit of a byte. -/
def hostPart (s : State) (w : WPart) : State :=
  if w.bit < 8 then
    let b := setBits (rdB s w.addr).toNat w.bit 1 (leNat w.data)
    wrB s w.addr (BitVec.ofNat 8 b)
  else wrBs s w.addr w.data

/-- A host write made by the owner in DATA or RETAIN; false where a value lies outside, or where the role has changed since
the request (R368, R370). -/
def hostWrite (s : State) (w : RelayW) : State × Bool :=
  if w.epoch = roleEpoch s ∧ w.parts.all (fun p => inData p.addr p.data.length) then (forEach w.parts s hostPart, true) else (s, false)

/-- The answer to a waiting host write: made, or rejected by the owner. -/
def hostResolve (s : State) (r : Nat × Bool) : State :=
  match s.host.waits.find? (fun w => w.id == r.1) with
  | none => s
  | some w =>
    let s1 := { s with host := { s.host with waits := s.host.waits.filter (fun x => x.id != r.1) } }
    let at_ := ((w.w.parts.head?).map WPart.addr).getD 0
    if w.mb then mbAnswer s1 w.fn (if r.2 then 0 else 4) []
    else
      let s2 := answer { s1 with host := { s1.host with reqId := w.rid } } 3 (if r.2 then 0x1000 else 0x1010) (if r.2 then 0 else at_) []
      if r.2 then mgmtWrite s2 w.who else s2

/-- A write due at this C1 output deadline: one of this module's own server is answered, a relayed one is replied to. -/
def hostApply (s : State) (w : RelayW) : State :=
  let (s1, ok) := hostWrite s w
  if s1.host.waits.any (fun x => x.id == w.id && getB s1 PAIR_ROLE_HS_OWN) || role s1 == 0 then hostResolve s1 (w.id, ok)
  else { s1 with host := { s1.host with outR := s1.host.outR ++ [(w.id, ok)] } }

/-- Bytes that one relay may carry in each direction in a C1 period (R370). -/
def relayCap : Nat := 262144

/-- The longest front of a list whose items fit in `cap` bytes, and the rest, which waits (R370). -/
def fitIn {α : Type} (size : α → Nat) : Nat → List α → List α × List α
  | _, [] => ([], [])
  | cap, x :: t => if size x ≤ cap then (x :: (fitIn size (cap - size x) t).1, (fitIn size (cap - size x) t).2) else ([], x :: t)

/-- The C1 output deadline at the host unit: writes applied, point values taken, RELAY frame sent. -/
def hostDeadline (s : State) : State :=
  let s1 := if owns s then forEach s.host.due { s with host := { s.host with due := [] } } hostApply else s
  let (vals, s2) := if owns s1 then mbSnapshot s1 else (s1.host.mbVals, s1)
  let h := s2.host
  if !relayActive s2 then { s2 with host := { h with mbVals := vals, outR := [], outW := [], outF := [], entries := [] },
                                    pair := { s2.pair with relayTx := none } }
  else if owns s2 then
    let es := fitIn (fun _ => 64) (relayCap - 8 * vals.length - 8 * h.outR.length) h.entries
    { s2 with host := { h with mbVals := vals, outR := [], entries := es.2 },
              pair := { s2.pair with relayTx := some { points := vals, entries := es.1, replies := h.outR } } }
  else
    let ws := fitIn relaySize (relayCap - 8 * h.outR.length) h.outW
    let fs := fitIn (fun _ => 16) (relayCap - 8 * h.outR.length - (ws.1.map relaySize).sum) h.outF
    { s2 with host := { h with outW := ws.2, outF := fs.2, outR := [] },
              pair := { s2.pair with relayTx := some { writes := ws.1, fields := fs.1, replies := h.outR } } }

/-! ## Host-fed inputs (R424) -/

/-- The source of a host-fed input at an input close. -/
def hostSrc (s : State) (e : ChEntry) : InSrc :=
  let f := mget s.host.fields e.point {}
  let old := f.seen && decide (tickNs s > f.at_ + getF s HOST_CFG_NMEA_TMO * 100000000)
  let raw := if e.raw = 8 then bits f.raw e.bitOfs 1 else f.raw
  { cause := if !f.seen then 4 else if !f.ok || old then 6 else 0, late := false, isFresh := f.seen && f.ok && !old,
    wire := false, dev := false, raw := raw, stamp := f.at_ + 1 }

/-- A field that feeds channel `n` has just become older than NMEA_TMO. -/
def hostStale (s : State) (n : Nat) (e : ChEntry) : Bool :=
  let f := mget s.host.fields e.point {}
  f.seen && f.ok && (hostSrc s e).cause == 6 && bitOf (getChan s n).inSt 0

end Sys2Proof.Machine
end

