-- ==== Sys2Proof/Machine/Timeline.lean ====
section
/-!
DEFINITION. The instants of the master timeline: input close, release, output deadline, fast buffer close and fast launch
(R20 to R31, R116, R118 to R120, R150, R155, R159).
-/

namespace Sys2Proof.Machine

open R

/-! ## Actions carried out once -/

/-- Action `n` of the timeline has not been carried out at this TICK edge. -/
def undone (s : State) (n : Nat) : Bool := mget s.done n 0 != s.ticks + 1

/-- Action `n` is carried out, if it has not been at this TICK edge. -/
def carry (s : State) (n : Nat) (f : State → State) : State :=
  if undone s n then f { s with done := mput 0 s.done n (s.ticks + 1) } else s

/-- The edge is that of t_j − t_fg of a port with a fast lane: fast buffer close, and fast OUT launch of the sub-cycle
before. -/
def atFast (s : State) (p : Nat) : Bool :=
  decide (p < nPort s) && inRun s .lnkPort p && decide (2 ≤ nFast s p) && reaches s (period s 0 / nFast s p) 4000

/-! ## Input close (R22, R150, R152, R159) -/

/-- The classes of 0 to 2 whose cycle starts at an instant. -/
def classesAt (s : State) (t : Nat) : List Nat := [0, 1, 2].filter (fun c => t % period s c == 0)

/-- The source of an input at the input close that precedes cycle start `t0`. -/
def inSource (s : State) (c : Chan) (e : ChEntry) (t0 : Nat) : InSrc :=
  if e.src = 1 then
    let v := getSta s e.point
    if e.fast then stationSrc s e c.seen v.finData v.ffresh (stState s e.point == 3)
    else stationSrc s e (c.seen || v.rcv) v.inData v.fresh (stState s e.point == 3)
  else if e.src = 2 then localSrc s e (t0 - s.tl.tSl)
  else hostSrc s e

/-- An input of class `cls` enters its IN image at an input close, by the row of Table CHN-8 that applies there; for a fast
input the source is what the latest fast buffer close brought (R155, R159, R161, R164, R165). The class's task gets it where it
is not running late (R24, R118). -/
def closeChan (t0 cls : Nat) (s : State) (n : Nat) : State :=
  let c := getChan s n
  let e := c.latched
  if !e.used || e.isOut || e.cls != cls then s
  else
    let s := if e.src = 3 ∧ hostStale s n e then latch (unitErr s .host 0 0x101C) .host 0 8 else s
    let (v, st, c1) := inputRow c e (inSource s c e t0) (forced s n) (simVal s n) (e.src == 1 && simulated s e.point)
      (if e.fast then 0 else 1)
    let c2 := putIn c1 v st
    let late := (getTask s (cls + 2)).live
    setChan s n (if late then c2 else { c2 with tkVal := v, tkSt := st })

/-- The IN buffer of the latest input close becomes the buffer of the class's task at its release: that of a task that was
still running at the close and has ended since (R24, R118, R155; DESIGN CHOICE, log entry 113). -/
def handBuffers (s : State) (cls : Nat) : State :=
  { s with chn := { s.chn with chans := s.chn.chans.map (fun x =>
      (x.1, if x.2.latched.used ∧ !x.2.latched.isOut ∧ x.2.latched.cls = cls then
              { x.2 with tkVal := x.2.inVal, tkSt := x.2.inSt } else x.2)) } }

/-- The boundary of class `cls`: re-read entries are latched (R150). -/
def latchClass (cls : Nat) (s : State) (n : Nat) : State :=
  let c := getChan s n
  if (if c.latched.used then c.latched.cls else c.cached.cls) = cls then entryLatch s n else s

/-- The samples of declared statistics at an input close: IN values that are VALID, and the stations of a port without a
valid IN frame (Table REC-5). -/
def closeStats (s : State) (cs : List Nat) : State :=
  forEach (List.range 64) s (fun s i =>
    if !getB s REC_S_SRC_EN 0 i then s
    else
      let id := getF s REC_S_SRC_ID 0 i
      if getF s REC_S_SRC_KIND 0 i = 0 then
        let c := getChan s id
        if c.latched.used ∧ !c.latched.isOut ∧ cs.contains c.latched.cls ∧ bitOf c.inSt 0 then
          statSample s 0 id (tyF64 c.latched.img c.inVal)
        else s
      else if getF s REC_S_SRC_KIND 0 i = 4 ∧ id < nPort s then
        let n := ((posList s id).filter (fun q => (getSta s (4 * id + q)).got.isNone)).length
        statSample s 4 id (f64i n)
      else s)

/-- The input close that precedes the next C0 cycle start, for every class whose cycle starts there: station states,
safety inputs, IN images, entries latched, ownership epochs compared (R22, R30, R368). -/
def inputClose (s : State) : State :=
  let t0 := nextStart s 0
  let cs := classesAt s t0
  let s1 := forEach (List.range (nPort s)) s evalPort
  let s2 := if t0 % period s1 3 = 0 then safInputClose s1 t0 else s1
  let ns := chanList s2
  let s3 := forEach cs s2 (fun s c => forEach ns s (closeChan t0 c))
  let s4 := forEach cs s3 (fun s c => forEach ns s (latchClass c))
  let s5 := closeStats s4 cs
  let s6 := forEach (List.range (nAxis s5)) s5 axStationCheck
  let s7 := { s6 with lnk := { s6.lnk with stas := s6.lnk.stas.map (fun x => (x.1, { x.2 with got := none })) } }
  if pairOn s7 ∧ role s7 = 1 ∧ getF s7 LNK_EPOCH_MAX_EPOCH > roleEpoch s7 then
    demote (setEpoch s7 (getF s7 LNK_EPOCH_MAX_EPOCH))
  else s7

/-! ## Output deadline (R23, R118 to R120, R157) -/

/-- A class that has been in FAULT since before this output deadline shows its substitutes from now on (R119). -/
def darken (s : State) (cls : Nat) : State :=
  if inClassFault s cls then { s with tsk := { s.tsk with closed := mput 0 s.tsk.closed cls 0 } } else s

/-- True when the task of a class has overrun: it still runs, or it faulted, at its output deadline. -/
def overran (s : State) (cls : Nat) : Bool :=
  let q := getTask s (cls + 2)
  s.tsk.ph == .running && (q.live || q.faulted) && !inClassFault s cls

/-- Policy of a class: true for FAULT. -/
def polFault (s : State) (cls : Nat) : Bool :=
  getB s (if cls = 0 then TSK_OVR_POL_C0 else if cls = 1 then TSK_OVR_POL_C1 else TSK_OVR_POL_C2)

/-- SKIP_MAX of a class. -/
def skipMax (s : State) (cls : Nat) : Nat :=
  getF s (if cls = 0 then TSK_OVR_SKIPMAX_C0 else if cls = 1 then TSK_OVR_SKIPMAX_C1 else TSK_OVR_SKIPMAX_C2)

/-- An overrun is counted; under SKIP the task runs on and is shown as late. -/
def overrunCount (s : State) (cls : Nat) : State :=
  let t := cls + 2
  let q := getTask s t
  let s1 := incF (setTask s t { q with faulted := false }) TSK_T_SKIPS_OVERRUNS 0 t
  skipLevel (if q.live && !polFault s cls then setF s1 TSK_T_STAT_SKIPPING 1 0 t else s1)

/-- After the launches the class enters FAULT: with OVERRUN under policy FAULT, with SKIP_LIMIT when the next release would
be one dropped release too many. -/
def overrunEnd (s : State) (cls : Nat) : State :=
  let t := cls + 2
  if polFault s cls then classFault s cls 0x0312
  else if (getTask s t).live ∧ getF s TSK_T_STAT_SKIPRUN 0 t + 1 > skipMax s cls then classFault s cls 0x0313
  else s

/-- The samples of declared statistics at an output deadline: OUT values (Table REC-5). -/
def outStats (s : State) (cs : List Nat) : State :=
  forEach (List.range 64) s (fun s i =>
    if getB s REC_S_SRC_EN 0 i && getF s REC_S_SRC_KIND 0 i == 1 then
      let id := getF s REC_S_SRC_ID 0 i
      let c := getChan s id
      if c.latched.used ∧ c.latched.isOut ∧ cs.contains c.latched.cls then
        statSample s 1 id (tyF64 c.latched.img (slotVal c c.latched))
      else s
    else s)

/-- The fast OUT launch of a port, where it is due at this edge: at equal launch instants the FOUT frame goes first (R181). -/
def fastLaunch (s : State) (p : Nat) : State := if atFast s p then carry s (32 + p) (fun s => launchFast s p) else s

/-- The output deadline that precedes the next C0 cycle start, for every class whose cycle ends there: the stop of the program
after HALT (R124), overrun decisions, OUT launches, local outputs taken, snapshots and heartbeat (R22, R23, R30). After a
takeover the first launch is that of the C0 cycle in which tasks run again (step T7 of R363). -/
def outputDeadline (s : State) : State :=
  let t1 := nextStart s 0
  let s := if s.pair.hush = 1 then { s with pair := { s.pair with hush := 0 } } else s
  let s := if s.tsk.haltPend then programHalt s else s
  let cs := classesAt s t1
  let isS := t1 % period s 3 == 0
  let late := cs.filter (overran s)
  let s1 := forEach late (forEach cs s darken) overrunCount
  let s2 := if isS then safDeadline s1 t1 else s1
  let s3 := forEach (List.range (nPort s2)) (forEach cs s2 classDue) (fun s p => launchPort (fastLaunch s p) p isS)
  let s4 := wdTrigger (if s3.pair.hush = 0 then forEach cs s3 lioTake else s3)
  let s5 := forEach late (outStats s4 cs) overrunEnd
  let s6 := if cs.contains 1 then hostDeadline s5 else s5
  pairDeadline s6 (cs.contains 1) (t1 % 1000000000 == 0)

/-! ## Release (R22, R116, R118) -/

/-- The release of class `cls`: dropped while its task runs on under SKIP (R118). -/
def classRelease (s : State) (cls : Nat) : State :=
  let t := cls + 2
  if inClassFault s cls ∨ !hasTask s t then s
  else if (getTask s t).live then
    setF (incF s TSK_T_SKIPS_SKIPS 0 t) TSK_T_STAT_SKIPRUN (sat 255 (getF s TSK_T_STAT_SKIPRUN 0 t + 1)) 0 t
  else releaseTask (setF (handBuffers s cls) TSK_T_STAT_SKIPRUN 0 0 t) t

/-- T6 of a takeover: at the first C0 cycle start the cyclic tasks are released again; held events enter their queues,
and the pins are a profile request where they differ (R364, R461, R480). -/
def resumeTasks (s : State) : State :=
  let s1 := heldRelease { s with tsk := { s.tsk with rel := true }, pair := { s.pair with hush := min s.pair.hush 1 } }
  let pins := getF s1 TSK_PROF_PINS
  if !getB s1 TSK_PROF_SRCSEL && s1.tsk.profReq.isNone && pins != getF s1 TSK_PROF_ACT then
    { s1 with tsk := { s1.tsk with profReq := some pins } }
  else s1

/-- The cycle start of C0, and of every class whose cycle starts with it: ERROR, then C0, C1 and C2 (R30). No release falls
in the part of the timeline that a step skipped or repeated; those of a cycle that starts with a migration wait for its end
(R135, R383), and a module that abdicates releases none (R362). -/
def cycleRelease (s : State) : State :=
  let t0 := lastStart s 0
  let s := { s with tsk := { s.tsk with migPend := false } }
  if s.tsk.ph ≠ .running ∨ !owns s ∨ s.pair.abdAt.isSome ∨ t0 ≤ s.time.skipTo ∧ s.time.skipTo ≠ 0 then s
  else if now s < s.tsk.migTo then { s with tsk := { s.tsk with migPend := true } }
  else
    let s0 := if s.tsk.rel then s else resumeTasks s
    scheduleAll (forEach (classesAt s0 t0) (releaseError s0) classRelease)

/-! ## Fast lane (R22, R155) -/

/-- A fast input of port `p` enters the fast buffer at a fast buffer close; `inc`: the close is that of sub-cycle 0. -/
def fastChan (p inc : Nat) (s : State) (n : Nat) : State :=
  let c := getChan s n
  let e := c.latched
  if !e.used || e.isOut || !e.fast || e.src != 1 || e.point / 4 != p then s
  else
    let v := getSta s e.point
    let src := stationSrc s e c.seen v.finData v.fgot.isSome (stState s e.point == 3)
    let (x, st, c1) := inputRow c e src (forced s n) (simVal s n) (simulated s e.point) inc
    setChan s n { c1 with finVal := x, finSt := st }

/-- The fast buffer of port `p` is closed. -/
def fastClose (s : State) (p : Nat) : State :=
  let tf := period s 0 / nFast s p
  let inc := if ceilDiv (now s) tf * tf % period s 0 = 0 then 1 else 0
  let s1 := forEach (posList s p) s (fun s q =>
    let v := getSta s (4 * p + q)
    setSta s (4 * p + q) { v with finData := v.fgot.getD v.finData, ffresh := v.fgot.isSome })
  let s2 := forEach (chanList s1) s1 (fastChan p inc)
  forEach (posList s2 p) s2 (fun s q => setSta s (4 * p + q) { getSta s (4 * p + q) with fgot := none })

end Sys2Proof.Machine
end

