-- ==== Sys2Proof/Machine/Power.lean ====
section
/-!
DEFINITION. Module reset and start-up, feeds and the power-fail sequence, temperature, clocks, SYS.CMD, idle states
(R223, R426, R434, R441 to R456).
-/

namespace Sys2Proof.Machine

open R

/-! ## Module reset (R454) -/

/-- Registers that a module reset keeps: identity, feeds, temperatures, and the present key code. -/
def keptAddr (a : Nat) : Bool :=
  a == SYS_ORDER_VARIANT.addr 0 0 || a == SYS_SERIAL_SERIAL.addr 0 0 || a == PWR_FEED_VA.addr 0 0 ||
  (List.range 4).any (fun k => a == PWR_TEMP_T.addr 0 k || a == HOST_Pn_MAC_LO_MAC.addr 0 k || a == HOST_Pn_MAC_HI_MAC.addr 0 k) ||
  (List.range 64).any (fun p => a == LNK_P_MAC_LO_MAC.addr p 0 || a == LNK_P_MAC_HI_MAC.addr p 0)

/-- A firmware image of the two. -/
def fwImg (s : State) (b : Bool) : FwImg := if b then s.mram.fwB else s.mram.fwA

/-- A firmware image replaced. -/
def setFw (s : State) (b : Bool) (f : FwImg) : State :=
  { s with mram := if b then { s.mram with fwB := f } else { s.mram with fwA := f } }

/-- SYS.FW from the marks in MRAM. -/
def fwShow (s : State) : State :=
  let m := s.mram
  let r := fwImg s m.fwRun
  let s1 := setF (setB (setB s SYS_FW_RUNNING m.fwRun) SYS_FW_TRIAL r.trial) SYS_FW_VALID (b2n m.fwA.ok + 2 * b2n m.fwB.ok)
  setF (setB (setF s1 SYS_FW_FAILED (b2n m.fwA.failed + 2 * b2n m.fwB.failed)) SYS_FW_PREF m.fwPref) SYS_FW_VERSION r.version

/-- Every unit at reset; MRAM, NOR, profiles, identity and the waiting commands stay. A firmware image on trial whose
start-up had not reached S8 is marked FAILED. The cause is latched and counted. -/
def resetUnits (s : State) (cause : Nat) : State :=
  let out := decide (getF s SYS_BOOT_STEP < 8) && decide (getF s SYS_BOOT_STEP > 0) && (fwImg s s.mram.fwRun).trial
  let s0 := if out then setFw s s.mram.fwRun { fwImg s s.mram.fwRun with trial := false, failed := true } else s
  let m := { s0.mram with rstCause := cause, rstCount := if cause = 0 then 0 else sat 65535 (s0.mram.rstCount + 1) }
  let s1 : State :=
    { pending := s.pending, free := s.free, regs := s.regs.filter (fun w => keptAddr w.1), mram := m,
      tsk := { profiles := s.tsk.profiles, pinVal := s.tsk.pinVal }, pwr := { inRst := true, hot := cause == 2, trialOut := out } }
  let s2 := setB (setF (setF (setF s1 PAIR_ROLE_SIDE (getF s PAIR_ROLE_SIDE)) PAIR_ILK_STRAP (getF s PAIR_ILK_STRAP)) TSK_KEY_RAW
    (getF s TSK_KEY_RAW)) PWR_FEED_PFW false
  setF (setF s2 SYS_RSTCAUSE_CAUSE cause) SYS_RSTCAUSE_COUNT m.rstCount

/-! ## Start-up (Table PWR-3) -/

/-- A step of the start-up is reached; its time since S0 depends on durations the spec only bounds. -/
def bootStep (s : State) (n : Nat) : State :=
  let (ms, s1) := fresh 24 s
  setF (setF s1 SYS_BOOT_STEP n) SYS_BOOT_MS (if n = 0 then 0 else ms)

/-- S0: hold-up measured (R445), and the time counter starts at 0 (R378). -/
def bootS0 (s : State) : State :=
  let (h, s1) := fresh 16 (bootStep { s with sec := 0, ns := 0, frac := 0 } 0)
  let ok := decide (h ≥ 200)
  let s2 := setB (setF { s1 with pwr := { s1.pwr with inRst := false, hot := false, holdup := h } } PWR_HOLDUP_TIME h) PWR_HOLDUP_FLAG ok
  if ok then s2 else level (unitErr s2 .pwr 0 0x0212) .pwr 0 3 true

/-- S1: the firmware image that runs: it verifies under R414 and is not FAILED (R451); none where neither qualifies. An image
that the reset took out of its trial is FW_TRIAL_FAILED. -/
def bootS1 (s : State) : State × Bool :=
  let s1 := bootStep s 1
  let good (b : Bool) : Bool := (fwImg s1 b).ok && sigOk s1 (fwImg s1 b).sig 2 && !(fwImg s1 b).failed
  let p := s1.mram.fwPref
  let s2 := if s1.pwr.trialOut then unitErr { s1 with pwr := { s1.pwr with trialOut := false } } .sys 0 0x0111 else s1
  if good p then (fwShow { s2 with mram := { s2.mram with fwRun := p } }, true)
  else if good !p then
    (fwShow (latch (unitErr { s2 with mram := { s2.mram with fwRun := !p } } .sys 0 0x0110) .sys 0 1), true)
  else (fwShow s2, false)

/-- S2: power-cycle count, recorder scan, the records of the reset and of a power failure, the panel. -/
def bootS2 (s : State) : State :=
  let m := s.mram
  let s1 := recScan { bootStep s 2 with mram := { m with pcc := (m.pcc + 1) % 2 ^ 24 } }
  let s2 := recCond s1 0x011B m.rstCause 0 []
  let s3 := if m.rstCause = 3 then unitErr s2 .sys 0 0x0115 else if m.rstCause = 4 then unitErr s2 .sys 0 0x0114 else s2
  let s4 := if m.rstCause = 1 ∨ m.rstCause = 2 then recCond s3 0x0211 0 0 (leBytes 4 m.lastpf) else s3
  let s5 := if m.pfInc then latch (unitErr { s4 with mram := { s4.mram with pfInc := false } } .pwr 0 0x0213) .pwr 0 32 else s4
  let s6 := setF (setB (setF s5 PWR_LASTPF_TIME (m.lastpf % 65536)) PWR_LASTPF_FLAG (bitOf m.lastpf 16)) PWR_LASTPF_ABD (bits m.lastpf 17 1)
  pnlPowerOn s6

/-- S4: the slots as NOR holds them, where they verify; the active one under R452. -/
def bootS4 (s : State) : State :=
  let ok (p : Slot) : Bool := p.gen != 0 && p.variant == getF s SYS_ORDER_VARIANT && signed s p
  let ld (p : Slot) : Slot := if ok p then p else {}
  let s1 := { bootStep s 4 with tsk := { s.tsk with slotA := ld s.mram.norA, slotB := ld s.mram.norB } }
  let b := s1.mram.slotB
  let s2 := setB s1 TSK_SLOT_ACTIVE b
  if ok (actSlot s2) then s2
  else if ok (idleSlot s2) then
    latch (unitErr (setB { s2 with pwr := { s2.pwr with progFb := true }, mram := { s2.mram with slotB := !b } } TSK_SLOT_ACTIVE !b)
      .sys 0 0x0113) .sys 0 2
  else unitErr s2 .sys 0 0x0118

/-- Units that the start-up takes to RUN with their configuration before TIME. -/
def bootUnits : List Blk := [.sys, .pwr, .tsk, .lnk, .loop, .prof, .vax, .bsn, .can, .host, .rcd, .pnl, .trc]

/-- Every shape of the store takes the configuration's table where it gives one (R314). -/
def shapesLoad (s : State) (p : Slot) : State :=
  (p.cfgRegs.filter (fun w => decide (0x40581000 ≤ w.1) && decide (w.1 < 0x40582000))).foldl (fun s w => setWordAt s w.1 w.2) s

/-- S5: configuration, the profile in force, force table and simulation bitmap; every copy with a configuration is in
CONFIG. A paired module is never SOLO: it is HALTED until PAIR runs (R347, Table PAIR-3). -/
def bootS5 (s : State) : State :=
  let p := actSlot s
  let m := s.mram
  let s1 := cfgMemSet (shapesLoad (p.cfgRegs.foldl cfgApply (bootStep s 5)) p) p.cfgMem
  let prof := getProfile s1 m.profAct
  let s2 := if prof.stored then profWrite s1 prof ((mkeys s1.regs ++ mkeys prof.sets).filterMap profOwner).dedup else s1
  let s3 := setF (setEpoch { s2 with tl := p.tl, host := { s2.host with cfg := p.host }, saf := { s2.saf with img := p.simg, loaded := some p.simg } } m.epoch)
    TSK_PROF_ACT m.profAct |> fun s => setF s SAF_SIMG_ID_ID p.simg.id
  let n := ((List.range 17).filter (fun i => bitOf m.convRet i)).length
  let s4 := applyForces (convAssign (setF (setF s3 LIO_CONV_RET_RET m.convRet) LIO_ROT_STAT_RETIRED n)) m.forces m.sims
  let cfg := allBlocks.flatMap (fun b => ((allCopies s4 b).filter (fun i => hasCfg s4 b i)).map (fun i => (b, i)))
  let s5 := forEach cfg s4 (fun s o => setSt s o.1 o.2 stCONFIG)
  let s6 := if getB s5 PAIR_CFG_PAIRED then setF s5 PAIR_ROLE_ROLE 4 else s5
  { s6 with opAt := s6.ticks }

/-- A conflict of the resource assignment among the configurations of S5: (kind, number, unit byte) as in SYS.RA_REF
(R458). -/
def bootConflict (s : State) : Option (Nat × Nat × Nat) :=
  let s1 := { s with saf := { s.saf with img := s.saf.loaded.getD {} } }
  let axes := (List.range (nAxis s)).filter (fun a => stOf s .vaxAx a == stCONFIG)
  let twice := axes.find? (fun a => axes.any (fun b => decide (b < a) && getF s VAX_A_CFG_PG b == getF s VAX_A_CFG_PG a))
  match doConflict s1 true, twice, (List.range (nPort s)).findSome? (fun p => (safAddrConflict s true p).map (fun q => 4 * p + q)) with
  | some n, _, _ => some (0, n, 7)
  | none, some a, _ => some (2, getF s VAX_A_CFG_PG a, 0x0B)
  | none, none, some i => some (3, i, 6)
  | none, none, none => none

/-- The configuration of S5 sets a reserved bit of SYS.RA_TIO (Table CMB-5, log entry 122). -/
def tioReserved (s : State) : Bool := (actSlot s).cfgRegs.any (fun w => w.1 == 0x40000060 && decide (16 ≤ w.2))

/-- S7: ports, CHN, CAN, LIO and SAF to RUN; SOLO, or the listen window. A SOLO module goes on to S8 at once. -/
def bootS7 (s : State) : State :=
  let s0 := bootStep { s with pwr := { s.pwr with waitS6 := none } } 7
  let go (s : State) (b : Blk) : State := forEach ((allCopies s b).filter (fun i => stOf s b i == stCONFIG)) s (fun s i => toRun s b i)
  let s1 := go (toRun (go s0 .lnkPort) .chn 0) .canCh
  let s2 := go (go s1 .lio) .saf
  let s3 := toRun s2 .pair 0
  if getB s3 PAIR_ROLE_LISTEN then s3 else reachS8 s3

/-- S6: TIME to RUN, its outputs at their idle levels (R393), and the wait for LOCKED. -/
def bootS6 (s : State) : State :=
  let s0 := toRun (bootStep s 6) .time 0
  let s1 := forEach (List.range 4) s0 (fun s n => setF s TIME_TP_STAT_LEVEL (getF s TIME_TP_CFG_IDLE_LVL 0 n) 0 n)
  if getF s1 TIME_HOLD_CFG_SYNC_WAIT = 0 ∨ servo s1 = 2 then bootS7 s1
  else { s1 with pwr := { s1.pwr with waitS6 := some (tickNs s1) } }

/-- The start-up sequence from S0. It needs a good feed, and after TEMP a cool junction; it stops at S1 without firmware,
at S3 with SELFTEST_FAIL, which is a free outcome, and at S5 with a conflict of the resource assignment (R458). -/
def startUp (s : State) : State :=
  if s.pwr.hot ∨ !(getB s PWR_FEED_A_OK || getB s PWR_FEED_B_OK) then s
  else
    match bootS1 (bootS0 s) with
    | (s1, false) => s1
    | (s1, true) =>
      let (fail, s2) := pick (bootStep (bootS2 s1) 3)
      if fail then unitErr (setSt s2 .sys 0 stFAULT) .sys 0 0x0112
      else
        let s4 := bootS5 (bootS4 s2)
        let s3 := if tioReserved s4 then unitErr s4 .sys 0 0x011A else s4
        match bootConflict s3 with
        | some (k, n, u) => unitErr (setSt (raRef s3 k n u) .sys 0 stFAULT) .sys 0 0x0119
        | none => bootS6 (forEach bootUnits s3 (fun s b => toRun s b 0))

/-- A module reset with its cause, and the start-up. -/
def moduleReset (s : State) (cause : Nat) : State := startUp (resetUnits s cause)

/-- MODULE_RESET with a cause of Table PWR-4. -/
def execModuleReset (cause : Nat) (s : State) : Res := .next (if cause ≤ 5 then moduleReset s cause else s)

/-- The firmware watchdog resets the module (R455). -/
def execFwWdog (s : State) : Res := .next (if s.pwr.inRst then s else moduleReset s 3)

/-- PLL-A (0) or PLL-B (1) loses lock; a loss of PLL-B is first an engine trip CLOCK (R456). -/
def execPllLoss (p : Nat) (s : State) : Res :=
  if s.pwr.inRst ∨ p > 1 then .next s
  else .next (moduleReset (if p = 1 then engineTrip s 0x16 0 else s) 4)

/-- The SerDes PLL loses lock: the SYNC link goes down (R456). -/
def execSerdesPllLoss (s : State) : Res :=
  .next (syncLost (latch (incF (setB s SYS_PLL_SD_LOCK false) SYS_PLL_SD_LOSS) .sys 0 4))

/-- S6 has waited for SYNC_WAIT, or TIME is LOCKED: S7 follows. -/
def execSyncWaitExpiry (s : State) : Res :=
  match s.pwr.waitS6 with
  | none => .next s
  | some t =>
    .next (if servo s = 2 ∨ tickNs s ≥ t + getF s TIME_HOLD_CFG_SYNC_WAIT * 1000000000 then bootS7 s else s)

/-! ## SYS.CMD -/

/-- A system command: from management only, with the key switch in HALT. -/
def sysCmd (s : State) (mg : Bool) (op : Nat) (f : State → State) : State :=
  let res (s : State) (c : Nat) : State := setF (setF s SYS_CMD_RES_CODE c) SYS_CMD_RES_OP op
  if !mg then res s 0x0117
  else if keyPos s ≠ 2 then res s 0x0116
  else f (latch (res s 0x0100) .sys 0 8)

/-- SYS.CMD MODULE_RESET. -/
def execSysModuleReset (mg : Bool) (s : State) : Res := .next (sysCmd s mg 1 (fun s => moduleReset s 5))

/-- SYS.CMD CONV_CLEAR: the converter retirements are cleared (R223). -/
def execConvClear (mg : Bool) (s : State) : Res :=
  .next (sysCmd s mg 2 (fun s =>
    let s1 := setF (setF { s with mram := { s.mram with convRet := 0 } } LIO_CONV_RET_RET 0) LIO_ROT_STAT_RETIRED 0
    let s2 := forEach (List.range 16) s1 (fun s k => setAi s k { getAi s k with dead := false })
    setF s2 LIO_ROT_STAT_SPARE (spareFree s2)))

/-- SYS.CMD FW_SELECT A. -/
def execFwSelectA (mg : Bool) (s : State) : Res :=
  .next (sysCmd s mg 3 (fun s => fwShow { s with mram := { s.mram with fwPref := false } }))

/-- SYS.CMD FW_SELECT B. -/
def execFwSelectB (mg : Bool) (s : State) : Res :=
  .next (sysCmd s mg 4 (fun s => fwShow { s with mram := { s.mram with fwPref := true } }))

/-- SYS.CMD FW_CLEAR: both FAILED marks are cleared. -/
def execFwClear (mg : Bool) (s : State) : Res :=
  .next (sysCmd s mg 5 (fun s =>
    fwShow (setFw (setFw s false { s.mram.fwA with failed := false }) true { s.mram.fwB with failed := false })))

/-! ## Feeds and power failure (R442 to R444) -/

/-- A feed (0 A, 1 B) counts as lost. -/
def feedLost (s : State) (f : Nat) : State :=
  if f = 0 then
    if getB s PWR_FEED_A_OK then level (unitErr (incF (setB s PWR_FEED_A_OK false) PWR_FEEDLOSS_A) .pwr 0 0x0210) .pwr 0 0 true else s
  else if f = 1 then
    if getB s PWR_FEED_B_OK then level (unitErr (incF (setB s PWR_FEED_B_OK false) PWR_FEEDLOSS_B) .pwr 0 0x0210) .pwr 0 1 true else s
  else s

/-- A feed counts as good; a module held in reset for want of one starts. -/
def execFeedGood (f : Nat) (s : State) : Res :=
  let s1 := if f = 0 then level (setB s PWR_FEED_A_OK true) .pwr 0 0 false
            else if f = 1 then level (setB s PWR_FEED_B_OK true) .pwr 0 1 false else s
  .next (if s1.pwr.inRst then startUp s1 else s1)

/-- t_h: fault abdication of an ACTIVE module with a healthy standby, which launches, sends its heartbeat with ABDICATE and its F
at the C0 output deadline and then drops ILK_OUT (R362); else the stop of R124. Answers whether it abdicated. -/
def pfStop (s : State) : State × Bool :=
  if role s = 1 ∧ healthyStandby s then
    (leaveOwner (outputDeadline { s with pair := { s.pair with abd := some 2 } }) (if keyPos s ≥ 2 then 4 else 2) 0x0D1F, true)
  else (if owns s ∧ s.tsk.ph ≠ .none then stopProgram s else s, false)

/-- The sequence of Table PWR-1 to its end, the module reset with a cause. With HOLDUP_LOW the copy may not be complete in
time: a free outcome. -/
def powerFail (s : State) (cause : Nat) : State :=
  if s.pwr.inRst then s
  else
    let s1 := setB { wakeAll s with pwr := { (wakeAll s).pwr with pf := true } } PWR_FEED_PFW true
    let s2 := latch (unitErr s1 .pwr 0 (if cause = 2 then 0x0215 else 0x0211)) .pwr 0 4
    let (s3, abd) := pfStop s2
    let (late, s4) := if s3.pwr.holdup < 200 then pick s3 else (false, s3)
    let s5 := if late then { s4 with mram := { s4.mram with pfInc := true } } else finalCopy s4
    let s6 := recFlush 65 (pnlPowerfail s5)
    let (t, s7) := fresh 16 s6
    let w := min t 160 + b2n (!late) * 2 ^ 16 + b2n abd * 2 ^ 17
    moduleReset { s7 with mram := { s7.mram with lastpf := w } } cause

/-- A feed is good. -/
def fed (s : State) : Bool := getB s PWR_FEED_A_OK || getB s PWR_FEED_B_OK

/-- FEED_LOST. The instant at which both feeds count as lost is t_pf (R442). -/
def execFeedLost (f : Nat) (s : State) : Res :=
  let s1 := feedLost s f
  .next (if fed s && !fed s1 then powerFail s1 1 else s1)

/-- Both feeds are lost: the power-fail sequence, which runs to the end. -/
def execPowerfail (s : State) : Res := .next (powerFail (feedLost (feedLost s 0) 1) 1)

/-! ## Temperature (R446) -/

/-- The junction has been at a temperature (0.1 °C) of 140 °C or more for 1 s. -/
def execTempHigh (t : Nat) (s : State) : Res :=
  if sint 16 t < 1400 then .next s
  else .next (latch (unitErr (setF s PWR_TEMP_T t 0 0) .pwr 0 0x0214) .pwr 0 16)

/-- The junction is at 150 °C or more: the power-fail sequence with cause TEMP. -/
def execTempTrip (t : Nat) (s : State) : Res :=
  if sint 16 t < 1500 then .next s else .next (powerFail (setF s PWR_TEMP_T t 0 0) 2)

/-- Sensor 0 reads below 125 °C: a module held in reset after TEMP starts. -/
def execJunctionCooled (t : Nat) (s : State) : Res :=
  if sint 16 t ≥ 1250 then .next s
  else
    let s1 := setF s PWR_TEMP_T t 0 0
    .next (if s1.pwr.inRst ∧ s1.pwr.hot then startUp { s1 with pwr := { s1.pwr with hot := false } } else s1)

/-! ## Idle states (R447 to R449) -/

/-- Units of PWR.IDLE by bit position: LC0 to LC5, LOOP, PROF, VAX, BSN, TRC. -/
def idleState (s : State) (u : Nat) : Nat := bits (regW s PWR_IDLE_LC 0 0) (2 * u) 2
/-- The state of a unit of PWR.IDLE, set. -/
def setIdle (s : State) (u v : Nat) : State := setRegW s PWR_IDLE_LC 0 0 (setBits (regW s PWR_IDLE_LC 0 0) (2 * u) 2 v)

/-- A unit has no work in hand (R447). -/
def unitIdle (s : State) (u : Nat) : Bool :=
  if u < 6 then
    (getCore s u).run.isNone && (getCore s u).mode == .ready && (bestReady s u).isNone &&
    s.tsk.segs.all (fun p => segCore s p.1 != u || p.2.ph == .idle || p.2.ph == .ended)
  else if u = 6 then (getEngq s 0).isEmpty && s.loops.all (fun l => l.2.smp.isNone)
  else if u = 7 then (getEngq s 1).isEmpty && s.gens.all (fun g => g.2.wait.isEmpty)
  else if u = 8 then (getEngq s 2).isEmpty
  else if u = 9 then (getEngq s 3).isEmpty && s.bsn.qps.all (fun q => q.2.run.isNone)
  else s.trc.pend.isEmpty

/-- The first instant k × `t` − `o` after now. -/
def nextMult (s : State) (t o : Nat) : List Nat := if t = 0 then [] else [((now s + o) / t + 1) * t - o]

/-- The known events of a unit (Table PWR-2). -/
def knownEvents (s : State) (u : Nat) : List Nat :=
  if !owns s then []
  else
    let f := if u ≥ 6 ∧ u ≤ 9 ∧ role s = 1 then nextMult s (period s 0) s.tl.tGuard else []
    if u < 6 then
      let on (t : Nat) : Bool := hasTask s t && (segsOf s t).any (fun k => segCore s k == u)
      (if s.tsk.ph != .running then [] else
        [2, 3, 4].flatMap (fun t => if on t then nextMult s (period s (t - 2)) 0 else []) ++ (if on 5 then nextMult s (period s 0) 0 else [])) ++
      (if on 7 then s.time.alarms.filterMap (fun a => a.2.map Prod.fst) else [])
    else if u = 6 ∨ u = 10 then
      ((List.range 256).filter (fun c => inRun s .loopCtx c)).flatMap (fun c => nextMult s (loopTl s c) 1000) ++ f
    else if u = 7 then
      ((List.range 128).filter (fun g => inRun s .profCh g)).flatMap (fun g => nextMult s (profTp s g) 1000) ++ f
    else if u = 8 then
      ((List.range (nAxis s)).filter (fun a => inRun s .vaxAx a && axSt s a != 0)).flatMap (fun a =>
        nextMult s (axisPeriod s a) ((if axisFast s a then 4000 else s.tl.tGuard) + 2000)) ++ f
    else
      s.bsn.qps.flatMap (fun q => (q.2.wait.toList ++ q.2.run.toList).map (fun v => v.d - 4000)) ++ f

/-- Entry time of an idle state in ns. -/
def idleIn (st : Nat) : Nat := if st = 3 then 10000 else 0
/-- Exit time of an idle state in ns. -/
def idleOut (st : Nat) : Nat := if st = 3 then 25000 else if st = 2 then 1000 else 20

/-- The deepest state that R448 permits now, 0 if none. -/
def idleChoice (s : State) (u : Nat) : Nat :=
  let fits (st : Nat) : Bool :=
    (getB s PWR_POLICY_MODE || st == 1) && decide (idleIn st + idleOut st ≤ getF s PWR_POLICY_RESP * 1000) &&
    (knownEvents s u).all (fun t => decide (now s + idleIn st + idleOut st + 2000 ≤ t))
  if fits 3 then 3 else if fits 2 then 2 else if fits 1 then 1 else 0

/-- A unit that has become idle enters the deepest permitted state; none does in the power-fail sequence or before S8 has
acted. -/
def execIdleEntry (u : Nat) (s : State) : Res :=
  if u > 10 ∨ idleState s u ≠ 0 ∨ !unitIdle s u ∨ s.pwr.pf ∨ getF s SYS_BOOT_STEP < 8 ∨ (s.tsk.ph = .none ∧ role s ≤ 1) then .next s
  else
    let st := idleChoice s u
    if st = 0 then .next s
    else
      let s1 := setIdle s u st
      let s2 := if st = 3 then incF s1 PWR_NAPS_COUNT else s1
      .next { s2 with pwr := { s2.pwr with idleAt := mput 0 s2.pwr.idleAt u (tickNs s + 1) } }

/-- A sleeping unit wakes, once its entry has run to the end. -/
def execIdleExit (u : Nat) (s : State) : Res :=
  if u > 10 ∨ idleState s u = 0 then .next s
  else
    let t := mget s.pwr.idleAt u 0
    if tickNs s + 1 < t + idleIn (idleState s u) then .next s
    else
      let s1 := setIdle s u 0
      .next { s1 with pwr := { s1.pwr with idleAt := mput 0 s1.pwr.idleAt u 0 } }

end Sys2Proof.Machine
end

