-- ==== Sys2Proof/Machine/RegWrite.lean ====
section
/-!
DEFINITION. The unit register space as the program and management access it: what a register reads as, what a read clears,
and what a write does, field by field under the access codes (R3, R12 to R14, R472 to R478), with the key switch for
management (Table TSK-6).
-/

namespace Sys2Proof.Machine

open R

/-- The state a command leaves. -/
def after (f : State → Res) (s : State) : State := match f s with | .next t => t | _ => s

/-! ## Regions of the unit register space -/

/-- The extents of Table MAP-2 as (first address, bytes). -/
def unitExtents : List (Nat × Nat) :=
  [(0x40000000, 0x10000), (0x40010000, 0x10000), (0x40020000, 0x10000), (0x40030000, 0x10000), (0x40100000, 0x20000)] ++
  [(0x40200000, 0x10000), (0x40300000, 0x10000), (0x40400000, 0xE0000), (0x40500000, 0x14000), (0x40580000, 0x14000)] ++
  [(0x40600000, 0x20000), (0x40700000, 0x10000), (0x40800000, 0x10000), (0x40900000, 0x50000), (0x40A00000, 0x10000)] ++
  [(0x40B00000, 0x10000), (0x40C00000, 0x10000), (0x40D00000, 0x10000)]

/-- An address of the unit register space that lies in a block of Table MAP-2 (R473). -/
def inUnits (a : Nat) : Bool := unitExtents.any (fun e => decide (e.1 ≤ a) && decide (a < e.1 + e.2))

/-- The unit of an address, by its extent: writes to one unit complete in order (R77). -/
def unitNo (a : Nat) : Nat := (unitExtents.findIdx? (fun e => decide (e.1 ≤ a) && decide (a < e.1 + e.2))).getD 99

/-- An address in the block of SAF. -/
def isSafReg (a : Nat) : Bool := decide (0x40300000 ≤ a) && decide (a < 0x40310000)

/-! ## Reading -/

/-- UNIT_ID (Table MAP-4). -/
def unitId (b : Blk) (i : Nat) : Nat := b.code + (if b.rep then 256 + 512 * i else 0) + 0x01000000

/-- KEYS of HOST: PRESENT and SAFETY of the identity store. A slot holds 1 + 2 × key + SAFETY. -/
def keysWord (s : State) : Nat :=
  ((List.range 4).map (fun k =>
    let v := mget s.mram.keys k 0
    if v = 0 then 0 else 2 ^ k + (if v % 2 = 0 then 2 ^ (k + 4) else 0))).sum

/-- Minutes since the calibration of the converter of AI `n`, saturating. -/
def calAge (s : State) (n : Nat) : Nat := sat 255 ((now s - (getCv s (getF s LIO_AI_STAT_CONV 0 n)).calAt) / 60000000000)

/-- Tables busy under R281, 32 from `t`. -/
def tblUse (s : State) (t : Nat) : Nat := ((List.range 32).map (fun k => if tableBusy s (t + k) then 2 ^ k else 0)).sum

/-- The groups whose SS1 phase SAF.GPHASE shows: those with DEC_PROG (Table SAF-9; DEDUCED, log entry 125). -/
def progPhase (s : State) : Nat :=
  ((grpList s).map (fun g => match (grpCfg s g).ss1 with | some c => if c.decProg then 2 ^ g else 0 | none => 0)).sum

/-- The word of a register with the fields that the module derives from its state. -/
def viewWord (s : State) (b : Blk) (i o w : Nat) : Nat :=
  match b with
  | .tsk => if o = 0x54 then s.tsk.slotA.gen else if o = 0x58 then s.tsk.slotB.gen else w
  | .lio =>
    if o = 0x4C then setBits w 0 16 (((List.range 16).map (fun n => if doPin s n then 2 ^ n else 0)).sum)
    else if o = 0x74 then setBits w 0 4 (getF s SYS_RA_TIO_DO_TP)
    else if 0x2C0 ≤ o ∧ o < 0x300 then setBits w 24 8 (calAge s ((o - 0x2C0) / 4))
    else w
  | .saf =>
    if o = SAF_GPHASE_SS1.off then setBits w 0 16 (bits w 0 16 &&& progPhase s)
    else if o = SAF_ENG_OUTPATH.off then setBits w SAF_ENG_OUTPATH.lsb 1 (b2n (outPath s)) else w
  | .loop => if o = 0x48 then tblUse s 0 else if o = 0x4C then tblUse s 32 else w
  | .prof => if o = 0x40 then setBits w 0 7 ((getEngq s 1).length) else w
  | .profCh => if o = 0x5C then profStat s i else w
  | .vax => if o = 0x40 then setBits w 0 8 (shapeUse s) else w
  | .bsn => if o = 0x40 then setBits w 0 11 (scratchUsed s) else w
  | .bsnCtx => if o = 0x80 then qStat s i else w
  | .pair => if o = 0x40 then setBits w 8 1 (b2n (outPath s)) else w
  | .trc =>
    if o = 0x40 then setBits w 3 1 (b2n (isTrace s))
    else if 0x1000 ≤ o ∧ o < 0x2000 then winWord s ((o - 0x1000) / 4) else w
  | .rcd =>
    if o = 0x40 then setBits w 16 8 s.recQ.length
    else if o = 0x4C then s.mram.pcc
    else if o = 0x50 then s.mram.opsec
    else if 0x80 ≤ o ∧ o < 0xC0 then recWord s ((o - 0x80) / 4)
    else w
  | .host => if o = 0x58 then keysWord s else w
  | .time => if 0x104 ≤ o ∧ o < 0x140 ∧ o % 16 = 4 then setBits w 7 1 (b2n (!outPath s)) else w
  | _ => w

/-- A read that latches other registers: NOW_SEC_LO and SNAP_CNT1 (R377, R406). -/
def readLatch (s : State) (b : Blk) (o : Nat) : State :=
  if b = .time ∧ o = 0x40 then after execNowSecLoRead s
  else if b = .can ∧ o = 0x40 then after execSnapCnt1Read s
  else s

/-- What a read clears: RC fields, and UNIT_ERR whole, back to the unit byte (R12, R475). -/
def readClear (s : State) (b : Blk) (i o : Nat) : State :=
  if o = 0x0C then setRegW s (hErr b) i 0 ((hErr b).reset 0)
  else (fieldsAt b o).foldl (fun s f => if f.1.acc = .rc then setF s f.1 0 i f.2 else s) s

/-- A register that the variant does not have: that of a block copy beyond the variant's (R2), of the trace on the HX7-P16
(TRC.CFG, LEVEL, POST, TRIGPOS, SPILL_WR, CH_CFG), of the capture on the HX7-P64 (CAP_CFG) (R296). Which registers R296
means is DEDUCED (log entry 96). -/
def absentReg (s : State) (b : Blk) (i o : Nat) : Bool :=
  decide (i ≥ copies s b) ||
  (b == .trc && (if isTrace s then decide (0xC0 ≤ o) && decide (o < 0xD0)
                 else (decide (0x48 ≤ o) && decide (o < 0x54)) || o == 0x58 || o == 0x5C || (decide (0x80 ≤ o) && decide (o < 0xC0))))

/-- A read of the register word at an address, by the program or by management. An offset that no chapter defines, and a
register that the variant does not have, read 0 (R2, R3, R473). -/
def regRead (s : State) (a : Nat) : Nat × State :=
  if isLoopMem a then (rawReg s (a / 4 * 4), s)
  else
    match blkAt a with
    | none => (0, s)
    | some (b, i, o) =>
      if absentReg s b i (o / 4 * 4) then (0, s)
      else if o / 4 = 0 then (unitId b i, s)
      else
        let s0 := readLatch s b (o / 4 * 4)
        (viewWord s0 b i (o / 4 * 4) (wordAt s0 (a / 4 * 4)) % 2 ^ 32, readClear s0 b i (o / 4 * 4))

/-! ## Writing -/

/-- A write of 1s to EVT_LAT (R478): a standing level condition sets its bit again in level mode. -/
def evtLatWrite (s : State) (b : Blk) (i v : Nat) : State :=
  let s1 := setF s (hLat b) (getF s (hLat b) i &&& (0xFFFFFFFF ^^^ (v % 2 ^ 32))) i
  let again := getF s (hDyn b) i &&& v &&& (0xFFFFFFFF ^^^ getF s (hEdge b) i) &&& getF s (hLat b) i
  if again = 0 then s1 else latch s1 b i again

/-- TSK.CMD (Table TSK-17). -/
def tskCmd (s : State) (op arg : Nat) : State :=
  match op with
  | 1 => after execTskRestartWarm s
  | 2 => after execTskRestartCold s
  | 3 => after execTskSwitch s
  | 4 => after execTskCommit s
  | 5 => after execTskRevert s
  | 6 => after (execTskSelect arg) s
  | 7 => after execTskCancel s
  | 8 => after (execTskStore arg) s
  | _ => cmdRes s op 0x031D

/-- SYS.CMD. An operation that the table does not give has no effect. -/
def sysCmdWrite (s : State) (mg : Bool) (op : Nat) : State :=
  match op with
  | 1 => after (execSysModuleReset mg) s
  | 2 => after (execConvClear mg) s
  | 3 => after (execFwSelectA mg) s
  | 4 => after (execFwSelectB mg) s
  | 5 => after (execFwClear mg) s
  | _ => if mg ∧ keyPos s = 2 then s else sysCmd s mg op id

/-- PAIR.CMD. -/
def pairCmd (s : State) (op : Nat) : State :=
  match op with
  | 1 => after execSwitchover s
  | 2 => after execResync s
  | 3 => after execHsMove s
  | _ => pairRes s op 0x0D1C

/-- One field under its access code (R12, R13): `cfg` true while the block copy is in CONFIG. -/
def fieldWrite (cfg : Bool) (i v : Nat) (s : State) (f : Fld × Nat) : State :=
  let x := bits v f.1.lsb f.1.width
  match f.1.acc with
  | .rw => setF s f.1 x i f.2
  | .w1c => setF s f.1 (getF s f.1 i f.2 &&& ((2 ^ f.1.width - 1) ^^^ x)) i f.2
  | .ws => setF s f.1 (getF s f.1 i f.2 ||| x) i f.2
  | .cfg => if cfg then setF s f.1 x i f.2 else s
  | _ => s

/-- OVR flags that clear with their VALID bit. -/
def validClears (s : State) (b : Blk) (o v : Nat) : State :=
  if !bitOf v 31 then s
  else if b = .chn ∧ o = 0x48 then setF s CHN_BAD_ENTRY_OVR 0
  else if b = .sys ∧ o = 0x64 then setF s SYS_RA_REF_OVR 0
  else s

/-- A register word written field by field; CFG fields keep their value outside CONFIG, with CFG_REFUSED when the written
value differs (R13). What reaches an instance that already waits for its boundary comes after the latching (R143). CAN channels and
timed outputs follow the output path, which is that of an unpaired module as soon as PAIRED is 0 (R347, R355). -/
def plainWrite (s : State) (b : Blk) (i o v : Nat) : State :=
  let fs := fieldsAt b o
  let cfg := stOf s b i == stCONFIG
  let late := cfg && getB s (hBusy b) i && fs.any (fun f => f.1.acc == .cfg)
  let refused := !cfg && fs.any (fun f => f.1.acc == .cfg && getF s f.1 i f.2 != bits v f.1.lsb f.1.width)
  let s0 := if late then keepLate s (b.base + b.step * i + o) v else s
  let s1 := validClears (fs.foldl (fieldWrite (cfg && !late) i v) s0) b o v
  let s1 := if b = .pair then pathFollow (outPath s) s1 else s1
  if refused then unitErr s1 b i (b.code * 256 + 1) else s1

/-- A write to a register of the channel unit with a meaning of its own; none for the others (R149, R163, R165). -/
def chnWrite (s : State) (mg : Bool) (o v : Nat) : Option State :=
  if o = 0x40 then some (after (execChnInv v) s)
  else if (o = 0x50 ∨ o = 0x54 ∨ o = 0x58 ∨ o = 0x5C) ∧ !mg then some (unitErr s .chn 0 0x0515)
  else if o = 0x54 then some (ctlWrite s true (bits v 16 2) (v % 2 ^ 14))
  else if o = 0x64 then some (ctlWrite s false (bits v 16 2) (v % 2 ^ 14))
  else if 0x80 ≤ o ∧ o < 0xA0 then some (simWrite s ((o - 0x80) / 4) v)
  else none

/-- A write to a register whose write has a meaning of its own; none where the access codes say it all. -/
def cmdWrite (s : State) (mg : Bool) (b : Blk) (i o v : Nat) : Option State :=
  if o = 0x04 then some (unitWrite s b i (v % 4) mg)
  else if o = 0x14 then some (evtLatWrite s b i v)
  else match b with
  | .sys => if o = 0x58 then some (sysCmdWrite s mg (v % 8)) else none
  | .tsk => if o = 0x48 then some (tskCmd s (v % 16) (bits v 4 2)) else none
  | .chn => chnWrite s mg o v
  | .loopCtx => if o = 0xA0 then some (if mg && bitOf v 0 then bswapReq s i else s) else none
  | .trc => if o = 0x44 then some (trcCtl s (v % 4)) else none
  | .vax => if 0x1000 ≤ o ∧ o < 0x2000 then some (shapeWrite s ((o - 0x1000) / 512) ((o - 0x1000) % 512 / 4) v) else none
  | .pair => if o = 0x80 then some (pairCmd s (v % 8)) else none
  | .pnl =>
    if o = 0x4C then some (after (execPnlUpd v) s)
    else if 0x1000 ≤ o ∧ o < 0x2400 then some (fbWrite s ((o - 0x1000) / 4) v)
    else none
  | _ => none

/-- Management writes a register of SAF only at UNIT_CTL and in W1C and RC fields (chapter 08). -/
def safWritable (o : Nat) : Bool :=
  o == 0x04 || (fieldsAt .saf o).any (fun f => f.1.acc == .w1c || f.1.acc == .rc)

/-- A write of a register word by the program or by management (`mg`), once the key switch and the address have been
judged. The program reaches no register of SAF. -/
def regWrite (s : State) (mg : Bool) (a v : Nat) : State :=
  if 0x40420000 ≤ a ∧ a < 0x40460000 then coefWrite s mg (a - 0x40420000) v
  else if 0x40460000 ≤ a ∧ a < 0x404E0000 then tableWrite s (a - 0x40460000) v
  else if isSafReg a && (!mg || !safWritable (a % 0x10000 / 4 * 4)) then s
  else
    match blkAt a with
    | none => s
    | some (b, i, o) =>
      if absentReg s b i (o / 4 * 4) then s
      else
        match cmdWrite s mg b i (o / 4 * 4) v with
        | some s1 => s1
        | none => plainWrite s b i (o / 4 * 4) v

/-- The register word at an offset has a field that CONFIG sets: its key switch row is that of CFG fields. -/
def hasCfgField (b : Blk) (o : Nat) : Bool := (fieldsAt b o).any (fun f => f.1.acc == .cfg)

/-- The code with which a management write of a register word is refused, none where it is made (R416, R122). -/
def mgRefusal (s : State) (a v : Nat) : Option Nat :=
  let keyCfg := keyPos s == 1 || keyPos s == 2
  if 0x40420000 ≤ a ∧ a < 0x40460000 then
    let o := a - 0x40420000
    if !inTune s then some 0x1012
    else if inRun s .loopCtx (o / 0x400) ∧ o / 0x200 % 2 = lBank s (o / 0x400) then some 0x0913 else none
  else if 0x40460000 ≤ a ∧ a < 0x404E0000 then
    (if tableBusy s ((a - 0x40460000) / 0x2000) then some 0x0914 else none)
  else
    match blkAt a with
    | none => none
    | some (b, i, o') =>
      let o := o' / 4 * 4
      if absentReg s b i o then none
      else if o = 0x04 then
        (if b = .saf then (if keyPos s = 2 then none else some 0x0818)
         else if !keyCfg then some 0x1012
         else if roleRefused s b then some 0x0D1C else none)
      else if hasCfgField b o then
        (if !keyCfg then some 0x1012
         else if stOf s b i ≠ stCONFIG ∧ (fieldsAt b o).any (fun f =>
           f.1.acc == .cfg && getF s f.1 i f.2 != bits v f.1.lsb f.1.width) then some (b.code * 256 + 1)
         else none)
      else if b = .chn ∧ o = 0x54 then ctlCheck s true (bits v 16 2) (v % 2 ^ 14)
      else if b = .chn ∧ o = 0x64 then ctlCheck s false (bits v 16 2) (v % 2 ^ 14)
      else if b = .chn ∧ 0x80 ≤ o ∧ o < 0xA0 then
        simCheck s ((o - 0x80) / 4) ((v % 2 ^ 32) &&& simMask s ((o - 0x80) / 4))
      else if b = .loopCtx ∧ o = 0xA0 ∧ bitOf v 0 ∧ !inTune s then some 0x1012
      else if b = .trc ∧ o = 0x44 ∧ (v % 4 = 1 ∨ v % 4 = 2) ∧ !inTune s then some 0x1310
      else if b = .vax ∧ 0x1000 ≤ o ∧ o < 0x2000 ∧ bitOf (shapeUse s) ((o - 0x1000) / 512) then some 0x0B17
      else none

/-! ## The commands of the register space -/

/-- A W1C write to EVT_LAT. -/
def execEvtLatWrite (b : Blk) (i v : Nat) (s : State) : Res := .next (if i < copies s b then evtLatWrite s b i v else s)

/-- Conditions of a block arise: their EVT_LAT bits rise, with one event entry (R476, R477). -/
def execEventLatch (b : Blk) (i mask : Nat) (s : State) : Res :=
  .next (if i < copies s b then latch s b i (mask % 2 ^ 32) else s)

/-- A read of UNIT_ERR returns it and clears it. -/
def execUnitErrRead (b : Blk) (i : Nat) (s : State) : Res :=
  .next (if i < copies s b then (regRead s (b.base + i * b.step + 0x0C)).2 else s)

/-- A read of a register, which clears its RC fields. -/
def execRcRegisterRead (a : Nat) (s : State) : Res := .next (regRead s a).2

/-- A write of a register word from the program, or from management where the key switch permits it. -/
def execRegisterWrite (mg : Bool) (a v : Nat) (s : State) : Res :=
  if !mg then .next (regWrite s false a v)
  else
    match mgRefusal s a v with
    | some 0x1012 => .next s
    | _ => .next (regWrite s true a v)

end Sys2Proof.Machine
end

