-- ==== Sys2Proof/Machine/Image.lean ====
section
/-!
DEFINITION. The regions of the control space (Table MAP-1) and what a read of them returns: the views of IMAGE (R154, R155)
and memory.
-/

namespace Sys2Proof.Machine

open R

/-- A region of the control space (Table MAP-1). -/
inductive Region where
  | data | retain | image | chtab | sttab | ddrw | units
  deriving DecidableEq, Repr

/-- The regions with their first address and size. -/
def regions : List (Region × Nat × Nat) :=
  [(.data, 0, 0x00800000), (.retain, 0x00800000, 0x00200000), (.image, 0x01000000, 0x00200000)] ++
  [(.chtab, 0x02000000, 0x00100000), (.sttab, 0x03000000, 0x00010000), (.ddrw, 0x10000000, 0x10000000)] ++
  [(.units, 0x40000000, 0x00E00000)]

/-- The region in which `n` bytes from `a` lie wholly (R51); of the unit register space, only its blocks (R473). -/
def region (a n : Nat) : Option Region :=
  match regions.find? (fun r => decide (r.2.1 ≤ a) && decide (a + n ≤ r.2.1 + r.2.2)) with
  | some (.units, _) => if inUnits a && inUnits (a + n - 1) then some .units else none
  | some r => some r.1
  | none => none

/-- The class of the task that runs on a core: 0 to 2, 9 where it is no cyclic task. -/
def coreCls (s : State) (c : Nat) : Nat :=
  match (getCore s c).run with
  | some key => if 2 ≤ key / 4 ∧ key / 4 ≤ 4 then key / 4 - 2 else 9
  | none => 9

/-- The byte of the IMAGE region at offset `o` for a reader of class `cls`, without a core's own pending writes. -/
def imgByte (s : State) (cls o : Nat) : Byte :=
  let n8 (base : Nat) : Nat := (o - base) / 8
  let n4 (base : Nat) : Nat := (o - base) / 4
  let pick8 (n v : Nat) : Byte := if n < nChan s then BitVec.ofNat 8 (v / 2 ^ (8 * (o % 8))) else 0
  let pick4 (n v : Nat) : Byte := if n < nChan s then BitVec.ofNat 8 (v / 2 ^ (8 * (o % 4))) else 0
  if o < 0x20000 then pick8 (n8 0) (inView s cls (n8 0)).1
  else if o < 0x30000 then pick4 (n4 0x20000) (inView s cls (n4 0x20000)).2
  else if o < 0x50000 then
    let c := getChan s (n8 0x30000)
    pick8 (n8 0x30000) (if c.cached.used && c.cached.isOut then outShown s (n8 0x30000) else 0)
  else if o < 0x60000 then pick4 (n4 0x50000) (outStatus s (n4 0x50000))
  else if o < 0x80000 then
    let c := getChan s (n8 0x60000)
    pick8 (n8 0x60000) (if c.latched.used && c.latched.fast && !c.latched.isOut then c.finVal else 0)
  else if o < 0x90000 then
    let c := getChan s (n4 0x80000)
    pick4 (n4 0x80000) (if c.latched.used && c.latched.fast && !c.latched.isOut then c.finSt else 0)
  else 0

/-- Bytes of IMAGE as core `c` reads them; 8 stands for management. -/
def imgRd (s : State) (c a n : Nat) : List Byte × State :=
  let s1 := settle s c a n
  let cls := if c < 8 then coreCls s1 c else 9
  let bs := (List.range n).map (fun i => imgByte s1 cls (a + i - 0x01000000))
  (if c < 8 then overSb (getCore s1 c).sb a bs else bs, s1)

/-- Bytes of a region other than the unit register space as core `c` reads them; 8 stands for management. -/
def spaceRd (s : State) (r : Region) (c a n : Nat) : List Byte × State :=
  if r = .image then imgRd s c a n else if c < 8 then coreRd s c a n else engRd s a n

/-- Unit register words read in ascending order, by management. -/
def regsRd : Nat → State → Nat → List Byte × State
  | 0, s, _ => ([], s)
  | k + 1, s, a =>
    let (w, s1) := regRead s a
    let (bs, s2) := regsRd k s1 (a + 4)
    (leBytes 4 w ++ bs, s2)

end Sys2Proof.Machine
end

