-- ==== Sys2Proof/Machine/Host.lean ====
section
/-!
DEFINITION. The commands of the host unit: ports, sessions and the management protocol (R411 to R418), the Modbus server
(R419 to R422), the IEC 61162-450 receiver (R423, R424), and RELAY frames (R370). Cryptography is symbolic: a key is a
number, and a signature names the key under which it verifies.
-/

namespace Sys2Proof.Machine

open R

/-- This module serves the host-service class (R370). -/
def hostServes (s : State) : Bool := role s == 0 || getB s PAIR_ROLE_HS_OWN

/-! ## Ports (R411) -/

/-- An enabled port is down: the level condition of the event. -/
def portLevel (s : State) : State :=
  level s .host 0 0 ((List.range 4).any (fun n => getB s HOST_Pn_CFG_EN 0 n && !getB s HOST_Pn_LINK_UP 0 n))

/-- A host port loses its link. -/
def execHostLinkDown (n : Nat) (s : State) : Res :=
  if n < 4 ∧ getB s HOST_Pn_LINK_UP 0 n then
    .next (portLevel (incF (setB s HOST_Pn_LINK_UP false 0 n) HOST_Pn_LINK_DOWNS 0 n))
  else .next s

/-- A host port's link comes up. -/
def execHostLinkUp (n : Nat) (s : State) : Res :=
  if n < 4 then .next (portLevel (setB s HOST_Pn_LINK_UP true 0 n)) else .next s

/-- A port offers a service (Table HOST-1): 0 management, 1 PTP, 2 Modbus TCP, 3 IEC 61162-450, 4 ARP, 5 ICMP echo. -/
def offers (s : State) (n svc : Nat) : Bool :=
  match svc with
  | 0 => decide (n < 3)
  | 1 => decide (n < 2)
  | 2 => n == 3 && getB s HOST_CFG_MB_EN
  | 3 => n == 3 && getB s HOST_CFG_NMEA_EN
  | 4 | 5 => true
  | _ => false

/-- A frame for a service reaches a host port: an enabled port answers ARP and ICMP echo; a frame for a service that it does not
offer is discarded and counted. -/
def execHostFrameRx (n svc : Nat) (s : State) : Res :=
  if n < 4 ∧ getB s HOST_Pn_CFG_EN 0 n then
    .next (if !offers s n svc then incF s HOST_Pn_LINK_DISC 0 n
           else if svc = 4 ∨ svc = 5 then { s with host := { s.host with echo := some (n, svc) } } else s)
  else .next s

/-- A frame for a service of HP3 that is switched off is discarded and counted (R411). -/
def closedSvc (s : State) (svc : Nat) : State :=
  if getB s HOST_Pn_CFG_EN 0 3 && !offers s 3 svc then incF s HOST_Pn_LINK_DISC 0 3 else s

/-! ## Sessions (R412, R413) -/

/-- A session replaced, with the count of open sessions. -/
def setSess (s : State) (k : Nat) (v : Sess) : State :=
  let l := mput {} s.host.sess k v
  setF { s with host := { s.host with sess := l } } HOST_SESS_OPEN l.length

/-- A load ends, with its progress shown. -/
def loadEnd (s : State) : State :=
  setF (setF { s with host := { s.host with load := none } } HOST_LOAD_STATE 0) HOST_LOAD_PCT 0

/-- A session ends: its load is abandoned (R418), and nothing that waits is answered. -/
def sessClose (s : State) (k : Nat) : State :=
  let s1 := setSess { s with host := { s.host with waits := s.host.waits.filter (fun w => w.mb || w.who != k) } } k {}
  if s.host.load.any (fun l => l.sess == k) then loadEnd s1 else s1

/-- A failed authentication of an address: counted, and the fifth within 60 s blocks it for 300 s (R413). -/
def authFail (s : State) (addr : Nat) : State :=
  let t := tickNs s
  let fs := s.host.fails.filter (fun f => decide (t < f.2 + 60000000000)) ++ [(addr, t)]
  let n := (fs.filter (fun f => f.1 == addr)).length
  let h := if n ≥ 5 then { s.host with fails := fs.filter (fun f => f.1 != addr),
                                       blocks := mput 0 s.host.blocks addr (t + 300000000000) }
           else { s.host with fails := fs }
  latch (incF { s with host := h } HOST_SESS_AUTHFAIL) .host 0 2

/-- The privilege of a certificate: that of the first access-list entry with its fingerprint. -/
def privOf (s : State) (fp : Nat) : Option Nat := ((s.host.cfg.acl.take 32).find? (fun e => e.1 == fp)).map Prod.snd

/-- TLS 1.3 with one of its two cipher suites (R412). -/
def tlsOk (h : TlsHello) : Bool := h.ver == 0x0304 && (h.suite == 0x1301 || h.suite == 0x1302)

/-- The certificate has an Ed25519 or ECDSA P-256 key and chains to a trust anchor of the configuration (R412). -/
def certOk (s : State) (h : TlsHello) : Bool := (h.keyKind == 1 || h.keyKind == 2) && s.host.cfg.anchors.contains h.anchor

/-- A connection to a TCP port of host port `n` from an address, with what it presents and the fingerprint of its
certificate. A connection without TLS 1.3 and its suites is not accepted and is no failed authentication (DESIGN CHOICE, log
entry 140). -/
def execSessionConnect (n addr : Nat) (tls : TlsHello) (fp : Nat) (s : State) : Res :=
  if n > 3 ∨ !getB s HOST_Pn_CFG_EN 0 n then .next s
  else if n = 3 ∨ tls.tcp ≠ getF s HOST_CFG_MGMT_PORT then .next (incF s HOST_Pn_LINK_DISC 0 n)
  else if tickNs s < mget s.host.blocks addr 0 ∨ !tlsOk tls then .next s
  else
    match if certOk s tls then privOf s fp else none with
    | none => .next (authFail s addr)
    | some p =>
      if p ≥ 3 ∧ n ≠ 2 ∧ !getB s HOST_CFG_ENG_PLANES then .next s
      else
        match if s.host.sess.length < getF s HOST_CFG_MAXSESS then (List.range 8).find? (fun k => (getSess s k).priv == 0) else none with
        | none => .next (answer s 0 0x1018 0 [])
        | some k => .next (setSess s k { port := n, addr := addr, fp := fp, priv := p, last := tickNs s })

/-- A session has been idle for 120 s. -/
def execSessionIdleClose (k : Nat) (s : State) : Res :=
  if (getSess s k).priv ≠ 0 ∧ tickNs s ≥ (getSess s k).last + 120000000000 then .next (sessClose s k) else .next s

/-- A client closes its session. -/
def execSessionClosed (k : Nat) (s : State) : Res := if (getSess s k).priv ≠ 0 then .next (sessClose s k) else .next s

/-- The block of an address ends. -/
def execAuthBlockExpiry (addr : Nat) (s : State) : Res :=
  let t := mget s.host.blocks addr 0
  if t ≠ 0 ∧ tickNs s ≥ t then .next { s with host := { s.host with blocks := mput 0 s.host.blocks addr 0 } } else .next s

/-! ## Requests (R415, R417) -/

/-- A request of operation `op` on session `k`: BAD_REQUEST for an OP that is not that of Table HOST-3, a reserved field that is
not 0 or a body above 65,560 bytes, PRIV_DENIED below the privilege `need`, else `f`. A message with an unknown OP has no row of
its own: it is any request whose header holds that OP (DESIGN CHOICE, log entry 140). -/
def request (s : State) (k : Nat) (h : MgHdr) (op need : Nat) (f : State → State) : State :=
  let s1 := { s with host := { s.host with reqId := h.id } }
  if h.op ≠ op ∨ h.rsv ≠ 0 ∨ h.len > 65560 then answer s1 h.op 0x1019 0 []
  else if (getSess s k).priv < need then answer s1 op 0x1013 0 []
  else f s1

/-- A Process operation: refused with ROLE_CHANGED on another epoch, and with NOT_OWNER on a module that does not own the
process (R417). -/
def asProcess (s : State) (op epoch : Nat) (f : State → State) : State :=
  if epoch ≠ roleEpoch s then answer s op 0x1010 0 []
  else if !owns s then answer s op 0x1011 0 []
  else f s

/-- HELLO: serial number, variant, side, role, epoch, generations of both slots and key position. -/
def helloData (s : State) : List Byte :=
  leBytes 4 (regW s SYS_SERIAL_SERIAL 0 0) ++ leBytes 1 (getF s SYS_ORDER_VARIANT) ++ leBytes 1 (getF s PAIR_ROLE_SIDE) ++
  leBytes 1 (role s) ++ leBytes 4 (roleEpoch s) ++ leBytes 4 s.tsk.slotA.gen ++ leBytes 4 s.tsk.slotB.gen ++
  leBytes 1 (keyPos s)

/-- HELLO. -/
def doHello (s : State) : State := answer s 1 0x1000 0 (helloData s)

/-- Bytes of the control space for management. -/
def mgRead (s : State) (a n : Nat) : State :=
  match region a n with
  | none => answer s 2 0x1014 a []
  | some .units =>
    if a % 4 ≠ 0 ∨ n % 4 ≠ 0 then answer s 2 0x1014 a []
    else
      let (bs, s1) := regsRd (n / 4) s a
      answer s1 2 0x1000 0 bs
  | some r =>
    let (bs, s1) := spaceRd s r 8 a n
    answer s1 2 0x1000 0 bs

/-- READ of `n` bytes from an address. -/
def doRead (a n : Nat) (s : State) : State := if n = 0 ∨ n > 65536 then answer s 2 0x1019 0 [] else mgRead s a n

/-! ## WRITE and LWRITE (R416) -/

/-- A word of a station's configuration: CFG of the station's port (R167); its reserved bits stay 0 (R14). -/
def sttabWord (s : State) (a : Nat) (w : List Byte) : State × Option Nat :=
  let i := (a - 0x03000000) / 256
  let w := maskBytes stBits (a % 256) w
  if a % 256 ≥ 0x80 then (s, some 0x1014)
  else if i ≥ nSta s then (s, none)
  else if keyPos s ≠ 1 ∧ keyPos s ≠ 2 then (s, some 0x1012)
  else if stOf s .lnkPort (i / 4) = stCONFIG ∧ getB s (hBusy .lnkPort) (i / 4) then (keepLate s a (leNat w), none)
  else if stOf s .lnkPort (i / 4) = stCONFIG ∨ rdBs s a w.length = w then (wrBs s a w, none)
  else (unitErr s .lnkPort (i / 4) 0x0601, some 0x0601)

/-- The code with which the unit has refused a command written to its command register, none where it was taken: TSK.CMD,
PAIR.CMD and SYS.CMD. -/
def cmdRefused (s s1 : State) (a : Nat) : Option Nat :=
  let c (f : Fld) (ok : Nat) : Option Nat := if getF s1 f = ok then none else some (getF s1 f)
  if a = 0x40020048 then (if s1.tsk.profStore != s.tsk.profStore then none else c TSK_CMD_RES_CODE 0x0300)
  else if a = 0x40700080 then c PAIR_CMD_RES_CODE 0x0D00
  else if a = 0x40000058 then (if keyPos s = 2 then none else c SYS_CMD_RES_CODE 0x0100)
  else none

/-- The status for a refusal: KEY_DENIED for what Table TSK-6 forbids in the key position, which its unit records under a code
of its own (FORCE_KEY, TRC_KEY, KEY_REFUSED of TSK), else the unit's code (R416). -/
def keyStatus (c : Nat) : Nat := if c = 0x0514 ∨ c = 0x1310 ∨ c = 0x0314 then 0x1012 else c

/-- A register word. -/
def unitWord (s : State) (a : Nat) (w : List Byte) : State × Option Nat :=
  let v := leNat w
  if isSafReg a ∧ !safWritable (a % 0x10000) then (s, some 0x1014)
  else
    match mgRefusal s a v with
    | some c => (if c = 0x1012 then s else regWrite s true a v, some (keyStatus c))
    | none => (regWrite s true a v, (cmdRefused s (regWrite s true a v) a).map keyStatus)

/-- A word of the channel table is refused under R148: an owner of its mapping bytes is not in CONFIG. -/
def chtabCfgNo (s : State) (a : Nat) (w : List Byte) : Bool :=
  let n := (a - 0x02000000) / 64
  [mapOwner (tableEntry s n), mapOwner (entryWith s n a w)].any (fun o => stOf s o.1 o.2 != stCONFIG)

/-- A word written by management: the state, and the code that refuses it. -/
def mgWord (s : State) (a : Nat) (w : List Byte) : State × Option Nat :=
  match region a 4 with
  | none | some .image => (s, some 0x1014)
  | some .data | some .retain | some .ddrw => (wrBs s a w, none)
  | some .chtab =>
    (match chtabMgmt s a w with
     | none => (s, some 0x1012)
     | some (s1, true) => (s1, none)
     | some (s1, false) => (s1, some (if chtabCfgNo s a w then 0x0501 else 0x0801)))
  | some .sttab => sttabWord s a w
  | some .units => unitWord s a w

/-- Words written in ascending order up to the first that is refused, an address that `ok` does not admit among them: the state,
the refused address and its code. -/
def mgWords (ok : Nat → Bool) : Nat → State → Nat → List Byte → State × Option (Nat × Nat)
  | 0, s, _, _ => (s, none)
  | n + 1, s, a, bs =>
    if bs = [] then (s, none)
    else if !ok a then (s, some (a, 0x1014))
    else
      match mgWord s a (bs.take 4) with
      | (s1, some c) => (s1, some (a, c))
      | (s1, none) => mgWords ok n s1 (a + 4) (bs.drop 4)

/-- Words written and answered; `rec` where every word was. -/
def mgWrite (ok : Nat → Bool) (s : State) (op a : Nat) (bs : List Byte) (rec_ : State → State) : State :=
  match mgWords ok (bs.length / 4) s a bs with
  | (s1, some (x, c)) => answer s1 op c x []
  | (s1, none) => rec_ (answer s1 op 0x1000 (bs.length / 4) [])

/-- Data of a write: 4 to 65,536 bytes in whole words from a word address. -/
def wordsOk (a : Nat) (bs : List Byte) : Bool := bs.length % 4 == 0 && decide (4 ≤ bs.length) && decide (bs.length ≤ 65536) && a % 4 == 0

/-- A host write that waits for the owner: for this owner's next C1 output deadline, or for the next RELAY frame. -/
def hostWait (s : State) (mb : Bool) (who fn : Nat) (parts : List WPart) : State :=
  let h := s.host
  let w : RelayW := { id := h.nextId, parts := parts, epoch := roleEpoch s }
  let h1 := { h with nextId := (h.nextId + 1) % 2 ^ 32,
                     waits := h.waits ++ [HostW.mk h.nextId mb who h.reqId fn (tickNs s) w] }
  { s with host := if owns s then { h1 with due := h1.due ++ [w] } else { h1 with outW := h1.outW ++ [w] } }

/-- WRITE. -/
def doWrite (k epoch a : Nat) (bs : List Byte) (s : State) : State :=
  if !wordsOk a bs then answer s 3 0x1019 0 []
  else if epoch ≠ roleEpoch s then answer s 3 0x1010 0 []
  else if owns s then mgWrite (fun _ => true) s 3 a bs (fun s => mgmtWrite s k)
  else if hostServes s ∧ inData a bs.length then hostWait s false k 3 [{ addr := a, data := bs }]
  else answer s 3 0x1011 0 []

/-- An address of SYS, PWR, HOST or PAIR. -/
def localReg (a : Nat) : Bool :=
  (decide (0x40000000 ≤ a) && decide (a < 0x40020000)) || (decide (0x40A00000 ≤ a) && decide (a < 0x40A10000)) ||
  (decide (0x40700000 ≤ a) && decide (a < 0x40710000))

/-- LWRITE: the first word outside its four blocks is refused like any other. -/
def doLwrite (k a : Nat) (bs : List Byte) (s : State) : State :=
  if !wordsOk a bs then answer s 4 0x1019 0 []
  else mgWrite localReg s 4 a bs (fun s => mgmtChange s k 4)

/-! ## Loads (R414, R418) -/

/-- The class of a load: firmware is Local, the other kinds are Process. -/
def asLoad (s : State) (op kind epoch : Nat) (f : State → State) : State :=
  if kind = 2 then f s else asProcess s op epoch f

/-- LOAD_BEGIN. -/
def doLoadBegin (k epoch kind total : Nat) (s : State) : State :=
  if kind > 2 then answer s 5 0x1019 0 []
  else asLoad s 5 kind epoch (fun s =>
    if s.host.load.isSome then answer s 5 0x1017 0 []
    else
      let s1 := { s with host := { s.host with load := some { sess := k, kind := kind, total := total, data := [] } } }
      answer (mgmtChange (setF (setF (setF s1 HOST_LOAD_STATE 1) HOST_LOAD_KIND kind) HOST_LOAD_PCT 0) k 5) 5 0x1000 0 [])

/-- LOAD_DATA of bytes at an offset. -/
def doLoadData (k epoch ofs : Nat) (bs : List Byte) (s : State) : State :=
  match s.host.load with
  | none => answer s 6 0x1017 0 []
  | some l => asLoad s 6 l.kind epoch (fun s =>
    if l.sess ≠ k ∨ ofs ≠ l.data.length ∨ ofs + bs.length > l.total ∨ bs.length > 65536 then answer s 6 0x1017 0 []
    else
      let s1 := { s with host := { s.host with load := some { l with data := l.data ++ bs } } }
      answer (mgmtChange (setF s1 HOST_LOAD_PCT ((l.data.length + bs.length) * 100 / max l.total 1)) k 6) 6 0x1000 0 [])

/-- A safety section in the active slot: SAF takes it at its next RUN, and SAF.SIMG_ID shows it (R267). -/
def takeSection (s : State) (im : SImage) : State :=
  setF (norSlots (setActSlot { s with saf := { s.saf with loaded := some im } } { actSlot s with simg := im })) SAF_SIMG_ID_ID im.id

/-- The image that the bytes received spell, with the key under which its signature verifies and the CRC-32 of its safety section
(R267). The spec gives no format of an image, so its content comes with LOAD_END (DESIGN CHOICE, log entry 119). -/
def withSig (sig : Nat) (bs : List Byte) : LoadImg → LoadImg
  | .program p o n =>
    .program { p with sig := sig, crc := crcEth bs,
                      simg := if n = 0 then {} else { p.simg with there := true, id := crcEth ((bs.drop o).take n) } } o n
  | .safety im => .safety { im with there := true, sig := sig, id := crcEth bs }
  | .firmware v => .firmware v

/-- An image that has passed its checks is taken; a program goes to the partner too (R372). -/
def loadTake (s : State) (sig : Nat) (img : LoadImg) : State :=
  match img with
  | .program p _ _ =>
    if keyPos s = 1 then ctrlSend (norSlots (setOlc (setIdleSlot s p) 1)) (.olcImage p)
    else ctrlSend (if p.simg = (actSlot s).simg then norSlots (setActSlot s p) else takeSection (setActSlot s p) p.simg) (.olcImage p)
  | .safety im => takeSection s im
  | .firmware v =>
    let b := !s.mram.fwRun
    let s1 := setFw s b { ok := true, sig := sig, version := v, trial := true }
    fwShow { s1 with mram := { s1.mram with fwPref := b } }

/-- What LOAD_END answers for an image of `size` bytes: status and unit code, none where the image is taken. A program brings a
safety section other than the active one only in HALT with SAF in STOP (R267). -/
def loadRefusal (s : State) (size sig : Nat) (img : LoadImg) : Option (Nat × Nat) :=
  match img with
  | .program p o n =>
    if !sigOk s sig 0 then some (0x1015, 0x031A)
    else if p.size ≠ size ∨ o + n > size then some (0x1016, 0x031A)
    else if keyPos s = 1 then
      (if olc s ≠ 0 then some (0x1016, 0x0319) else if progOk s p true then none else some (0x1016, 0x031A))
    else if keyPos s = 2 ∧ (actSlot s).gen = 0 then
      (if !progOk s p false then some (0x1016, 0x031A)
       else if stOf s .saf ≠ stSTOP ∧ p.simg ≠ (actSlot s).simg then some (0x1016, 0x0817) else none)
    else some (0x1012, 0x0314)
  | .safety im =>
    if !sigOk s sig 1 then some (0x1015, 0x0817)
    else if keyPos s ≠ 2 then some (0x1012, 0x0818)
    else if stOf s .saf ≠ stSTOP ∨ !safPresent s im then some (0x1016, 0x0817) else none
  | .firmware _ =>
    if !sigOk s sig 2 then some (0x1015, 0) else if keyPos s ≠ 2 then some (0x1012, 0) else none

/-- The kind of an image. -/
def imgKind (i : LoadImg) : Nat := match i with | .program _ _ _ => 0 | .safety _ => 1 | .firmware _ => 2

/-- LOAD_END of the image that the bytes received spell, with the key under which its signature verifies. -/
def doLoadEnd (k epoch sig : Nat) (img : LoadImg) (s : State) : State :=
  match s.host.load with
  | none => answer s 7 0x1017 0 []
  | some l => asLoad s 7 l.kind epoch (fun s =>
    if l.sess ≠ k ∨ l.data.length ≠ l.total then answer s 7 0x1017 0 []
    else
      let s1 := latch (loadEnd s) .host 0 16
      let x := withSig sig l.data img
      if imgKind img ≠ l.kind then answer s1 7 0x1016 0 []
      else
        match loadRefusal s1 l.total sig x with
        | some (st, code) => answer s1 7 st code []
        | none => answer (mgmtChange (loadTake s1 sig x) k 7) 7 0x1000 0 [])

/-- SUBSCRIBE. -/
def doSubscribe (k : Nat) (on : Bool) (s : State) : State :=
  if !hostServes s then answer s 8 0x1011 0 [] else answer (setSess s k { getSess s k with sub := on }) 8 0x1000 0 []

/-- KEYSET: a key slot replaced, in HALT, by a request signed with another present key of the same kind. -/
def doKeyset (k slot key : Nat) (safety : Bool) (sig : Nat) (s : State) : State :=
  if slot > 3 then answer s 10 0x1019 0 []
  else if keyPos s ≠ 2 then answer s 10 0x1012 0 []
  else if !s.mram.keys.any (fun e => e.1 != slot && e.2 == 1 + 2 * sig + b2n safety) then answer s 10 0x1015 0 []
  else
    let s1 := { s with mram := { s.mram with keys := mput 0 s.mram.keys slot (1 + 2 * key + b2n safety) } }
    answer (mgmtChange (latch s1 .host 0 32) k 10) 10 0x1000 0 []

/-! ## The order of a session's requests (R415) -/

/-- A request is carried out. -/
def mgDo (k : Nat) (h : MgHdr) (r : MgReq) (s : State) : State :=
  match r with
  | .hello => request s k h 1 1 doHello
  | .read a n => request s k h 2 1 (doRead a n)
  | .write a bs => request s k h 3 2 (doWrite k h.epoch a bs)
  | .lwrite a bs => request s k h 4 3 (doLwrite k a bs)
  | .loadBegin kind total => request s k h 5 3 (doLoadBegin k h.epoch kind total)
  | .loadData ofs bs => request s k h 6 3 (doLoadData k h.epoch ofs bs)
  | .loadEnd sig img => request s k h 7 3 (doLoadEnd k h.epoch sig img)
  | .subscribe on => request s k h 8 1 (doSubscribe k on)
  | .keyset slot key safety sig => request s k h 10 4 (doKeyset k slot key safety sig)

/-- A relayed WRITE of session `k` is not answered yet. -/
def mgWaits (s : State) (k : Nat) : Bool := s.host.waits.any (fun w => !w.mb && w.who == k)

/-- A request arrives on session `k`: it waits while one before it is not answered. -/
def mgGet (k : Nat) (h : MgHdr) (r : MgReq) (s : State) : State :=
  let v := getSess s k
  if v.priv = 0 then s
  else
    let s1 := setSess s k { v with last := tickNs s }
    if mgWaits s k || !v.q.isEmpty then setSess s k { v with last := tickNs s, q := v.q ++ [(h, r)] } else mgDo k h r s1

/-- At a TICK edge a session whose last request has been answered begins the next one that waits. -/
def mgNext (s : State) (k : Nat) : State :=
  let v := getSess s k
  match v.q with
  | [] => s
  | (h, r) :: t => if mgWaits s k then s else mgDo k h r (setSess s k { v with q := t })

/-- The header of a request. EPOCH of an operation that is not a Process operation is not looked at. -/
def mgHdr (h : MgHead) (epoch len : Nat) : MgHdr := { op := h.op, id := h.id, epoch := epoch, rsv := h.rsv, len := len }

/-- HELLO. -/
def execHello (k : Nat) (h : MgHead) (len : Nat) (s : State) : Res := .next (mgGet k (mgHdr h 0 len) .hello s)
/-- READ of `n` bytes from an address. -/
def execRead (k : Nat) (h : MgHead) (len a n : Nat) (s : State) : Res := .next (mgGet k (mgHdr h 0 len) (.read a n) s)
/-- WRITE of bytes from an address. -/
def execWrite (k epoch : Nat) (h : MgHead) (len a : Nat) (bs : List Byte) (s : State) : Res :=
  .next (mgGet k (mgHdr h epoch len) (.write a bs) s)
/-- LWRITE of bytes from an address. -/
def execLwrite (k : Nat) (h : MgHead) (len a : Nat) (bs : List Byte) (s : State) : Res :=
  .next (mgGet k (mgHdr h 0 len) (.lwrite a bs) s)
/-- LOAD_BEGIN. -/
def execLoadBegin (k epoch : Nat) (h : MgHead) (len kind total : Nat) (s : State) : Res :=
  .next (mgGet k (mgHdr h epoch len) (.loadBegin kind total) s)
/-- LOAD_DATA. -/
def execLoadData (k epoch : Nat) (h : MgHead) (len ofs : Nat) (bs : List Byte) (s : State) : Res :=
  .next (mgGet k (mgHdr h epoch len) (.loadData ofs bs) s)
/-- LOAD_END. -/
def execLoadEnd (k epoch : Nat) (h : MgHead) (len sig : Nat) (img : LoadImg) (s : State) : Res :=
  .next (mgGet k (mgHdr h epoch len) (.loadEnd sig img) s)
/-- SUBSCRIBE. -/
def execSubscribe (k : Nat) (h : MgHead) (len : Nat) (on : Bool) (s : State) : Res := .next (mgGet k (mgHdr h 0 len) (.subscribe on) s)
/-- KEYSET. -/
def execKeyset (k : Nat) (h : MgHead) (len slot key : Nat) (safety : Bool) (sig : Nat) (s : State) : Res :=
  .next (mgGet k (mgHdr h 0 len) (.keyset slot key safety sig) s)

/-- A relayed host write has had no answer within 4 × T_C1 (R417, R422). -/
def execRelayTimeout (id : Nat) (s : State) : Res :=
  match s.host.waits.find? (fun w => w.id == id) with
  | none => .next s
  | some w =>
    if tickNs s < w.at_ + 4 * period s 1 then .next s
    else
      let s1 := { s with host := { s.host with waits := s.host.waits.filter (fun x => x.id != id) } }
      if w.mb then .next (mbAnswer s1 w.fn 6 [])
      else .next (answer { s1 with host := { s1.host with reqId := w.rid } } 3 0x101A 0 [])

/-! ## Modbus TCP (R419 to R422) -/

/-- The Modbus server answers on HP3: up to 4 connections, units 255 and 1 (R419). The table has no row for a connection: a
request names its number, and one above the fourth was refused (DESIGN CHOICE, log entry 141). -/
def mbOpen (s : State) (h : MbHdr) : Bool :=
  getB s HOST_CFG_MB_EN && getB s HOST_Pn_CFG_EN 0 3 && hostServes s && decide (h.conn < 4) && (h.unit == 255 || h.unit == 1)

/-- A Modbus request of function `fn`: discarded and counted where MB_EN is 0 (R411), exception 0x01 for a function code that
R419 does not name, which comes as any of these rows (DESIGN CHOICE, log entry 141). -/
def mbReq (s : State) (h : MbHdr) (fn : Nat) (f : State → State) : State :=
  if !mbOpen s h then closedSvc s 2
  else if !([1, 2, 3, 4, 5, 6, 16] : List Nat).contains h.fn then mbAnswer s h.fn 1 []
  else if h.fn ≠ fn then s
  else f s

/-- Registers of a point. -/
def mbRegs (p : MbPoint) : Nat := if p.typ ≥ 3 then 2 else 1

/-- Modbus points: at most 2,048. -/
def mbPoints (s : State) : List MbPoint := s.host.cfg.points.take 2048

/-- The point whose registers or bits start at or hold an address of a table, with its index. -/
def mbAt (s : State) (tbl a : Nat) : Option (Nat × MbPoint) :=
  ((mbPoints s).zipIdx.find? (fun p => p.1.tbl == tbl && decide (p.1.addr ≤ a) && decide (a < p.1.addr + mbRegs p.1))).map
    (fun p => (p.2, p.1))

/-- The points that a range of a table covers whole, in order of their addresses; none where it touches an address of no
point or a part of one. The first argument bounds their number. -/
def mbCover : Nat → State → Nat → Nat → Nat → Option (List (Nat × MbPoint))
  | 0, _, _, _, n => if n = 0 then some [] else none
  | k + 1, s, tbl, a, n =>
    if n = 0 then some []
    else
      match mbAt s tbl a with
      | none => none
      | some (i, p) =>
        if p.addr ≠ a ∨ mbRegs p > n then none
        else (mbCover k s tbl (a + mbRegs p) (n - mbRegs p)).map (fun l => (i, p) :: l)

/-- The registers of a point's value, the high-order one first. -/
def mbWords (p : MbPoint) (v : Nat) : List Nat :=
  if mbRegs p = 2 then [v / 65536 % 65536, v % 65536] else [v % 65536]

/-- A read of `n` bits or registers of a table. -/
def mbRead (s : State) (h : MbHdr) (fn tbl a n lim : Nat) : State :=
  mbReq s h fn (fun s =>
    if n = 0 ∨ n > lim then mbAnswer s fn 3 []
    else
      match mbCover n s tbl a n with
      | none => mbAnswer s fn 2 []
      | some l => mbAnswer s fn 0 (l.flatMap (fun p => mbWords p.2 (mget s.host.mbVals p.1 0))))

/-- Function 0x01. -/
def execModbusReadCoils (h : MbHdr) (a n : Nat) (s : State) : Res := .next (mbRead s h 1 0 a n 2000)
/-- Function 0x02. -/
def execModbusReadDiscrete (h : MbHdr) (a n : Nat) (s : State) : Res := .next (mbRead s h 2 1 a n 2000)
/-- Function 0x03. -/
def execModbusReadHolding (h : MbHdr) (a n : Nat) (s : State) : Res := .next (mbRead s h 3 3 a n 125)
/-- Function 0x04. -/
def execModbusReadInput (h : MbHdr) (a n : Nat) (s : State) : Res := .next (mbRead s h 4 2 a n 125)

/-- The bytes that a point's written registers put into DATA. -/
def mbPart (p : MbPoint) (ws : List Nat) : WPart :=
  if p.typ = 0 then { addr := p.ref, bit := p.bit, data := leBytes 1 (ws.headD 0 % 2) }
  else
    let v := if mbRegs p = 2 then ws.headD 0 % 65536 * 65536 + (ws.drop 1).headD 0 % 65536 else ws.headD 0 % 65536
    { addr := p.ref, data := leBytes (tySize (mbTy p)) v }

/-- The parts of a write of registers to points. -/
def mbParts : List (Nat × MbPoint) → List Nat → List WPart
  | [], _ => []
  | p :: t, ws => mbPart p.2 ws :: mbParts t (ws.drop (mbRegs p.2))

/-- A write of values to a table from an address (R422). -/
def mbWrite (fn tbl a : Nat) (ws : List Nat) (s : State) : State :=
    match mbCover ws.length s tbl a ws.length with
    | none => mbAnswer s fn 2 []
    | some l =>
      if l.any (fun p => p.2.src != 2 || !p.2.wr) then mbAnswer s fn 2 []
      else if !getB s HOST_MB_GATE_GATE then latch (unitErr (mbAnswer s fn 4 []) .host 0 0x101B) .host 0 4
      else hostWait s true 0 fn (mbParts l ws)

/-- Function 0x05: 0xFF00 sets the coil, 0 clears it. -/
def execModbusWriteCoil (h : MbHdr) (a v : Nat) (s : State) : Res :=
  .next (mbReq s h 5 (fun s =>
    if v ≠ 0xFF00 ∧ v ≠ 0 then mbAnswer s 5 3 [] else mbWrite 5 0 a [if v = 0 then 0 else 1] s))
/-- Function 0x06. -/
def execModbusWriteRegister (h : MbHdr) (a v : Nat) (s : State) : Res := .next (mbReq s h 6 (mbWrite 6 3 a [v]))
/-- Function 0x10: up to 123 registers. -/
def execModbusWriteMultiple (h : MbHdr) (a : Nat) (vs : List Nat) (s : State) : Res :=
  .next (mbReq s h 16 (fun s => if vs = [] ∨ vs.length > 123 then mbAnswer s 16 3 [] else mbWrite 16 3 a vs s))

/-! ## IEC 61162-450 (R423, R424) -/

/-- A field of a sentence is valid: it is not empty, and its sentence does not mark it invalid by the last column of Table HOST-4
(86 V, 77 M, 83 S, 78 N). That an empty field of any sentence is invalid is a DESIGN CHOICE (log entry 142). -/
def nmeaValid (x : NmeaSent) (f : Nat × Option Nat) : Bool :=
  f.2.isSome &&
  (match x.code with
   | 2 => !([86, 77, 83] : List Nat).contains x.mode
   | 3 | 7 => x.stat != 86
   | 4 => x.mode != 78
   | 5 => if f.1 ≤ 81 then x.stat != 86 else x.stat2 != 86
   | 6 => f.1 == 98 || x.fields.any (fun q => q.1 == 98 && q.2.any (fun v => v != 0))
   | _ => true)

/-- A sentence is accepted, and its fields stored, or discarded. -/
def nmeaSent (tags : Bool) (s : State) (x : NmeaSent) : State :=
  if !tags ∨ !x.ok ∨ x.len > 82 ∨ x.code = 0 ∨ x.code > 7 ∨ mget s.host.cfg.talkers x.code 0 ≠ x.talker then
    incF s HOST_NMEA_CNT_B
  else
    let fs := (x.fields.filter (fun f => f.1 / 16 == x.code && (hostRaw f.1).isSome)).map
      (fun f => (f.1, f.2.getD 0, nmeaValid x f))
    let h := fs.foldl (fun m f => mput {} m f.1 { raw := f.2.1, ok := f.2.2, at_ := tickNs s, seen := true }) s.host.fields
    incF { s with host := { s.host with fields := h, outF := if owns s then s.host.outF else s.host.outF ++ fs } } HOST_NMEA_CNT_A

/-- A datagram of transmission group `g`: `hdr` for a correct header, its length, `tags` for correct tag block checksums,
and its sentences. -/
def execNmeaDatagramRx (g : Nat) (hdr : Bool) (len : Nat) (tags : Bool) (xs : List NmeaSent) (s : State) : Res :=
  if !getB s HOST_CFG_NMEA_EN ∨ !getB s HOST_Pn_CFG_EN 0 3 then .next (closedSvc s 3)
  else if !hostServes s ∨ g ≥ min 4 s.host.cfg.groups.length ∨ !hdr ∨ len > 1472 then
    .next s
  else .next (forEach xs s (nmeaSent tags))

/-! ## RELAY frames (R370) -/

/-- A RELAY frame: the owner takes host writes and fields, the server takes point values, entries and replies; host writes that
reach a module that does not own the process are rejected (R368). -/
def relayTake (s : State) (m : RelayMsg) : State :=
  if owns s then
    let fs := m.fields.foldl (fun t f => mput {} t f.1 { raw := f.2.1, ok := f.2.2, at_ := tickNs s, seen := true }) s.host.fields
    { s with host := { s.host with due := s.host.due ++ m.writes, fields := fs } }
  else
    let s0 := { s with host := { s.host with outR := s.host.outR ++ m.writes.map (fun w => (w.id, false)) } }
    if hostServes s0 ∧ m.writes = [] ∧ m.fields = [] then
      forEach m.replies (notify { s0 with host := { s0.host with mbVals := m.points } } m.entries) hostResolve
    else forEach m.replies s0 hostResolve

/-- A RELAY frame is received. -/
def execSyncRelayRx (h : SyncHdr) (m : RelayMsg) (s : State) : Res :=
  match syncAccept s h with
  | (none, s') => .next s'
  | (some s1, _) => if s1.pair.refused then .next s1 else .next (relayTake s1 m)

end Sys2Proof.Machine
end

