-- ==== Sys2Proof/Machine/Posted.lean ====
section
/-!
DEFINITION. The posted path of a core with the unit registers on it (R77, R78, R494), and the fences (R83, R84).
-/

namespace Sys2Proof.Machine

open R

/-- The target whose posted writes complete in program order: DDR4, or a unit (Table ORD-1). -/
def postUnit (a : Nat) : Nat := if isDdr a then 100 else unitNo a

/-- A posted write completes at its target. -/
def postApply (s : State) (p : Posted) : State :=
  if isDdr p.addr then ddrApply s p else regWrite s false p.addr (leNat p.bytes)

/-- The posted writes of core `c` among its first `n` to the target `u` complete, in program order. -/
def postTake (s : State) (c u n : Nat) : State :=
  let ps := (getCore s c).posted
  let go := (ps.take n).filter (fun p => postUnit p.addr == u)
  forEach go (setCore s c { getCore s c with posted := (ps.take n).filter (fun p => postUnit p.addr != u) ++ ps.drop n }) postApply

/-- Every posted write of core `c` to the target `u` completes. -/
def postUnitDrain (s : State) (c u : Nat) : State := postTake s c u (getCore s c).posted.length

/-- Every posted write of core `c` completes. -/
def postDrain (s : State) (c : Nat) : State :=
  let ps := (getCore s c).posted
  forEach ps (setCore s c { getCore s c with posted := [] }) postApply

/-- A write enters the posted path of core `c`; with 32 outstanding it waits until one, in any order among the targets, has
completed (R494). -/
def postWrite (s : State) (c a : Nat) (bs : List Byte) (msk : Nat) : State :=
  let s1 :=
    if (getCore s c).posted.length < 32 then s
    else
      let (i, s0) := fresh 5 s
      postTake s0 c (postUnit (((getCore s0 c).posted[i]?.map Posted.addr).getD 0)) (i + 1)
  setCore s1 c { getCore s1 c with posted := (getCore s1 c).posted ++ [⟨a, bs, s1.ticks, msk⟩] }

/-- Posted writes as old as 400 cycles (100 TICK) complete; younger ones complete by a free choice, after the earlier
ones to their target (Table ORD-1). -/
def postAge (s : State) (c : Nat) : State :=
  let (s1, _, kept) := (getCore s c).posted.foldl (fun (acc : State × List Nat × List Posted) p =>
    let (s, blocked, kept) := acc
    let u := postUnit p.addr
    let (b, s0) := pick s
    if !blocked.contains u && (b || decide (s.ticks ≥ p.since + 100)) then (postApply s0 p, blocked, kept)
    else (s0, blocked ++ [u], kept ++ [p])) (s, [], [])
  setCore s1 c { getCore s1 c with posted := kept }

/-- FENCE.X of a core: every earlier write has reached its target (Table ORD-2). -/
def fenceX (s : State) (c : Nat) : State := postDrain (fenceOut (fenceData s c) c) c

/-- A read of a unit register by core `c`: it waits for the core's posted writes to that unit (R78). -/
def coreReg (s : State) (c a : Nat) : Nat × State := regRead (postUnitDrain s c (unitNo a)) a

end Sys2Proof.Machine
end

