-- ==== Sys2Proof/Machine/Operands.lean ====
section
/-!
DEFINITION. How a core executes an instruction: when it does, how it advances or faults (R40, R75), and every operand form:
addresses and their checks (R50 to R52, Table HXI-6, Table SAF-1), loads and stores, bits (R43, R53), channels (R65, R156,
R230). Cores 0 to 5 are LC0 to LC5, 6 is SC-A and 7 is SC-B.
-/

namespace Sys2Proof.Machine

open R

/-! ## Executing -/

/-- What an instruction does on a core: it completes with a new context, its PC included, and a cycle count; or it faults
with a code and an address. -/
inductive Out where
  | done (s : State) (k : Ctx) (cyc : Nat)
  | fault (s : State) (code addr : Nat)
  deriving DecidableEq, Repr

/-- A core executes instructions: it is not stopped and not in a synchronous call; a safety core only while its safety task
runs. -/
def runs (s : State) (c : Nat) : Bool :=
  (getCore s c).mode == .ready && (decide (c < 6) || (c == 6 && s.saf.busyA) || (c == 7 && s.saf.busyB))

/-- The context an instruction finds, with the PC already at the next instruction. -/
def stepCtx (s : State) (c : Nat) : Ctx :=
  let k := (getCore s c).ctx
  { k with pc := (k.pc + 4) % 2 ^ 32 }

/-- The context with the cycles of an instruction counted; SC-B takes one more (R231). -/
def withCyc (k : Ctx) (c n : Nat) : Ctx := { k with cyc := k.cyc + n + (if c = 7 then 1 else 0) }

/-- The context after an instruction. A posted write that it completed may have changed what runs on its core: then the
segment keeps the context where it waits, and nothing more happens. -/
def putCtx (s0 s1 : State) (c : Nat) (k : Ctx) (post : State → State) : State :=
  if (getCore s1 c).run = (getCore s0 c).run then post (setCtx s1 c k)
  else
    match (getCore s0 c).run with
    | some key => if (getSeg s1 key).ph = .ready then setSeg s1 key { getSeg s1 key with ctx := k } else s1
    | none => s1

/-- An instruction on a core, and then `post`. A core that does not execute leaves the state as it is. -/
def runThen (s : State) (c : Nat) (f : State → Ctx → Out) (post : State → State) : Res :=
  if runs s c then
    match f s (stepCtx s c) with
    | .done s1 k n => .next (putCtx s s1 c (withCyc k c n) post)
    | .fault s1 code a => .next (coreFault s1 c code a)
  else .next s

/-- An instruction on a core. -/
def runOn (s : State) (c : Nat) (f : State → Ctx → Out) : Res := runThen s c f id

/-- A check before an instruction acts. -/
def need (ok : Bool) (s : State) (code addr : Nat) (f : Unit → Out) : Out := if ok then f () else .fault s code addr

/-! ## Registers of a context -/

/-- An index register. -/
def getX (k : Ctx) (i : Nat) : Nat := (mget k.x (i % 16) 0).toNat

/-- An index register, replaced. -/
def setX (k : Ctx) (i v : Nat) : Ctx := { k with x := mput 0 k.x (i % 16) (BitVec.ofNat 32 v) }

/-- An accumulator: WA, or WB for `b`. -/
def acc (k : Ctx) (b : Bool) : Nat := if b then k.wb.toNat else k.wa.toNat

/-- An accumulator, replaced. -/
def setAcc (k : Ctx) (b : Bool) (v : Nat) : Ctx :=
  if b then { k with wb := BitVec.ofNat 64 v } else { k with wa := BitVec.ofNat 64 v }

/-- The task that runs on a core; 16 stands for none. -/
def taskOn (s : State) (c : Nat) : Nat := match (getCore s c).run with | some key => key / 4 | none => 16

/-! ## Addresses (R50, R51, R229) -/

/-- How an instruction uses memory: a bit read, a bit write, a word load, a word store. -/
inductive Use where
  | bitRd | bitWr | load | store
  deriving DecidableEq, Repr

/-- The effective address of formats B and M for modes 000, 001 and 010; sums wrap at 32 bits. -/
def effAddr (k : Ctx) (mode xi ofs : Nat) : Nat :=
  ((if mode = 0 then 0 else if mode = 1 then 0x00800000 else getX k xi) + ofs) % 2 ^ 32

/-- The mode and index fields of a memory operand are permitted. -/
def modeOk (mode xi : Nat) : Bool := mode == 2 || (decide (mode < 2) && xi == 0)

/-- `n` bytes lie in one region of a safety core's map. -/
def safIn (c a n : Nat) : Bool :=
  match safAddr c a, safAddr c (a + n - 1) with
  | some x, some y => y == x + n - 1
  | _, _ => false

/-- Table HXI-6: the use is permitted in the region. `u32`: a U32 word. -/
def allowed (r : Region) (u : Use) (u32 : Bool) (a : Nat) : Bool :=
  match r, u with
  | .data, _ | .retain, _ | .ddrw, _ => true
  | .image, .bitRd | .image, .load | .sttab, .bitRd | .sttab, .load | .chtab, .bitRd | .chtab, .load | .chtab, .store => true
  | .units, .load => u32
  | .units, .store => u32 && !isSafReg a
  | _, _ => false

/-- The fault of an access to `n` bytes at an address that must be a multiple of `al`: ADDR_RANGE, ADDR_ALIGN or
ACCESS_DENIED, in this order. -/
def accessFault (c a n al : Nat) (u : Use) (u32 : Bool) : Option Nat :=
  if c < 6 then
    match region a n with
    | none => some 0x0412
    | some r => if a % al ≠ 0 then some 0x0413 else if allowed r u u32 a then none else some 0x0414
  else if !safIn c a n then some 0x0412
  else if a % al ≠ 0 then some 0x0413 else none

/-! ## Loads and stores -/

/-- Bytes that a core reads. -/
def memRd (s : State) (c a n : Nat) : List Byte × State :=
  if c < 6 then
    match region a n with
    | some .units =>
      let (w, s1) := coreReg s c a
      ((leBytes 4 w).take n, s1)
    | some r => spaceRd s r c a n
    | none => ([], s)
  else (rdBs s ((safAddr c a).getD 0) n, s)

/-- Bytes posted by a core: one write per 64-bit word that they touch, or per entry of CHTAB; the first argument bounds
their number. -/
def postBytes : Nat → State → Nat → Nat → List Byte → State
  | 0, s, _, _, _ => s
  | n + 1, s, c, a, bs =>
    if bs.isEmpty then s
    else
      let room := if a < 0x03000000 then 64 - a % 64 else 8 - a % 8
      postBytes n (postWrite s c a (bs.take room) 0) c (a + room) (bs.drop room)

/-- Bytes that a core writes: store buffer, posted path, or its private store. -/
def memWr (s : State) (c a : Nat) (bs : List Byte) : State :=
  if c < 6 then
    if a < 0x01000000 then sbBytes (bs.length + 1) s c a bs else postBytes (bs.length + 1) s c a bs
  else wrBs s ((safAddr c a).getD 0) bs

/-- A read of core `c` meets a word with an uncorrectable error. -/
def uncorr (s : State) (c a n : Nat) : Bool := badIn s (if c < 6 then a else (safAddr c a).getD 0) n

/-- The state after a read of core `c` met an uncorrectable error; a safety core's own store is no part of DATA. -/
def memErr (s : State) (c a : Nat) : State := if c < 6 then memFault s a else s

/-- A read of `n` bytes, or MEM_UNCORR. -/
def loading (s : State) (c a n : Nat) (f : State → List Byte → Out) : Out :=
  if uncorr s c a n then .fault (memErr s c a) 0x0415 a
  else
    let (bs, s1) := memRd s c a n
    f s1 bs

/-! ## Bit operands (R50, R53) -/

/-- A bit in memory written, and no other bit of its word (R43). -/
def bitPut (s : State) (c a bit : Nat) (v : Bool) : State :=
  if c < 6 then
    if a < 0x01000000 then sbWrite s c (a - a % 8) (2 ^ (8 * (a % 8) + bit)) (b2n v * 2 ^ (8 * (a % 8) + bit)) false
    else postWrite s c a (leBytes 1 (b2n v * 2 ^ bit)) (2 ^ bit)
  else
    let x := (safAddr c a).getD 0
    wrB s x (BitVec.ofNat 8 (setBits (rdB s x).toNat bit 1 (b2n v)))

/-! ## Channels (R65, R156, R230) -/

/-- The number of a channel operand is beyond the variant, or names no entry of the safety map. -/
def chRange (s : State) (c n : Nat) : Bool := if c < 6 then decide (n ≥ nChan s) else decide (n ≥ 1024) || (mapAt s n).isNone

/-- The cached entry of a channel; an instruction that finds it invalid waits for the re-read (R149). -/
def chEntry (s : State) (c n : Nat) : ChEntry × State :=
  let s1 := if c < 6 then reread s n else s
  ((getChan s1 n).cached, s1)

/-- TYPE differs from the image type of the channel; not judged for an unused channel. -/
def chTypeBad (s : State) (c n ty : Nat) : Bool :=
  if c < 6 then
    let e := (getChan s n).cached
    e.used && e.img != ty
  else match mapAt s n with
    | some m => safImgType m.typ != ty
    | none => true

/-- The value and status of a channel for a core (R65, R155). Of an output entry of the safety map the spec gives no status:
it is a free value. -/
def chRead (s : State) (c n : Nat) : (Nat × Nat) × State :=
  if c < 6 then
    let e := (getChan s n).cached
    if !e.used then ((0, 0), s)
    else if e.isOut then
      let (v, s1) := coreOut s c n
      ((if e.ownKind = 4 then outShown s1 n else v, outStatus s1 n), s1)
    else (inView s (coreCls s c) n, s)
  else
    match mapAt s n with
    | some m =>
      if m.kind = 1 ∨ m.kind = 5 then
        let (st, s1) := fresh 5 s
        ((mget (if c = 6 then s.saf.outA else s.saf.outB) n 0, st), s1)
      else (mget s.saf.inImg n (0, 0), s)
    | none => ((0, 0), s)

/-- The code that refuses a write to a channel by a core: CH_OWNER, or CH_TYPE for an input entry of the safety map. -/
def chRefused (s : State) (c n : Nat) : Option Nat :=
  if c < 6 then (if coreOwns (getChan s n).cached (taskOn s c) then none else some 0x0435)
  else match mapAt s n with
    | some m => if m.kind = 1 ∨ m.kind = 5 then none else some 0x0434
    | none => some 0x0434

/-- The value of a channel's OUT slot written by a core. An entry of the safety map of TYPE BIT holds its value in bit 0 (R230). -/
def chWrite (s : State) (c n v : Nat) : State :=
  let w := match mapAt s n with | some m => safImgVal m.typ v | none => v
  if c < 6 then sbWrite s c (0x01030000 + n * 8) (2 ^ 64 - 1) v (decide (taskOn s c ≤ 1))
  else if c = 6 then { s with saf := { s.saf with outA := mput 0 s.saf.outA n w } }
  else { s with saf := { s.saf with outB := mput 0 s.saf.outB n w } }

/-- The checks of a channel operand of type `ty`, for a write when `wr`; then `f` on the state with the entry re-read. -/
def chChecked (s : State) (c n ty : Nat) (wr : Bool) (f : State → Out) : Out :=
  if chRange s c n then .fault s 0x0433 n
  else
    let s1 := (chEntry s c n).2
    if chTypeBad s1 c n ty then .fault s1 0x0434 n
    else
      match if wr then chRefused s1 c n else none with
      | some code => .fault (if code = 0x0435 then ownRefused s1 n else s1) code n
      | none => f s1

/-! ## Operands of bit instructions -/

/-- The channel number of a bit operand in modes 011 and 100. -/
def bitChan (k : Ctx) (mode xi ofs : Nat) : Nat := ((if mode = 4 then getX k xi else 0) + ofs % 2 ^ 14) % 2 ^ 32

/-- The fields of a bit operand are permitted (R50); `chan`: the channel modes are. -/
def bitFieldsOk (mode xi ofs bit : Nat) (chan : Bool) : Bool :=
  modeOk mode xi || (chan && (mode == 4 || mode == 3) && decide (ofs < 2 ^ 14) && bit == 0)

/-- The bit that an operand addresses, read. -/
def bitLoad (s : State) (c : Nat) (k : Ctx) (mode xi ofs bit : Nat) (f : State → Bool → Out) : Out :=
  need (bitFieldsOk mode xi ofs bit true) s 0x0411 0 fun _ =>
    if mode < 3 then
      let a := effAddr k mode xi ofs
      match accessFault c a 1 1 .bitRd false with
      | some code => .fault s code a
      | none => loading s c a 1 (fun s1 bs => f s1 (bitOf (leNat bs) bit))
    else
      let n := bitChan k mode xi ofs
      chChecked s c n 0 false (fun s1 =>
        let (v, s2) := chRead s1 c n
        f s2 (bitOf v.1 0))

/-- The bit that an operand addresses, written with `v`, or only checked when `v` is none (SET and CLR with LB = 0). -/
def bitStore (s : State) (c : Nat) (k : Ctx) (mode xi ofs bit : Nat) (v : Option Bool) (f : State → Out) : Out :=
  need (bitFieldsOk mode xi ofs bit true) s 0x0411 0 fun _ =>
    if mode < 3 then
      let a := effAddr k mode xi ofs
      match accessFault c a 1 1 .bitWr false with
      | some code => .fault s code a
      | none =>
        if uncorr s c a 1 then .fault (memErr s c a) 0x0415 a
        else f (match v with | some b => bitPut s c a bit b | none => s)
    else
      let n := bitChan k mode xi ofs
      chChecked s c n 0 true (fun s1 => f (match v with | some b => chWrite s1 c n (b2n b) | none => s1))

/-- Cycles of a bit instruction: 2, or 4 with a channel, which takes 3 on a safety core (Table HXI-16, R231). -/
def bitCyc (c mode : Nat) : Nat := if mode < 3 then 2 else if c < 6 then 4 else 3

/-! ## Word operands -/

/-- A word operand of format M, of `n` bytes, checked for a use. -/
def wordChecked (s : State) (c : Nat) (k : Ctx) (mode xi ofs n : Nat) (u : Use) (u32 : Bool) (f : Nat → Out) : Out :=
  need (modeOk mode xi) s 0x0411 0 fun _ =>
    let a := effAddr k mode xi (ofs * n)
    match accessFault c a n n u u32 with
    | some code => .fault s code a
    | none => f a

end Sys2Proof.Machine
end

