-- ==== Sys2Proof/Machine/Flags.lean ====
section
/-!
DEFINITION. Arithmetic of the accumulators with its flags: the functions of Table HXI-12 on patterns (R59 to R61), the flag
effects of Table HXI-13, the relation of CMP (R63), and the conditions of JF (Table HXI-15a).
-/

namespace Sys2Proof.Machine

/-- The flags of a core. -/
structure Flags where
  z : Bool := false
  n : Bool := false
  v : Bool := false
  c : Bool := false
  u : Bool := false
  deriving DecidableEq, Repr

/-- Flags put into a context. -/
def setFlags (k : Ctx) (f : Flags) : Ctx := { k with z := f.z, n := f.n, v := f.v, c := f.c, u := f.u }

/-- FLAGS as special register 0x00. -/
def flagsWord (k : Ctx) : Nat := b2n k.z + 2 * b2n k.n + 4 * b2n k.v + 8 * b2n k.c + 16 * b2n k.u

/-- The types of arithmetic: I32, U32, I64, F32, F64. -/
def isArith (t : Nat) : Bool := decide (3 ≤ t ∧ t ≤ 7)
/-- The integer types of arithmetic. -/
def isInt (t : Nat) : Bool := decide (3 ≤ t ∧ t ≤ 5)
/-- The float types. -/
def isFlt (t : Nat) : Bool := decide (t = 6 ∨ t = 7)

/-- The format of a float type. -/
def fmt (t : Nat) : FFmt := if t = 6 then f32 else f64

/-- Flags of an integer result: Z and N of the pattern, with V and C. -/
def intFlags (t r : Nat) (v c : Bool) : Flags :=
  { z := decide (r % 2 ^ tyBits t = 0), n := bitOf r (tyBits t - 1), v := v, c := c }

/-- Flags of a float result: Z for ±0, N the sign bit but 0 for a NaN, U for a NaN, with V. -/
def fltFlags (t r : Nat) (v : Bool) : Flags :=
  { z := fisZero (fmt t) r, n := !fisNan (fmt t) r && bitOf r (tyBits t - 1), v := v, u := fisNan (fmt t) r }

/-- Flags of a result that is only moved. -/
def movFlags (t r : Nat) : Flags := if isFlt t then fltFlags t r false else intFlags t r false false

/-- An integer does not fit type `t`. -/
def noFit (t : Nat) (i : Int) : Bool := decide (i < tyLo t) || decide (tyHi t < i)

/-- The exact result of a signed reading of `w` bits does not fit them. -/
def sOvf (w : Nat) (i : Int) : Bool := decide (i < -((2 ^ (w - 1) : Nat) : Int)) || decide (((2 ^ (w - 1) : Nat) : Int) ≤ i)

/-- Result and flags. -/
abbrev AluRes := Nat × Flags

/-! ## Integer functions (R60) -/

/-- Integer sum: V as signed, C the carry out. -/
def iAdd (t a b : Nat) : AluRes :=
  let w := tyBits t
  let r := (a % 2 ^ w + b % 2 ^ w) % 2 ^ w
  (r, intFlags t r (sOvf w (sint w a + sint w b)) (decide (a % 2 ^ w + b % 2 ^ w ≥ 2 ^ w)))

/-- Integer difference: V as signed, C the borrow. -/
def iSub (t a b : Nat) : AluRes :=
  let w := tyBits t
  let r := pat w (sint w a - sint w b)
  (r, intFlags t r (sOvf w (sint w a - sint w b)) (decide (a % 2 ^ w < b % 2 ^ w)))

/-- Integer product: V when the exact product, signed or for U32 unsigned, does not fit. -/
def iMul (t a b : Nat) : AluRes :=
  let p := tyInt t a * tyInt t b
  let r := pat (tyBits t) p
  (r, intFlags t r (noFit t p) false)

/-- Integer quotient toward zero; the minimum by −1 gives the minimum with V. The divisor is not 0. -/
def iDiv (t a b : Nat) : AluRes :=
  let q := (tyInt t a).tdiv (tyInt t b)
  let r := pat (tyBits t) q
  (r, intFlags t r (noFit t q) false)

/-- Integer remainder, with the sign of the dividend. The divisor is not 0. -/
def iMod (t a b : Nat) : AluRes :=
  let r := pat (tyBits t) ((tyInt t a).tmod (tyInt t b))
  (r, intFlags t r false false)

/-- Integer magnitude; V for the minimum of a signed type. -/
def iAbs (t a : Nat) : AluRes :=
  let m := ((tyInt t a).natAbs : Int)
  let r := pat (tyBits t) m
  (r, intFlags t r (noFit t m) false)

/-- The smaller integer. -/
def iMin (t a b : Nat) : AluRes :=
  let r := (if tyInt t b < tyInt t a then b else a) % 2 ^ tyBits t
  (r, intFlags t r false false)

/-- The larger integer. -/
def iMax (t a b : Nat) : AluRes :=
  let r := (if tyInt t a < tyInt t b then b else a) % 2 ^ tyBits t
  (r, intFlags t r false false)

/-- A bitwise function: Z and N only. -/
def iBits (t r : Nat) : AluRes := (r % 2 ^ tyBits t, intFlags t (r % 2 ^ tyBits t) false false)

/-- Shift left; C is the last bit shifted out, 0 for a count of 0. -/
def iShl (t a n : Nat) : AluRes :=
  let w := tyBits t
  let r := a % 2 ^ w * 2 ^ n % 2 ^ w
  (r, intFlags t r false (decide (0 < n) && decide (n ≤ w) && bitOf (a % 2 ^ w) (w - n)))

/-- Shift right with zero fill. -/
def iShr (t a n : Nat) : AluRes :=
  let w := tyBits t
  let r := a % 2 ^ w / 2 ^ n
  (r, intFlags t r false (decide (0 < n) && bitOf (a % 2 ^ w) (n - 1)))

/-- Shift right with sign fill. -/
def iSar (t a n : Nat) : AluRes :=
  let w := tyBits t
  let r := pat w (sint w a / ((2 ^ n : Nat) : Int))
  (r, intFlags t r false (decide (0 < n) && bitOf (pat 128 (sint w a)) (n - 1)))

/-- Rotation left, the count modulo the width; C is the last bit that went round, 0 for a count of 0, and bit 0 of the result
also for a count of 32 on a type of 32 bits (DESIGN CHOICE, log entry 112). -/
def iRol (t a n : Nat) : AluRes :=
  let w := tyBits t
  let k := n % w
  let x := a % 2 ^ w
  let r := (x * 2 ^ k % 2 ^ w) + x / 2 ^ (w - k) % 2 ^ k
  (r, intFlags t r false (decide (0 < n) && bitOf r 0))

/-! ## Float functions (R61) -/

/-- A float result of two operands: V when finite operands give an infinity. -/
def fRes (t a b r : Nat) : AluRes :=
  (r, fltFlags t r (fisFin (fmt t) a && fisFin (fmt t) b && !fisFin (fmt t) r && !fisNan (fmt t) r))

/-- A float result of one operand. -/
def fOne (t r : Nat) : AluRes := (r, fltFlags t r false)

/-! ## The ALU by function (Table HXI-12) -/

/-- ADD of a type. -/
def aluAdd (t a b : Nat) : AluRes := if isFlt t then fRes t a b (fadd (fmt t) a b) else iAdd t a b
/-- SUB of a type. -/
def aluSub (t a b : Nat) : AluRes := if isFlt t then fRes t a b (fsub (fmt t) a b) else iSub t a b
/-- MUL of a type. -/
def aluMul (t a b : Nat) : AluRes := if isFlt t then fRes t a b (fmul (fmt t) a b) else iMul t a b
/-- DIV of a type. -/
def aluDiv (t a b : Nat) : AluRes := if isFlt t then fRes t a b (fdiv (fmt t) a b) else iDiv t a b
/-- NEG of a type; an integer as 0 − dst. -/
def aluNeg (t a : Nat) : AluRes := if isFlt t then fOne t (fneg (fmt t) a) else iSub t 0 a
/-- ABS of a type. -/
def aluAbs (t a : Nat) : AluRes := if isFlt t then fOne t (fabs (fmt t) a) else iAbs t a
/-- MIN of a type. -/
def aluMin (t a b : Nat) : AluRes := if isFlt t then fOne t (fmin (fmt t) a b) else iMin t a b
/-- MAX of a type. -/
def aluMax (t a b : Nat) : AluRes := if isFlt t then fOne t (fmax (fmt t) a b) else iMax t a b
/-- SQRT. -/
def aluSqrt (t a : Nat) : AluRes := fOne t (fsqrt (fmt t) a)

/-- The pattern of an integer or float type is 0, or ±0. -/
def isZeroPat (t r : Nat) : Bool := if isFlt t then fisZero (fmt t) r else decide (r % 2 ^ tyBits t = 0)

/-- CVT (`rnd`) and TRUNC: V saturated, U for a NaN source. -/
def aluCvt (rnd : Bool) (t u a : Nat) : AluRes :=
  let (r, v, nan) := tyCvt rnd t u (a % 2 ^ tyBits t)
  (r, { z := isZeroPat u r, n := bitOf r (tyBits u - 1), v := v, u := nan })

/-- Cycles by type: integer of 32 bits, I64, F32, F64. -/
def tyCyc (t i32 i64 c32 c64 : Nat) : Nat := if t = 5 then i64 else if t = 6 then c32 else if t = 7 then c64 else i32

/-- A divisor is an integer 0. -/
def divZero (t b : Nat) : Bool := isInt t && decide (b % 2 ^ tyBits t = 0)

/-! ## Comparing (R63) -/

/-- The flags of CMP: equal, less (signed or float), less unsigned, unordered. -/
def cmpFlags (t a b : Nat) : Flags :=
  if isFlt t then { z := feq (fmt t) a b, n := flt (fmt t) a b, u := (fcmp (fmt t) a b).isNone }
  else
    let w := tyBits t
    { z := decide (a % 2 ^ w = b % 2 ^ w), n := decide (sint w a < sint w b), c := decide (a % 2 ^ w < b % 2 ^ w) }

/-- The relation of CMP for a condition: EQ, NE, LT, LE, GT, GE, UN, ORD. -/
def cmpRel (cond t a b : Nat) : Bool :=
  let f := cmpFlags t a b
  let lt := if t = 4 then f.c else f.n
  match cond with
  | 0 => f.z
  | 1 => !f.z
  | 2 => lt
  | 3 => lt || f.z
  | 4 => !f.u && !lt && !f.z
  | 5 => !f.u && !lt
  | 6 => f.u
  | _ => !f.u

/-- The result of CMP combined into LB. -/
def combine (comb : Nat) (lb r : Bool) : Bool :=
  match comb with
  | 0 => lb
  | 1 => r
  | 2 => lb && r
  | _ => lb || r

/-- Condition FC of JF (Table HXI-15a). -/
def jfHolds (fc : Nat) (k : Ctx) : Bool :=
  match fc with
  | 0 => k.z
  | 1 => !k.z
  | 2 => k.n
  | 3 => !k.n && !k.u
  | 4 => k.c
  | 5 => !k.c
  | 6 => k.v
  | 7 => !k.v
  | 8 => k.u
  | 9 => !k.u
  | 10 => !k.z && !k.n && !k.u
  | _ => k.z || k.n

/-- A loaded pattern with Z and N set as LW does (Table HXI-13). -/
def loadFlags (k : Ctx) (t v : Nat) : Ctx := { k with z := decide (v % 2 ^ tyBits t = 0), n := bitOf v (tyBits t - 1) }

end Sys2Proof.Machine
end

