-- ==== Sys2Proof/Machine/Memory.lean ====
section
/-!
DEFINITION. Counters, word loads and stores, the memory forms of arithmetic, block moves and tables (R52, R58, R62, R66, R67).
-/

namespace Sys2Proof.Machine

/-! ## Counters (R58) -/

/-- Effect of a counter operation: CV written, an edge bit written, LB. -/
structure CtrOut where
  cv : Option Int := none
  edge : Option (Nat × Bool) := none
  lb : Bool
  deriving DecidableEq, Repr

/-- The edge memory bit of a counter block, in byte 8 of the block. -/
def ctrEdge (s : State) (c a bit : Nat) (v : Bool) (old : Byte) : State :=
  if c < 6 ∧ 0x02000000 ≤ a ∧ a < 0x03000000 then postWrite s c (a + 8) (leBytes 1 (setBits old.toNat bit 1 (b2n v))) 0
  else bitPut s c (a + 8) bit v

/-- A counter operation on the 16-byte block of its operand; `f` takes CV, PV, byte 8 and LB. -/
def counterOp (c mode xi ac ofs : Nat) (f : Int → Int → Nat → Bool → CtrOut) (s : State) : Res :=
  runOn s c fun s k =>
    need (ac == 0) s 0x0411 0 fun _ =>
      wordChecked s c k mode xi ofs 16 .store false fun a =>
        loading (if c < 6 then rmwDrain s c a 16 else s) c a 16 fun s1 bs =>
          let e := bs.getD 8 0
          let r := f (sint 32 (leNat (bs.take 4))) (sint 32 (leNat ((bs.drop 4).take 4))) e.toNat k.lb
          let s2 := match r.cv with | some v => memWr s1 c a (leBytes 4 (pat 32 v)) | none => s1
          let s3 := match r.edge with | some (b, v) => ctrEdge s2 c a b v e | none => s2
          .done s3 { k with lb := r.lb } 6

/-- CTU. -/
def execCtu (c mode xi ac ofs : Nat) (s : State) : Res :=
  counterOp c mode xi ac ofs (fun cv pv e lb =>
    let up := lb && !bitOf e 0
    let cv1 := if up then min (cv + 1) (2 ^ 31 - 1) else cv
    { cv := if up then some cv1 else none, edge := some (0, lb), lb := decide (cv1 ≥ pv) }) s
/-- CTD. -/
def execCtd (c mode xi ac ofs : Nat) (s : State) : Res :=
  counterOp c mode xi ac ofs (fun cv _ e lb =>
    let dn := lb && !bitOf e 1
    let cv1 := if dn then max (cv - 1) (-(2 ^ 31)) else cv
    { cv := if dn then some cv1 else none, edge := some (1, lb), lb := decide (cv1 ≤ 0) }) s
/-- CTR. -/
def execCtrReset (c mode xi ac ofs : Nat) (s : State) : Res :=
  counterOp c mode xi ac ofs (fun _ _ _ lb => { cv := if lb then some 0 else none, lb := lb }) s
/-- CTL. -/
def execCtl (c mode xi ac ofs : Nat) (s : State) : Res :=
  counterOp c mode xi ac ofs (fun _ pv _ lb => { cv := if lb then some pv else none, lb := lb }) s

/-! ## Loads and stores (R52) -/

/-- LW. -/
def execLw (c mode xi ty : Nat) (ac : Bool) (ofs : Nat) (s : State) : Res :=
  runOn s c fun s k =>
    wordChecked s c k mode xi ofs (tySize ty) .load (ty == 4) fun a =>
      loading s c a (tySize ty) fun s1 bs => .done s1 (loadFlags (setAcc k ac (tyExt ty (leNat bs))) ty (leNat bs)) 2

/-- SW. -/
def execSw (c mode xi ty : Nat) (ac : Bool) (ofs : Nat) (s : State) : Res :=
  runOn s c fun s k =>
    wordChecked s c k mode xi ofs (tySize ty) .store (ty == 4) fun a =>
      .done (memWr s c a (leBytes (tySize ty) (acc k ac))) k 2

/-- An accumulator with the result of arithmetic of a type, and its flags. -/
def accResult (k : Ctx) (ac : Bool) (ty : Nat) (r : AluRes) : Ctx := setFlags (setAcc k ac (tyExt ty r.1)) r.2

/-- A memory form of arithmetic (R62); `dz` refuses a zero divisor, with the operand's address in FAULT_ADDR (DESIGN CHOICE,
log entry 110). -/
def memArith (c mode xi ty : Nat) (ac : Bool) (ofs : Nat) (f : Nat → Nat → Nat → AluRes) (dz : Bool) (cyc : Nat) (s : State) :
    Res :=
  runOn s c fun s k =>
    need (isArith ty) s 0x0411 0 fun _ =>
      wordChecked s c k mode xi ofs (tySize ty) .load (ty == 4) fun a =>
        loading s c a (tySize ty) fun s1 bs =>
          need (!(dz && divZero ty (leNat bs))) s1 0x0430 a fun _ =>
            .done s1 (accResult k ac ty (f ty (acc k ac % 2 ^ tyBits ty) (leNat bs))) (cyc + 2)

/-- ADDM. -/
def execAddm (c mode xi ty : Nat) (ac : Bool) (ofs : Nat) (s : State) : Res :=
  memArith c mode xi ty ac ofs aluAdd false (tyCyc ty 1 1 2 2) s
/-- SUBM. -/
def execSubm (c mode xi ty : Nat) (ac : Bool) (ofs : Nat) (s : State) : Res :=
  memArith c mode xi ty ac ofs aluSub false (tyCyc ty 1 1 2 2) s
/-- MULM. -/
def execMulm (c mode xi ty : Nat) (ac : Bool) (ofs : Nat) (s : State) : Res :=
  memArith c mode xi ty ac ofs aluMul false (tyCyc ty 2 3 3 4) s
/-- DIVM. -/
def execDivm (c mode xi ty : Nat) (ac : Bool) (ofs : Nat) (s : State) : Res :=
  memArith c mode xi ty ac ofs aluDiv true (tyCyc ty 10 18 8 14) s

/-! ## Block moves and tables (R66, R67) -/

/-- The fault of a move: the address checks of both ranges in the order of R76, the source before the destination. -/
def moveFault (c src dst n : Nat) : Option (Nat × Nat) :=
  let a := accessFault c src n 1 .load false
  let b := accessFault c dst n 1 .store false
  if a = some 0x0412 then some (0x0412, src)
  else if b = some 0x0412 then some (0x0412, dst)
  else match a, b with
    | some code, _ => some (code, src)
    | none, some code => some (code, dst)
    | none, none => none

/-- The bytes of a source range before its first 64-bit word with an uncorrectable error; all where there is none. -/
def goodBytes (s : State) (c a n : Nat) : Nat :=
  let x := if c < 6 then a else (safAddr c a).getD 0
  (s.bad.filter (fun w => meets x n (w * 8) 8)).foldl (fun m w => min m (w * 8 - x)) n

/-- MOVB. -/
def execMovb (c xd xs rsv cnt : Nat) (s : State) : Res :=
  runOn s c fun s k =>
    need (rsv == 0) s 0x0411 0 fun _ =>
      let src := getX k xs
      let dst := getX k xd
      let n := cnt + 1
      match moveFault c src dst n with
      | some (code, a) => .fault s code a
      | none =>
        let bad := uncorr s c src n
        let m := if bad then goodBytes s c src n else n
        let (bs, s1) := memRd s c src m
        let s2 := memWr s1 c dst bs
        if bad then .fault (memErr s2 c (src + m)) 0x0415 (src + m) else .done s2 k (6 + ceilDiv n 32)

/-- The number of elements that LIM names. -/
def tblLim (lim : Nat) : Nat := if lim = 0 then 16384 else lim

/-- TBL. TBL_RANGE has the element's address in FAULT_ADDR (DESIGN CHOICE, log entry 111). -/
def execTbl (c xb xi ty : Nat) (ac : Bool) (lim : Nat) (s : State) : Res :=
  runOn s c fun s k =>
    let n := tySize ty
    let a := (getX k xb + getX k xi * n) % 2 ^ 32
    match accessFault c a n n .load (ty == 4) with
    | some code => .fault s code a
    | none =>
      need (decide (getX k xi < tblLim lim)) s 0x0431 a fun _ =>
        loading s c a n fun s1 bs => .done s1 (loadFlags (setAcc k ac (tyExt ty (leNat bs))) ty (leNat bs)) 3

end Sys2Proof.Machine
end

