-- ==== Sys2Proof/Machine/Alu.lean ====
section
/-!
DEFINITION. Word arithmetic on the accumulators: ALU, LDI, ADDI, CMP (R59 to R64).
-/

namespace Sys2Proof.Machine

/-- An ALU function on patterns of its type: destination, then the other operand. `tyOk` are its types; TYPE2 and the
reserved field must be 0; `dz` refuses a zero divisor (R59, R60). -/
def aluOp (c ty : Nat) (d : Bool) (ty2 rsv : Nat) (tyOk : Nat → Bool) (f : Nat → Nat → Nat → AluRes) (dz : Bool) (cyc : Nat)
    (s : State) : Res :=
  runOn s c fun s k =>
    need (tyOk ty && ty2 == 0 && rsv == 0) s 0x0411 0 fun _ =>
      let a := acc k d % 2 ^ tyBits ty
      let b := acc k (!d) % 2 ^ tyBits ty
      need (!(dz && divZero ty b)) s 0x0430 0 fun _ => .done s (accResult k d ty (f ty a b)) cyc

/-- ADD. -/
def execAluAdd (c ty : Nat) (d : Bool) (ty2 rsv : Nat) (s : State) : Res :=
  aluOp c ty d ty2 rsv isArith aluAdd false (tyCyc ty 1 1 2 2) s
/-- SUB. -/
def execAluSub (c ty : Nat) (d : Bool) (ty2 rsv : Nat) (s : State) : Res :=
  aluOp c ty d ty2 rsv isArith aluSub false (tyCyc ty 1 1 2 2) s
/-- MUL. -/
def execAluMul (c ty : Nat) (d : Bool) (ty2 rsv : Nat) (s : State) : Res :=
  aluOp c ty d ty2 rsv isArith aluMul false (tyCyc ty 2 3 3 4) s
/-- DIV. -/
def execAluDiv (c ty : Nat) (d : Bool) (ty2 rsv : Nat) (s : State) : Res :=
  aluOp c ty d ty2 rsv isArith aluDiv true (tyCyc ty 10 18 8 14) s
/-- MOD. -/
def execAluMod (c ty : Nat) (d : Bool) (ty2 rsv : Nat) (s : State) : Res :=
  aluOp c ty d ty2 rsv isInt iMod true (tyCyc ty 10 18 0 0) s
/-- NEG. -/
def execAluNeg (c ty : Nat) (d : Bool) (ty2 rsv : Nat) (s : State) : Res :=
  aluOp c ty d ty2 rsv isArith (fun t a _ => aluNeg t a) false 1 s
/-- ABS. -/
def execAluAbs (c ty : Nat) (d : Bool) (ty2 rsv : Nat) (s : State) : Res :=
  aluOp c ty d ty2 rsv isArith (fun t a _ => aluAbs t a) false 1 s
/-- MIN. -/
def execAluMin (c ty : Nat) (d : Bool) (ty2 rsv : Nat) (s : State) : Res := aluOp c ty d ty2 rsv isArith aluMin false 1 s
/-- MAX. -/
def execAluMax (c ty : Nat) (d : Bool) (ty2 rsv : Nat) (s : State) : Res := aluOp c ty d ty2 rsv isArith aluMax false 1 s
/-- SQRT. -/
def execAluSqrt (c ty : Nat) (d : Bool) (ty2 rsv : Nat) (s : State) : Res :=
  aluOp c ty d ty2 rsv isFlt (fun t a _ => aluSqrt t a) false (tyCyc ty 0 0 10 16) s
/-- AND. -/
def execAluAnd (c ty : Nat) (d : Bool) (ty2 rsv : Nat) (s : State) : Res :=
  aluOp c ty d ty2 rsv isInt (fun t a b => iBits t (a &&& b)) false 1 s
/-- OR. -/
def execAluOr (c ty : Nat) (d : Bool) (ty2 rsv : Nat) (s : State) : Res :=
  aluOp c ty d ty2 rsv isInt (fun t a b => iBits t (a ||| b)) false 1 s
/-- XOR. -/
def execAluXor (c ty : Nat) (d : Bool) (ty2 rsv : Nat) (s : State) : Res :=
  aluOp c ty d ty2 rsv isInt (fun t a b => iBits t (a ^^^ b)) false 1 s
/-- NOT. -/
def execAluNot (c ty : Nat) (d : Bool) (ty2 rsv : Nat) (s : State) : Res :=
  aluOp c ty d ty2 rsv isInt (fun t a _ => iBits t (2 ^ tyBits t - 1 - a)) false 1 s
/-- SHL, by bits [5:0] of the other accumulator. -/
def execAluShl (c ty : Nat) (d : Bool) (ty2 rsv : Nat) (s : State) : Res :=
  aluOp c ty d ty2 rsv isInt (fun t a b => iShl t a (b % 64)) false 1 s
/-- SHR. -/
def execAluShr (c ty : Nat) (d : Bool) (ty2 rsv : Nat) (s : State) : Res :=
  aluOp c ty d ty2 rsv isInt (fun t a b => iShr t a (b % 64)) false 1 s
/-- SAR. -/
def execAluSar (c ty : Nat) (d : Bool) (ty2 rsv : Nat) (s : State) : Res :=
  aluOp c ty d ty2 rsv isInt (fun t a b => iSar t a (b % 64)) false 1 s
/-- ROL. -/
def execAluRol (c ty : Nat) (d : Bool) (ty2 rsv : Nat) (s : State) : Res :=
  aluOp c ty d ty2 rsv isInt (fun t a b => iRol t a (b % 64)) false 1 s

/-- CVT and TRUNC: the destination from TYPE to TYPE2. -/
def cvtOp (c ty : Nat) (d : Bool) (ty2 rsv : Nat) (ok rnd : Bool) (s : State) : Res :=
  runOn s c fun s k =>
    need (ok && rsv == 0) s 0x0411 0 fun _ => .done s (accResult k d ty2 (aluCvt rnd ty ty2 (acc k d))) 2

/-- CVT. -/
def execAluCvt (c ty : Nat) (d : Bool) (ty2 rsv : Nat) (s : State) : Res :=
  cvtOp c ty d ty2 rsv (isArith ty && isArith ty2) true s
/-- TRUNC. -/
def execAluTrunc (c ty : Nat) (d : Bool) (ty2 rsv : Nat) (s : State) : Res :=
  cvtOp c ty d ty2 rsv (isFlt ty && isInt ty2) false s
/-- MOV. -/
def execAluMov (c ty : Nat) (d : Bool) (ty2 rsv : Nat) (s : State) : Res :=
  aluOp c ty d ty2 rsv isArith (fun t _ b => (b, movFlags t b)) false 1 s
/-- SWP: both accumulators whole; the flags follow the new destination. -/
def execAluSwp (c ty : Nat) (d : Bool) (ty2 rsv : Nat) (s : State) : Res :=
  runOn s c fun s k =>
    need (isArith ty && ty2 == 0 && rsv == 0) s 0x0411 0 fun _ =>
      let k1 := { k with wa := k.wb, wb := k.wa }
      .done s (setFlags k1 (movFlags ty (acc k1 d % 2 ^ tyBits ty))) 1
/-- CLRW. -/
def execAluClrw (c ty : Nat) (d : Bool) (ty2 rsv : Nat) (s : State) : Res :=
  aluOp c ty d ty2 rsv isArith (fun t _ _ => (0, movFlags t 0)) false 1 s
/-- SEXTB. -/
def execAluSextb (c ty : Nat) (d : Bool) (ty2 rsv : Nat) (s : State) : Res :=
  aluOp c ty d ty2 rsv isInt (fun t a _ => iBits t (pat 64 (sint 8 a))) false 1 s
/-- SEXTH. -/
def execAluSexth (c ty : Nat) (d : Bool) (ty2 rsv : Nat) (s : State) : Res :=
  aluOp c ty d ty2 rsv isInt (fun t a _ => iBits t (pat 64 (sint 16 a))) false 1 s

/-- LDI: quarter POS of an accumulator; the other bits stay with KEEP = 1 and become 0 with KEEP = 0. -/
def execLdi (c : Nat) (ac : Bool) (pos : Nat) (keep : Bool) (rsv imm : Nat) (s : State) : Res :=
  runOn s c fun s k =>
    need (rsv == 0) s 0x0411 0 fun _ =>
      .done s (setAcc k ac (setBits (if keep then acc k ac else 0) (16 * (pos % 4)) 16 imm)) 1

/-- ADDI: the sign-extended IMM16, as I32 for W = 0 and as I64 for W = 1. -/
def execAddi (c : Nat) (ac w : Bool) (rsv imm : Nat) (s : State) : Res :=
  runOn s c fun s k =>
    need (rsv == 0) s 0x0411 0 fun _ =>
      let ty := if w then 5 else 3
      .done s (accResult k ac ty (iAdd ty (acc k ac) (pat (tyBits ty) (sint 16 imm)))) 1

/-- CMP. -/
def execCmp (c cond ty comb rsv : Nat) (s : State) : Res :=
  runOn s c fun s k =>
    need (isArith ty && rsv == 0) s 0x0411 0 fun _ =>
      let a := acc k false % 2 ^ tyBits ty
      let b := acc k true % 2 ^ tyBits ty
      .done s { setFlags k (cmpFlags ty a b) with lb := combine comb k.lb (cmpRel cond ty a b) } (if isFlt ty then 2 else 1)

end Sys2Proof.Machine
end

