-- ==== Sys2Proof/Machine/BitLogic.lean ====
section
/-!
DEFINITION. Bit logic and the branch stack (R53 to R55, Tables HXI-8 and HXI-9).
-/

namespace Sys2Proof.Machine

/-! ## Shared forms -/

/-- A bit instruction that reads its operand: LB from LB and the operand. -/
def bitRead (c mode xi ofs bit : Nat) (f : Bool → Bool → Bool) (s : State) : Res :=
  runOn s c fun s k => bitLoad s c k mode xi ofs bit fun s1 op => .done s1 { k with lb := f k.lb op } (bitCyc c mode)

/-- A bit instruction that writes its operand with a value made of LB, or only checks it. -/
def bitWrite (c mode xi ofs bit : Nat) (f : Bool → Option Bool) (s : State) : Res :=
  runOn s c fun s k => bitStore s c k mode xi ofs bit (f k.lb) fun s1 => .done s1 k (bitCyc c mode)

/-- An edge instruction: an atomic read-modify-write of the edge memory bit (R43, R53). -/
def bitEdge (c mode xi ofs bit : Nat) (f : Bool → Bool → Bool) (s : State) : Res :=
  runOn s c fun s k =>
    need (bitFieldsOk mode xi ofs bit false) s 0x0411 0 fun _ =>
      let a := effAddr k mode xi ofs
      match accessFault c a 1 1 .bitWr false with
      | some code => .fault s code a
      | none =>
        loading (if c < 6 then rmwDrain s c a 1 else s) c a 1 fun s1 bs =>
          .done (bitPut s1 c a bit k.lb) { k with lb := f k.lb (bitOf (leNat bs) bit) } 3

/-- A sub-operation of LBOP on the context; the reserved field must be 0. -/
def lbop (c rsv : Nat) (f : Ctx → Ctx) (s : State) : Res :=
  runOn s c fun s k => need (rsv == 0) s 0x0411 0 fun _ => .done s (f k) 1

/-! ## Bit instructions (Table HXI-8) -/

/-- LD. -/
def execLd (c mode xi ofs bit : Nat) (s : State) : Res := bitRead c mode xi ofs bit (fun _ op => op) s
/-- LDN. -/
def execLdn (c mode xi ofs bit : Nat) (s : State) : Res := bitRead c mode xi ofs bit (fun _ op => !op) s
/-- AND. -/
def execAnd (c mode xi ofs bit : Nat) (s : State) : Res := bitRead c mode xi ofs bit (fun lb op => lb && op) s
/-- ANDN. -/
def execAndn (c mode xi ofs bit : Nat) (s : State) : Res := bitRead c mode xi ofs bit (fun lb op => lb && !op) s
/-- OR. -/
def execOr (c mode xi ofs bit : Nat) (s : State) : Res := bitRead c mode xi ofs bit (fun lb op => lb || op) s
/-- ORN. -/
def execOrn (c mode xi ofs bit : Nat) (s : State) : Res := bitRead c mode xi ofs bit (fun lb op => lb || !op) s
/-- XOR. -/
def execXor (c mode xi ofs bit : Nat) (s : State) : Res := bitRead c mode xi ofs bit (fun lb op => lb != op) s
/-- XORN. -/
def execXorn (c mode xi ofs bit : Nat) (s : State) : Res := bitRead c mode xi ofs bit (fun lb op => lb == op) s
/-- ST. -/
def execSt (c mode xi ofs bit : Nat) (s : State) : Res := bitWrite c mode xi ofs bit (fun lb => some lb) s
/-- STN. -/
def execStn (c mode xi ofs bit : Nat) (s : State) : Res := bitWrite c mode xi ofs bit (fun lb => some (!lb)) s
/-- SET: with LB = 0 only the checks. -/
def execSet (c mode xi ofs bit : Nat) (s : State) : Res :=
  bitWrite c mode xi ofs bit (fun lb => if lb then some true else none) s
/-- CLR: with LB = 0 only the checks. -/
def execClr (c mode xi ofs bit : Nat) (s : State) : Res :=
  bitWrite c mode xi ofs bit (fun lb => if lb then some false else none) s
/-- EDR. -/
def execEdr (c mode xi ofs bit : Nat) (s : State) : Res := bitEdge c mode xi ofs bit (fun lb op => lb && !op) s
/-- EDF. -/
def execEdf (c mode xi ofs bit : Nat) (s : State) : Res := bitEdge c mode xi ofs bit (fun lb op => !lb && op) s

/-! ## LBOP (Table HXI-9). The branch stack lists its entries (LB, PO), the top first. -/

/-- NOT. -/
def execLbopNot (c rsv : Nat) (s : State) : Res := lbop c rsv (fun k => { k with lb := !k.lb }) s
/-- LB0. -/
def execLbopLb0 (c rsv : Nat) (s : State) : Res := lbop c rsv (fun k => { k with lb := false }) s
/-- LB1. -/
def execLbopLb1 (c rsv : Nat) (s : State) : Res := lbop c rsv (fun k => { k with lb := true }) s
/-- BOP. -/
def execBop (c rsv : Nat) (s : State) : Res :=
  runOn s c fun s k =>
    need (rsv == 0) s 0x0411 0 fun _ => need (decide (k.br.length < 16)) s 0x0420 0 fun _ =>
      .done s { k with br := (k.lb, false) :: k.br } 1
/-- BNX. -/
def execBnx (c rsv : Nat) (s : State) : Res :=
  runOn s c fun s k =>
    need (rsv == 0) s 0x0411 0 fun _ =>
      match k.br with
      | [] => .fault s 0x0421 0
      | (l, po) :: t => .done s { k with lb := l, br := (l, po || k.lb) :: t } 1
/-- BCL. -/
def execBcl (c rsv : Nat) (s : State) : Res :=
  runOn s c fun s k =>
    need (rsv == 0) s 0x0411 0 fun _ =>
      match k.br with
      | [] => .fault s 0x0421 0
      | (_, po) :: t => .done s { k with lb := po || k.lb, br := t } 1
/-- LBW. -/
def execLbw (c rsv : Nat) (s : State) : Res := lbop c rsv (fun k => setAcc k false (b2n k.lb)) s
/-- WLB. -/
def execWlb (c rsv : Nat) (s : State) : Res := lbop c rsv (fun k => { k with lb := decide (acc k false ≠ 0) }) s

end Sys2Proof.Machine
end

