-- ==== Sys2Proof/Machine/Channels.lean ====
section
/-!
DEFINITION. Channel access: CHR, CHW, CHINV (R65, R84, R149, R230).
-/

namespace Sys2Proof.Machine

/-- The number of a channel operand of format H. -/
def chanNo (k : Ctx) (i : Bool) (xi chan : Nat) : Nat := ((if i then getX k xi else 0) + chan) % 2 ^ 32

/-- CHR: the value extended by TYPE into WA, the status word into WB; 4 cycles, 3 on a safety core. -/
def execChr (c : Nat) (i : Bool) (xi ty : Nat) (all : Bool) (rsv chan : Nat) (s : State) : Res :=
  runOn s c fun s k =>
    need (!all && rsv == 0) s 0x0411 0 fun _ =>
      let n := chanNo k i xi chan
      chChecked s c n ty false fun s1 =>
        let (v, s2) := chRead s1 c n
        .done s2 (setAcc (setAcc k false (tyExt ty v.1)) true v.2) (if c < 6 then 4 else 3)

/-- CHW: WA, by TYPE, into the OUT slot. -/
def execChw (c : Nat) (i : Bool) (xi ty : Nat) (all : Bool) (rsv chan : Nat) (s : State) : Res :=
  runOn s c fun s k =>
    need (!all && rsv == 0) s 0x0411 0 fun _ =>
      let n := chanNo k i xi chan
      chChecked s c n ty true fun s1 => .done (chWrite s1 c n (acc k false % 2 ^ tyBits ty)) k 3

/-- CHINV: after the CHTAB writes of the core, one cached entry or all of them are marked invalid. A safety core has no
CHINV. -/
def execChinv (c : Nat) (i : Bool) (xi : Nat) (all : Bool) (rsv chan : Nat) (s : State) : Res :=
  runOn s c fun s k =>
    need (decide (c < 6)) s 0x0410 0 fun _ =>
      need (rsv == 0 && (!all || (!i && xi == 0 && chan == 0))) s 0x0411 0 fun _ =>
        if all then .done (invalidateAll (ddrDrain s c)) k 32
        else
          let n := chanNo k i xi chan
          need (decide (n < nChan s)) s 0x0433 n fun _ => .done (invalidate (ddrDrain s c) n) k 8

end Sys2Proof.Machine
end

