-- ==== Sys2Proof/Machine/Ecall.lean ====
section
/-!
DEFINITION. ECALL (R70, R90 to R100, R495): the checks at issue, the queue of the engine, the issue result, and the wait of the
synchronous form. The operand areas are those of the engines' chapters, the bounds those of Table ORD-10.
-/

namespace Sys2Proof.Machine

open R

/-! ## Functions of the engines -/

/-- A function is assigned (Table ORD-10). -/
def fnAssigned (unit fn : Nat) : Bool :=
  decide (fn < (match unit with | 0 => 7 | 1 => 4 | 2 => 5 | 3 => 3 | 4 => 4 | 5 => 5 | 6 => 4 | 7 => 2 | _ => 0))

/-- An instance exists on the variant (Table ORD-9); of TIME, per function. -/
def instExists (s : State) (unit fn inst : Nat) : Bool :=
  decide (inst < (match unit with
    | 0 => 256 | 1 => 128 | 2 => nAxis s | 3 => 16 | 4 => nSta s | 5 => 4
    | 6 => (match fn with | 0 => 4 | 1 => 4 | 2 => 1 | _ => 8)
    | _ => 1))

/-- The function is a READ, for which RUN is not checked. -/
def isRead (unit fn : Nat) : Bool := [(0, 4), (1, 3), (2, 4), (3, 2), (4, 3)].contains (unit, fn)

/-- Queue depth of an engine (Table ORD-9). -/
def queueDepth (unit : Nat) : Nat :=
  match unit with | 0 => 128 | 1 => 64 | 2 => 32 | 3 => 32 | 4 => 64 | 5 => 64 | 6 => 16 | _ => 32

/-- Bytes of the operand area of a function, from offset 0x10 (Tables LOOP-6, PROF-4, PROF-6, BSN-1, BSN-7, LNK-17, CAN-4,
TIME-4, REC-6). Where it depends on an operand the engine reads that operand. -/
def areaLen (s : State) (unit fn addr : Nat) : Nat × State :=
  let fixed (n : Nat) : Nat × State := (n, s)
  match unit, fn with
  | 0, 0 => fixed 16 | 0, 1 => fixed 8 | 0, 3 => fixed 8 | 0, 4 => fixed 48 | 0, 5 => fixed 24 | 0, 6 => fixed 8
  | 1, 0 => fixed 40 | 1, 1 => fixed 24 | 1, 3 => fixed 48
  | 2, 2 => fixed 8 | 2, 3 => fixed 520 | 2, 4 => fixed 24
  | 3, 0 => fixed 40 | 3, 2 => fixed 24
  | 4, 0 =>
    let (n, s1) := engN s (addr + 0x18) 2
    (16 + n, s1)
  | 4, 1 => fixed 72 | 4, 3 => fixed 48
  | 5, 0 => fixed 80 | 5, 1 => fixed 80 | 5, 2 => fixed 4
  | 5, 3 =>
    let (n, s1) := engN s (addr + 0x10) 2
    (8 + 80 * n, s1)
  | 5, 4 => fixed 1
  | 6, 0 =>
    let (w, s1) := engN s (addr + 0x10) 8
    let op := bits w 0 8
    (if op = 0 then 8 + 16 * bits w 16 16 else if op = 1 then 24 else 8, s1)
  | 6, 1 => fixed 136 | 6, 2 => fixed 16 | 6, 3 => fixed 20
  | 7, 0 => fixed 28 | 7, 1 => fixed 8
  | _, _ => fixed 0

/-- The longest wait of the synchronous form in ns (Table ORD-10). -/
def callBound (s : State) (unit fn inst addr : Nat) : Nat × State :=
  let ns (n : Nat) : Nat × State := (n, s)
  match unit, fn with
  | 0, 4 => ns 5000 | 0, 6 => ns 5000 | 0, _ => ns (2 * loopTl s inst)
  | 1, 3 => ns 5000 | 1, _ => ns (2 * profTp s inst)
  | 2, 0 => ns 50000000 | 2, 1 => ns (2 * period s 0) | 2, 3 => ns 50000 | 2, _ => ns 5000
  | 3, 0 =>
    let (d, s1) := engN s (addr + 0x10) 8
    (d - now s1, s1)
  | 3, 1 => ns 1000000 | 3, _ => ns 5000
  | 4, 0 =>
    let (t, s1) := engN s (addr + 0x1C) 4
    (if t = 0 then tAcyc s1 (inst / 4) else t * 1000, s1)
  | 4, 1 => ns (2 * period s 0) | 4, 2 => ns (getF s LNK_P_CFG_T_INIT (inst / 4) * 100000000) | 4, _ => ns 5000
  | 5, 0 => ns 100000000 | 5, 1 => ns 100000000 | 5, 2 => ns 2000000 | 5, 3 => ns 20000 | 5, _ => ns 10000000
  | 6, _ => ns 5000
  | 7, 0 => ns 1000000
  | _, _ => ns 5000

/-! ## Checks at issue (R94) -/

/-- `n` bytes from an address lie wholly in one of DATA, RETAIN and DDRW (R91). -/
def inStores (a n : Nat) : Bool :=
  match region a n with | some .data => true | some .retain => true | some .ddrw => true | _ => false

/-- The number of the instance called: INST, or SEL for INST = 0x1FF. -/
def callInst (sel inst : Nat) : Nat := if inst = 0x1FF then sel % 2 ^ 9 else inst

/-- A descriptor breaks R91, is too short, or its SEL breaks R94; with SEL and LEN as the engine reads them. -/
def descBad (s : State) (unit fn inst addr : Nat) : Bool × Nat × Nat × State :=
  if addr % 8 ≠ 0 || !inStores addr 16 then (true, 0, 0, s)
  else
    let (w, s2) := engN s addr 8
    let sel := bits w 0 32
    let len := bits w 32 32
    let (need_, s3) := areaLen s2 unit fn addr
    (decide (len % 8 ≠ 0) || decide (len > 4080) || !inStores addr (16 + len) || decide (len < need_) ||
      (inst == 0x1FF && decide (sel / 2 ^ 9 ≠ 0)), sel, len, s3)

/-- The code byte that refuses a call with a sound descriptor: KEY_REFUSED, NOT_RUN or QUEUE_FULL. -/
def callRefused (s : State) (unit fn i : Nat) : Option Nat :=
  let (b, n) := engInst unit i
  let q := getEngq s unit
  if unit = 0 ∧ fn = 5 ∧ !inTune s then some 6
  else if !isRead unit fn && !inRun s b n then some 4
  else if q.length ≥ queueDepth unit then some 3
  else if unit = 5 ∧ fn = 0 ∧
    (mget s.can.chs i {}).fifo.length + (q.filter (fun c => c.inst == i && c.fn == 0)).length ≥ 64 then some 3
  else none

/-- The ticket after the last one given: 1 at first, 0 skipped (R93). -/
def nextTicket (last : Nat) : Nat := let t := (last + 1) % 2 ^ 32; if t = 0 then 1 else t

/-- An accepted call enters the queue of its engine and gets a ticket. -/
def callAccept (s : State) (unit fn i addr len : Nat) : Nat × State :=
  let t := nextTicket (mget s.tsk.tickets unit 0)
  (t, setEngq { s with tsk := { s.tsk with tickets := mput 0 s.tsk.tickets unit t } } unit
        (getEngq s unit ++ [{ unit := unit, fn := fn, inst := i, ticket := t, addr := addr, len := len, since := now s }]))

/-- The issue of R94, after the checks of R70 on the instruction's own fields. -/
def callIssue (s : State) (k : Ctx) (unit fn inst addr : Nat) : Out :=
  let (bad, sel, len, s1) := descBad s unit fn inst addr
  let i := callInst sel inst
  if bad then .done s1 (setAcc k false (cmplWord 0 (engCode unit + 2) 0)) 4
  else
    need (instExists s1 unit fn i) s1 0x0440 0 fun _ =>
      match callRefused s1 unit fn i with
      | some code => .done s1 (setAcc k false (cmplWord 0 (engCode unit + code) 0)) 4
      | none =>
        let (t, s2) := callAccept s1 unit fn i addr len
        .done s2 (setAcc k false (t + engCode unit * 2 ^ 32)) 4

/-! ## The wait of S = 1 (R100) -/

/-- A core waits for the completion of the call that WA names; a refused call leaves DONE = 1 and no wait. The core takes
other segments of its band or below meanwhile (R111, R112). -/
def ecallWait (s : State) (c unit fn inst addr : Nat) : State :=
  let k := getCore s c
  if k.ctx.wa.toNat / 2 ^ 63 = 1 then s
  else
    let (sel, s0) := if inst = 0x1FF then engN s addr 4 else (0, s)
    let (b, s1) := callBound s0 unit fn (callInst sel inst) addr
    let t := k.ctx.wa.toNat % 2 ^ 32
    match (getCore s1 c).run with
    | some _ => schedule (takeOff s1 c (.inEcall unit t addr (tickNs s1 + b)) 2) c
    | none => setCore s1 c { getCore s1 c with mode := .inEcall unit t addr (tickNs s1 + b) }

/-- ECALL; a safety core has none. -/
def execEcall (c unit fn : Nat) (sync : Bool) (xp rsv inst : Nat) (s : State) : Res :=
  runThen s c (fun s k =>
    need (decide (c < 6)) s 0x0410 0 fun _ =>
      need (rsv == 0) s 0x0411 0 fun _ =>
        let s1 := if sync then fenceX s c else s
        need (fnAssigned unit fn && (inst == 0x1FF || instExists s1 unit fn inst)) s1 0x0440 0 fun _ =>
          callIssue s1 k unit fn inst (getX k xp))
    (fun s => if sync then ecallWait s c unit fn inst (getX (getCore s c).ctx xp) else s)

end Sys2Proof.Machine
end

