-- ==== Sys2Proof/Machine/Flow.lean ====
section
/-!
DEFINITION. Jumps and calls (R68). The context that an instruction finds already has the PC of the next instruction.
-/

namespace Sys2Proof.Machine

/-- Bytes of code of the active slot, or of the core's safety image. -/
def codeLen (s : State) (c : Nat) : Nat :=
  if c < 6 then (actSlot s).codeLen else if c = 6 then s.saf.img.imgA.codeLen else s.saf.img.imgB.codeLen

/-- The target of a jump: its own address plus 4 times the signed offset of `w` bits. -/
def jumpTo (k : Ctx) (w ofs : Nat) : Int := ((k.pc + 2 ^ 32 - 4) % 2 ^ 32 : Nat) + 4 * sint w ofs

/-- A target lies in the code. -/
def inCode (s : State) (c : Nat) (t : Int) : Bool := decide (0 ≤ t) && decide (t < codeLen s c)

/-- A jump to a target, with the context `k` otherwise as it is; ADDR_RANGE outside the code, with the target as the address
of the fault (DEDUCED, log entry 26). -/
def jumping (s : State) (c : Nat) (k : Ctx) (t : Int) (cyc : Nat) : Out :=
  need (inCode s c t) s 0x0412 (pat 32 t) fun _ => .done s { k with pc := t.toNat } cyc

/-- A conditional jump: 2 cycles when taken, 1 when not. -/
def jumpIf (s : State) (c : Nat) (k : Ctx) (w ofs : Nat) (b : Bool) : Out :=
  if b then jumping s c k (jumpTo k w ofs) 2 else .done s k 1

/-- A call: the return address goes on the call stack, the top first; CALL_OVF with 32 entries. -/
def calling (s : State) (k : Ctx) (t : Int) (cyc : Nat) : Out :=
  need (decide (k.calls.length < 32)) s 0x0423 0 fun _ => .done s { k with pc := t.toNat, calls := k.pc :: k.calls } cyc

/-- JMP. -/
def execJmp (c ofs : Nat) (s : State) : Res := runOn s c fun s k => jumping s c k (jumpTo k 26 ofs) 2
/-- JLB. -/
def execJlb (c ofs : Nat) (s : State) : Res := runOn s c fun s k => jumpIf s c k 26 ofs k.lb
/-- JLBN. -/
def execJlbn (c ofs : Nat) (s : State) : Res := runOn s c fun s k => jumpIf s c k 26 ofs (!k.lb)
/-- JF. -/
def execJf (c fc ofs : Nat) (s : State) : Res :=
  runOn s c fun s k => need (decide (fc < 12)) s 0x0411 0 fun _ => jumpIf s c k 22 ofs (jfHolds fc k)
/-- CALL. -/
def execCall (c ofs : Nat) (s : State) : Res :=
  runOn s c fun s k =>
    need (inCode s c (jumpTo k 26 ofs)) s 0x0412 (pat 32 (jumpTo k 26 ofs)) fun _ => calling s k (jumpTo k 26 ofs) 2
/-- RET. -/
def execRet (c rsv : Nat) (s : State) : Res :=
  runOn s c fun s k =>
    need (rsv == 0) s 0x0411 0 fun _ =>
      match k.calls with
      | [] => .fault s 0x0424 0
      | a :: t => .done s { k with pc := a, calls := t } 2
/-- DJNZ. -/
def execDjnz (c xd ofs : Nat) (s : State) : Res :=
  runOn s c fun s k =>
    let x := (getX k xd + 2 ^ 32 - 1) % 2 ^ 32
    jumpIf s c (setX k xd x) 22 ofs (decide (x ≠ 0))
/-- CALLX; a safety core has none. -/
def execCallx (c xi rsv : Nat) (s : State) : Res :=
  runOn s c fun s k =>
    need (decide (c < 6)) s 0x0410 0 fun _ => need (rsv == 0) s 0x0411 0 fun _ =>
      need (inCode s c (getX k xi)) s 0x0412 (getX k xi) fun _ => need (decide (getX k xi % 4 = 0)) s 0x0413 (getX k xi) fun _ =>
        calling s k (getX k xi) 3

end Sys2Proof.Machine
end

