-- ==== Sys2Proof/Machine/Index.lean ====
section
/-!
DEFINITION. Index registers: LXI and XALU (R69). All take 1 cycle and leave the flags unchanged.
-/

namespace Sys2Proof.Machine

/-- LXI: one half of XD; the other half stays with KEEP = 1 and becomes 0 with KEEP = 0. -/
def execLxi (c xd : Nat) (hi keep : Bool) (rsv imm : Nat) (s : State) : Res :=
  runOn s c fun s k =>
    need (rsv == 0) s 0x0411 0 fun _ =>
      .done s (setX k xd (setBits (if keep then getX k xd else 0) (if hi then 16 else 0) 16 imm)) 1

/-- XALU with the permitted fields `ok`: a new XD, modulo 2³². -/
def xalu (c xd : Nat) (ok : Bool) (f : Ctx → Nat) (s : State) : Res :=
  runOn s c fun s k => need ok s 0x0411 0 fun _ => .done s (setX k xd (f k)) 1

/-- XALU MOV. -/
def execXaluMov (c xd xs imm : Nat) (s : State) : Res := xalu c xd (imm == 0) (fun k => getX k xs) s
/-- XALU ADD. -/
def execXaluAdd (c xd xs imm : Nat) (s : State) : Res := xalu c xd (imm == 0) (fun k => getX k xd + getX k xs) s
/-- XALU SUB. -/
def execXaluSub (c xd xs imm : Nat) (s : State) : Res := xalu c xd (imm == 0) (fun k => getX k xd + 2 ^ 32 - getX k xs) s
/-- XALU AND. -/
def execXaluAnd (c xd xs imm : Nat) (s : State) : Res := xalu c xd (imm == 0) (fun k => getX k xd &&& getX k xs) s
/-- XALU OR. -/
def execXaluOr (c xd xs imm : Nat) (s : State) : Res := xalu c xd (imm == 0) (fun k => getX k xd ||| getX k xs) s
/-- XALU SHL, by XS[4:0]. -/
def execXaluShl (c xd xs imm : Nat) (s : State) : Res := xalu c xd (imm == 0) (fun k => getX k xd * 2 ^ (getX k xs % 32)) s
/-- XALU SHR, by XS[4:0]. -/
def execXaluShr (c xd xs imm : Nat) (s : State) : Res := xalu c xd (imm == 0) (fun k => getX k xd / 2 ^ (getX k xs % 32)) s
/-- XALU ADDI: the signed IMM14. -/
def execXaluAddi (c xd xs imm : Nat) (s : State) : Res := xalu c xd (xs == 0) (fun k => getX k xd + pat 32 (sint 14 imm)) s
/-- XALU FROMWA. -/
def execXaluFromwa (c xd xs imm : Nat) (s : State) : Res := xalu c xd (imm == 0 && xs == 0) (fun k => acc k false) s
/-- XALU TOWA: WA from XD, zero-extended. -/
def execXaluTowa (c xd xs imm : Nat) (s : State) : Res :=
  runOn s c fun s k => need (imm == 0 && xs == 0) s 0x0411 0 fun _ => .done s (setAcc k false (getX k xd)) 1

end Sys2Proof.Machine
end

