-- ==== Sys2Proof/Machine/TaskCtl.lean ====
section
/-!
DEFINITION. Fences, task control, special registers and illegal opcodes (R48, R71 to R74, R83, R111, R112, R114, R115, R231).
-/

namespace Sys2Proof.Machine

open R

/-! ## Fences (R71, R83, Table ORD-2). A safety core has none. -/

/-- A fence: the writes of its core that `f` completes. Its wait is an addition to the cycle count (log entry 31). -/
def fence (c rsv : Nat) (f : State → Nat → State) (s : State) : Res :=
  runOn s c fun s k => need (decide (c < 6)) s 0x0410 0 fun _ => need (rsv == 0) s 0x0411 0 fun _ => .done (f s c) k 0

/-- FENCE.M. -/
def execFenceM (c rsv : Nat) (s : State) : Res := fence c rsv fenceData s
/-- FENCE.U. -/
def execFenceU (c rsv : Nat) (s : State) : Res := fence c rsv postDrain s
/-- FENCE.IO. -/
def execFenceIo (c rsv : Nat) (s : State) : Res := fence c rsv fenceOut s
/-- FENCE.X. -/
def execFenceX (c rsv : Nat) (s : State) : Res := fence c rsv fenceX s

/-! ## Task control (Table HXI-15b) -/

/-- A segment of a task ends on its core; the task's first output close after a restart, or at a new owner, arms the watchdogs
of the class (R216, R374). -/
def segClose (s : State) (c key : Nat) : State :=
  let t := key / 4
  let s1 := segEnd s c key
  let ended := 2 ≤ t ∧ t ≤ 4 ∧ (getTask s t).live ∧ !(getTask s1 t).live
  let s2 :=
    if ended ∧ (mget s.tsk.closed (t - 2) 0 = 0 ∨ s.pair.rearm.contains (t - 2)) then
      wdArm { s1 with pair := { s1.pair with rearm := s1.pair.rearm.filter (fun x => x != t - 2) } } 0 (t - 2)
    else s1
  schedule (barrierJudge s2 t) c

/-- What follows TASK END: the segment ends, a core without one stops, and a safety task ends (R231). -/
def endAfter (c : Nat) (s : State) : State :=
  if c < 6 then
    match (getCore s c).run with
    | some key => segClose s c key
    | none => setCore s c { getCore s c with mode := .stopped }
  else safTaskEnd s c

/-- TASK END: BRANCH_OPEN with an open branch; FENCE.X, then the end. On a logic core the execution time carries the
additions of Table HXI-1, a free value. -/
def endTask (c rsv : Nat) (s : State) : Res :=
  runThen s c (fun s k =>
    need (rsv == 0) s 0x0411 0 fun _ => need k.br.isEmpty s 0x0422 0 fun _ =>
      if c < 6 then
        let (x, s1) := fresh 32 s
        .done (fenceX s1 c) k (4 + x)
      else .done s k 4)
    (endAfter c)

/-- A TASK sub-operation that only a logic core permits (R230). -/
def taskSub (c rsv : Nat) (ok : Bool) (f : State → Ctx → Out) (post : State → State) (s : State) : Res :=
  runThen s c (fun s k => need (decide (c < 6) && rsv == 0 && ok) s 0x0411 0 fun _ => f s k) post

/-- The running segment of a core goes behind the ready segments of its band. -/
def yieldOn (c : Nat) (s : State) : State :=
  match (getCore s c).run with
  | some key => schedule (takeOff s c .ready (backOrd s key)) c
  | none => s

/-- YIELD: the segment goes behind the ready segments of its band (R112). -/
def execYield (c rsv : Nat) (s : State) : Res :=
  taskSub c rsv true (fun s k => .done s k 48) (yieldOn c) s

/-- RAISE: an entry for task USER EVT with the tag. -/
def execRaise (c rsv evt tag : Nat) (s : State) : Res :=
  taskSub c rsv (hasTask s (8 + evt))
    (fun s k => .done (evPush s (8 + evt) { source := 0x03 + 256 * 0x1FF, tag := tag, stamp := now s }) k 4) id s

/-- The segment on a core waits at a barrier. -/
def atBarrier (c n : Nat) (s : State) : State :=
  match (getCore s c).run with
  | some key => schedule (barrierJudge (takeOff s c (.atBarrier n) 2) (key / 4)) c
  | none => s

/-- BAR: FENCE.X, then the wait at barrier TAG[1:0]. EVT and TAG[15:2] are reserved. -/
def execBar (c rsv evt tag : Nat) (s : State) : Res :=
  taskSub c rsv (evt == 0 && decide (tag < 4)) (fun s k => .done (fenceX s c) k 4) (atBarrier c tag) s

/-- NOP. -/
def execTaskNop (c rsv : Nat) (s : State) : Res :=
  runOn s c fun s k => need (rsv == 0) s 0x0411 0 fun _ => .done s k 1

/-! ## Special registers (Table HXI-3) -/

/-- A special register as MFS reads it; none for a number that is not in the table. CYC carries the additions of
Table HXI-1, a free value, from its reading on. -/
def sprRead (s : State) (c : Nat) (k : Ctx) (sr : Nat) : Option (Nat × Ctx × State) :=
  match sr with
  | 0 => some (flagsWord k, k, s)
  | 1 => some (k.br.length, k, s)
  | 2 => some (leWord (getCore s c).le, k, s)
  | 3 => some ((getCore s c).le.pc, k, s)
  | 4 => some ((getCore s c).le.addr, k, s)
  | 5 => some (c, k, s)
  | 6 => some (match (getCore s c).run with | some key => key / 4 + 16 * (key % 4) | none => 0, k, s)
  | 7 =>
    let (x, s1) := fresh 32 s
    some (k.cyc + x, { k with cyc := k.cyc + x }, s1)
  | 8 => some (now s, k, s)
  | 9 => some (getF s TSK_SLOT_ACTIVE, k, s)
  | 10 => some (k.calls.length, k, s)
  | _ => none

/-- MFS: to WA (T = 0) or to bits [31:0] of XR (T = 1). A safety core has none. -/
def execMfs (c xr : Nat) (t : Bool) (rsv sr : Nat) (s : State) : Res :=
  runOn s c fun s k =>
    need (decide (c < 6)) s 0x0410 0 fun _ => need (rsv == 0 && (t || xr == 0)) s 0x0411 0 fun _ =>
      match sprRead s c k sr with
      | some (v, k1, s1) => .done s1 (if t then setX k1 xr v else setAcc k1 false v) 2
      | none => .fault s 0x0411 0

/-- The flags of a FLAGS word. -/
def flagsOf (v : Nat) : Flags := { z := bitOf v 0, n := bitOf v 1, v := bitOf v 2, c := bitOf v 3, u := bitOf v 4 }

/-- MTS: FLAGS, and VALID of LE_FAULT, which a 1 clears together with OVR; others are MTS_DENIED. A safety core has
none. -/
def execMts (c xr : Nat) (t : Bool) (rsv sr : Nat) (s : State) : Res :=
  runOn s c fun s k =>
    need (decide (c < 6)) s 0x0410 0 fun _ => need (rsv == 0 && (t || xr == 0)) s 0x0411 0 fun _ =>
      let v := if t then getX k xr else acc k false % 2 ^ 32
      match sr with
      | 0 => .done s (setFlags k (flagsOf v)) 2
      | 2 =>
        let q := getCore s c
        .done (if bitOf v 31 then setCore s c { q with le := { q.le with valid := false, ovr := false } } else s) k 2
      | _ => .fault s 0x0441 0

/-! ## Illegal opcodes (R74) -/

/-- A major opcode that is 0x00, 0x3F or marked reserved in Table HXI-16. -/
def opIllegal (op : Nat) : Bool :=
  [0x00, 0x13, 0x1A, 0x1B, 0x22, 0x23, 0x27, 0x2A, 0x2B, 0x2C, 0x2D, 0x2E, 0x2F, 0x3D, 0x3E, 0x3F].contains op

/-- A core fetches a word with an illegal major opcode and faults. A word with another opcode is not this command: it has
no effect. -/
def execIllegalOpcode (c word : Nat) (s : State) : Res :=
  if opIllegal (word / 2 ^ 26 % 64) then runOn s c fun s _ => .fault s 0x0410 0 else .next s

end Sys2Proof.Machine
end

