-- ==== Sys2Proof/Machine/Instants.lean ====
section
/-!
DEFINITION. The instants of the timeline as commands: an action is carried out at the first TICK edge at or after its
instant, once, and after the actions that R30 puts before it at the same edge (R22, R23, R27, R30, R31, R233; log entry 21).
A command given at another edge finds nothing to do.
-/

namespace Sys2Proof.Machine

open R

/-! ## The instants (Tables ARC-6 and SAF-2) -/

/-- The edge is that of t0 − t_guard of a C0 cycle: input close, and output deadline of the cycle before. -/
def atClose (s : State) : Bool := reaches s (period s 0) s.tl.tGuard

/-- The edge is that of a C0 cycle start. -/
def atStart (s : State) : Bool := reaches s (period s 0) 0

/-- The edge is that of an S cycle start. -/
def atSafStart (s : State) : Bool := reaches s (period s 3) 0

/-- The edge is that of t_end of a safety cycle: 30 µs before the output deadline of S (R233). -/
def atTend (s : State) : Bool := reaches s (period s 3) (s.tl.tGuard + 30000)

/-- The edge is 2 µs before a launch of the channels of axis `a` (R312). -/
def atAxis (s : State) (a : Nat) : Bool :=
  reaches s (axisPeriod s a) ((if axisFast s a then 4000 else s.tl.tGuard) + 2000)

/-- The edge is that of a sample of loop context `c`: n × T_L (R26). -/
def atSample (s : State) (c : Nat) : Bool := reaches s (loopTl s c) 0

/-! ## The order of R30 -/

/-- The fast buffer close of port `p`, where it is due. -/
def fastCloseDue (p : Nat) (s : State) : State := if atFast s p then carry s (16 + p) (fun s => fastClose s p) else s

/-- The fast buffer closes of every port, where they are due. -/
def fastCloses (s : State) : State := forEach (List.range (nPort s)) s (fun s p => fastCloseDue p s)

/-- The input close, where it is due. A fast buffer close at the same edge is the latest one at or before it, converted with
the entry that stands up to this boundary (R150, R155). -/
def closeDue (s : State) : State := if atClose s then carry (fastCloses s) 0 inputClose else s

/-- Rank 1: fast buffer closes and input closes. -/
def closes (s : State) : State := closeDue (fastCloses s)

/-- The output deadline, where it is due, after the closes: overrun decisions, launches and snapshots (ranks 2 and 3). -/
def deadlineDue (s : State) : State := if atClose s then carry (closes s) 1 outputDeadline else s

/-- The fast OUT launch of port `p`, where it is due, after the closes and the overrun decisions. -/
def fastOutDue (p : Nat) (s : State) : State :=
  if atFast s p then fastLaunch (deadlineDue (closes s)) p else s

/-- Ranks 1 to 3. -/
def launches (s : State) : State := forEach (List.range (nPort s)) (deadlineDue (closes s)) (fun s p => fastOutDue p s)

/-- Ranks 1 to 4: the deliveries of Basin follow. -/
def deliveries (s : State) : State := bsnDeliver (launches s)

/-- The edge is that of a C2 cycle start. -/
def atC2 (s : State) : Bool := reaches s (period s 2) 0

/-- The switch or revert point of an online change, where it is due: after ranks 1 to 4 and before the releases (R135). -/
def switchDue (s : State) : State :=
  if (olc s == 2 || olc s == 4) && atC2 s then carry (deliveries s) 5 (fun s => switchPoint s (olc s == 4)) else s

/-- The releases of ERROR, C0, C1 and C2, where they are due, after ranks 1 to 4; after a migration they come at the first edge
at or after its end (R135). -/
def releaseDue (s : State) : State :=
  if atStart s then carry (switchDue (deliveries s)) 2 cycleRelease
  else if s.tsk.migPend ∧ now s ≥ s.tsk.migTo then carry (deliveries s) 2 cycleRelease
  else s

/-- The release of the safety task, where it is due, after the releases of the cyclic tasks (rank 5). -/
def safReleaseDue (s : State) : State := if atSafStart s then carry (releaseDue (deliveries s)) 3 safTaskRelease else s

/-- Ranks 1 to 5. -/
def releases (s : State) : State := safReleaseDue (releaseDue (deliveries s))

/-- The sample of loop context `c`, where it is due, after ranks 1 to 5. -/
def sampleDue (c : Nat) (s : State) : State :=
  if atSample s c then carry (releases s) (64 + c) (fun s => loopSample s c) else s

/-- Ranks 1 to 6: the samples of every context follow. -/
def samples (s : State) : State :=
  forEach (List.range 256) (releases s) (fun s c => if inRun s .loopCtx c then sampleDue c s else s)

/-- t_end of the safety cycle, where it is due. -/
def tendDue (s : State) : State := if atTend s then carry s 4 safTend else s

/-! ## The commands -/

/-- INPUT_CLOSE. -/
def execInputClose (s : State) : Res := .next (closeDue s)
/-- FAST_BUFFER_CLOSE of port `p`. -/
def execFastBufferClose (p : Nat) (s : State) : Res := .next (fastCloseDue p s)
/-- PROGRAM_HALT: the program stops at t_h, which is the C0 output deadline (R124). -/
def execProgramHalt (s : State) : Res := .next (if s.tsk.haltPend then deadlineDue s else s)
/-- OLC_SWITCH_POINT: a C2 cycle start while a switch is ARMED. -/
def execOlcSwitchPoint (s : State) : Res := .next (if olc s = 2 then switchDue s else s)
/-- OLC_REVERT_POINT: a C2 cycle start while a revert is armed. -/
def execOlcRevertPoint (s : State) : Res := .next (if olc s = 4 then switchDue s else s)
/-- PROFILE_SWITCH_START: a C2 cycle start, after step 5 of R30. -/
def execProfileSwitchStart (s : State) : Res :=
  .next (if atC2 s then profSwitchStart (releases s) else s)
/-- OUTPUT_DEADLINE. -/
def execOutputDeadline (s : State) : Res := .next (deadlineDue s)
/-- FAST_OUT_LAUNCH of port `p`. -/
def execFastOutLaunch (p : Nat) (s : State) : Res := .next (fastOutDue p s)
/-- BSN_DELIVERY. -/
def execBsnDelivery (s : State) : Res := .next (deliveries s)
/-- CYCLE_RELEASE. -/
def execCycleRelease (s : State) : Res := .next (releaseDue s)
/-- SAFETY_TASK_RELEASE. -/
def execSafetyTaskRelease (s : State) : Res := .next (safReleaseDue s)
/-- LOOP_SAMPLE of context `c`. -/
def execLoopSample (c : Nat) (s : State) : Res := .next (sampleDue c s)
/-- SAFETY_TEND. -/
def execSafetyTend (s : State) : Res := .next (tendDue s)
/-- TP_EDGE_OUT: an edge of timed output `n` follows ranks 1 to 6. -/
def execTpEdgeOut (n : Nat) (s : State) : Res := .next (tpEdge n (samples s))
/-- TC_CAPTURE: an edge on capture input `n` follows ranks 1 to 6. -/
def execTcCapture (n : Nat) (lvl : Bool) (s : State) : Res := .next (tcEdge n lvl (samples s))

/-- AREQ_SEND of port `p`: a cyclic launch at the same edge comes first, and no acyclic frame delays it (R181). -/
def execAreqSend (p : Nat) (s : State) : Res := .next (areqSend p (launches s))
/-- IOUT_SEND of port `p`, after a cyclic launch at the same edge (R181, R195). -/
def execIoutSend (p : Nat) (s : State) : Res := .next (ioutSend p (launches s))

/-- LOOP_UPDATE: a write that completes at the edge of a launch instant comes after that launch (R27). -/
def execLoopUpdate (s : State) : Res := .next (if (nextUpdate s).isSome then updateEnd (launches s) else s)

/-- AXIS_LAUNCH of axis `a`, 2 µs before its launch instant: its write comes after a launch at the same edge (R27). -/
def execAxisLaunch (a : Nat) (s : State) : Res :=
  .next (if atAxis s a then carry (launches s) (1024 + a) (axisLaunch a) else s)

/-- ALARM_EXPIRY of alarm `n`: step 7 of R30. -/
def execAlarmExpiry (n : Nat) (s : State) : Res := .next (alarmExpiry n (samples s))

/-- TIME_STEP: in RUN it comes after ranks 1 to 3 of R30. -/
def execTimeStep (s : State) : Res := .next (if stepDue s then timeStep (if stepFree s then s else launches s) else s)

/-- CAN_SNAPSHOT, at an instant k × 100 ms. -/
def execCanSnapshot (s : State) : Res := .next (if reaches s 100000000 0 then carry s 2048 canSnapshot else s)

/-- TASK END: at the edge of an output deadline, or of t_end of a safety cycle, the task has not ended in time, so that is
judged first (R23, R234). -/
def execTaskEnd (c rsv : Nat) (s : State) : Res := endTask c rsv (if c < 6 then deadlineDue s else tendDue s)

end Sys2Proof.Machine
end

