-- ==== Sys2Proof/Machine/Timers.lean ====
section
/-!
DEFINITION. Timer instructions (R56, R57). The cells of a safety core count on the core's own SAFE clock (R230; log entry
27).
-/

namespace Sys2Proof.Machine

/-- The number of a timer cell: CELL + XI for I = 1, CELL otherwise. -/
def cellNo (k : Ctx) (i : Bool) (xi cell : Nat) : Nat := ((if i then getX k xi else 0) + cell) % 2 ^ 32

/-- Where the state keeps cell `n` of a core, of its 4,096 cells, or of the 256 of a safety core (R230). -/
def cellKey (c n : Nat) : Nat := if c < 6 then n else c * 4096 + n

/-- The number of cells of a core. -/
def cellCount (c : Nat) : Nat := if c < 6 then 4096 else 256

/-- The fields of format T, then the cell: `ok` says the UNIT field is permitted. -/
def onCell (s : State) (c : Nat) (k : Ctx) (i : Bool) (xi rsv cell : Nat) (ok : Bool) (f : Nat → TCell → Out) : Out :=
  let n := cellNo k i xi cell
  need (ok && rsv == 0) s 0x0411 0 fun _ => need (decide (n < cellCount c)) s 0x0432 0 fun _ =>
    f (cellKey c n) (getTimer s (cellKey c n))

/-- The count on which the cells of core `c` run, in ns: TICK for a logic core, the core's own SAFE clock of 2.5 ns for a
safety core (R56, R230). -/
def cellNs (s : State) (c : Nat) : Nat := if c < 6 then tickNs s else (if c = 6 then s.safeA else s.safeB) * 5 / 2

/-- Nanoseconds since the start stamp of a cell, at count `t`. -/
def since (t : Nat) (v : TCell) : Int := (t : Int) - v.st

/-- TON, TOF and TP: the cell after an evaluation with LB; LB becomes its Q (R56). -/
def evalCell (c : Nat) (i : Bool) (xi unit rsv cell : Nat) (f : Nat → Bool → TCell → TCell) (s : State) : Res :=
  runOn s c fun s k =>
    onCell s c k i xi rsv cell (unit == 0) fun key v =>
      let w := { f (cellNs s c) k.lb v with inp := k.lb }
      .done (setTimer s key w) { k with lb := w.q } 6

/-- The on-delay. -/
def tonCell (t : Nat) (lb : Bool) (v : TCell) : TCell :=
  let v1 := if lb && !v.inp then { v with st := t } else v
  { v1 with q := lb && decide (since t v1 ≥ presetNs v1) }

/-- The off-delay. -/
def tofCell (t : Nat) (lb : Bool) (v : TCell) : TCell :=
  let v1 := if lb then { v with q := true } else if v.inp then { v with st := t } else v
  if !lb && v1.q && decide (since t v1 ≥ presetNs v1) then { v1 with q := false } else v1

/-- The pulse. -/
def tpCell (t : Nat) (lb : Bool) (v : TCell) : TCell :=
  let v1 := if lb && !v.inp && !v.q then { v with st := t, q := true } else v
  if v1.q && decide (since t v1 ≥ presetNs v1) then { v1 with q := false } else v1

/-- TMR TON. -/
def execTmrTon (c : Nat) (i : Bool) (xi unit rsv cell : Nat) (s : State) : Res := evalCell c i xi unit rsv cell tonCell s
/-- TMR TOF. -/
def execTmrTof (c : Nat) (i : Bool) (xi unit rsv cell : Nat) (s : State) : Res := evalCell c i xi unit rsv cell tofCell s
/-- TMR TP. -/
def execTmrTp (c : Nat) (i : Bool) (xi unit rsv cell : Nat) (s : State) : Res := evalCell c i xi unit rsv cell tpCell s
/-- TMR TRST: LB is unchanged. -/
def execTmrTrst (c : Nat) (i : Bool) (xi unit rsv cell : Nat) (s : State) : Res :=
  runOn s c fun s k =>
    onCell s c k i xi rsv cell (unit == 0) fun key v =>
      .done (if k.lb then setTimer s key { v with q := false, inp := false } else s) k 6

/-- Nanoseconds of a UNIT code: 1 µs, 1 ms, 1 s. -/
def unitNs (unit : Nat) : Nat := if unit = 0 then 1000 else if unit = 1 then 1000000 else 1000000000

/-- TMRX PRESET. -/
def execTmrxPreset (c : Nat) (i : Bool) (xi unit rsv cell : Nat) (s : State) : Res :=
  runOn s c fun s k =>
    onCell s c k i xi rsv cell (decide (unit < 3)) fun key v =>
      .done (setTimer s key { v with pt := acc k false % 2 ^ 32, unit := unit }) k 4
/-- TMRX ELAPSED. -/
def execTmrxElapsed (c : Nat) (i : Bool) (xi unit rsv cell : Nat) (s : State) : Res :=
  runOn s c fun s k =>
    onCell s c k i xi rsv cell (decide (unit < 3)) fun _ v =>
      .done s (setAcc k false (sat (2 ^ 32 - 1) ((since (cellNs s c) v).toNat / unitNs unit))) 4
/-- TMRX LOADQ. -/
def execTmrxLoadq (c : Nat) (i : Bool) (xi unit rsv cell : Nat) (s : State) : Res :=
  runOn s c fun s k =>
    onCell s c k i xi rsv cell (decide (unit < 3)) fun _ v => .done s { k with lb := v.q } 4

end Sys2Proof.Machine
end

