-- ==== Sys2Proof/Machine/Dispatch.lean ====
section
/-!
DEFINITION. The dispatch of a command to its meaning: one arm per constructor, one direct call each.
-/

namespace Sys2Proof.Machine

/-- The effect of a command on everything but the queue. -/
def exec (i : Instr) (s : State) : Host.Outcome State Fault Refusal :=
  match i with
  | .ld c mode xi ofs bit => Sys2Proof.Machine.execLd c mode xi ofs bit s
  | .ldn c mode xi ofs bit => Sys2Proof.Machine.execLdn c mode xi ofs bit s
  | .and c mode xi ofs bit => Sys2Proof.Machine.execAnd c mode xi ofs bit s
  | .andn c mode xi ofs bit => Sys2Proof.Machine.execAndn c mode xi ofs bit s
  | .or c mode xi ofs bit => Sys2Proof.Machine.execOr c mode xi ofs bit s
  | .orn c mode xi ofs bit => Sys2Proof.Machine.execOrn c mode xi ofs bit s
  | .xor c mode xi ofs bit => Sys2Proof.Machine.execXor c mode xi ofs bit s
  | .xorn c mode xi ofs bit => Sys2Proof.Machine.execXorn c mode xi ofs bit s
  | .st c mode xi ofs bit => Sys2Proof.Machine.execSt c mode xi ofs bit s
  | .stn c mode xi ofs bit => Sys2Proof.Machine.execStn c mode xi ofs bit s
  | .set c mode xi ofs bit => Sys2Proof.Machine.execSet c mode xi ofs bit s
  | .clr c mode xi ofs bit => Sys2Proof.Machine.execClr c mode xi ofs bit s
  | .edr c mode xi ofs bit => Sys2Proof.Machine.execEdr c mode xi ofs bit s
  | .edf c mode xi ofs bit => Sys2Proof.Machine.execEdf c mode xi ofs bit s
  | .lbopNot c rsv => Sys2Proof.Machine.execLbopNot c rsv s
  | .lbopLb0 c rsv => Sys2Proof.Machine.execLbopLb0 c rsv s
  | .lbopLb1 c rsv => Sys2Proof.Machine.execLbopLb1 c rsv s
  | .bop c rsv => Sys2Proof.Machine.execBop c rsv s
  | .bnx c rsv => Sys2Proof.Machine.execBnx c rsv s
  | .bcl c rsv => Sys2Proof.Machine.execBcl c rsv s
  | .lbw c rsv => Sys2Proof.Machine.execLbw c rsv s
  | .wlb c rsv => Sys2Proof.Machine.execWlb c rsv s
  | .tmrTon c ix xi unit rsv cell => Sys2Proof.Machine.execTmrTon c ix xi unit rsv cell s
  | .tmrTof c ix xi unit rsv cell => Sys2Proof.Machine.execTmrTof c ix xi unit rsv cell s
  | .tmrTp c ix xi unit rsv cell => Sys2Proof.Machine.execTmrTp c ix xi unit rsv cell s
  | .tmrTrst c ix xi unit rsv cell => Sys2Proof.Machine.execTmrTrst c ix xi unit rsv cell s
  | .tmrxPreset c ix xi unit rsv cell => Sys2Proof.Machine.execTmrxPreset c ix xi unit rsv cell s
  | .tmrxElapsed c ix xi unit rsv cell => Sys2Proof.Machine.execTmrxElapsed c ix xi unit rsv cell s
  | .tmrxLoadq c ix xi unit rsv cell => Sys2Proof.Machine.execTmrxLoadq c ix xi unit rsv cell s
  | .ctu c mode xi ac ofs => Sys2Proof.Machine.execCtu c mode xi ac ofs s
  | .ctd c mode xi ac ofs => Sys2Proof.Machine.execCtd c mode xi ac ofs s
  | .ctrReset c mode xi ac ofs => Sys2Proof.Machine.execCtrReset c mode xi ac ofs s
  | .ctl c mode xi ac ofs => Sys2Proof.Machine.execCtl c mode xi ac ofs s
  | .lw c mode xi ty ac ofs => Sys2Proof.Machine.execLw c mode xi ty ac ofs s
  | .sw c mode xi ty ac ofs => Sys2Proof.Machine.execSw c mode xi ty ac ofs s
  | .addm c mode xi ty ac ofs => Sys2Proof.Machine.execAddm c mode xi ty ac ofs s
  | .subm c mode xi ty ac ofs => Sys2Proof.Machine.execSubm c mode xi ty ac ofs s
  | .mulm c mode xi ty ac ofs => Sys2Proof.Machine.execMulm c mode xi ty ac ofs s
  | .divm c mode xi ty ac ofs => Sys2Proof.Machine.execDivm c mode xi ty ac ofs s
  | .aluAdd c ty d ty2 rsv => Sys2Proof.Machine.execAluAdd c ty d ty2 rsv s
  | .aluSub c ty d ty2 rsv => Sys2Proof.Machine.execAluSub c ty d ty2 rsv s
  | .aluMul c ty d ty2 rsv => Sys2Proof.Machine.execAluMul c ty d ty2 rsv s
  | .aluDiv c ty d ty2 rsv => Sys2Proof.Machine.execAluDiv c ty d ty2 rsv s
  | .aluMod c ty d ty2 rsv => Sys2Proof.Machine.execAluMod c ty d ty2 rsv s
  | .aluNeg c ty d ty2 rsv => Sys2Proof.Machine.execAluNeg c ty d ty2 rsv s
  | .aluAbs c ty d ty2 rsv => Sys2Proof.Machine.execAluAbs c ty d ty2 rsv s
  | .aluMin c ty d ty2 rsv => Sys2Proof.Machine.execAluMin c ty d ty2 rsv s
  | .aluMax c ty d ty2 rsv => Sys2Proof.Machine.execAluMax c ty d ty2 rsv s
  | .aluSqrt c ty d ty2 rsv => Sys2Proof.Machine.execAluSqrt c ty d ty2 rsv s
  | .aluAnd c ty d ty2 rsv => Sys2Proof.Machine.execAluAnd c ty d ty2 rsv s
  | .aluOr c ty d ty2 rsv => Sys2Proof.Machine.execAluOr c ty d ty2 rsv s
  | .aluXor c ty d ty2 rsv => Sys2Proof.Machine.execAluXor c ty d ty2 rsv s
  | .aluNot c ty d ty2 rsv => Sys2Proof.Machine.execAluNot c ty d ty2 rsv s
  | .aluShl c ty d ty2 rsv => Sys2Proof.Machine.execAluShl c ty d ty2 rsv s
  | .aluShr c ty d ty2 rsv => Sys2Proof.Machine.execAluShr c ty d ty2 rsv s
  | .aluSar c ty d ty2 rsv => Sys2Proof.Machine.execAluSar c ty d ty2 rsv s
  | .aluRol c ty d ty2 rsv => Sys2Proof.Machine.execAluRol c ty d ty2 rsv s
  | .aluCvt c ty d ty2 rsv => Sys2Proof.Machine.execAluCvt c ty d ty2 rsv s
  | .aluTrunc c ty d ty2 rsv => Sys2Proof.Machine.execAluTrunc c ty d ty2 rsv s
  | .aluMov c ty d ty2 rsv => Sys2Proof.Machine.execAluMov c ty d ty2 rsv s
  | .aluSwp c ty d ty2 rsv => Sys2Proof.Machine.execAluSwp c ty d ty2 rsv s
  | .aluClrw c ty d ty2 rsv => Sys2Proof.Machine.execAluClrw c ty d ty2 rsv s
  | .aluSextb c ty d ty2 rsv => Sys2Proof.Machine.execAluSextb c ty d ty2 rsv s
  | .aluSexth c ty d ty2 rsv => Sys2Proof.Machine.execAluSexth c ty d ty2 rsv s
  | .ldi c ac pos keep rsv imm => Sys2Proof.Machine.execLdi c ac pos keep rsv imm s
  | .addi c ac w rsv imm => Sys2Proof.Machine.execAddi c ac w rsv imm s
  | .cmp c cond ty comb rsv => Sys2Proof.Machine.execCmp c cond ty comb rsv s
  | .lxi c xd hi keep rsv imm => Sys2Proof.Machine.execLxi c xd hi keep rsv imm s
  | .xaluMov c xd xs imm => Sys2Proof.Machine.execXaluMov c xd xs imm s
  | .xaluAdd c xd xs imm => Sys2Proof.Machine.execXaluAdd c xd xs imm s
  | .xaluSub c xd xs imm => Sys2Proof.Machine.execXaluSub c xd xs imm s
  | .xaluAnd c xd xs imm => Sys2Proof.Machine.execXaluAnd c xd xs imm s
  | .xaluOr c xd xs imm => Sys2Proof.Machine.execXaluOr c xd xs imm s
  | .xaluShl c xd xs imm => Sys2Proof.Machine.execXaluShl c xd xs imm s
  | .xaluShr c xd xs imm => Sys2Proof.Machine.execXaluShr c xd xs imm s
  | .xaluAddi c xd xs imm => Sys2Proof.Machine.execXaluAddi c xd xs imm s
  | .xaluFromwa c xd xs imm => Sys2Proof.Machine.execXaluFromwa c xd xs imm s
  | .xaluTowa c xd xs imm => Sys2Proof.Machine.execXaluTowa c xd xs imm s
  | .chr c ix xi ty all rsv chan => Sys2Proof.Machine.execChr c ix xi ty all rsv chan s
  | .chw c ix xi ty all rsv chan => Sys2Proof.Machine.execChw c ix xi ty all rsv chan s
  | .chinv c ix xi all rsv chan => Sys2Proof.Machine.execChinv c ix xi all rsv chan s
  | .movb c xd xs rsv cnt => Sys2Proof.Machine.execMovb c xd xs rsv cnt s
  | .tbl c xb xi ty ac lim => Sys2Proof.Machine.execTbl c xb xi ty ac lim s
  | .jmp c ofs => Sys2Proof.Machine.execJmp c ofs s
  | .jlb c ofs => Sys2Proof.Machine.execJlb c ofs s
  | .jlbn c ofs => Sys2Proof.Machine.execJlbn c ofs s
  | .jf c fc ofs => Sys2Proof.Machine.execJf c fc ofs s
  | .call c ofs => Sys2Proof.Machine.execCall c ofs s
  | .ret c rsv => Sys2Proof.Machine.execRet c rsv s
  | .djnz c xd ofs => Sys2Proof.Machine.execDjnz c xd ofs s
  | .callx c xi rsv => Sys2Proof.Machine.execCallx c xi rsv s
  | .ecall c unit fn sync xp rsv inst => Sys2Proof.Machine.execEcall c unit fn sync xp rsv inst s
  | .fenceM c rsv => Sys2Proof.Machine.execFenceM c rsv s
  | .fenceU c rsv => Sys2Proof.Machine.execFenceU c rsv s
  | .fenceIo c rsv => Sys2Proof.Machine.execFenceIo c rsv s
  | .fenceX c rsv => Sys2Proof.Machine.execFenceX c rsv s
  | .taskEnd c rsv => Sys2Proof.Machine.execTaskEnd c rsv s
  | .yield c rsv => Sys2Proof.Machine.execYield c rsv s
  | .raise c rsv evt tag => Sys2Proof.Machine.execRaise c rsv evt tag s
  | .bar c rsv evt tag => Sys2Proof.Machine.execBar c rsv evt tag s
  | .taskNop c rsv => Sys2Proof.Machine.execTaskNop c rsv s
  | .mfs c xr t rsv sr => Sys2Proof.Machine.execMfs c xr t rsv sr s
  | .mts c xr t rsv sr => Sys2Proof.Machine.execMts c xr t rsv sr s
  | .barrierOpen t => Sys2Proof.Machine.execBarrierOpen t s
  | .syncEcallComplete key => Sys2Proof.Machine.execSyncEcallComplete key s
  | .faultTaskRelease => Sys2Proof.Machine.execFaultTaskRelease s
  | .eventTaskRelease t => Sys2Proof.Machine.execEventTaskRelease t s
  | .taskBudgetExpiry t => Sys2Proof.Machine.execTaskBudgetExpiry t s
  | .inputClose => Sys2Proof.Machine.execInputClose s
  | .cycleRelease => Sys2Proof.Machine.execCycleRelease s
  | .outputDeadline => Sys2Proof.Machine.execOutputDeadline s
  | .fastBufferClose p => Sys2Proof.Machine.execFastBufferClose p s
  | .fastOutLaunch p => Sys2Proof.Machine.execFastOutLaunch p s
  | .keyPositionAccept code => Sys2Proof.Machine.execKeyPositionAccept code s
  | .keyFaultDetect code => Sys2Proof.Machine.execKeyFaultDetect code s
  | .programHalt => Sys2Proof.Machine.execProgramHalt s
  | .restartWarm => Sys2Proof.Machine.execRestartWarm s
  | .restartCold => Sys2Proof.Machine.execRestartCold s
  | .cyclicFirstRelease => Sys2Proof.Machine.execCyclicFirstRelease s
  | .tskRestartWarm => Sys2Proof.Machine.execTskRestartWarm s
  | .tskRestartCold => Sys2Proof.Machine.execTskRestartCold s
  | .tskSwitch => Sys2Proof.Machine.execTskSwitch s
  | .tskCommit => Sys2Proof.Machine.execTskCommit s
  | .tskRevert => Sys2Proof.Machine.execTskRevert s
  | .tskSelect n => Sys2Proof.Machine.execTskSelect n s
  | .tskCancel => Sys2Proof.Machine.execTskCancel s
  | .tskStore n => Sys2Proof.Machine.execTskStore n s
  | .olcSwitchPoint => Sys2Proof.Machine.execOlcSwitchPoint s
  | .olcRevertPoint => Sys2Proof.Machine.execOlcRevertPoint s
  | .profilePinRequest v => Sys2Proof.Machine.execProfilePinRequest v s
  | .profileSwitchStart => Sys2Proof.Machine.execProfileSwitchStart s
  | .profileSwitchRun => Sys2Proof.Machine.execProfileSwitchRun s
  | .unitReqStop b ix mg => Sys2Proof.Machine.execUnitReqStop b ix mg s
  | .unitReqConfig b ix mg => Sys2Proof.Machine.execUnitReqConfig b ix mg s
  | .unitReqRun b ix mg => Sys2Proof.Machine.execUnitReqRun b ix mg s
  | .unitBoundaryTransition b ix => Sys2Proof.Machine.execUnitBoundaryTransition b ix s
  | .chtabWrite mg ofs bs => Sys2Proof.Machine.execChtabWrite mg ofs bs s
  | .chnInv v => Sys2Proof.Machine.execChnInv v s
  | .cacheRereadDone n => Sys2Proof.Machine.execCacheRereadDone n s
  | .mfCtlFree chan => Sys2Proof.Machine.execMfCtlFree chan s
  | .mfCtlForce chan => Sys2Proof.Machine.execMfCtlForce chan s
  | .mfCtlSim chan => Sys2Proof.Machine.execMfCtlSim chan s
  | .pfCtlFree chan => Sys2Proof.Machine.execPfCtlFree chan s
  | .pfCtlSim chan => Sys2Proof.Machine.execPfCtlSim chan s
  | .pfCtlForce chan => Sys2Proof.Machine.execPfCtlForce chan s
  | .simBitmapWrite ix v => Sys2Proof.Machine.execSimBitmapWrite ix v s
  | .inFrameRx p fr => Sys2Proof.Machine.execInFrameRx p fr s
  | .finFrameRx p fr => Sys2Proof.Machine.execFinFrameRx p fr s
  | .arspRx p fr => Sys2Proof.Machine.execArspRx p fr s
  | .areqSend p => Sys2Proof.Machine.execAreqSend p s
  | .ioutSend p => Sys2Proof.Machine.execIoutSend p s
  | .identPoll p => Sys2Proof.Machine.execIdentPoll p s
  | .initTimeout ix => Sys2Proof.Machine.execInitTimeout ix s
  | .acycTimeout p => Sys2Proof.Machine.execAcycTimeout p s
  | .portLinkDown p => Sys2Proof.Machine.execPortLinkDown p s
  | .portLinkUp p => Sys2Proof.Machine.execPortLinkUp p s
  | .phyFault p => Sys2Proof.Machine.execPhyFault p s
  | .bufUncorr p => Sys2Proof.Machine.execBufUncorr p s
  | .lnkAcyc ix => Sys2Proof.Machine.execLnkAcyc ix s
  | .lnkOutnow ix => Sys2Proof.Machine.execLnkOutnow ix s
  | .lnkReinit ix => Sys2Proof.Machine.execLnkReinit ix s
  | .lnkRead ix => Sys2Proof.Machine.execLnkRead ix s
  | .lioSample di rb => Sys2Proof.Machine.execLioSample di rb s
  | .localOutputApply => Sys2Proof.Machine.execLocalOutputApply s
  | .localAoUpdate => Sys2Proof.Machine.execLocalAoUpdate s
  | .vsOverloadTrip v => Sys2Proof.Machine.execVsOverloadTrip v s
  | .vsRetry v => Sys2Proof.Machine.execVsRetry v s
  | .vsTestPulse v => Sys2Proof.Machine.execVsTestPulse v s
  | .doTestPulse n => Sys2Proof.Machine.execDoTestPulse n s
  | .doOverload n => Sys2Proof.Machine.execDoOverload n s
  | .doOvertemp n => Sys2Proof.Machine.execDoOvertemp n s
  | .doOpenLoad n => Sys2Proof.Machine.execDoOpenLoad n s
  | .doExtv n => Sys2Proof.Machine.execDoExtv n s
  | .doRetry n cool => Sys2Proof.Machine.execDoRetry n cool s
  | .wdExpired k => Sys2Proof.Machine.execWdExpired k s
  | .aiConversion n code => Sys2Proof.Machine.execAiConversion n code s
  | .aiOverload n => Sys2Proof.Machine.execAiOverload n s
  | .aiShuntRetest n still => Sys2Proof.Machine.execAiShuntRetest n still s
  | .rotationStep => Sys2Proof.Machine.execRotationStep s
  | .rotationCalDone off gain => Sys2Proof.Machine.execRotationCalDone off gain s
  | .rotationHandover d => Sys2Proof.Machine.execRotationHandover d s
  | .converterSelfcheckFail c => Sys2Proof.Machine.execConverterSelfcheckFail c s
  | .aoReadback n uv na => Sys2Proof.Machine.execAoReadback n uv na s
  | .safetyTaskRelease => Sys2Proof.Machine.execSafetyTaskRelease s
  | .safetyTend => Sys2Proof.Machine.execSafetyTend s
  | .stuckReset => Sys2Proof.Machine.execStuckReset s
  | .releaseWatchdogExpiry core => Sys2Proof.Machine.execReleaseWatchdogExpiry core s
  | .wellheadCheck dev => Sys2Proof.Machine.execWellheadCheck dev s
  | .engineTrip code info => Sys2Proof.Machine.execEngineTrip code info s
  | .loopSample c => Sys2Proof.Machine.execLoopSample c s
  | .loopUpdate => Sys2Proof.Machine.execLoopUpdate s
  | .ctxUncorr c => Sys2Proof.Machine.execCtxUncorr c s
  | .setsp c => Sys2Proof.Machine.execSetsp c s
  | .loopMode c => Sys2Proof.Machine.execLoopMode c s
  | .bankswap c => Sys2Proof.Machine.execBankswap c s
  | .faultrst c => Sys2Proof.Machine.execFaultrst c s
  | .loopRead c => Sys2Proof.Machine.execLoopRead c s
  | .injectStart c => Sys2Proof.Machine.execInjectStart c s
  | .injectStop c => Sys2Proof.Machine.execInjectStop c s
  | .injectionEnd c => Sys2Proof.Machine.execInjectionEnd c s
  | .trigArm c => Sys2Proof.Machine.execTrigArm c s
  | .trigForce c => Sys2Proof.Machine.execTrigForce c s
  | .trigStop c => Sys2Proof.Machine.execTrigStop c s
  | .coeffBankWrite mgmt o v => Sys2Proof.Machine.execCoeffBankWrite mgmt o v s
  | .tableStoreWrite o v => Sys2Proof.Machine.execTableStoreWrite o v s
  | .lBswapWrite c => Sys2Proof.Machine.execLBswapWrite c s
  | .trcCtlArm => Sys2Proof.Machine.execTrcCtlArm s
  | .trcCtlForce => Sys2Proof.Machine.execTrcCtlForce s
  | .trcCtlStop => Sys2Proof.Machine.execTrcCtlStop s
  | .traceSpillCopy => Sys2Proof.Machine.execTraceSpillCopy s
  | .profPlan => Sys2Proof.Machine.execProfPlan s
  | .profSample g => Sys2Proof.Machine.execProfSample g s
  | .move g => Sys2Proof.Machine.execMove g s
  | .limits g => Sys2Proof.Machine.execLimits g s
  | .profStop g => Sys2Proof.Machine.execProfStop g s
  | .profRead g => Sys2Proof.Machine.execProfRead g s
  | .axisLaunch a => Sys2Proof.Machine.execAxisLaunch a s
  | .vaxStart a => Sys2Proof.Machine.execVaxStart a s
  | .vaxStop a => Sys2Proof.Machine.execVaxStop a s
  | .setref a => Sys2Proof.Machine.execSetref a s
  | .shape a => Sys2Proof.Machine.execShape a s
  | .vaxRead a => Sys2Proof.Machine.execVaxRead a s
  | .vaxShapeWrite o v => Sys2Proof.Machine.execVaxShapeWrite o v s
  | .solve q => Sys2Proof.Machine.execSolve q s
  | .bsnCancel q => Sys2Proof.Machine.execBsnCancel q s
  | .bsnRead q => Sys2Proof.Machine.execBsnRead q s
  | .bsnUnit => Sys2Proof.Machine.execBsnUnit s
  | .bsnDeadlineDecision q => Sys2Proof.Machine.execBsnDeadlineDecision q s
  | .bsnResultWrite => Sys2Proof.Machine.execBsnResultWrite s
  | .bsnDelivery => Sys2Proof.Machine.execBsnDelivery s
  | .scratchUncorr q => Sys2Proof.Machine.execScratchUncorr q s
  | .bsnMatrixCopyDone q => Sys2Proof.Machine.execBsnMatrixCopyDone q s
  | .hbRx h b => Sys2Proof.Machine.execHbRx h b s
  | .hbPulseRx => Sys2Proof.Machine.execHbPulseRx s
  | .hbPathSilent p => Sys2Proof.Machine.execHbPathSilent p s
  | .listenWindowEnd => Sys2Proof.Machine.execListenWindowEnd s
  | .claim lvl => Sys2Proof.Machine.execClaim lvl s
  | .takeover lvl => Sys2Proof.Machine.execTakeover lvl s
  | .abdication => Sys2Proof.Machine.execAbdication s
  | .switchover => Sys2Proof.Machine.execSwitchover s
  | .resync => Sys2Proof.Machine.execResync s
  | .hsMove => Sys2Proof.Machine.execHsMove s
  | .hsSettleExpiry => Sys2Proof.Machine.execHsSettleExpiry s
  | .syncDataRx h recs => Sys2Proof.Machine.execSyncDataRx h recs s
  | .syncMarkRx h frames bytes dcrcOk => Sys2Proof.Machine.execSyncMarkRx h frames bytes dcrcOk s
  | .syncCtrlRx h m => Sys2Proof.Machine.execSyncCtrlRx h m s
  | .syncRelayRx h m => Sys2Proof.Machine.execSyncRelayRx h m s
  | .syncImgRx h b => Sys2Proof.Machine.execSyncImgRx h b s
  | .sstateRx h f => Sys2Proof.Machine.execSstateRx h f s
  | .ilkInChange lvl => Sys2Proof.Machine.execIlkInChange lvl s
  | .syncLinkDown => Sys2Proof.Machine.execSyncLinkDown s
  | .retainPageCopy p => Sys2Proof.Machine.execRetainPageCopy p s
  | .tpedgeList n => Sys2Proof.Machine.execTpedgeList n s
  | .tpedgePeriodic n => Sys2Proof.Machine.execTpedgePeriodic n s
  | .tpedgeCancel n => Sys2Proof.Machine.execTpedgeCancel n s
  | .tcread n => Sys2Proof.Machine.execTcread n s
  | .offset => Sys2Proof.Machine.execOffset s
  | .alarmArm n => Sys2Proof.Machine.execAlarmArm n s
  | .alarmCancel n => Sys2Proof.Machine.execAlarmCancel n s
  | .alarmExpiry n => Sys2Proof.Machine.execAlarmExpiry n s
  | .tpEdgeOut n => Sys2Proof.Machine.execTpEdgeOut n s
  | .tcCapture n lvl => Sys2Proof.Machine.execTcCapture n lvl s
  | .timeStep => Sys2Proof.Machine.execTimeStep s
  | .sourceTimeout k => Sys2Proof.Machine.execSourceTimeout k s
  | .holdoverTimeout => Sys2Proof.Machine.execHoldoverTimeout s
  | .ptpSyncRx p m => Sys2Proof.Machine.execPtpSyncRx p m s
  | .ptpFollowUpRx p m => Sys2Proof.Machine.execPtpFollowUpRx p m s
  | .ptpDelayRespRx p m => Sys2Proof.Machine.execPtpDelayRespRx p m s
  | .ptpPdelayRx p m => Sys2Proof.Machine.execPtpPdelayRx p m s
  | .ptpAnnounceRx p m => Sys2Proof.Machine.execPtpAnnounceRx p m s
  | .ptpSyncTx p => Sys2Proof.Machine.execPtpSyncTx p s
  | .nowSecLoRead => Sys2Proof.Machine.execNowSecLoRead s
  | .canTx k => Sys2Proof.Machine.execCanTx k s
  | .express k => Sys2Proof.Machine.execExpress k s
  | .canAbort k => Sys2Proof.Machine.execCanAbort k s
  | .rxread k => Sys2Proof.Machine.execRxread k s
  | .canSleep k => Sys2Proof.Machine.execCanSleep k s
  | .canWakeLocal k => Sys2Proof.Machine.execCanWakeLocal k s
  | .canArbitration k => Sys2Proof.Machine.execCanArbitration k s
  | .canTxDone k e => Sys2Proof.Machine.execCanTxDone k e s
  | .canFrameRx k f ago => Sys2Proof.Machine.execCanFrameRx k f ago s
  | .busOffRecovery k => Sys2Proof.Machine.execBusOffRecovery k s
  | .canWake k e => Sys2Proof.Machine.execCanWake k e s
  | .canSnapshot => Sys2Proof.Machine.execCanSnapshot s
  | .snapCnt1Read => Sys2Proof.Machine.execSnapCnt1Read s
  | .sessionConnect n addr tls fp => Sys2Proof.Machine.execSessionConnect n addr tls fp s
  | .sessionIdleClose k => Sys2Proof.Machine.execSessionIdleClose k s
  | .authBlockExpiry addr => Sys2Proof.Machine.execAuthBlockExpiry addr s
  | .hello k h len => Sys2Proof.Machine.execHello k h len s
  | .read k h len a n => Sys2Proof.Machine.execRead k h len a n s
  | .write k epoch h len a bs => Sys2Proof.Machine.execWrite k epoch h len a bs s
  | .lwrite k h len a bs => Sys2Proof.Machine.execLwrite k h len a bs s
  | .loadBegin k epoch h len kind total => Sys2Proof.Machine.execLoadBegin k epoch h len kind total s
  | .loadData k epoch h len ofs bs => Sys2Proof.Machine.execLoadData k epoch h len ofs bs s
  | .loadEnd k epoch h len sig img => Sys2Proof.Machine.execLoadEnd k epoch h len sig img s
  | .subscribe k h len on => Sys2Proof.Machine.execSubscribe k h len on s
  | .keyset k h len slot key safety sig => Sys2Proof.Machine.execKeyset k h len slot key safety sig s
  | .relayTimeout id => Sys2Proof.Machine.execRelayTimeout id s
  | .modbusReadCoils h a n => Sys2Proof.Machine.execModbusReadCoils h a n s
  | .modbusReadDiscrete h a n => Sys2Proof.Machine.execModbusReadDiscrete h a n s
  | .modbusReadHolding h a n => Sys2Proof.Machine.execModbusReadHolding h a n s
  | .modbusReadInput h a n => Sys2Proof.Machine.execModbusReadInput h a n s
  | .modbusWriteCoil h a v => Sys2Proof.Machine.execModbusWriteCoil h a v s
  | .modbusWriteRegister h a v => Sys2Proof.Machine.execModbusWriteRegister h a v s
  | .modbusWriteMultiple h a vs => Sys2Proof.Machine.execModbusWriteMultiple h a vs s
  | .nmeaDatagramRx g hdr len tags xs => Sys2Proof.Machine.execNmeaDatagramRx g hdr len tags xs s
  | .cond => Sys2Proof.Machine.execCond s
  | .stat => Sys2Proof.Machine.execStat s
  | .recordWrite => Sys2Proof.Machine.execRecordWrite s
  | .statIntervalEnd => Sys2Proof.Machine.execStatIntervalEnd s
  | .pnlUpd v => Sys2Proof.Machine.execPnlUpd v s
  | .panelUpdate t => Sys2Proof.Machine.execPanelUpdate t s
  | .panelRedraw r => Sys2Proof.Machine.execPanelRedraw r s
  | .panelDischarge => Sys2Proof.Machine.execPanelDischarge s
  | .panelColdRecheck t => Sys2Proof.Machine.execPanelColdRecheck t s
  | .feedLost f => Sys2Proof.Machine.execFeedLost f s
  | .feedGood f => Sys2Proof.Machine.execFeedGood f s
  | .powerfail => Sys2Proof.Machine.execPowerfail s
  | .tempHigh t => Sys2Proof.Machine.execTempHigh t s
  | .tempTrip t => Sys2Proof.Machine.execTempTrip t s
  | .idleEntry u => Sys2Proof.Machine.execIdleEntry u s
  | .idleExit u => Sys2Proof.Machine.execIdleExit u s
  | .moduleReset cause => Sys2Proof.Machine.execModuleReset cause s
  | .fwWdog => Sys2Proof.Machine.execFwWdog s
  | .pllLoss p => Sys2Proof.Machine.execPllLoss p s
  | .serdesPllLoss => Sys2Proof.Machine.execSerdesPllLoss s
  | .sysModuleReset mg => Sys2Proof.Machine.execSysModuleReset mg s
  | .convClear mg => Sys2Proof.Machine.execConvClear mg s
  | .fwSelectA mg => Sys2Proof.Machine.execFwSelectA mg s
  | .fwSelectB mg => Sys2Proof.Machine.execFwSelectB mg s
  | .fwClear mg => Sys2Proof.Machine.execFwClear mg s
  | .evtLatWrite b ix v => Sys2Proof.Machine.execEvtLatWrite b ix v s
  | .eventLatch b ix mask => Sys2Proof.Machine.execEventLatch b ix mask s
  | .unitErrRead b ix => Sys2Proof.Machine.execUnitErrRead b ix s
  | .rcRegisterRead a => Sys2Proof.Machine.execRcRegisterRead a s
  | .registerWrite mg a v => Sys2Proof.Machine.execRegisterWrite mg a v s
  | .illegalOpcode c word => Sys2Proof.Machine.execIllegalOpcode c word s
  | .canBusError k kind => Sys2Proof.Machine.execCanBusError k kind s
  | .canBusIntegrated k => Sys2Proof.Machine.execCanBusIntegrated k s
  | .canSleepConfirmed k => Sys2Proof.Machine.execCanSleepConfirmed k s
  | .hostLinkDown n => Sys2Proof.Machine.execHostLinkDown n s
  | .hostLinkUp n => Sys2Proof.Machine.execHostLinkUp n s
  | .hostFrameRx n svc => Sys2Proof.Machine.execHostFrameRx n svc s
  | .syncLinkLost => Sys2Proof.Machine.execSyncLinkLost s
  | .syncLinkRestored => Sys2Proof.Machine.execSyncLinkRestored s
  | .abdicateIlkDrop => Sys2Proof.Machine.execAbdicateIlkDrop s
  | .sessionClosed k => Sys2Proof.Machine.execSessionClosed k s
  | .ptpDelayReqTx p => Sys2Proof.Machine.execPtpDelayReqTx p s
  | .ptpDelayReqRx p m => Sys2Proof.Machine.execPtpDelayReqRx p m s
  | .ptpAnnounceTx p => Sys2Proof.Machine.execPtpAnnounceTx p s
  | .syncWaitExpiry => Sys2Proof.Machine.execSyncWaitExpiry s
  | .junctionCooled t => Sys2Proof.Machine.execJunctionCooled t s
  | .operatingSecond => Sys2Proof.Machine.execOperatingSecond s
  | .panelUpdateDone => Sys2Proof.Machine.execPanelUpdateDone s
  | .panelSupplyFault => Sys2Proof.Machine.execPanelSupplyFault s
  | .partnerNorWriteDone => Sys2Proof.Machine.execPartnerNorWriteDone s

end Sys2Proof.Machine
end

