-- ==== Sys2Proof/Machine/Tick.lean ====
section
/-!
DEFINITION. One TICK edge of 4 ns, which is what a step does with no command waiting (DESIGN CHOICE, log entry 21): the counts
of time advance and what drains with time drains. Whatever has a row of its own in the opcode table waits for its command.
-/

namespace Sys2Proof.Machine

/-- The time counter after one increment (R376). -/
def countTick (s : State) : State :=
  let total := counter s + getInc s
  let t := total / 2 ^ 32
  { s with ticks := s.ticks + 1, sec := t / 1000000000 % 2 ^ 64, ns := t % 1000000000, frac := total % 2 ^ 32 }

/-- The SAFE cycles of the TICK period of a given number: 8 in 5 periods, since both clocks come from the wellhead reference at
400 MHz and 250 MHz, from a phase that is open (Table ARC-8, R32; DESIGN CHOICE, log entry 105). -/
def safeCycles (phase tick : Nat) : Nat := (8 * (tick + 1) + phase % 5) / 5 - (8 * tick + phase % 5) / 5

/-- What the other clocks count during one TICK period: the SAFE clock of each safety core, and the RC oscillator, whose rate
against TICK is open (DESIGN CHOICE, log entry 105). -/
def otherClocks (s : State) : State :=
  { s with safeA := s.safeA + safeCycles (Config.safePhase 6) s.ticks,
           safeB := s.safeB + safeCycles (Config.safePhase 7) s.ticks, rcNs := s.rcNs + Config.rcNs s.ticks }

/-- A memory error at a TICK edge, a free choice (R34; DESIGN CHOICE, log entry 100): a corrected error, which its owning
unit counts or shows where it has a register for it, or a 64-bit word of DATA, RETAIN, IMAGE, CHTAB, STTAB, DDRW or a safety
store that can no longer be corrected. -/
def eccTick (s : State) : State :=
  let (b, s1) := pick s
  if !b then s1
  else
    let (k, s2) := fresh 4 s1
    let (x, s3) := fresh 32 s2
    let mark (lo n : Nat) : State := let w := lo / 8 + x % (n / 8); { s3 with bad := w :: s3.bad.filter (fun y => y != w) }
    match k with
    | 0 => latch (incF s3 R.CHN_ECC_COUNT) .chn 0 32
    | 1 => latch s3 .lnkPort (x % nPort s3) 128
    | 2 => latch s3 .loop 0 2
    | 3 => latch s3 .bsn 0 2
    | 4 => mark 0 0x00800000
    | 5 => mark 0x00800000 0x00200000
    | 6 => mark 0x01000000 0x00200000
    | 7 => mark 0x10000000 0x10000000
    | 8 => mark 0x100000000 0x20000
    | 9 => mark 0x100020000 0x20000
    | 10 => mark 0x02000000 0x00100000
    | 11 => mark 0x03000000 0x00010000
    | _ => s3

/-- One TICK edge: time, memory errors, the store buffers and posted paths of the cores (Table ORD-1), BSN.UTIL at a second of PTP time, the
restart that waits for W5 (R127; DESIGN CHOICE, log entry 137), and the start-up that waits at S6 for TIME to be LOCKED
(Table PWR-3). -/
def tick (s : State) : State :=
  let s1 := eccTick (countTick (otherClocks s))
  let s2 := forEach (List.range 6) s1 (fun s c => postAge (sbAge s c) c)
  let s3 := if s2.sec = s.sec then s2 else bsnSecond s2
  let s4 := forEach (List.range 8) (stepW6 s3) mgNext
  if s4.pwr.waitS6.isSome ∧ servo s4 = 2 then bootS7 s4 else s4

end Sys2Proof.Machine
end

