-- ==== Sys2Proof/Laws/Maps.lean ====
section
/-!
SUPPORT. Sparse maps: what a write leaves at its key and at every other key, and that it keeps the canonical form. Bit fields
of a number.
-/

namespace Sys2Proof.Machine

/-! ## Reads after writes -/

theorem mget_minsert_same {α : Type} (d : α) (m : NMap α) (k : Nat) (v : α) : mget (minsert m k v) k d = v := by
  induction m with
  | nil => simp [minsert, mget]
  | cons p t ih =>
    obtain ⟨k', v'⟩ := p
    simp only [minsert]
    split
    · simp [mget]
    · split
      · simp [mget]
      · rename_i h
        have : k' ≠ k := fun e => h e.symm
        simpa [mget, this] using ih

theorem mget_minsert_other {α : Type} (d : α) (m : NMap α) (k j : Nat) (v : α) (hj : j ≠ k) :
    mget (minsert m k v) j d = mget m j d := by
  have hk : k ≠ j := fun e => hj e.symm
  induction m with
  | nil => simp [minsert, mget, hk]
  | cons p t ih =>
    obtain ⟨k', v'⟩ := p
    simp only [minsert]
    split
    · simp [mget, hk]
    · split
      · rename_i h
        have : k' ≠ j := h ▸ hk
        simp [mget, hk, this]
      · simp only [mget, ih]

theorem mget_filter_same {α : Type} (d : α) (m : NMap α) (k : Nat) : mget (m.filter (fun p => p.1 != k)) k d = d := by
  induction m with
  | nil => rfl
  | cons p t ih =>
    obtain ⟨k', v'⟩ := p
    by_cases h : k' = k
    · simp [List.filter, h, ih]
    · have h2 : (k' != k) = true := by simp [h]
      simp only [List.filter, h2, mget, h, if_false, ih]

theorem mget_filter_other {α : Type} (d : α) (m : NMap α) (k j : Nat) (hj : j ≠ k) :
    mget (m.filter (fun p => p.1 != k)) j d = mget m j d := by
  induction m with
  | nil => rfl
  | cons p t ih =>
    obtain ⟨k', v'⟩ := p
    by_cases h : k' = k
    · have : k' ≠ j := fun e => hj (e ▸ h)
      simp [List.filter, h, mget, ih, h ▸ this]
    · have h2 : (k' != k) = true := by simp [h]
      simp only [List.filter, h2, mget, ih]

/-- A read of the key written gives the value written. -/
@[simp] theorem mget_mput_same {α : Type} [DecidableEq α] (d : α) (m : NMap α) (k : Nat) (v : α) :
    mget (mput d m k v) k d = v := by
  unfold mput
  split
  · rename_i h
    rw [mget_filter_same, h]
  · exact mget_minsert_same d m k v

/-- A read of another key is as before, whatever its default. -/
theorem mget_mput_other {α : Type} [DecidableEq α] (d e : α) (m : NMap α) (k j : Nat) (v : α) (hj : j ≠ k) :
    mget (mput d m k v) j e = mget m j e := by
  unfold mput
  split
  · exact mget_filter_other e m k j hj
  · exact mget_minsert_other e m k j v hj

/-! ## Canonical form -/

/-- The first key of a map is above `k`, or the map is empty. -/
def above {α : Type} (k : Nat) (m : NMap α) : Bool :=
  match m with
  | [] => true
  | (k', _) :: _ => decide (k < k')

theorem mwf_cons {α : Type} [DecidableEq α] (d : α) (k : Nat) (v : α) (t : NMap α) :
    mwf d ((k, v) :: t) = (!decide (v = d) && above k t && mwf d t) := by
  cases t with
  | nil => simp [mwf, above]
  | cons p t => obtain ⟨k', v'⟩ := p; simp [mwf, above]

theorem above_trans {α : Type} (j k : Nat) (m : NMap α) (h : j ≤ k) (ha : above k m = true) :
    above j m = true := by
  cases m with
  | nil => rfl
  | cons p t =>
    simp only [above, decide_eq_true_eq] at ha ⊢
    omega

theorem minsert_wf {α : Type} [DecidableEq α] (d : α) (m : NMap α) (k : Nat) (v : α) (hv : v ≠ d) (h : mwf d m = true) :
    mwf d (minsert m k v) = true ∧ ∀ j, j < k → above j m = true → above j (minsert m k v) = true := by
  induction m with
  | nil => exact ⟨by simp [minsert, mwf, hv], fun j hj _ => by simp [minsert, above, hj]⟩
  | cons p t ih =>
    obtain ⟨k', v'⟩ := p
    have h0 := h
    rw [mwf_cons] at h
    simp only [Bool.and_eq_true, Bool.not_eq_true', decide_eq_false_iff_not] at h
    obtain ⟨⟨h1, h2⟩, h3⟩ := h
    simp only [minsert]
    split
    · rename_i hk
      refine ⟨?_, fun j hj _ => by simp [above, hj]⟩
      rw [mwf_cons]
      simp [hv, above, hk, h0]
    · split
      · rename_i hk he
        refine ⟨?_, fun j hj _ => by simp [above, hj]⟩
        rw [mwf_cons]
        simp [hv, he ▸ h2, h3]
      · rename_i hk he
        refine ⟨?_, fun j _ ha => by simpa [above] using ha⟩
        rw [mwf_cons]
        simp [h1, (ih h3).1, (ih h3).2 k' (by omega) h2]

theorem filter_wf {α : Type} [DecidableEq α] (d : α) (m : NMap α) (f : Nat × α → Bool) (h : mwf d m = true) :
    mwf d (m.filter f) = true ∧ ∀ j, above j m = true → above j (m.filter f) = true := by
  induction m with
  | nil => exact ⟨rfl, fun _ _ => rfl⟩
  | cons p t ih =>
    obtain ⟨k', v'⟩ := p
    rw [mwf_cons] at h
    simp only [Bool.and_eq_true, Bool.not_eq_true', decide_eq_false_iff_not] at h
    obtain ⟨⟨h1, h2⟩, h3⟩ := h
    simp only [List.filter]
    split
    · refine ⟨?_, fun j hj => by simpa [above] using hj⟩
      rw [mwf_cons]
      simp [h1, (ih h3).1, (ih h3).2 k' h2]
    · refine ⟨(ih h3).1, fun j hj => (ih h3).2 j ?_⟩
      simp only [above, decide_eq_true_eq] at hj
      exact above_trans j k' t (by omega) h2

/-- A write keeps the canonical form. -/
theorem mput_wf {α : Type} [DecidableEq α] (d : α) (m : NMap α) (k : Nat) (v : α) (h : mwf d m = true) :
    mwf d (mput d m k v) = true := by
  unfold mput
  split
  · exact (filter_wf d m _ h).1
  · rename_i hv
    exact (minsert_wf d m k v hv h).1

/-! ## Bit fields -/

theorem bits_lt (v lsb w : Nat) : bits v lsb w < 2 ^ w := Nat.mod_lt _ (Nat.two_pow_pos w)

/-- A number split at a field: above it, the field, below it. -/
theorem split_field (v lsb w : Nat) : v = v / 2 ^ (lsb + w) * 2 ^ (lsb + w) + bits v lsb w * 2 ^ lsb + v % 2 ^ lsb := by
  unfold bits
  rw [Nat.shiftRight_eq_div_pow, Nat.pow_add, ← Nat.div_div_eq_div_mul]
  have h1 := Nat.div_add_mod v (2 ^ lsb)
  have h2 := Nat.div_add_mod (v / 2 ^ lsb) (2 ^ w)
  calc v = 2 ^ lsb * (v / 2 ^ lsb) + v % 2 ^ lsb := h1.symm
    _ = 2 ^ lsb * (2 ^ w * (v / 2 ^ lsb / 2 ^ w) + v / 2 ^ lsb % 2 ^ w) + v % 2 ^ lsb := by rw [h2]
    _ = _ := by ring

/-- A field replaced, and the rest of the number. -/
theorem setBits_eq (v lsb w x : Nat) :
    setBits v lsb w x = v / 2 ^ (lsb + w) * 2 ^ (lsb + w) + (x % 2 ^ w) * 2 ^ lsb + v % 2 ^ lsb := by
  unfold setBits
  have h := split_field v lsb w
  omega

/-- A field written is read back. -/
theorem bits_setBits_same (v lsb w x : Nat) : bits (setBits v lsb w x) lsb w = x % 2 ^ w := by
  rw [setBits_eq]
  unfold bits
  rw [Nat.shiftRight_eq_div_pow, Nat.pow_add]
  have h1 : v % 2 ^ lsb < 2 ^ lsb := Nat.mod_lt _ (Nat.two_pow_pos _)
  rw [show v / (2 ^ lsb * 2 ^ w) * (2 ^ lsb * 2 ^ w) + x % 2 ^ w * 2 ^ lsb + v % 2 ^ lsb
    = v % 2 ^ lsb + 2 ^ lsb * (v / (2 ^ lsb * 2 ^ w) * 2 ^ w + x % 2 ^ w) by ring]
  rw [Nat.add_mul_div_left _ _ (Nat.two_pow_pos lsb), Nat.div_eq_of_lt h1, Nat.zero_add, Nat.mul_comm, Nat.mul_add_mod, Nat.mod_mod]

/-! ## Bytes -/

/-- A number is laid out in as many bytes as asked. -/
theorem leBytes_length (n v : Nat) : (leBytes n v).length = n := by
  induction n generalizing v with
  | zero => rfl
  | succ n ih => simp [leBytes, ih]

/-- The number of the bytes of `v` is `v`, cut to that many bytes. -/
theorem leNat_leBytes (n v : Nat) : leNat (leBytes n v) = v % 256 ^ n := by
  induction n generalizing v with
  | zero => simp [leBytes, leNat, Nat.mod_one]
  | succ n ih =>
    have h : (BitVec.ofNat 8 (v % 256)).toNat = v % 256 := by
      rw [BitVec.toNat_ofNat]
      exact Nat.mod_eq_of_lt (Nat.mod_lt _ (by decide))
    simp only [leBytes, leNat, ih, h]
    rw [Nat.pow_succ, Nat.mul_comm, Nat.mul_comm (256 ^ n) 256, Nat.mod_mul, Nat.mul_comm]

end Sys2Proof.Machine
end

