-- ==== Sys2Proof/Laws/State.lean ====
section
/-!
SUPPORT. What each update of the state leaves alone: one lemma per field and update.
-/

namespace Sys2Proof.Machine

/-! ## setRegW -/

@[simp] theorem setRegW_pending (s : State) (f : Fld) (i k v : Nat) : (setRegW s f i k v).pending = s.pending := rfl
@[simp] theorem setRegW_free (s : State) (f : Fld) (i k v : Nat) : (setRegW s f i k v).free = s.free := rfl
@[simp] theorem setRegW_mem (s : State) (f : Fld) (i k v : Nat) : (setRegW s f i k v).mem = s.mem := rfl
@[simp] theorem setRegW_bad (s : State) (f : Fld) (i k v : Nat) : (setRegW s f i k v).bad = s.bad := rfl
@[simp] theorem setRegW_ticks (s : State) (f : Fld) (i k v : Nat) : (setRegW s f i k v).ticks = s.ticks := rfl
@[simp] theorem setRegW_sec (s : State) (f : Fld) (i k v : Nat) : (setRegW s f i k v).sec = s.sec := rfl
@[simp] theorem setRegW_ns (s : State) (f : Fld) (i k v : Nat) : (setRegW s f i k v).ns = s.ns := rfl
@[simp] theorem setRegW_frac (s : State) (f : Fld) (i k v : Nat) : (setRegW s f i k v).frac = s.frac := rfl
@[simp] theorem setRegW_done (s : State) (f : Fld) (i k v : Nat) : (setRegW s f i k v).done = s.done := rfl
@[simp] theorem setRegW_loopFree (s : State) (f : Fld) (i k v : Nat) : (setRegW s f i k v).loopFree = s.loopFree := rfl
@[simp] theorem setRegW_lateCfg (s : State) (f : Fld) (i k v : Nat) : (setRegW s f i k v).lateCfg = s.lateCfg := rfl
@[simp] theorem setRegW_lat (s : State) (f : Fld) (i k v : Nat) : (setRegW s f i k v).lat = s.lat := rfl
@[simp] theorem setRegW_safeA (s : State) (f : Fld) (i k v : Nat) : (setRegW s f i k v).safeA = s.safeA := rfl
@[simp] theorem setRegW_safeB (s : State) (f : Fld) (i k v : Nat) : (setRegW s f i k v).safeB = s.safeB := rfl
@[simp] theorem setRegW_rcNs (s : State) (f : Fld) (i k v : Nat) : (setRegW s f i k v).rcNs = s.rcNs := rfl
@[simp] theorem setRegW_tl (s : State) (f : Fld) (i k v : Nat) : (setRegW s f i k v).tl = s.tl := rfl
@[simp] theorem setRegW_cores (s : State) (f : Fld) (i k v : Nat) : (setRegW s f i k v).cores = s.cores := rfl
@[simp] theorem setRegW_tsk (s : State) (f : Fld) (i k v : Nat) : (setRegW s f i k v).tsk = s.tsk := rfl
@[simp] theorem setRegW_chn (s : State) (f : Fld) (i k v : Nat) : (setRegW s f i k v).chn = s.chn := rfl
@[simp] theorem setRegW_mram (s : State) (f : Fld) (i k v : Nat) : (setRegW s f i k v).mram = s.mram := rfl
@[simp] theorem setRegW_recQ (s : State) (f : Fld) (i k v : Nat) : (setRegW s f i k v).recQ = s.recQ := rfl
@[simp] theorem setRegW_recDrop (s : State) (f : Fld) (i k v : Nat) : (setRegW s f i k v).recDrop = s.recDrop := rfl
@[simp] theorem setRegW_opAt (s : State) (f : Fld) (i k v : Nat) : (setRegW s f i k v).opAt = s.opAt := rfl
@[simp] theorem setRegW_lnk (s : State) (f : Fld) (i k v : Nat) : (setRegW s f i k v).lnk = s.lnk := rfl
@[simp] theorem setRegW_stats (s : State) (f : Fld) (i k v : Nat) : (setRegW s f i k v).stats = s.stats := rfl
@[simp] theorem setRegW_saf (s : State) (f : Fld) (i k v : Nat) : (setRegW s f i k v).saf = s.saf := rfl
@[simp] theorem setRegW_gens (s : State) (f : Fld) (i k v : Nat) : (setRegW s f i k v).gens = s.gens := rfl
@[simp] theorem setRegW_axes (s : State) (f : Fld) (i k v : Nat) : (setRegW s f i k v).axes = s.axes := rfl
@[simp] theorem setRegW_loops (s : State) (f : Fld) (i k v : Nat) : (setRegW s f i k v).loops = s.loops := rfl
@[simp] theorem setRegW_trc (s : State) (f : Fld) (i k v : Nat) : (setRegW s f i k v).trc = s.trc := rfl
@[simp] theorem setRegW_lio (s : State) (f : Fld) (i k v : Nat) : (setRegW s f i k v).lio = s.lio := rfl
@[simp] theorem setRegW_bsn (s : State) (f : Fld) (i k v : Nat) : (setRegW s f i k v).bsn = s.bsn := rfl
@[simp] theorem setRegW_time (s : State) (f : Fld) (i k v : Nat) : (setRegW s f i k v).time = s.time := rfl
@[simp] theorem setRegW_pair (s : State) (f : Fld) (i k v : Nat) : (setRegW s f i k v).pair = s.pair := rfl
@[simp] theorem setRegW_statAt (s : State) (f : Fld) (i k v : Nat) : (setRegW s f i k v).statAt = s.statAt := rfl
@[simp] theorem setRegW_can (s : State) (f : Fld) (i k v : Nat) : (setRegW s f i k v).can = s.can := rfl
@[simp] theorem setRegW_rcd (s : State) (f : Fld) (i k v : Nat) : (setRegW s f i k v).rcd = s.rcd := rfl
@[simp] theorem setRegW_pnl (s : State) (f : Fld) (i k v : Nat) : (setRegW s f i k v).pnl = s.pnl := rfl
@[simp] theorem setRegW_pwr (s : State) (f : Fld) (i k v : Nat) : (setRegW s f i k v).pwr = s.pwr := rfl
@[simp] theorem setRegW_host (s : State) (f : Fld) (i k v : Nat) : (setRegW s f i k v).host = s.host := rfl

/-! ## setF -/

@[simp] theorem setF_pending (s : State) (f : Fld) (v i k : Nat) : (setF s f v i k).pending = s.pending := rfl
@[simp] theorem setF_free (s : State) (f : Fld) (v i k : Nat) : (setF s f v i k).free = s.free := rfl
@[simp] theorem setF_mem (s : State) (f : Fld) (v i k : Nat) : (setF s f v i k).mem = s.mem := rfl
@[simp] theorem setF_bad (s : State) (f : Fld) (v i k : Nat) : (setF s f v i k).bad = s.bad := rfl
@[simp] theorem setF_ticks (s : State) (f : Fld) (v i k : Nat) : (setF s f v i k).ticks = s.ticks := rfl
@[simp] theorem setF_sec (s : State) (f : Fld) (v i k : Nat) : (setF s f v i k).sec = s.sec := rfl
@[simp] theorem setF_ns (s : State) (f : Fld) (v i k : Nat) : (setF s f v i k).ns = s.ns := rfl
@[simp] theorem setF_frac (s : State) (f : Fld) (v i k : Nat) : (setF s f v i k).frac = s.frac := rfl
@[simp] theorem setF_done (s : State) (f : Fld) (v i k : Nat) : (setF s f v i k).done = s.done := rfl
@[simp] theorem setF_loopFree (s : State) (f : Fld) (v i k : Nat) : (setF s f v i k).loopFree = s.loopFree := rfl
@[simp] theorem setF_lateCfg (s : State) (f : Fld) (v i k : Nat) : (setF s f v i k).lateCfg = s.lateCfg := rfl
@[simp] theorem setF_lat (s : State) (f : Fld) (v i k : Nat) : (setF s f v i k).lat = s.lat := rfl
@[simp] theorem setF_safeA (s : State) (f : Fld) (v i k : Nat) : (setF s f v i k).safeA = s.safeA := rfl
@[simp] theorem setF_safeB (s : State) (f : Fld) (v i k : Nat) : (setF s f v i k).safeB = s.safeB := rfl
@[simp] theorem setF_rcNs (s : State) (f : Fld) (v i k : Nat) : (setF s f v i k).rcNs = s.rcNs := rfl
@[simp] theorem setF_tl (s : State) (f : Fld) (v i k : Nat) : (setF s f v i k).tl = s.tl := rfl
@[simp] theorem setF_cores (s : State) (f : Fld) (v i k : Nat) : (setF s f v i k).cores = s.cores := rfl
@[simp] theorem setF_tsk (s : State) (f : Fld) (v i k : Nat) : (setF s f v i k).tsk = s.tsk := rfl
@[simp] theorem setF_chn (s : State) (f : Fld) (v i k : Nat) : (setF s f v i k).chn = s.chn := rfl
@[simp] theorem setF_mram (s : State) (f : Fld) (v i k : Nat) : (setF s f v i k).mram = s.mram := rfl
@[simp] theorem setF_recQ (s : State) (f : Fld) (v i k : Nat) : (setF s f v i k).recQ = s.recQ := rfl
@[simp] theorem setF_recDrop (s : State) (f : Fld) (v i k : Nat) : (setF s f v i k).recDrop = s.recDrop := rfl
@[simp] theorem setF_opAt (s : State) (f : Fld) (v i k : Nat) : (setF s f v i k).opAt = s.opAt := rfl
@[simp] theorem setF_lnk (s : State) (f : Fld) (v i k : Nat) : (setF s f v i k).lnk = s.lnk := rfl
@[simp] theorem setF_stats (s : State) (f : Fld) (v i k : Nat) : (setF s f v i k).stats = s.stats := rfl
@[simp] theorem setF_saf (s : State) (f : Fld) (v i k : Nat) : (setF s f v i k).saf = s.saf := rfl
@[simp] theorem setF_gens (s : State) (f : Fld) (v i k : Nat) : (setF s f v i k).gens = s.gens := rfl
@[simp] theorem setF_axes (s : State) (f : Fld) (v i k : Nat) : (setF s f v i k).axes = s.axes := rfl
@[simp] theorem setF_loops (s : State) (f : Fld) (v i k : Nat) : (setF s f v i k).loops = s.loops := rfl
@[simp] theorem setF_trc (s : State) (f : Fld) (v i k : Nat) : (setF s f v i k).trc = s.trc := rfl
@[simp] theorem setF_lio (s : State) (f : Fld) (v i k : Nat) : (setF s f v i k).lio = s.lio := rfl
@[simp] theorem setF_bsn (s : State) (f : Fld) (v i k : Nat) : (setF s f v i k).bsn = s.bsn := rfl
@[simp] theorem setF_time (s : State) (f : Fld) (v i k : Nat) : (setF s f v i k).time = s.time := rfl
@[simp] theorem setF_pair (s : State) (f : Fld) (v i k : Nat) : (setF s f v i k).pair = s.pair := rfl
@[simp] theorem setF_statAt (s : State) (f : Fld) (v i k : Nat) : (setF s f v i k).statAt = s.statAt := rfl
@[simp] theorem setF_can (s : State) (f : Fld) (v i k : Nat) : (setF s f v i k).can = s.can := rfl
@[simp] theorem setF_rcd (s : State) (f : Fld) (v i k : Nat) : (setF s f v i k).rcd = s.rcd := rfl
@[simp] theorem setF_pnl (s : State) (f : Fld) (v i k : Nat) : (setF s f v i k).pnl = s.pnl := rfl
@[simp] theorem setF_pwr (s : State) (f : Fld) (v i k : Nat) : (setF s f v i k).pwr = s.pwr := rfl
@[simp] theorem setF_host (s : State) (f : Fld) (v i k : Nat) : (setF s f v i k).host = s.host := rfl

/-! ## setCore -/

@[simp] theorem setCore_pending (s : State) (c : Nat) (v : Core) : (setCore s c v).pending = s.pending := rfl
@[simp] theorem setCore_free (s : State) (c : Nat) (v : Core) : (setCore s c v).free = s.free := rfl
@[simp] theorem setCore_regs (s : State) (c : Nat) (v : Core) : (setCore s c v).regs = s.regs := rfl
@[simp] theorem setCore_mem (s : State) (c : Nat) (v : Core) : (setCore s c v).mem = s.mem := rfl
@[simp] theorem setCore_bad (s : State) (c : Nat) (v : Core) : (setCore s c v).bad = s.bad := rfl
@[simp] theorem setCore_ticks (s : State) (c : Nat) (v : Core) : (setCore s c v).ticks = s.ticks := rfl
@[simp] theorem setCore_sec (s : State) (c : Nat) (v : Core) : (setCore s c v).sec = s.sec := rfl
@[simp] theorem setCore_ns (s : State) (c : Nat) (v : Core) : (setCore s c v).ns = s.ns := rfl
@[simp] theorem setCore_frac (s : State) (c : Nat) (v : Core) : (setCore s c v).frac = s.frac := rfl
@[simp] theorem setCore_done (s : State) (c : Nat) (v : Core) : (setCore s c v).done = s.done := rfl
@[simp] theorem setCore_loopFree (s : State) (c : Nat) (v : Core) : (setCore s c v).loopFree = s.loopFree := rfl
@[simp] theorem setCore_lateCfg (s : State) (c : Nat) (v : Core) : (setCore s c v).lateCfg = s.lateCfg := rfl
@[simp] theorem setCore_lat (s : State) (c : Nat) (v : Core) : (setCore s c v).lat = s.lat := rfl
@[simp] theorem setCore_safeA (s : State) (c : Nat) (v : Core) : (setCore s c v).safeA = s.safeA := rfl
@[simp] theorem setCore_safeB (s : State) (c : Nat) (v : Core) : (setCore s c v).safeB = s.safeB := rfl
@[simp] theorem setCore_rcNs (s : State) (c : Nat) (v : Core) : (setCore s c v).rcNs = s.rcNs := rfl
@[simp] theorem setCore_tl (s : State) (c : Nat) (v : Core) : (setCore s c v).tl = s.tl := rfl
@[simp] theorem setCore_tsk (s : State) (c : Nat) (v : Core) : (setCore s c v).tsk = s.tsk := rfl
@[simp] theorem setCore_chn (s : State) (c : Nat) (v : Core) : (setCore s c v).chn = s.chn := rfl
@[simp] theorem setCore_mram (s : State) (c : Nat) (v : Core) : (setCore s c v).mram = s.mram := rfl
@[simp] theorem setCore_recQ (s : State) (c : Nat) (v : Core) : (setCore s c v).recQ = s.recQ := rfl
@[simp] theorem setCore_recDrop (s : State) (c : Nat) (v : Core) : (setCore s c v).recDrop = s.recDrop := rfl
@[simp] theorem setCore_opAt (s : State) (c : Nat) (v : Core) : (setCore s c v).opAt = s.opAt := rfl
@[simp] theorem setCore_lnk (s : State) (c : Nat) (v : Core) : (setCore s c v).lnk = s.lnk := rfl
@[simp] theorem setCore_stats (s : State) (c : Nat) (v : Core) : (setCore s c v).stats = s.stats := rfl
@[simp] theorem setCore_saf (s : State) (c : Nat) (v : Core) : (setCore s c v).saf = s.saf := rfl
@[simp] theorem setCore_gens (s : State) (c : Nat) (v : Core) : (setCore s c v).gens = s.gens := rfl
@[simp] theorem setCore_axes (s : State) (c : Nat) (v : Core) : (setCore s c v).axes = s.axes := rfl
@[simp] theorem setCore_loops (s : State) (c : Nat) (v : Core) : (setCore s c v).loops = s.loops := rfl
@[simp] theorem setCore_trc (s : State) (c : Nat) (v : Core) : (setCore s c v).trc = s.trc := rfl
@[simp] theorem setCore_lio (s : State) (c : Nat) (v : Core) : (setCore s c v).lio = s.lio := rfl
@[simp] theorem setCore_bsn (s : State) (c : Nat) (v : Core) : (setCore s c v).bsn = s.bsn := rfl
@[simp] theorem setCore_time (s : State) (c : Nat) (v : Core) : (setCore s c v).time = s.time := rfl
@[simp] theorem setCore_pair (s : State) (c : Nat) (v : Core) : (setCore s c v).pair = s.pair := rfl
@[simp] theorem setCore_statAt (s : State) (c : Nat) (v : Core) : (setCore s c v).statAt = s.statAt := rfl
@[simp] theorem setCore_can (s : State) (c : Nat) (v : Core) : (setCore s c v).can = s.can := rfl
@[simp] theorem setCore_rcd (s : State) (c : Nat) (v : Core) : (setCore s c v).rcd = s.rcd := rfl
@[simp] theorem setCore_pnl (s : State) (c : Nat) (v : Core) : (setCore s c v).pnl = s.pnl := rfl
@[simp] theorem setCore_pwr (s : State) (c : Nat) (v : Core) : (setCore s c v).pwr = s.pwr := rfl
@[simp] theorem setCore_host (s : State) (c : Nat) (v : Core) : (setCore s c v).host = s.host := rfl

/-! ## setCtx -/

@[simp] theorem setCtx_pending (s : State) (c : Nat) (v : Ctx) : (setCtx s c v).pending = s.pending := rfl
@[simp] theorem setCtx_free (s : State) (c : Nat) (v : Ctx) : (setCtx s c v).free = s.free := rfl
@[simp] theorem setCtx_regs (s : State) (c : Nat) (v : Ctx) : (setCtx s c v).regs = s.regs := rfl
@[simp] theorem setCtx_mem (s : State) (c : Nat) (v : Ctx) : (setCtx s c v).mem = s.mem := rfl
@[simp] theorem setCtx_bad (s : State) (c : Nat) (v : Ctx) : (setCtx s c v).bad = s.bad := rfl
@[simp] theorem setCtx_ticks (s : State) (c : Nat) (v : Ctx) : (setCtx s c v).ticks = s.ticks := rfl
@[simp] theorem setCtx_sec (s : State) (c : Nat) (v : Ctx) : (setCtx s c v).sec = s.sec := rfl
@[simp] theorem setCtx_ns (s : State) (c : Nat) (v : Ctx) : (setCtx s c v).ns = s.ns := rfl
@[simp] theorem setCtx_frac (s : State) (c : Nat) (v : Ctx) : (setCtx s c v).frac = s.frac := rfl
@[simp] theorem setCtx_done (s : State) (c : Nat) (v : Ctx) : (setCtx s c v).done = s.done := rfl
@[simp] theorem setCtx_loopFree (s : State) (c : Nat) (v : Ctx) : (setCtx s c v).loopFree = s.loopFree := rfl
@[simp] theorem setCtx_lateCfg (s : State) (c : Nat) (v : Ctx) : (setCtx s c v).lateCfg = s.lateCfg := rfl
@[simp] theorem setCtx_lat (s : State) (c : Nat) (v : Ctx) : (setCtx s c v).lat = s.lat := rfl
@[simp] theorem setCtx_safeA (s : State) (c : Nat) (v : Ctx) : (setCtx s c v).safeA = s.safeA := rfl
@[simp] theorem setCtx_safeB (s : State) (c : Nat) (v : Ctx) : (setCtx s c v).safeB = s.safeB := rfl
@[simp] theorem setCtx_rcNs (s : State) (c : Nat) (v : Ctx) : (setCtx s c v).rcNs = s.rcNs := rfl
@[simp] theorem setCtx_tl (s : State) (c : Nat) (v : Ctx) : (setCtx s c v).tl = s.tl := rfl
@[simp] theorem setCtx_tsk (s : State) (c : Nat) (v : Ctx) : (setCtx s c v).tsk = s.tsk := rfl
@[simp] theorem setCtx_chn (s : State) (c : Nat) (v : Ctx) : (setCtx s c v).chn = s.chn := rfl
@[simp] theorem setCtx_mram (s : State) (c : Nat) (v : Ctx) : (setCtx s c v).mram = s.mram := rfl
@[simp] theorem setCtx_recQ (s : State) (c : Nat) (v : Ctx) : (setCtx s c v).recQ = s.recQ := rfl
@[simp] theorem setCtx_recDrop (s : State) (c : Nat) (v : Ctx) : (setCtx s c v).recDrop = s.recDrop := rfl
@[simp] theorem setCtx_opAt (s : State) (c : Nat) (v : Ctx) : (setCtx s c v).opAt = s.opAt := rfl
@[simp] theorem setCtx_lnk (s : State) (c : Nat) (v : Ctx) : (setCtx s c v).lnk = s.lnk := rfl
@[simp] theorem setCtx_stats (s : State) (c : Nat) (v : Ctx) : (setCtx s c v).stats = s.stats := rfl
@[simp] theorem setCtx_saf (s : State) (c : Nat) (v : Ctx) : (setCtx s c v).saf = s.saf := rfl
@[simp] theorem setCtx_gens (s : State) (c : Nat) (v : Ctx) : (setCtx s c v).gens = s.gens := rfl
@[simp] theorem setCtx_axes (s : State) (c : Nat) (v : Ctx) : (setCtx s c v).axes = s.axes := rfl
@[simp] theorem setCtx_loops (s : State) (c : Nat) (v : Ctx) : (setCtx s c v).loops = s.loops := rfl
@[simp] theorem setCtx_trc (s : State) (c : Nat) (v : Ctx) : (setCtx s c v).trc = s.trc := rfl
@[simp] theorem setCtx_lio (s : State) (c : Nat) (v : Ctx) : (setCtx s c v).lio = s.lio := rfl
@[simp] theorem setCtx_bsn (s : State) (c : Nat) (v : Ctx) : (setCtx s c v).bsn = s.bsn := rfl
@[simp] theorem setCtx_time (s : State) (c : Nat) (v : Ctx) : (setCtx s c v).time = s.time := rfl
@[simp] theorem setCtx_pair (s : State) (c : Nat) (v : Ctx) : (setCtx s c v).pair = s.pair := rfl
@[simp] theorem setCtx_statAt (s : State) (c : Nat) (v : Ctx) : (setCtx s c v).statAt = s.statAt := rfl
@[simp] theorem setCtx_can (s : State) (c : Nat) (v : Ctx) : (setCtx s c v).can = s.can := rfl
@[simp] theorem setCtx_rcd (s : State) (c : Nat) (v : Ctx) : (setCtx s c v).rcd = s.rcd := rfl
@[simp] theorem setCtx_pnl (s : State) (c : Nat) (v : Ctx) : (setCtx s c v).pnl = s.pnl := rfl
@[simp] theorem setCtx_pwr (s : State) (c : Nat) (v : Ctx) : (setCtx s c v).pwr = s.pwr := rfl
@[simp] theorem setCtx_host (s : State) (c : Nat) (v : Ctx) : (setCtx s c v).host = s.host := rfl

/-! ## setTask -/

@[simp] theorem setTask_pending (s : State) (t : Nat) (v : Task) : (setTask s t v).pending = s.pending := rfl
@[simp] theorem setTask_free (s : State) (t : Nat) (v : Task) : (setTask s t v).free = s.free := rfl
@[simp] theorem setTask_regs (s : State) (t : Nat) (v : Task) : (setTask s t v).regs = s.regs := rfl
@[simp] theorem setTask_mem (s : State) (t : Nat) (v : Task) : (setTask s t v).mem = s.mem := rfl
@[simp] theorem setTask_bad (s : State) (t : Nat) (v : Task) : (setTask s t v).bad = s.bad := rfl
@[simp] theorem setTask_ticks (s : State) (t : Nat) (v : Task) : (setTask s t v).ticks = s.ticks := rfl
@[simp] theorem setTask_sec (s : State) (t : Nat) (v : Task) : (setTask s t v).sec = s.sec := rfl
@[simp] theorem setTask_ns (s : State) (t : Nat) (v : Task) : (setTask s t v).ns = s.ns := rfl
@[simp] theorem setTask_frac (s : State) (t : Nat) (v : Task) : (setTask s t v).frac = s.frac := rfl
@[simp] theorem setTask_done (s : State) (t : Nat) (v : Task) : (setTask s t v).done = s.done := rfl
@[simp] theorem setTask_loopFree (s : State) (t : Nat) (v : Task) : (setTask s t v).loopFree = s.loopFree := rfl
@[simp] theorem setTask_lateCfg (s : State) (t : Nat) (v : Task) : (setTask s t v).lateCfg = s.lateCfg := rfl
@[simp] theorem setTask_lat (s : State) (t : Nat) (v : Task) : (setTask s t v).lat = s.lat := rfl
@[simp] theorem setTask_safeA (s : State) (t : Nat) (v : Task) : (setTask s t v).safeA = s.safeA := rfl
@[simp] theorem setTask_safeB (s : State) (t : Nat) (v : Task) : (setTask s t v).safeB = s.safeB := rfl
@[simp] theorem setTask_rcNs (s : State) (t : Nat) (v : Task) : (setTask s t v).rcNs = s.rcNs := rfl
@[simp] theorem setTask_tl (s : State) (t : Nat) (v : Task) : (setTask s t v).tl = s.tl := rfl
@[simp] theorem setTask_cores (s : State) (t : Nat) (v : Task) : (setTask s t v).cores = s.cores := rfl
@[simp] theorem setTask_chn (s : State) (t : Nat) (v : Task) : (setTask s t v).chn = s.chn := rfl
@[simp] theorem setTask_mram (s : State) (t : Nat) (v : Task) : (setTask s t v).mram = s.mram := rfl
@[simp] theorem setTask_recQ (s : State) (t : Nat) (v : Task) : (setTask s t v).recQ = s.recQ := rfl
@[simp] theorem setTask_recDrop (s : State) (t : Nat) (v : Task) : (setTask s t v).recDrop = s.recDrop := rfl
@[simp] theorem setTask_opAt (s : State) (t : Nat) (v : Task) : (setTask s t v).opAt = s.opAt := rfl
@[simp] theorem setTask_lnk (s : State) (t : Nat) (v : Task) : (setTask s t v).lnk = s.lnk := rfl
@[simp] theorem setTask_stats (s : State) (t : Nat) (v : Task) : (setTask s t v).stats = s.stats := rfl
@[simp] theorem setTask_saf (s : State) (t : Nat) (v : Task) : (setTask s t v).saf = s.saf := rfl
@[simp] theorem setTask_gens (s : State) (t : Nat) (v : Task) : (setTask s t v).gens = s.gens := rfl
@[simp] theorem setTask_axes (s : State) (t : Nat) (v : Task) : (setTask s t v).axes = s.axes := rfl
@[simp] theorem setTask_loops (s : State) (t : Nat) (v : Task) : (setTask s t v).loops = s.loops := rfl
@[simp] theorem setTask_trc (s : State) (t : Nat) (v : Task) : (setTask s t v).trc = s.trc := rfl
@[simp] theorem setTask_lio (s : State) (t : Nat) (v : Task) : (setTask s t v).lio = s.lio := rfl
@[simp] theorem setTask_bsn (s : State) (t : Nat) (v : Task) : (setTask s t v).bsn = s.bsn := rfl
@[simp] theorem setTask_time (s : State) (t : Nat) (v : Task) : (setTask s t v).time = s.time := rfl
@[simp] theorem setTask_pair (s : State) (t : Nat) (v : Task) : (setTask s t v).pair = s.pair := rfl
@[simp] theorem setTask_statAt (s : State) (t : Nat) (v : Task) : (setTask s t v).statAt = s.statAt := rfl
@[simp] theorem setTask_can (s : State) (t : Nat) (v : Task) : (setTask s t v).can = s.can := rfl
@[simp] theorem setTask_rcd (s : State) (t : Nat) (v : Task) : (setTask s t v).rcd = s.rcd := rfl
@[simp] theorem setTask_pnl (s : State) (t : Nat) (v : Task) : (setTask s t v).pnl = s.pnl := rfl
@[simp] theorem setTask_pwr (s : State) (t : Nat) (v : Task) : (setTask s t v).pwr = s.pwr := rfl
@[simp] theorem setTask_host (s : State) (t : Nat) (v : Task) : (setTask s t v).host = s.host := rfl

/-! ## wrB -/

@[simp] theorem wrB_mem (s : State) (a : Nat) (b : Byte) : (wrB s a b).mem = mput 0 s.mem a b := by
  unfold wrB touchPage markDirty
  dsimp only
  split <;> split <;> (try split) <;> rfl
@[simp] theorem wrB_pending (s : State) (a : Nat) (b : Byte) : (wrB s a b).pending = s.pending := by
  unfold wrB touchPage markDirty
  dsimp only
  split <;> split <;> (try split) <;> rfl
@[simp] theorem wrB_free (s : State) (a : Nat) (b : Byte) : (wrB s a b).free = s.free := by
  unfold wrB touchPage markDirty
  dsimp only
  split <;> split <;> (try split) <;> rfl
@[simp] theorem wrB_regs (s : State) (a : Nat) (b : Byte) : (wrB s a b).regs = s.regs := by
  unfold wrB touchPage markDirty
  dsimp only
  split <;> split <;> (try split) <;> rfl
@[simp] theorem wrB_bad (s : State) (a : Nat) (b : Byte) : (wrB s a b).bad = s.bad := by
  unfold wrB touchPage markDirty
  dsimp only
  split <;> split <;> (try split) <;> rfl
@[simp] theorem wrB_ticks (s : State) (a : Nat) (b : Byte) : (wrB s a b).ticks = s.ticks := by
  unfold wrB touchPage markDirty
  dsimp only
  split <;> split <;> (try split) <;> rfl
@[simp] theorem wrB_sec (s : State) (a : Nat) (b : Byte) : (wrB s a b).sec = s.sec := by
  unfold wrB touchPage markDirty
  dsimp only
  split <;> split <;> (try split) <;> rfl
@[simp] theorem wrB_ns (s : State) (a : Nat) (b : Byte) : (wrB s a b).ns = s.ns := by
  unfold wrB touchPage markDirty
  dsimp only
  split <;> split <;> (try split) <;> rfl
@[simp] theorem wrB_frac (s : State) (a : Nat) (b : Byte) : (wrB s a b).frac = s.frac := by
  unfold wrB touchPage markDirty
  dsimp only
  split <;> split <;> (try split) <;> rfl
@[simp] theorem wrB_done (s : State) (a : Nat) (b : Byte) : (wrB s a b).done = s.done := by
  unfold wrB touchPage markDirty
  dsimp only
  split <;> split <;> (try split) <;> rfl
@[simp] theorem wrB_loopFree (s : State) (a : Nat) (b : Byte) : (wrB s a b).loopFree = s.loopFree := by
  unfold wrB touchPage markDirty
  dsimp only
  split <;> split <;> (try split) <;> rfl
@[simp] theorem wrB_lateCfg (s : State) (a : Nat) (b : Byte) : (wrB s a b).lateCfg = s.lateCfg := by
  unfold wrB touchPage markDirty
  dsimp only
  split <;> split <;> (try split) <;> rfl
@[simp] theorem wrB_lat (s : State) (a : Nat) (b : Byte) : (wrB s a b).lat = s.lat := by
  unfold wrB touchPage markDirty
  dsimp only
  split <;> split <;> (try split) <;> rfl
@[simp] theorem wrB_safeA (s : State) (a : Nat) (b : Byte) : (wrB s a b).safeA = s.safeA := by
  unfold wrB touchPage markDirty
  dsimp only
  split <;> split <;> (try split) <;> rfl
@[simp] theorem wrB_safeB (s : State) (a : Nat) (b : Byte) : (wrB s a b).safeB = s.safeB := by
  unfold wrB touchPage markDirty
  dsimp only
  split <;> split <;> (try split) <;> rfl
@[simp] theorem wrB_rcNs (s : State) (a : Nat) (b : Byte) : (wrB s a b).rcNs = s.rcNs := by
  unfold wrB touchPage markDirty
  dsimp only
  split <;> split <;> (try split) <;> rfl
@[simp] theorem wrB_tl (s : State) (a : Nat) (b : Byte) : (wrB s a b).tl = s.tl := by
  unfold wrB touchPage markDirty
  dsimp only
  split <;> split <;> (try split) <;> rfl
@[simp] theorem wrB_cores (s : State) (a : Nat) (b : Byte) : (wrB s a b).cores = s.cores := by
  unfold wrB touchPage markDirty
  dsimp only
  split <;> split <;> (try split) <;> rfl
@[simp] theorem wrB_tsk (s : State) (a : Nat) (b : Byte) : (wrB s a b).tsk = s.tsk := by
  unfold wrB touchPage markDirty
  dsimp only
  split <;> split <;> (try split) <;> rfl
@[simp] theorem wrB_chn (s : State) (a : Nat) (b : Byte) : (wrB s a b).chn = s.chn := by
  unfold wrB touchPage markDirty
  dsimp only
  split <;> split <;> (try split) <;> rfl
@[simp] theorem wrB_recQ (s : State) (a : Nat) (b : Byte) : (wrB s a b).recQ = s.recQ := by
  unfold wrB touchPage markDirty
  dsimp only
  split <;> split <;> (try split) <;> rfl
@[simp] theorem wrB_recDrop (s : State) (a : Nat) (b : Byte) : (wrB s a b).recDrop = s.recDrop := by
  unfold wrB touchPage markDirty
  dsimp only
  split <;> split <;> (try split) <;> rfl
@[simp] theorem wrB_opAt (s : State) (a : Nat) (b : Byte) : (wrB s a b).opAt = s.opAt := by
  unfold wrB touchPage markDirty
  dsimp only
  split <;> split <;> (try split) <;> rfl
@[simp] theorem wrB_lnk (s : State) (a : Nat) (b : Byte) : (wrB s a b).lnk = s.lnk := by
  unfold wrB touchPage markDirty
  dsimp only
  split <;> split <;> (try split) <;> rfl
@[simp] theorem wrB_stats (s : State) (a : Nat) (b : Byte) : (wrB s a b).stats = s.stats := by
  unfold wrB touchPage markDirty
  dsimp only
  split <;> split <;> (try split) <;> rfl
@[simp] theorem wrB_saf (s : State) (a : Nat) (b : Byte) : (wrB s a b).saf = s.saf := by
  unfold wrB touchPage markDirty
  dsimp only
  split <;> split <;> (try split) <;> rfl
@[simp] theorem wrB_gens (s : State) (a : Nat) (b : Byte) : (wrB s a b).gens = s.gens := by
  unfold wrB touchPage markDirty
  dsimp only
  split <;> split <;> (try split) <;> rfl
@[simp] theorem wrB_axes (s : State) (a : Nat) (b : Byte) : (wrB s a b).axes = s.axes := by
  unfold wrB touchPage markDirty
  dsimp only
  split <;> split <;> (try split) <;> rfl
@[simp] theorem wrB_loops (s : State) (a : Nat) (b : Byte) : (wrB s a b).loops = s.loops := by
  unfold wrB touchPage markDirty
  dsimp only
  split <;> split <;> (try split) <;> rfl
@[simp] theorem wrB_trc (s : State) (a : Nat) (b : Byte) : (wrB s a b).trc = s.trc := by
  unfold wrB touchPage markDirty
  dsimp only
  split <;> split <;> (try split) <;> rfl
@[simp] theorem wrB_lio (s : State) (a : Nat) (b : Byte) : (wrB s a b).lio = s.lio := by
  unfold wrB touchPage markDirty
  dsimp only
  split <;> split <;> (try split) <;> rfl
@[simp] theorem wrB_bsn (s : State) (a : Nat) (b : Byte) : (wrB s a b).bsn = s.bsn := by
  unfold wrB touchPage markDirty
  dsimp only
  split <;> split <;> (try split) <;> rfl
@[simp] theorem wrB_time (s : State) (a : Nat) (b : Byte) : (wrB s a b).time = s.time := by
  unfold wrB touchPage markDirty
  dsimp only
  split <;> split <;> (try split) <;> rfl
@[simp] theorem wrB_statAt (s : State) (a : Nat) (b : Byte) : (wrB s a b).statAt = s.statAt := by
  unfold wrB touchPage markDirty
  dsimp only
  split <;> split <;> (try split) <;> rfl
@[simp] theorem wrB_can (s : State) (a : Nat) (b : Byte) : (wrB s a b).can = s.can := by
  unfold wrB touchPage markDirty
  dsimp only
  split <;> split <;> (try split) <;> rfl
@[simp] theorem wrB_rcd (s : State) (a : Nat) (b : Byte) : (wrB s a b).rcd = s.rcd := by
  unfold wrB touchPage markDirty
  dsimp only
  split <;> split <;> (try split) <;> rfl
@[simp] theorem wrB_pnl (s : State) (a : Nat) (b : Byte) : (wrB s a b).pnl = s.pnl := by
  unfold wrB touchPage markDirty
  dsimp only
  split <;> split <;> (try split) <;> rfl
@[simp] theorem wrB_pwr (s : State) (a : Nat) (b : Byte) : (wrB s a b).pwr = s.pwr := by
  unfold wrB touchPage markDirty
  dsimp only
  split <;> split <;> (try split) <;> rfl
@[simp] theorem wrB_host (s : State) (a : Nat) (b : Byte) : (wrB s a b).host = s.host := by
  unfold wrB touchPage markDirty
  dsimp only
  split <;> split <;> (try split) <;> rfl

end Sys2Proof.Machine
end

