-- ==== Sys2Proof/WellFormed.lean ====
section
/-!
DEFINITION. Well-formed commands: every field fits its width in Table HXI-4, and every other number names something that the largest
variant can have. The meanings answer to ill-formed commands too; a field that no encoding can hold is none of the spec.
-/

namespace Sys2Proof

open Machine

/-- A number fits a field of `w` bits. -/
def fits (w v : Nat) : Bool := decide (v < 2 ^ w)

/-- A core: LC0 to LC5, SC-A, SC-B. -/
def coreOk (c : Nat) : Bool := decide (c < 8)

/-- A number is below a bound. -/
def under (n v : Nat) : Bool := decide (v < n)

/-- The fields of the header of a management request fit (Table HOST-2). -/
def mgHeadOk (h : MgHead) (len : Nat) : Bool := fits 16 h.op && fits 32 h.id && fits 79 h.rsv && fits 32 len

/-- The fields that come with a Modbus request fit. -/
def mbHdrOk (h : MbHdr) : Bool := fits 16 h.conn && fits 8 h.unit && fits 8 h.fn

/-- The fields of a command fit. -/
def wellFormed (i : Instr) : Bool :=
  match i with
  | .ld c mode xi ofs bit => coreOk c && fits 3 mode && fits 4 xi && fits 16 ofs && fits 3 bit
  | .ldn c mode xi ofs bit => coreOk c && fits 3 mode && fits 4 xi && fits 16 ofs && fits 3 bit
  | .and c mode xi ofs bit => coreOk c && fits 3 mode && fits 4 xi && fits 16 ofs && fits 3 bit
  | .andn c mode xi ofs bit => coreOk c && fits 3 mode && fits 4 xi && fits 16 ofs && fits 3 bit
  | .or c mode xi ofs bit => coreOk c && fits 3 mode && fits 4 xi && fits 16 ofs && fits 3 bit
  | .orn c mode xi ofs bit => coreOk c && fits 3 mode && fits 4 xi && fits 16 ofs && fits 3 bit
  | .xor c mode xi ofs bit => coreOk c && fits 3 mode && fits 4 xi && fits 16 ofs && fits 3 bit
  | .xorn c mode xi ofs bit => coreOk c && fits 3 mode && fits 4 xi && fits 16 ofs && fits 3 bit
  | .st c mode xi ofs bit => coreOk c && fits 3 mode && fits 4 xi && fits 16 ofs && fits 3 bit
  | .stn c mode xi ofs bit => coreOk c && fits 3 mode && fits 4 xi && fits 16 ofs && fits 3 bit
  | .set c mode xi ofs bit => coreOk c && fits 3 mode && fits 4 xi && fits 16 ofs && fits 3 bit
  | .clr c mode xi ofs bit => coreOk c && fits 3 mode && fits 4 xi && fits 16 ofs && fits 3 bit
  | .edr c mode xi ofs bit => coreOk c && fits 3 mode && fits 4 xi && fits 16 ofs && fits 3 bit
  | .edf c mode xi ofs bit => coreOk c && fits 3 mode && fits 4 xi && fits 16 ofs && fits 3 bit
  | .lbopNot c rsv => coreOk c && fits 20 rsv
  | .lbopLb0 c rsv => coreOk c && fits 20 rsv
  | .lbopLb1 c rsv => coreOk c && fits 20 rsv
  | .bop c rsv => coreOk c && fits 20 rsv
  | .bnx c rsv => coreOk c && fits 20 rsv
  | .bcl c rsv => coreOk c && fits 20 rsv
  | .lbw c rsv => coreOk c && fits 20 rsv
  | .wlb c rsv => coreOk c && fits 20 rsv
  | .tmrTon c _ xi unit rsv cell => coreOk c && fits 4 xi && fits 2 unit && fits 5 rsv && fits 12 cell
  | .tmrTof c _ xi unit rsv cell => coreOk c && fits 4 xi && fits 2 unit && fits 5 rsv && fits 12 cell
  | .tmrTp c _ xi unit rsv cell => coreOk c && fits 4 xi && fits 2 unit && fits 5 rsv && fits 12 cell
  | .tmrTrst c _ xi unit rsv cell => coreOk c && fits 4 xi && fits 2 unit && fits 5 rsv && fits 12 cell
  | .tmrxPreset c _ xi unit rsv cell => coreOk c && fits 4 xi && fits 2 unit && fits 5 rsv && fits 12 cell
  | .tmrxElapsed c _ xi unit rsv cell => coreOk c && fits 4 xi && fits 2 unit && fits 5 rsv && fits 12 cell
  | .tmrxLoadq c _ xi unit rsv cell => coreOk c && fits 4 xi && fits 2 unit && fits 5 rsv && fits 12 cell
  | .ctu c mode xi ac ofs => coreOk c && fits 3 mode && fits 4 xi && fits 1 ac && fits 15 ofs
  | .ctd c mode xi ac ofs => coreOk c && fits 3 mode && fits 4 xi && fits 1 ac && fits 15 ofs
  | .ctrReset c mode xi ac ofs => coreOk c && fits 3 mode && fits 4 xi && fits 1 ac && fits 15 ofs
  | .ctl c mode xi ac ofs => coreOk c && fits 3 mode && fits 4 xi && fits 1 ac && fits 15 ofs
  | .lw c mode xi ty _ ofs => coreOk c && fits 3 mode && fits 4 xi && fits 3 ty && fits 15 ofs
  | .sw c mode xi ty _ ofs => coreOk c && fits 3 mode && fits 4 xi && fits 3 ty && fits 15 ofs
  | .addm c mode xi ty _ ofs => coreOk c && fits 3 mode && fits 4 xi && fits 3 ty && fits 15 ofs
  | .subm c mode xi ty _ ofs => coreOk c && fits 3 mode && fits 4 xi && fits 3 ty && fits 15 ofs
  | .mulm c mode xi ty _ ofs => coreOk c && fits 3 mode && fits 4 xi && fits 3 ty && fits 15 ofs
  | .divm c mode xi ty _ ofs => coreOk c && fits 3 mode && fits 4 xi && fits 3 ty && fits 15 ofs
  | .aluAdd c ty _ ty2 rsv => coreOk c && fits 3 ty && fits 3 ty2 && fits 14 rsv
  | .aluSub c ty _ ty2 rsv => coreOk c && fits 3 ty && fits 3 ty2 && fits 14 rsv
  | .aluMul c ty _ ty2 rsv => coreOk c && fits 3 ty && fits 3 ty2 && fits 14 rsv
  | .aluDiv c ty _ ty2 rsv => coreOk c && fits 3 ty && fits 3 ty2 && fits 14 rsv
  | .aluMod c ty _ ty2 rsv => coreOk c && fits 3 ty && fits 3 ty2 && fits 14 rsv
  | .aluNeg c ty _ ty2 rsv => coreOk c && fits 3 ty && fits 3 ty2 && fits 14 rsv
  | .aluAbs c ty _ ty2 rsv => coreOk c && fits 3 ty && fits 3 ty2 && fits 14 rsv
  | .aluMin c ty _ ty2 rsv => coreOk c && fits 3 ty && fits 3 ty2 && fits 14 rsv
  | .aluMax c ty _ ty2 rsv => coreOk c && fits 3 ty && fits 3 ty2 && fits 14 rsv
  | .aluSqrt c ty _ ty2 rsv => coreOk c && fits 3 ty && fits 3 ty2 && fits 14 rsv
  | .aluAnd c ty _ ty2 rsv => coreOk c && fits 3 ty && fits 3 ty2 && fits 14 rsv
  | .aluOr c ty _ ty2 rsv => coreOk c && fits 3 ty && fits 3 ty2 && fits 14 rsv
  | .aluXor c ty _ ty2 rsv => coreOk c && fits 3 ty && fits 3 ty2 && fits 14 rsv
  | .aluNot c ty _ ty2 rsv => coreOk c && fits 3 ty && fits 3 ty2 && fits 14 rsv
  | .aluShl c ty _ ty2 rsv => coreOk c && fits 3 ty && fits 3 ty2 && fits 14 rsv
  | .aluShr c ty _ ty2 rsv => coreOk c && fits 3 ty && fits 3 ty2 && fits 14 rsv
  | .aluSar c ty _ ty2 rsv => coreOk c && fits 3 ty && fits 3 ty2 && fits 14 rsv
  | .aluRol c ty _ ty2 rsv => coreOk c && fits 3 ty && fits 3 ty2 && fits 14 rsv
  | .aluCvt c ty _ ty2 rsv => coreOk c && fits 3 ty && fits 3 ty2 && fits 14 rsv
  | .aluTrunc c ty _ ty2 rsv => coreOk c && fits 3 ty && fits 3 ty2 && fits 14 rsv
  | .aluMov c ty _ ty2 rsv => coreOk c && fits 3 ty && fits 3 ty2 && fits 14 rsv
  | .aluSwp c ty _ ty2 rsv => coreOk c && fits 3 ty && fits 3 ty2 && fits 14 rsv
  | .aluClrw c ty _ ty2 rsv => coreOk c && fits 3 ty && fits 3 ty2 && fits 14 rsv
  | .aluSextb c ty _ ty2 rsv => coreOk c && fits 3 ty && fits 3 ty2 && fits 14 rsv
  | .aluSexth c ty _ ty2 rsv => coreOk c && fits 3 ty && fits 3 ty2 && fits 14 rsv
  | .ldi c _ pos _ rsv imm => coreOk c && fits 2 pos && fits 6 rsv && fits 16 imm
  | .addi c _ _ rsv imm => coreOk c && fits 8 rsv && fits 16 imm
  | .cmp c cond ty comb rsv => coreOk c && fits 3 cond && fits 3 ty && fits 2 comb && fits 18 rsv
  | .lxi c xd _ _ rsv imm => coreOk c && fits 4 xd && fits 4 rsv && fits 16 imm
  | .xaluMov c xd xs imm => coreOk c && fits 4 xd && fits 4 xs && fits 14 imm
  | .xaluAdd c xd xs imm => coreOk c && fits 4 xd && fits 4 xs && fits 14 imm
  | .xaluSub c xd xs imm => coreOk c && fits 4 xd && fits 4 xs && fits 14 imm
  | .xaluAnd c xd xs imm => coreOk c && fits 4 xd && fits 4 xs && fits 14 imm
  | .xaluOr c xd xs imm => coreOk c && fits 4 xd && fits 4 xs && fits 14 imm
  | .xaluShl c xd xs imm => coreOk c && fits 4 xd && fits 4 xs && fits 14 imm
  | .xaluShr c xd xs imm => coreOk c && fits 4 xd && fits 4 xs && fits 14 imm
  | .xaluAddi c xd xs imm => coreOk c && fits 4 xd && fits 4 xs && fits 14 imm
  | .xaluFromwa c xd xs imm => coreOk c && fits 4 xd && fits 4 xs && fits 14 imm
  | .xaluTowa c xd xs imm => coreOk c && fits 4 xd && fits 4 xs && fits 14 imm
  | .chr c _ xi ty _ rsv chan => coreOk c && fits 4 xi && fits 3 ty && fits 3 rsv && fits 14 chan
  | .chw c _ xi ty _ rsv chan => coreOk c && fits 4 xi && fits 3 ty && fits 3 rsv && fits 14 chan
  | .chinv c _ xi _ rsv chan => coreOk c && fits 4 xi && fits 3 rsv && fits 14 chan
  | .movb c xd xs rsv cnt => coreOk c && fits 4 xd && fits 4 xs && fits 6 rsv && fits 12 cnt
  | .tbl c xb xi ty _ lim => coreOk c && fits 4 xb && fits 4 xi && fits 3 ty && fits 14 lim
  | .jmp c ofs => coreOk c && fits 26 ofs
  | .jlb c ofs => coreOk c && fits 26 ofs
  | .jlbn c ofs => coreOk c && fits 26 ofs
  | .jf c fc ofs => coreOk c && fits 4 fc && fits 22 ofs
  | .call c ofs => coreOk c && fits 26 ofs
  | .ret c rsv => coreOk c && fits 26 rsv
  | .djnz c xd ofs => coreOk c && fits 4 xd && fits 22 ofs
  | .callx c xi rsv => coreOk c && fits 4 xi && fits 22 rsv
  | .ecall c unit fn _ xp rsv inst => coreOk c && fits 4 unit && fits 6 fn && fits 4 xp && fits 2 rsv && fits 9 inst
  | .fenceM c rsv => coreOk c && fits 24 rsv
  | .fenceU c rsv => coreOk c && fits 24 rsv
  | .fenceIo c rsv => coreOk c && fits 24 rsv
  | .fenceX c rsv => coreOk c && fits 24 rsv
  | .taskEnd c rsv => coreOk c && fits 3 rsv
  | .yield c rsv => coreOk c && fits 3 rsv
  | .raise c rsv evt tag => coreOk c && fits 3 rsv && fits 3 evt && fits 16 tag
  | .bar c rsv evt tag => coreOk c && fits 3 rsv && fits 3 evt && fits 16 tag
  | .taskNop c rsv => coreOk c && fits 3 rsv
  | .mfs c xr _ rsv sr => coreOk c && fits 4 xr && fits 13 rsv && fits 8 sr
  | .mts c xr _ rsv sr => coreOk c && fits 4 xr && fits 13 rsv && fits 8 sr
  | .barrierOpen t => under 16 t
  | .syncEcallComplete key => under 72 key
  | .faultTaskRelease => true
  | .eventTaskRelease t => under 16 t
  | .taskBudgetExpiry t => under 16 t
  | .inputClose => true
  | .cycleRelease => true
  | .outputDeadline => true
  | .fastBufferClose p => under 64 p
  | .fastOutLaunch p => under 64 p
  | .keyPositionAccept code => under 4 code
  | .keyFaultDetect code => under 4 code
  | .programHalt => true
  | .restartWarm => true
  | .restartCold => true
  | .cyclicFirstRelease => true
  | .tskRestartWarm => true
  | .tskRestartCold => true
  | .tskSwitch => true
  | .tskCommit => true
  | .tskRevert => true
  | .tskSelect n => under 4 n
  | .tskCancel => true
  | .tskStore n => under 4 n
  | .olcSwitchPoint => true
  | .olcRevertPoint => true
  | .profilePinRequest v => under 4 v
  | .profileSwitchStart => true
  | .profileSwitchRun => true
  | .unitReqStop b i _ => under b.count i
  | .unitReqConfig b i _ => under b.count i
  | .unitReqRun b i _ => under b.count i
  | .unitBoundaryTransition b i => under b.count i
  | .chtabWrite _ ofs _ => fits 20 ofs
  | .chnInv v => fits 32 v
  | .cacheRereadDone n => fits 14 n
  | .mfCtlFree chan => fits 14 chan
  | .mfCtlForce chan => fits 14 chan
  | .mfCtlSim chan => fits 14 chan
  | .pfCtlFree chan => fits 14 chan
  | .pfCtlSim chan => fits 14 chan
  | .pfCtlForce chan => fits 14 chan
  | .simBitmapWrite i v => fits 9 i && fits 32 v
  | .inFrameRx p _ => under 64 p
  | .finFrameRx p _ => under 64 p
  | .arspRx p _ => under 64 p
  | .areqSend p => under 64 p
  | .ioutSend p => under 64 p
  | .identPoll p => under 64 p
  | .initTimeout i => fits 8 i
  | .acycTimeout p => under 64 p
  | .portLinkDown p => under 64 p
  | .portLinkUp p => under 64 p
  | .phyFault p => under 64 p
  | .bufUncorr p => under 64 p
  | .lnkAcyc i => fits 8 i
  | .lnkOutnow i => fits 8 i
  | .lnkReinit i => fits 8 i
  | .lnkRead i => fits 8 i
  | .lioSample _ rb => fits 64 rb
  | .localOutputApply => true
  | .localAoUpdate => true
  | .vsOverloadTrip v => under 4 v
  | .vsRetry v => under 4 v
  | .vsTestPulse v => under 4 v
  | .doTestPulse n => under 16 n
  | .doOverload n => under 16 n
  | .doOvertemp n => under 16 n
  | .doOpenLoad n => under 16 n
  | .doExtv n => under 16 n
  | .doRetry n _ => under 16 n
  | .wdExpired k => under 20 k
  | .aiConversion n _ => under 16 n
  | .aiOverload n => under 16 n
  | .aiShuntRetest n _ => under 16 n
  | .rotationStep => true
  | .rotationCalDone _ _ => true
  | .rotationHandover _ => true
  | .converterSelfcheckFail c => under 17 c
  | .aoReadback n _ _ => under 4 n
  | .safetyTaskRelease => true
  | .safetyTend => true
  | .stuckReset => true
  | .releaseWatchdogExpiry core => under 2 core
  | .wellheadCheck _ => true
  | .engineTrip code info => fits 8 code && fits 32 info
  | .loopSample c => fits 8 c
  | .loopUpdate => true
  | .ctxUncorr c => fits 8 c
  | .setsp c => fits 8 c
  | .loopMode c => fits 8 c
  | .bankswap c => fits 8 c
  | .faultrst c => fits 8 c
  | .loopRead c => fits 8 c
  | .injectStart c => fits 8 c
  | .injectStop c => fits 8 c
  | .injectionEnd c => fits 8 c
  | .trigArm c => fits 8 c
  | .trigForce c => fits 8 c
  | .trigStop c => fits 8 c
  | .coeffBankWrite _ o v => fits 20 o && fits 32 v
  | .tableStoreWrite o v => fits 20 o && fits 32 v
  | .lBswapWrite c => fits 8 c
  | .trcCtlArm => true
  | .trcCtlForce => true
  | .trcCtlStop => true
  | .traceSpillCopy => true
  | .profPlan => true
  | .profSample g => under 128 g
  | .move g => under 128 g
  | .limits g => under 128 g
  | .profStop g => under 128 g
  | .profRead g => under 128 g
  | .axisLaunch a => under 64 a
  | .vaxStart a => under 64 a
  | .vaxStop a => under 64 a
  | .setref a => under 64 a
  | .shape a => under 64 a
  | .vaxRead a => under 64 a
  | .vaxShapeWrite o v => fits 16 o && fits 32 v
  | .solve q => under 16 q
  | .bsnCancel q => under 16 q
  | .bsnRead q => under 16 q
  | .bsnUnit => true
  | .bsnDeadlineDecision q => under 16 q
  | .bsnResultWrite => true
  | .bsnDelivery => true
  | .scratchUncorr q => under 16 q
  | .bsnMatrixCopyDone q => under 16 q
  | .hbRx _ _ => true
  | .hbPulseRx => true
  | .hbPathSilent p => p == 1 || p == 2
  | .listenWindowEnd => true
  | .claim lvl => under 2 lvl
  | .takeover lvl => under 2 lvl
  | .abdication => true
  | .switchover => true
  | .resync => true
  | .hsMove => true
  | .hsSettleExpiry => true
  | .syncDataRx _ _ => true
  | .syncMarkRx _ frames bytes _ => fits 64 frames && fits 64 bytes
  | .syncCtrlRx _ _ => true
  | .syncRelayRx _ _ => true
  | .syncImgRx _ _ => true
  | .sstateRx _ _ => true
  | .ilkInChange lvl => under 2 lvl
  | .syncLinkDown => true
  | .retainPageCopy p => fits 14 p
  | .tpedgeList n => under 4 n
  | .tpedgePeriodic n => under 4 n
  | .tpedgeCancel n => under 4 n
  | .tcread n => under 4 n
  | .offset => true
  | .alarmArm n => under 8 n
  | .alarmCancel n => under 8 n
  | .alarmExpiry n => under 8 n
  | .tpEdgeOut n => under 4 n
  | .tcCapture n _ => under 4 n
  | .timeStep => true
  | .sourceTimeout k => under 4 k
  | .holdoverTimeout => true
  | .ptpSyncRx p _ => under 2 p
  | .ptpFollowUpRx p _ => under 2 p
  | .ptpDelayRespRx p _ => under 2 p
  | .ptpPdelayRx p _ => under 2 p
  | .ptpAnnounceRx p _ => under 2 p
  | .ptpSyncTx p => under 2 p
  | .nowSecLoRead => true
  | .canTx k => under 4 k
  | .express k => under 4 k
  | .canAbort k => under 4 k
  | .rxread k => under 4 k
  | .canSleep k => under 4 k
  | .canWakeLocal k => under 4 k
  | .canArbitration k => under 4 k
  | .canTxDone k _ => under 4 k
  | .canFrameRx k _ ago => under 4 k && fits 64 ago
  | .busOffRecovery k => under 4 k
  | .canWake k _ => under 4 k
  | .canSnapshot => true
  | .snapCnt1Read => true
  | .sessionConnect n addr tls fp => under 4 n && fits 64 addr && fits 16 tls.tcp && fits 64 fp
  | .sessionIdleClose k => under 8 k
  | .authBlockExpiry addr => fits 64 addr
  | .hello k h len => under 8 k && mgHeadOk h len
  | .read k h len a n => under 8 k && mgHeadOk h len && fits 32 a && fits 32 n
  | .write k epoch h len a _ => under 8 k && fits 32 epoch && mgHeadOk h len && fits 32 a
  | .lwrite k h len a _ => under 8 k && mgHeadOk h len && fits 32 a
  | .loadBegin k epoch h len kind total => under 8 k && fits 32 epoch && mgHeadOk h len && fits 8 kind && fits 32 total
  | .loadData k epoch h len ofs _ => under 8 k && fits 32 epoch && mgHeadOk h len && fits 32 ofs
  | .loadEnd k epoch h len sig _ => under 8 k && fits 32 epoch && mgHeadOk h len && fits 64 sig
  | .subscribe k h len _ => under 8 k && mgHeadOk h len
  | .keyset k h len slot key _ sig => under 8 k && mgHeadOk h len && fits 8 slot && fits 64 key && fits 64 sig
  | .relayTimeout id => fits 64 id
  | .modbusReadCoils h a n => mbHdrOk h && fits 16 a && fits 16 n
  | .modbusReadDiscrete h a n => mbHdrOk h && fits 16 a && fits 16 n
  | .modbusReadHolding h a n => mbHdrOk h && fits 16 a && fits 16 n
  | .modbusReadInput h a n => mbHdrOk h && fits 16 a && fits 16 n
  | .modbusWriteCoil h a v => mbHdrOk h && fits 16 a && fits 16 v
  | .modbusWriteRegister h a v => mbHdrOk h && fits 16 a && fits 16 v
  | .modbusWriteMultiple h a _ => mbHdrOk h && fits 16 a
  | .nmeaDatagramRx g _ len _ _ => fits 64 g && fits 64 len
  | .cond => true
  | .stat => true
  | .recordWrite => true
  | .statIntervalEnd => true
  | .pnlUpd v => fits 32 v
  | .panelUpdate _ => true
  | .panelRedraw r => under 8 r
  | .panelDischarge => true
  | .panelColdRecheck _ => true
  | .feedLost f => under 2 f
  | .feedGood f => under 2 f
  | .powerfail => true
  | .tempHigh t => fits 16 t
  | .tempTrip t => fits 16 t
  | .idleEntry u => under 11 u
  | .idleExit u => under 11 u
  | .moduleReset cause => under 6 cause
  | .fwWdog => true
  | .pllLoss p => under 2 p
  | .serdesPllLoss => true
  | .sysModuleReset _ => true
  | .convClear _ => true
  | .fwSelectA _ => true
  | .fwSelectB _ => true
  | .fwClear _ => true
  | .evtLatWrite b i v => under b.count i && fits 32 v
  | .eventLatch b i mask => under b.count i && fits 32 mask
  | .unitErrRead b i => under b.count i
  | .rcRegisterRead a => fits 32 a
  | .registerWrite _ a v => fits 32 a && fits 32 v
  | .illegalOpcode c word => coreOk c && fits 32 word
  | .canBusError k kind => under 4 k && fits 64 kind
  | .canBusIntegrated k => under 4 k
  | .canSleepConfirmed k => under 4 k
  | .hostLinkDown n => under 4 n
  | .hostLinkUp n => under 4 n
  | .hostFrameRx n svc => under 4 n && fits 8 svc
  | .syncLinkLost => true
  | .syncLinkRestored => true
  | .abdicateIlkDrop => true
  | .sessionClosed k => under 8 k
  | .ptpDelayReqTx p => under 2 p
  | .ptpDelayReqRx p _ => under 2 p
  | .ptpAnnounceTx p => under 2 p
  | .syncWaitExpiry => true
  | .junctionCooled t => fits 16 t
  | .operatingSecond => true
  | .panelUpdateDone => true
  | .panelSupplyFault => true
  | .partnerNorWriteDone => true

end Sys2Proof
end

