-- ==== Sys2Proof/Safety.lean ====
section
/-!
DEFINITION. What counts as a safe run: memory and registers in canonical form, contexts within the depths of their stacks, and
a step that answers a next state.
-/

namespace Sys2Proof.Machine

/-- Memory is in its one canonical form: addresses strictly rising, no byte that reads as an unlisted one does. -/
def Memory.wf (m : List Host.Cell) : Bool := mwf 0 m

/-- A context within its depths: 16 branches and 32 calls (Table HXI-2). -/
def ctxOk (k : Ctx) : Bool := decide (k.br.length ≤ 16) && decide (k.calls.length ≤ 32)

/-- Every context that the state holds is within its depths. -/
def ctxsOk (s : State) : Prop := (∀ c, ctxOk (getCore s c).ctx = true) ∧ ∀ key, ctxOk (getSeg s key).ctx = true

/-- An instruction of core `c` completed that changed its context alone: the new context, with `n` cycles counted. -/
def landed (s : State) (c : Nat) (k : Ctx) (n : Nat) : State := setCtx s c (withCyc k c n)

/-- An instruction of core `c` completed that found state `s` and left `s1` beside its context. -/
def landedOn (s s1 : State) (c : Nat) (k : Ctx) (n : Nat) : State := putCtx s s1 c (withCyc k c n) id

/-- A step answers a next state. -/
def goesOn (s : State) : Prop := ∃ t, step s = .next t

end Sys2Proof.Machine
end

