-- ==== Sys2Proof/Laws/Ops.lean ====
section
/-!
SUPPORT. The shared operations: memory bytes, registers, cores, and an instruction on a core.
-/

namespace Sys2Proof.Machine

/-! ## Memory -/

/-- A byte written keeps memory in canonical form. -/
theorem wrB_wf (s : State) (a : Nat) (b : Byte) (h : Memory.wf s.mem = true) : Memory.wf (wrB s a b).mem = true := by
  rw [wrB_mem]
  exact mput_wf 0 s.mem a b h

/-- Bytes written keep memory in canonical form. -/
theorem wrBs_wf (bs : List Byte) (s : State) (a : Nat) (h : Memory.wf s.mem = true) : Memory.wf (wrBs s a bs).mem = true := by
  induction bs generalizing s a with
  | nil => exact h
  | cons b t ih => exact ih (wrB s a b) (a + 1) (wrB_wf s a b h)

/-- A number written keeps memory in canonical form. -/
theorem wrN_wf (s : State) (a n v : Nat) (h : Memory.wf s.mem = true) : Memory.wf (wrN s a n v).mem = true :=
  wrBs_wf (leBytes n v) s a h

/-- A byte written is read back. -/
theorem rdB_wrB_same (s : State) (a : Nat) (b : Byte) : rdB (wrB s a b) a = b := by
  unfold rdB
  rw [wrB_mem]
  exact mget_mput_same 0 s.mem a b

/-- Every other byte reads as before. -/
theorem rdB_wrB_other (s : State) (a x : Nat) (b : Byte) (h : x ≠ a) : rdB (wrB s a b) x = rdB s x := by
  unfold rdB
  rw [wrB_mem]
  exact mget_mput_other 0 0 s.mem a x b h

/-- Bytes outside a written range read as before. -/
theorem rdB_wrBs_other (bs : List Byte) (s : State) (a x : Nat) (h : x < a ∨ a + bs.length ≤ x) :
    rdB (wrBs s a bs) x = rdB s x := by
  induction bs generalizing s a with
  | nil => rfl
  | cons b t ih =>
    simp only [List.length_cons] at h
    have h1 := ih (wrB s a b) (a + 1) (by omega)
    rw [show wrBs s a (b :: t) = wrBs (wrB s a b) (a + 1) t from rfl, h1]
    exact rdB_wrB_other s a x b (by omega)

/-- Bytes written are read back. -/
theorem rdBs_wrBs_same (bs : List Byte) (s : State) (a : Nat) : rdBs (wrBs s a bs) a bs.length = bs := by
  induction bs generalizing s a with
  | nil => rfl
  | cons b t ih =>
    simp only [wrBs, List.length_cons, rdBs, ih]
    rw [rdB_wrBs_other t _ _ _ (.inl (Nat.lt_succ_self a)), rdB_wrB_same]

/-- A number written is read back, cut to the bytes it was given. -/
theorem rdN_wrN (s : State) (a n v : Nat) : rdN (wrN s a n v) a n = v % 256 ^ n := by
  have h := rdBs_wrBs_same (leBytes n v) s a
  rw [leBytes_length] at h
  rw [rdN, wrN, h, leNat_leBytes]

/-- A completed call shows its completion word at its descriptor (R92). -/
theorem complete_word (s : State) (c : Call) (code res : Nat) :
    rdN (complete s c code res) (c.addr + 8) 8 = cmplWord c.ticket (engCode c.unit + code) res := by
  have h : cmplWord c.ticket (engCode c.unit + code) res < 256 ^ 8 := by unfold cmplWord; omega
  rw [complete, rdN_wrN, Nat.mod_eq_of_lt h]

/-- Reset memory is in canonical form. -/
theorem reset_mem_wf : Memory.wf State.reset.mem = true := rfl

/-! ## Cores -/

/-- A core is read back. -/
theorem getCore_setCore_same (s : State) (c : Nat) (v : Core) : getCore (setCore s c v) c = v :=
  mget_mput_same ({} : Core) s.cores c v

/-- Another core is as before. -/
theorem getCore_setCore_other (s : State) (c d : Nat) (v : Core) (h : d ≠ c) : getCore (setCore s c v) d = getCore s d :=
  mget_mput_other ({} : Core) ({} : Core) s.cores c d v h

/-- A core's context, replaced, is read back; the rest of the core is as before. -/
@[simp] theorem getCore_setCtx_same (s : State) (c : Nat) (k : Ctx) :
    getCore (setCtx s c k) c = { getCore s c with ctx := k } := getCore_setCore_same s c _

/-- Another core is as before. -/
theorem getCore_setCtx_other (s : State) (c d : Nat) (k : Ctx) (h : d ≠ c) : getCore (setCtx s c k) d = getCore s d :=
  getCore_setCore_other s c d _ h

/-- Whether a core executes does not depend on its context. -/
@[simp] theorem runs_setCtx (s : State) (c : Nat) (k : Ctx) : runs (setCtx s c k) c = runs s c := by
  simp [runs, setCtx, getCore_setCore_same]

/-- The context that the next instruction finds. -/
@[simp] theorem stepCtx_setCtx (s : State) (c : Nat) (k : Ctx) :
    stepCtx (setCtx s c k) c = { k with pc := (k.pc + 4) % 2 ^ 32 } := by
  simp [stepCtx]

/-- An instruction that changed its context alone: its core has the new context. -/
@[simp] theorem landed_ctx (s : State) (c : Nat) (k : Ctx) (n : Nat) : (getCore (landed s c k n) c).ctx = withCyc k c n := by
  simp [landed]

/-- An instruction that changed nothing beside its context. -/
theorem landedOn_self (s : State) (c : Nat) (k : Ctx) (n : Nat) : landedOn s s c k n = landed s c k n := by
  simp [landedOn, landed, putCtx]

/-! ## An instruction on a core -/

/-- The context goes back to its core where the core still runs what it ran. -/
theorem putCtx_same (s s1 : State) (c : Nat) (k : Ctx) (post : State → State) (h : (getCore s1 c).run = (getCore s c).run) :
    putCtx s s1 c k post = post (setCtx s1 c k) := by simp [putCtx, h]

/-- An instruction that is done without a change of the state changes the context of its core alone. -/
theorem runOn_done (s : State) (c : Nat) (f : State → Ctx → Out) (k : Ctx) (n : Nat) (hr : runs s c = true)
    (hf : f s (stepCtx s c) = .done s k n) : runOn s c f = .next (setCtx s c (withCyc k c n)) := by
  simp [runOn, runThen, hr, hf, putCtx]

/-- An instruction that is done with another state. -/
theorem runOn_done' (s s1 : State) (c : Nat) (f : State → Ctx → Out) (k : Ctx) (n : Nat) (hr : runs s c = true)
    (hf : f s (stepCtx s c) = .done s1 k n) : runOn s c f = .next (putCtx s s1 c (withCyc k c n) id) := by
  simp [runOn, runThen, hr, hf]

/-- An instruction that faults. -/
theorem runOn_fault (s s1 : State) (c : Nat) (f : State → Ctx → Out) (code a : Nat) (hr : runs s c = true)
    (hf : f s (stepCtx s c) = .fault s1 code a) : runOn s c f = .next (coreFault s1 c code a) := by
  simp [runOn, runThen, hr, hf]

/-- A core that does not execute leaves the state as it is. -/
theorem runOn_idle (s : State) (c : Nat) (f : State → Ctx → Out) (hr : runs s c = false) : runOn s c f = .next s := by
  simp [runOn, runThen, hr]

/-- Every instruction on a core answers a next state. -/
theorem runThen_next (s : State) (c : Nat) (f : State → Ctx → Out) (post : State → State) :
    ∃ t, runThen s c f post = .next t := by
  unfold runThen
  split
  · split
    · exact ⟨_, rfl⟩
    · exact ⟨_, rfl⟩
  · exact ⟨_, rfl⟩

/-- A check that holds. -/
@[simp] theorem need_true (s : State) (code a : Nat) (f : Unit → Out) : need true s code a f = f () := rfl
/-- A check that fails. -/
@[simp] theorem need_false (s : State) (code a : Nat) (f : Unit → Out) : need false s code a f = .fault s code a := rfl

end Sys2Proof.Machine
end

