-- ==== Sys2Proof/Laws/Regs.lean ====
section
/-!
SUPPORT. Read after write for register words and fields, and what the shared operations on registers leave as it was.
-/

namespace Sys2Proof.Machine

/-! ## Fields of a number -/

/-- A field below or above a replaced field is as before. -/
theorem bits_setBits_other (v l w x l' w' : Nat) (h : l' + w' ≤ l ∨ l + w ≤ l') :
    bits (setBits v l w x) l' w' = bits v l' w' := by
  have ext : ∀ a b : Nat, (∀ j, j < w' → a.testBit (l' + j) = b.testBit (l' + j)) → bits a l' w' = bits b l' w' := by
    intro a b hab
    apply Nat.eq_of_testBit_eq
    intro j
    simp only [bits, Nat.testBit_mod_two_pow, Nat.testBit_shiftRight]
    by_cases hj : j < w'
    · simp [hj, hab j hj]
    · simp [hj]
  have hx : x % 2 ^ w < 2 ^ w := Nat.mod_lt _ (Nat.two_pow_pos w)
  have hv : v % 2 ^ l < 2 ^ l := Nat.mod_lt _ (Nat.two_pow_pos l)
  apply ext
  intro j hj
  rw [setBits_eq]
  rcases h with h | h
  · have e : v / 2 ^ (l + w) * 2 ^ (l + w) + x % 2 ^ w * 2 ^ l + v % 2 ^ l
        = 2 ^ l * (v / 2 ^ (l + w) * 2 ^ w + x % 2 ^ w) + v % 2 ^ l := by rw [Nat.pow_add]; ring
    rw [e, Nat.testBit_two_pow_mul_add _ hv]
    have : l' + j < l := by omega
    simp [this, Nat.testBit_mod_two_pow]
  · have hs : x % 2 ^ w * 2 ^ l + v % 2 ^ l < 2 ^ (l + w) := by
      rw [Nat.pow_add]
      calc x % 2 ^ w * 2 ^ l + v % 2 ^ l < x % 2 ^ w * 2 ^ l + 2 ^ l := by omega
        _ = (x % 2 ^ w + 1) * 2 ^ l := by ring
        _ ≤ 2 ^ w * 2 ^ l := Nat.mul_le_mul_right _ hx
        _ = 2 ^ l * 2 ^ w := by ring
    have e : v / 2 ^ (l + w) * 2 ^ (l + w) + x % 2 ^ w * 2 ^ l + v % 2 ^ l
        = 2 ^ (l + w) * (v / 2 ^ (l + w)) + (x % 2 ^ w * 2 ^ l + v % 2 ^ l) := by ring
    rw [e, Nat.testBit_two_pow_mul_add _ hs]
    have h1 : ¬ l' + j < l + w := by omega
    simp only [h1, if_false, Nat.testBit_div_two_pow]
    congr 1
    omega

/-- A field replaced in a 32-bit word leaves a 32-bit word. -/
theorem setBits_lt (v l w x : Nat) (hv : v < 2 ^ 32) (h : l + w ≤ 32) : setBits v l w x < 2 ^ 32 := by
  apply Nat.lt_pow_two_of_testBit
  intro i hi
  have h1 := bits_setBits_other v l w x i 1 (Or.inr (by omega))
  have h2 : v.testBit i = false := Nat.testBit_lt_two_pow (Nat.lt_of_lt_of_le hv (Nat.pow_le_pow_right (by omega) hi))
  have h3 : ∀ n : Nat, n.testBit i = decide (bits n i 1 = 1) := by
    intro n
    simp [bits, Nat.testBit]
  rw [h3, h1, ← h3, h2]

/-! ## Register words -/

/-- A register word written is read back. -/
theorem regW_setRegW_same (s : State) (f : Fld) (i k v : Nat) : regW (setRegW s f i k v) f i k = v % 2 ^ 32 := by
  simp [regW, setRegW]

/-- A register word at another address is as before. -/
theorem regW_setRegW_other (s : State) (f g : Fld) (i k j l v : Nat) (h : f.addr i k ≠ g.addr j l) :
    regW (setRegW s f i k v) g j l = regW s g j l := by
  unfold regW setRegW
  rw [mget_mput_other _ _ _ _ _ _ (Ne.symm h)]

/-- A register word is a 32-bit number. -/
theorem regW_lt (s : State) (f : Fld) (i k : Nat) : regW s f i k < 2 ^ 32 := (mget s.regs (f.addr i k) _).isLt

/-! ## Fields -/

/-- A field written is read back. -/
theorem getF_setF_same (s : State) (f : Fld) (v i k : Nat) (h : f.lsb + f.width ≤ 32) :
    getF (setF s f v i k) f i k = v % 2 ^ f.width := by
  unfold getF setF
  rw [regW_setRegW_same, Nat.mod_eq_of_lt (setBits_lt _ _ _ _ (regW_lt s f i k) h), bits_setBits_same]

/-- A field of a register at another address is as before. -/
theorem getF_setF_other (s : State) (f g : Fld) (v i k j l : Nat) (h : f.addr i k ≠ g.addr j l) :
    getF (setF s f v i k) g j l = getF s g j l := by
  unfold getF setF
  rw [regW_setRegW_other _ _ _ _ _ _ _ _ h]

/-- Another field of the same register is as before. -/
theorem getF_setF_disjoint (s : State) (f g : Fld) (v i k j l : Nat) (ha : f.addr i k = g.addr j l)
    (hr : f.reset k = g.reset l) (h : f.lsb + f.width ≤ 32) (hd : g.lsb + g.width ≤ f.lsb ∨ f.lsb + f.width ≤ g.lsb) :
    getF (setF s f v i k) g j l = getF s g j l := by
  have e : ∀ t : State, regW t g j l = regW t f i k := by intro t; simp [regW, ha, hr]
  unfold getF
  rw [e, e]
  unfold setF
  rw [regW_setRegW_same, Nat.mod_eq_of_lt (setBits_lt _ _ _ _ (regW_lt s f i k) h), bits_setBits_other _ _ _ _ _ _ hd]

/-! ## Records, latches and unit errors -/

/-- A record request leaves this field as it is. -/
@[simp] theorem recPush_mem (s : State) (r : RecReq) : (recPush s r).mem = s.mem := by unfold recPush; split <;> rfl
/-- A record request leaves this field as it is. -/
@[simp] theorem recPush_cores (s : State) (r : RecReq) : (recPush s r).cores = s.cores := by unfold recPush; split <;> rfl
/-- A record request leaves this field as it is. -/
@[simp] theorem recPush_tsk (s : State) (r : RecReq) : (recPush s r).tsk = s.tsk := by unfold recPush; split <;> rfl
/-- A record request leaves this field as it is. -/
@[simp] theorem recPush_chn (s : State) (r : RecReq) : (recPush s r).chn = s.chn := by unfold recPush; split <;> rfl
/-- A record request leaves this field as it is. -/
@[simp] theorem recPush_lio (s : State) (r : RecReq) : (recPush s r).lio = s.lio := by unfold recPush; split <;> rfl
/-- A record request leaves this field as it is. -/
@[simp] theorem recPush_saf (s : State) (r : RecReq) : (recPush s r).saf = s.saf := by unfold recPush; split <;> rfl
/-- A record request leaves this field as it is. -/
@[simp] theorem recPush_pair (s : State) (r : RecReq) : (recPush s r).pair = s.pair := by unfold recPush; split <;> rfl

/-- A unit error leaves memory, the cores, the tasks and the channels as they are. -/
theorem unitErrAt_keeps (s : State) (b : Blk) (i code src : Nat) (d : List Byte) :
    (unitErrAt s b i code src d).mem = s.mem ∧ (unitErrAt s b i code src d).cores = s.cores ∧
    (unitErrAt s b i code src d).tsk = s.tsk ∧ (unitErrAt s b i code src d).chn = s.chn ∧
    (unitErrAt s b i code src d).lio = s.lio ∧ (unitErrAt s b i code src d).saf = s.saf ∧
    (unitErrAt s b i code src d).pair = s.pair := by
  unfold unitErrAt recCond errShow
  split <;> simp

/-- A write of a register field leaves everything but the registers as it is: the parts that a reset clears or keeps. -/
theorem setF_keep (s : State) (f : Fld) (v i k : Nat) :
    (setF s f v i k).pending = s.pending ∧ (setF s f v i k).tsk = s.tsk ∧ (setF s f v i k).mram = s.mram ∧
    (setF s f v i k).mem = s.mem ∧ (setF s f v i k).cores = s.cores ∧ (setF s f v i k).recQ = s.recQ := by
  simp [setF, setRegW]

/-- A latch leaves memory, the cores and the channels as they are. -/
theorem latchN_keeps (n : Nat) (s : State) (b : Blk) (i m : Nat) :
    (latchN n s b i m).mem = s.mem ∧ (latchN n s b i m).cores = s.cores ∧ (latchN n s b i m).chn = s.chn ∧
    (latchN n s b i m).lio = s.lio ∧ (latchN n s b i m).saf = s.saf ∧ (latchN n s b i m).pair = s.pair := by
  induction n generalizing s b i m with
  | zero => exact ⟨rfl, rfl, rfl, rfl, rfl, rfl⟩
  | succ n ih =>
    unfold latchN
    simp only []
    split
    · exact ⟨rfl, rfl, rfl, rfl, rfl, rfl⟩
    · split
      · split
        · split
          · exact ⟨rfl, rfl, rfl, rfl, rfl, rfl⟩
          · have u := ih (unitErr (setTask (latBits s b i m) (8 + getF s (hUser b) i)
              { getTask (latBits s b i m) (8 + getF s (hUser b) i) with
                evDrop := sat 65535 ((getTask (latBits s b i m) (8 + getF s (hUser b) i)).evDrop + 1) }) .tsk 0 0x0316) .tsk 0 4
            have w := unitErrAt_keeps (setTask (latBits s b i m) (8 + getF s (hUser b) i)
              { getTask (latBits s b i m) (8 + getF s (hUser b) i) with
                evDrop := sat 65535 ((getTask (latBits s b i m) (8 + getF s (hUser b) i)).evDrop + 1) }) .tsk 0 0x0316
                (if Blk.rep .tsk then 0 else 0) []
            exact ⟨u.1.trans w.1, u.2.1.trans w.2.1, u.2.2.1.trans w.2.2.2.1, u.2.2.2.1.trans w.2.2.2.2.1,
              u.2.2.2.2.1.trans w.2.2.2.2.2.1, u.2.2.2.2.2.trans w.2.2.2.2.2.2⟩
        · exact ⟨rfl, rfl, rfl, rfl, rfl, rfl⟩
      · split <;> exact ⟨rfl, rfl, rfl, rfl, rfl, rfl⟩

/-- A trace that ends leaves memory, the cores and the channels as they are. -/
theorem trcDone_keeps (s : State) :
    (trcDone s).mem = s.mem ∧ (trcDone s).cores = s.cores ∧ (trcDone s).chn = s.chn ∧ (trcDone s).lio = s.lio ∧
    (trcDone s).saf = s.saf ∧ (trcDone s).pair = s.pair := by
  unfold trcDone
  exact latchN_keeps 2 _ .trc 0 2

/-- The trigger of a trace leaves memory, the cores and the channels as they are. -/
theorem trcEvent_keeps (s : State) (c new : Nat) :
    (trcEvent s c new).mem = s.mem ∧ (trcEvent s c new).cores = s.cores ∧ (trcEvent s c new).chn = s.chn ∧
    (trcEvent s c new).lio = s.lio ∧ (trcEvent s c new).saf = s.saf ∧ (trcEvent s c new).pair = s.pair := by
  unfold trcEvent trcFire
  have l (x : State) := latchN_keeps 2 x .trc 0 1
  have d (x : State) := trcDone_keeps x
  repeat' (first | split | exact ⟨rfl, rfl, rfl, rfl, rfl, rfl⟩)
  all_goals simp only []
  all_goals repeat' split
  all_goals first
    | exact ⟨rfl, rfl, rfl, rfl, rfl, rfl⟩
    | (simp only [d, l]; simp [setF, setRegW])

/-- A latch leaves memory, the cores and the channels as they are. -/
theorem latch_keeps (s : State) (b : Blk) (i m : Nat) :
    (latch s b i m).mem = s.mem ∧ (latch s b i m).cores = s.cores ∧ (latch s b i m).chn = s.chn ∧
    (latch s b i m).lio = s.lio ∧ (latch s b i m).saf = s.saf ∧ (latch s b i m).pair = s.pair := by
  have a := latchN_keeps 2 s b i m
  unfold latch
  split
  · have b := trcEvent_keeps (latchN 2 s b i m) i (m ^^^ (m &&& getF s (hLat b) i))
    exact ⟨b.1.trans a.1, b.2.1.trans a.2.1, b.2.2.1.trans a.2.2.1, b.2.2.2.1.trans a.2.2.2.1,
      b.2.2.2.2.1.trans a.2.2.2.2.1, b.2.2.2.2.2.trans a.2.2.2.2.2⟩
  · exact a

/-- A level condition leaves memory, the cores and the channels as they are. -/
theorem level_keeps (s : State) (b : Blk) (i n : Nat) (on : Bool) :
    (level s b i n on).mem = s.mem ∧ (level s b i n on).cores = s.cores ∧ (level s b i n on).chn = s.chn := by
  unfold level
  simp only []
  split
  · exact ⟨rfl, rfl, rfl⟩
  · split
    · exact ⟨(latch_keeps _ _ _ _).1, (latch_keeps _ _ _ _).2.1, (latch_keeps _ _ _ _).2.2.1⟩
    · exact ⟨rfl, rfl, rfl⟩

end Sys2Proof.Machine
end

