-- ==== Sys2Proof/Certificates/Slice0/Obligations.lean ====
section
/-!
DEFINITION. The statements for the provers: one `Prop` each, from the numbered rules of the spec. Most have the form: for
every state and operands under these conditions, `exec` of the row answers this next state, so that a statement says both
that the command completes and everything it changes.
-/

open Sys2Proof Sys2Proof.Machine

/-! ## The machine -/

/-- A step runs the command at the front of the queue on the state with the queue's rest. With no command waiting a step is
one TICK edge: the machine goes on, the count of TICK periods rises by one, the time counter advances by its increment, and
no byte of memory, no core and no segment of a task changes. All that a memory error at the edge may do is to mark one word
of memory, or to be counted or shown by the unit that owns the memory. A start-up, a restart or a session's request that
waits is the hypotheses' exception. That a step on an empty queue is a TICK edge, with a memory error at it, is the model's
choice (log entries 21 and 100). -/
def Obligations.StepRunsFrontOrTicks : Prop :=
  (∀ (s : State) (i : Instr) (rest : List Instr),
     step { s with pending := i :: rest } = exec i { s with pending := rest }) ∧
  (∀ s : State, s.pending = [] → s.pwr.waitS6 = none → (∀ c, (getCore s c).sb = [] ∧ (getCore s c).posted = []) →
     (∀ w, s.tsk.ph ≠ .units w) → (∀ k, (getSess s k).q = []) →
     counter s + getInc s < 2 ^ 64 * 1000000000 * 2 ^ 32 → (counter s + getInc s) / 2 ^ 32 / 1000000000 = s.sec →
     ∃ t, step s = .next t ∧ t.ticks = s.ticks + 1 ∧ counter t = counter s + getInc s ∧ t.ns < 1000000000 ∧
       t.mem = s.mem ∧ t.tsk.segs = s.tsk.segs ∧ t.pending = [] ∧ (∀ c, getCore t c = getCore s c) ∧
       (t.regs = s.regs ∧ t.tsk = s.tsk ∧ (t.bad = s.bad ∨ ∃ w, t.bad = w :: s.bad.filter (fun y => y != w)) ∨
         t.bad = s.bad ∧ t.saf = s.saf ∧ t.lio = s.lio ∧ t.chn = s.chn ∧ t.pair = s.pair))

/-- After reset every register word is the Reset column of its row, whatever copy of the block and whatever index, no memory
byte is listed, no command waits, and every core, task, port and engine has its state of after a reset. The reset values
that the tables do not give are the model's choice (log entry 5 and the entries it names). -/
def Obligations.ResetLeavesEveryRegister : Prop :=
  (∀ (f : Fld) (i k : Nat), regW State.reset f i k = f.reset k % 2 ^ 32) ∧
  (∀ b i, stOf State.reset b i = stSTOP) ∧ (∀ b i, getF State.reset (hErr b) i % 256 = 0) ∧
  (∀ b i, getF State.reset (hLat b) i = 0 ∧ getF State.reset (hEn b) i = 0) ∧
  (∀ a, rdB State.reset a = 0) ∧ Memory.wf State.reset.mem = true ∧ State.reset.pending = [] ∧ ctxsOk State.reset

/-! ## Instruction words -/

/-- Decoding the word of a well-formed instruction gives the instruction back, with every operand, for every instruction
that has a word. A reserved major opcode is a word only of ILLEGAL_OPCODE. -/
def Obligations.HxiWordsRoundTrip : Prop :=
  ∀ (i : Instr) (w : Nat), wellFormed i = true →
    (∀ c v, i = .illegalOpcode c v → opIllegal (v / 2 ^ 26 % 64) = true) →
    encodeHxi i = some w → ∃ c, decodeHxi c w = i

/-- The words that the spec writes out (Tables HXI-10, HXI-14, ORD-2 and ORD-5) decode to the instructions it prints beside
them. -/
def Obligations.WordsOfTheSpec : Prop :=
  decodeHxi 0 0x04000800 = .ld 0 0 0 0x100 0 ∧ decodeHxi 0 0x3C400000 = .bop 0 0 ∧
  decodeHxi 0 0x0C000801 = .and 0 0 0 0x100 1 ∧ decodeHxi 0 0x3C500000 = .bnx 0 0 ∧ decodeHxi 0 0x3C600000 = .bcl 0 0 ∧
  decodeHxi 0 0x11804018 = .andn 0 3 0 0x803 0 ∧ decodeHxi 0 0x25804200 = .st 0 3 0 0x840 0 ∧
  decodeHxi 0 0x90180E10 = .chr 0 false 0 6 false 0 0xE10 ∧ decodeHxi 0 0x76804220 = .ldi 0 true 1 false 0 0x4220 ∧
  decodeHxi 0 0x7E680000 = .cmp 0 4 6 2 0 ∧ decodeHxi 0 0x25807400 = .st 0 3 0 0xE80 0

/-! ## Bit logic -/

/-- LBOP: what each sub-operation does to LB, the branch stack and WA, that all take 1 cycle and change no flag, and where
BOP overflows and BNX and BCL underflow. -/
def Obligations.LbopSubOperations : Prop :=
  ∀ (s : State) (c : Nat), runs s c = true →
    let k := stepCtx s c
    exec (.lbopNot c 0) s = .next (landed s c { k with lb := !k.lb } 1) ∧
    exec (.lbopLb0 c 0) s = .next (landed s c { k with lb := false } 1) ∧
    exec (.lbopLb1 c 0) s = .next (landed s c { k with lb := true } 1) ∧
    exec (.lbw c 0) s = .next (landed s c { k with wa := if k.lb then 1 else 0 } 1) ∧
    exec (.wlb c 0) s = .next (landed s c { k with lb := decide (k.wa ≠ 0) } 1) ∧
    (k.br.length < 16 → exec (.bop c 0) s = .next (landed s c { k with br := (k.lb, false) :: k.br } 1)) ∧
    (16 ≤ k.br.length → exec (.bop c 0) s = .next (coreFault s c 0x0420 0)) ∧
    (k.br = [] → exec (.bnx c 0) s = .next (coreFault s c 0x0421 0) ∧ exec (.bcl c 0) s = .next (coreFault s c 0x0421 0)) ∧
    ∀ l po t, k.br = (l, po) :: t →
      exec (.bnx c 0) s = .next (landed s c { k with lb := l, br := (l, po || k.lb) :: t } 1) ∧
      exec (.bcl c 0) s = .next (landed s c { k with lb := po || k.lb, br := t } 1)

/-- A parallel branch of two paths: each path starts with the LB that entered the branch, and the branch delivers the OR of
what its paths leave in LB, with the branch stack as it was. `p` and `q` are what the two paths leave. -/
def Obligations.BranchDeliversOrOfPaths : Prop :=
  ∀ (s : State) (c : Nat) (p q : Bool), runs s c = true → (stepCtx s c).br.length < 16 →
    ∃ t1 t2 t3, exec (.bop c 0) s = .next t1 ∧ (getCore t1 c).ctx.lb = (getCore s c).ctx.lb ∧
      exec (.bnx c 0) (setCtx t1 c { (getCore t1 c).ctx with lb := p }) = .next t2 ∧
      (getCore t2 c).ctx.lb = (getCore s c).ctx.lb ∧
      exec (.bcl c 0) (setCtx t2 c { (getCore t2 c).ctx with lb := q }) = .next t3 ∧
      (getCore t3 c).ctx.lb = (p || q) ∧ (getCore t3 c).ctx.br = (getCore s c).ctx.br ∧ t3.mem = s.mem ∧ t3.regs = s.regs

/-- LD to XORN: LB from LB and the addressed bit, with the bit as it was read. Memory operands take 2 cycles, channel
operands 4, on a safety core 3. ST, STN, SET and CLR: the bit written, or for SET and CLR with LB = 0 only the checks of the
operand; a channel operand writes the output channel. LB and the flags are unchanged. EDR and EDF: LB becomes the rising or
falling edge of LB against the edge memory bit, the bit becomes LB, in 3 cycles, in memory modes alone; a channel mode is
refused. -/
def Obligations.BitOperands : Prop :=
  (∀ p ∈ ([(.ld, fun _ op => op), (.ldn, fun _ op => !op), (.and, fun lb op => lb && op), (.andn, fun lb op => lb && !op),
       (.or, fun lb op => lb || op), (.orn, fun lb op => lb || !op), (.xor, fun lb op => lb != op),
       (.xorn, fun lb op => lb != !op)] : List ((Nat → Nat → Nat → Nat → Nat → Instr) × (Bool → Bool → Bool))),
   ∀ (s : State) (c mode xi ofs bit : Nat), runs s c = true →
     let k := stepCtx s c
     (∀ bs s1, mode < 3 → modeOk mode xi = true → accessFault c (effAddr k mode xi ofs) 1 1 .bitRd false = none →
       uncorr s c (effAddr k mode xi ofs) 1 = false → memRd s c (effAddr k mode xi ofs) 1 = (bs, s1) →
       exec (p.1 c mode xi ofs bit) s = .next (landedOn s s1 c { k with lb := p.2 k.lb (bitOf (leNat bs) bit) } 2)) ∧
     (∀ v s1 s2, (mode = 3 ∨ mode = 4) → ofs < 2 ^ 14 → bit = 0 → chRange s c (bitChan k mode xi ofs) = false →
       (chEntry s c (bitChan k mode xi ofs)).2 = s1 → chTypeBad s1 c (bitChan k mode xi ofs) 0 = false →
       chRead s1 c (bitChan k mode xi ofs) = (v, s2) →
       exec (p.1 c mode xi ofs bit) s =
         .next (landedOn s s2 c { k with lb := p.2 k.lb (bitOf v.1 0) } (if c < 6 then 4 else 3)))) ∧
  (∀ p ∈ ([(.st, fun lb => some lb), (.stn, fun lb => some (!lb)), (.set, fun lb => if lb then some true else none),
       (.clr, fun lb => if lb then some false else none)] :
       List ((Nat → Nat → Nat → Nat → Nat → Instr) × (Bool → Option Bool))),
   ∀ (s : State) (c mode xi ofs bit : Nat), runs s c = true →
     let k := stepCtx s c
     (mode < 3 → modeOk mode xi = true → accessFault c (effAddr k mode xi ofs) 1 1 .bitWr false = none →
       uncorr s c (effAddr k mode xi ofs) 1 = false →
       exec (p.1 c mode xi ofs bit) s = .next (match p.2 k.lb with
         | some b => landedOn s (bitPut s c (effAddr k mode xi ofs) bit b) c k 2
         | none => landed s c k 2)) ∧
     (∀ s1, (mode = 3 ∨ mode = 4) → ofs < 2 ^ 14 → bit = 0 → chRange s c (bitChan k mode xi ofs) = false →
       (chEntry s c (bitChan k mode xi ofs)).2 = s1 → chTypeBad s1 c (bitChan k mode xi ofs) 0 = false →
       chRefused s1 c (bitChan k mode xi ofs) = none →
       exec (p.1 c mode xi ofs bit) s = .next (landedOn s (match p.2 k.lb with
         | some b => chWrite s1 c (bitChan k mode xi ofs) (if b then 1 else 0)
         | none => s1) c k (if c < 6 then 4 else 3)))) ∧
  (∀ p ∈ ([(.edr, fun lb op => lb && !op), (.edf, fun lb op => !lb && op)] :
       List ((Nat → Nat → Nat → Nat → Nat → Instr) × (Bool → Bool → Bool))),
   ∀ (s : State) (c mode xi ofs bit : Nat), runs s c = true →
     let k := stepCtx s c
     (∀ bs s1, modeOk mode xi = true → accessFault c (effAddr k mode xi ofs) 1 1 .bitWr false = none →
       uncorr (if c < 6 then rmwDrain s c (effAddr k mode xi ofs) 1 else s) c (effAddr k mode xi ofs) 1 = false →
       memRd (if c < 6 then rmwDrain s c (effAddr k mode xi ofs) 1 else s) c (effAddr k mode xi ofs) 1 = (bs, s1) →
       exec (p.1 c mode xi ofs bit) s = .next (landedOn s (bitPut s1 c (effAddr k mode xi ofs) bit k.lb) c
         { k with lb := p.2 k.lb (bitOf (leNat bs) bit) } 3)) ∧
     (mode = 3 ∨ mode = 4 → exec (p.1 c mode xi ofs bit) s = .next (coreFault s c 0x0411 0)))

/-- An operand that breaks a rule of addressing faults, for every bit and word instruction alike: ILLEGAL_OPERAND for a mode
that the instruction does not permit, and the fault of the access with the address it names. An instruction whose major
opcode is 0x00, 0x3F or reserved faults with ILLEGAL_OPCODE on every core. -/
def Obligations.ChecksBeforeEffects : Prop :=
  (∀ (s : State) (c mode xi ofs bit ty : Nat) (ac : Bool), runs s c = true →
     let k := stepCtx s c
     (4 < mode → exec (.ld c mode xi ofs bit) s = .next (coreFault s c 0x0411 0) ∧
       exec (.set c mode xi ofs bit) s = .next (coreFault s c 0x0411 0)) ∧
     (2 < mode → exec (.lw c mode xi ty ac ofs) s = .next (coreFault s c 0x0411 0) ∧
       exec (.sw c mode xi ty ac ofs) s = .next (coreFault s c 0x0411 0)) ∧
     (mode < 2 → xi ≠ 0 → exec (.lw c mode xi ty ac ofs) s = .next (coreFault s c 0x0411 0)) ∧
     (∀ code, modeOk mode xi = true →
       accessFault c (effAddr k mode xi (ofs * tySize ty)) (tySize ty) (tySize ty) .load (ty == 4) = some code →
       exec (.lw c mode xi ty ac ofs) s = .next (coreFault s c code (effAddr k mode xi (ofs * tySize ty)))) ∧
     (∀ code, modeOk mode xi = true → mode < 3 → accessFault c (effAddr k mode xi ofs) 1 1 .bitWr false = some code →
       exec (.set c mode xi ofs bit) s = .next (coreFault s c code (effAddr k mode xi ofs))) ∧
     (c < 6 → region (effAddr k mode xi (ofs * tySize ty)) (tySize ty) = none → modeOk mode xi = true →
       exec (.lw c mode xi ty ac ofs) s = .next (coreFault s c 0x0412 (effAddr k mode xi (ofs * tySize ty))))) ∧
  (∀ (s : State) (c w : Nat), runs s c = true →
     (w / 2 ^ 26 % 64 ∈ [0x00, 0x13, 0x1A, 0x1B, 0x22, 0x23, 0x27, 0x2A, 0x2B, 0x2C, 0x2D, 0x2E, 0x2F, 0x3D, 0x3E, 0x3F] →
       exec (.illegalOpcode c w) s = .next (coreFault s c 0x0410 0)))

/-- TON, TOF, TP and TRST on a timer cell as the pseudo-code of the rule has them, in 6 cycles, on the count that the cells
of the core run on: TICK, or the SAFE clock of a safety core. A cell number beyond the last faults with TIMER_RANGE. TMRX:
PRESET takes PT and its unit from WA[31:0], ELAPSED gives the whole units since ST, saturated at 2³² − 1, LOADQ gives Q; 4
cycles. UNIT 11 is refused. CTU, CTD, CTR and CTL on the 16-byte block of their operand: CV and the edge memory as the
pseudo-code of the rule has them, LB from CV, in 6 cycles. `bs` are the bytes of the block as the core reads them. -/
def Obligations.TimersAndCounters : Prop :=
  (∀ (s : State) (c xi cell : Nat) (i : Bool), runs s c = true →
     let k := stepCtx s c
     let n := cellNo k i xi cell
     let v := getTimer s (cellKey c n)
     let now : Int := cellNs s c
     let put (w : TCell) (lb : Bool) := landed (setTimer s (cellKey c n) w) c { k with lb := lb } 6
     let done (st : Int) : Bool := decide (now - st ≥ presetNs v)
     (n < cellCount c →
       (let st : Int := if k.lb && !v.inp then now else v.st
        let q := k.lb && done st
        exec (.tmrTon c i xi 0 0 cell) s = .next (put { v with st := st, q := q, inp := k.lb } q)) ∧
       (let st : Int := if !k.lb && v.inp then now else v.st
        let q := k.lb || (v.q && !done st)
        exec (.tmrTof c i xi 0 0 cell) s = .next (put { v with st := st, q := q, inp := k.lb } q)) ∧
       (let st : Int := if k.lb && !v.inp && !v.q then now else v.st
        let q := (v.q || (k.lb && !v.inp)) && !done st
        exec (.tmrTp c i xi 0 0 cell) s = .next (put { v with st := st, q := q, inp := k.lb } q)) ∧
       exec (.tmrTrst c i xi 0 0 cell) s =
         .next (if k.lb then put { v with q := false, inp := false } k.lb else landed s c k 6)) ∧
     (cellCount c ≤ n → exec (.tmrTon c i xi 0 0 cell) s = .next (coreFault s c 0x0432 0) ∧
       exec (.tmrTof c i xi 0 0 cell) s = .next (coreFault s c 0x0432 0) ∧
       exec (.tmrTp c i xi 0 0 cell) s = .next (coreFault s c 0x0432 0) ∧
       exec (.tmrTrst c i xi 0 0 cell) s = .next (coreFault s c 0x0432 0))) ∧
  (∀ (s : State) (c xi cell unit : Nat) (i : Bool), runs s c = true →
     let k := stepCtx s c
     let n := cellNo k i xi cell
     let v := getTimer s (cellKey c n)
     let el := ((cellNs s c : Int) - v.st).toNat / (if unit = 0 then 1000 else if unit = 1 then 1000000 else 1000000000)
     (n < cellCount c → unit < 3 →
       exec (.tmrxPreset c i xi unit 0 cell) s =
         .next (landed (setTimer s (cellKey c n) { v with pt := k.wa.toNat % 2 ^ 32, unit := unit }) c k 4) ∧
       exec (.tmrxElapsed c i xi unit 0 cell) s = .next (landed s c { k with wa := BitVec.ofNat 64 (min el (2 ^ 32 - 1)) } 4) ∧
       exec (.tmrxLoadq c i xi unit 0 cell) s = .next (landed s c { k with lb := v.q } 4)) ∧
     (exec (.tmrxPreset c i xi 3 0 cell) s = .next (coreFault s c 0x0411 0) ∧
       exec (.tmrxElapsed c i xi 3 0 cell) s = .next (coreFault s c 0x0411 0) ∧
       exec (.tmrxLoadq c i xi 3 0 cell) s = .next (coreFault s c 0x0411 0))) ∧
  (∀ (s s1 : State) (c mode xi ofs : Nat) (bs : List Byte), runs s c = true → modeOk mode xi = true →
     let k := stepCtx s c
     let a := effAddr k mode xi (ofs * 16)
     accessFault c a 16 16 .store false = none →
     uncorr (if c < 6 then rmwDrain s c a 16 else s) c a 16 = false →
     memRd (if c < 6 then rmwDrain s c a 16 else s) c a 16 = (bs, s1) →
     let cv := sint 32 (leNat (bs.take 4))
     let pv := sint 32 (leNat ((bs.drop 4).take 4))
     let e : Byte := bs.getD 8 0
     let wr (x : State) (v : Int) := memWr x c a (leBytes 4 (pat 32 v))
     exec (.ctu c mode xi 0 ofs) s = (if k.lb && !bitOf e.toNat 0 then
         .next (landedOn s (ctrEdge (wr s1 (min (cv + 1) (2 ^ 31 - 1))) c a 0 k.lb e) c
           { k with lb := decide (min (cv + 1) (2 ^ 31 - 1) ≥ pv) } 6)
       else .next (landedOn s (ctrEdge s1 c a 0 k.lb e) c { k with lb := decide (cv ≥ pv) } 6)) ∧
     exec (.ctd c mode xi 0 ofs) s = (if k.lb && !bitOf e.toNat 1 then
         .next (landedOn s (ctrEdge (wr s1 (max (cv - 1) (-(2 ^ 31)))) c a 1 k.lb e) c
           { k with lb := decide (max (cv - 1) (-(2 ^ 31)) ≤ 0) } 6)
       else .next (landedOn s (ctrEdge s1 c a 1 k.lb e) c { k with lb := decide (cv ≤ 0) } 6)) ∧
     exec (.ctrReset c mode xi 0 ofs) s = .next (landedOn s (if k.lb then wr s1 0 else s1) c k 6) ∧
     exec (.ctl c mode xi 0 ofs) s = .next (landedOn s (if k.lb then wr s1 pv else s1) c k 6))

/-- A TON shows Q = 0 at every evaluation in [ST, ST + PT) and Q = 1 at every evaluation at or after ST + PT: LB rises at
one evaluation, and `d` TICK periods (on a safety core, SAFE cycles) later the cell is evaluated again with LB still 1. A
TICK period is 4 ns. -/
def Obligations.TonShowsQAfterPreset : Prop :=
  ∀ (s : State) (c xi cell d : Nat) (i : Bool), runs s c = true → (getCore s c).ctx.lb = true →
    cellNo (stepCtx s c) i xi cell < cellCount c →
    (getTimer s (cellKey c (cellNo (stepCtx s c) i xi cell))).inp = false →
    ∃ t u, exec (.tmrTon c i xi 0 0 cell) s = .next t ∧
      let later := { t with ticks := t.ticks + d, safeA := t.safeA + d, safeB := t.safeB + d }
      exec (.tmrTon c i xi 0 0 cell) (setCtx later c { (getCore t c).ctx with lb := true }) = .next u ∧
      (c < 6 → cellNs later c = cellNs s c + 4 * d) ∧
      ((getCore t c).ctx.lb = true ↔ presetNs (getTimer s (cellKey c (cellNo (stepCtx s c) i xi cell))) ≤ 0) ∧
      ((getCore u c).ctx.lb = true ↔ presetNs (getTimer s (cellKey c (cellNo (stepCtx s c) i xi cell))) ≤
        (cellNs later c : Int) - cellNs s c)

/-! ## Memory words -/

/-- LW and SW: a load extends the value to 64 bits by its type and sets Z and N of the type's width, a store writes the low
bytes of the accumulator and changes no register; 2 cycles each. MOVB copies CNT + 1 bytes from the address in XS to the
address in XD as if through a buffer, in 6 + ⌈(CNT + 1) / 32⌉ cycles, and changes no register. -/
def Obligations.WordsAndBlocks : Prop :=
  (∀ (s : State) (c mode xi ty ofs : Nat) (ac : Bool), runs s c = true → modeOk mode xi = true →
     let k := stepCtx s c
     let n := tySize ty
     let a := effAddr k mode xi (ofs * n)
     (∀ bs s1, accessFault c a n n .load (ty == 4) = none → uncorr s c a n = false → memRd s c a n = (bs, s1) →
       exec (.lw c mode xi ty ac ofs) s = .next (landedOn s s1 c
         { setAcc k ac (tyExt ty (leNat bs)) with z := decide (leNat bs % 2 ^ tyBits ty = 0),
                                                  n := bitOf (leNat bs) (tyBits ty - 1) } 2)) ∧
     (accessFault c a n n .store (ty == 4) = none →
       exec (.sw c mode xi ty ac ofs) s = .next (landedOn s (memWr s c a (leBytes n (acc k ac))) c k 2))) ∧
  (∀ (s s1 : State) (c xd xs cnt : Nat) (bs : List Byte), runs s c = true →
     let k := stepCtx s c
     moveFault c (getX k xs) (getX k xd) (cnt + 1) = none → uncorr s c (getX k xs) (cnt + 1) = false →
     memRd s c (getX k xs) (cnt + 1) = (bs, s1) →
     exec (.movb c xd xs 0 cnt) s =
       .next (landedOn s (memWr s1 c (getX k xd) bs) c k (6 + (cnt + 32) / 32)))

/-- TBL sets the accumulator from the element at XB + XI × size of TYPE, with XI an unsigned index and Z and N as LW sets
them, in 3 cycles; an index at or beyond LIM, 0 meaning 16,384, faults with TBL_RANGE. -/
def Obligations.TableElements : Prop :=
  ∀ (s : State) (c xb xi ty lim : Nat) (ac : Bool), runs s c = true →
    let k := stepCtx s c
    let n := tySize ty
    let a := (getX k xb + getX k xi * n) % 2 ^ 32
    accessFault c a n n .load (ty == 4) = none →
    (∀ bs s1, getX k xi < (if lim = 0 then 16384 else lim) → uncorr s c a n = false → memRd s c a n = (bs, s1) →
      exec (.tbl c xb xi ty ac lim) s = .next (landedOn s s1 c
        { setAcc k ac (tyExt ty (leNat bs)) with z := decide (leNat bs % 2 ^ tyBits ty = 0),
                                                 n := bitOf (leNat bs) (tyBits ty - 1) } 3)) ∧
    ((if lim = 0 then 16384 else lim) ≤ getX k xi →
      exec (.tbl c xb xi ty ac lim) s = .next (coreFault s c 0x0431 a))

/-- On a safety core a word stored is loaded back, extended by its type, and every byte outside the stored word reads as
before; no register of a unit changes. -/
def Obligations.SafetyCoreLoadsWhatItStored : Prop :=
  ∀ (s : State) (c mode xi ty ofs : Nat) (ac : Bool), c = 6 ∨ c = 7 → runs s c = true → modeOk mode xi = true → ty < 8 →
    let n := tySize ty
    let a := effAddr (stepCtx s c) mode xi (ofs * n)
    accessFault c a n n .store false = none → uncorr s c a n = false →
    ∃ t u, exec (.sw c mode xi ty ac ofs) s = .next t ∧ exec (.lw c mode xi ty ac ofs) t = .next u ∧
      acc (getCore u c).ctx ac = tyExt ty (acc (stepCtx s c) ac % 2 ^ tyBits ty) ∧
      (∀ x, x < (safAddr c a).getD 0 ∨ (safAddr c a).getD 0 + n ≤ x → rdB t x = rdB s x) ∧
      t.regs = s.regs ∧ u.mem = t.mem ∧ u.regs = s.regs

/-- A store of a logic core to DATA or RETAIN enters the store buffer while that has room: no byte of memory changes yet, no
unit register and no other core, and the core's registers are as they were but for PC and CYC. A store of a logic core to
DDR4 or to a unit register enters the posted path while that has room: nothing else changes but PC and CYC. -/
def Obligations.StoresWaitInOrder : Prop :=
  (∀ (s : State) (c mode xi ty ofs : Nat) (ac : Bool), c < 6 → runs s c = true → modeOk mode xi = true → ty < 8 →
     let n := tySize ty
     let a := effAddr (stepCtx s c) mode xi (ofs * n)
     a < 0x01000000 → accessFault c a n n .store (ty == 4) = none → (getCore s c).sb.length < 16 →
     ∃ t, exec (.sw c mode xi ty ac ofs) s = .next t ∧ t.mem = s.mem ∧ t.regs = s.regs ∧ t.tsk = s.tsk ∧ t.chn = s.chn ∧
       (∀ d, d ≠ c → getCore t d = getCore s d) ∧ (getCore t c).ctx = withCyc (stepCtx s c) c 2 ∧
       (getCore t c).posted = (getCore s c).posted ∧
       ∃ e ∈ (getCore t c).sb, e.word = a - a % 8 ∧
         ∀ j, j < 8 * n → bitOf e.mask (8 * (a % 8) + j) = true ∧
           bitOf e.val (8 * (a % 8) + j) = bitOf (acc (stepCtx s c) ac) j) ∧
  (∀ (s : State) (c mode xi ty ofs : Nat) (ac : Bool), c < 6 → runs s c = true → modeOk mode xi = true → ty < 8 →
     let n := tySize ty
     let a := effAddr (stepCtx s c) mode xi (ofs * n)
     0x01000000 ≤ a → accessFault c a n n .store (ty == 4) = none → (getCore s c).posted.length < 32 →
     ∃ t, exec (.sw c mode xi ty ac ofs) s = .next t ∧ t.mem = s.mem ∧ t.regs = s.regs ∧ t.tsk = s.tsk ∧ t.chn = s.chn ∧
       (∀ d, d ≠ c → getCore t d = getCore s d) ∧ (getCore t c).ctx = withCyc (stepCtx s c) c 2 ∧
       (getCore t c).sb = (getCore s c).sb ∧
       (getCore t c).posted = (getCore s c).posted ++ [⟨a, leBytes n (acc (stepCtx s c) ac), s.ticks, 0⟩])

/-- The frame of the storing forms on a safety core: no unit register and no other core changes, the bytes outside the
stored ones read as before, at the address that the operand gives, and memory keeps its canonical form. -/
def Obligations.SafetyCoreStoresFrame : Prop :=
  ∀ (s : State) (c mode xi ofs bit ty : Nat) (ac : Bool), c = 6 ∨ c = 7 → runs s c = true → modeOk mode xi = true →
    let k := stepCtx s c
    let frame (i : Instr) (a n : Nat) := ∃ t, exec i s = .next t ∧ t.regs = s.regs ∧ (∀ d, d ≠ c → getCore t d = getCore s d) ∧
      (∀ x, x < (safAddr c a).getD 0 ∨ (safAddr c a).getD 0 + n ≤ x → rdB t x = rdB s x) ∧
      (Memory.wf s.mem = true → Memory.wf t.mem = true)
    (accessFault c (effAddr k mode xi ofs) 1 1 .bitWr false = none → uncorr s c (effAddr k mode xi ofs) 1 = false →
      frame (.st c mode xi ofs bit) (effAddr k mode xi ofs) 1 ∧ frame (.stn c mode xi ofs bit) (effAddr k mode xi ofs) 1 ∧
      frame (.set c mode xi ofs bit) (effAddr k mode xi ofs) 1 ∧ frame (.clr c mode xi ofs bit) (effAddr k mode xi ofs) 1 ∧
      frame (.edr c mode xi ofs bit) (effAddr k mode xi ofs) 1 ∧ frame (.edf c mode xi ofs bit) (effAddr k mode xi ofs) 1) ∧
    (accessFault c (effAddr k mode xi (ofs * tySize ty)) (tySize ty) (tySize ty) .store false = none →
      frame (.sw c mode xi ty ac ofs) (effAddr k mode xi (ofs * tySize ty)) (tySize ty)) ∧
    (accessFault c (effAddr k mode xi (ofs * 16)) 16 16 .store false = none →
      uncorr s c (effAddr k mode xi (ofs * 16)) 16 = false →
      frame (.ctu c mode xi 0 ofs) (effAddr k mode xi (ofs * 16)) 9 ∧
      frame (.ctd c mode xi 0 ofs) (effAddr k mode xi (ofs * 16)) 9 ∧
      frame (.ctrReset c mode xi 0 ofs) (effAddr k mode xi (ofs * 16)) 4 ∧
      frame (.ctl c mode xi 0 ofs) (effAddr k mode xi (ofs * 16)) 4)

/-! ## Arithmetic and index registers -/

/-- The functions of ALU: which types each permits, its result and flags on the destination and the other operand, and its
cycles. A type outside the permitted set is refused with ILLEGAL_OPERAND, a zero divisor of DIV and MOD with DIV_ZERO. CVT
between any two arithmetic types, TRUNC from a float to an integer type, SWP of both accumulators whole; each with the flags
of its result. -/
def Obligations.AluAndConversions : Prop :=
  (∀ p ∈ ([(.aluAdd, [3, 4, 5, 6, 7], aluAdd, false, [1, 1, 1, 2, 2]), (.aluSub, [3, 4, 5, 6, 7], aluSub, false, [1, 1, 1, 2, 2]),
       (.aluMul, [3, 4, 5, 6, 7], aluMul, false, [2, 2, 3, 3, 4]), (.aluDiv, [3, 4, 5, 6, 7], aluDiv, true, [10, 10, 18, 8, 14]),
       (.aluMod, [3, 4, 5], iMod, true, [10, 10, 18]), (.aluNeg, [3, 4, 5, 6, 7], fun t a _ => aluNeg t a, false, [1, 1, 1, 1, 1]),
       (.aluAbs, [3, 4, 5, 6, 7], fun t a _ => aluAbs t a, false, [1, 1, 1, 1, 1]),
       (.aluMin, [3, 4, 5, 6, 7], aluMin, false, [1, 1, 1, 1, 1]), (.aluMax, [3, 4, 5, 6, 7], aluMax, false, [1, 1, 1, 1, 1]),
       (.aluSqrt, [6, 7], fun t a _ => aluSqrt t a, false, [10, 16]), (.aluAnd, [3, 4, 5], fun t a b => iBits t (a &&& b), false, [1, 1, 1]),
       (.aluOr, [3, 4, 5], fun t a b => iBits t (a ||| b), false, [1, 1, 1]),
       (.aluXor, [3, 4, 5], fun t a b => iBits t (a ^^^ b), false, [1, 1, 1]),
       (.aluNot, [3, 4, 5], fun t a _ => iBits t (2 ^ tyBits t - 1 - a), false, [1, 1, 1]),
       (.aluShl, [3, 4, 5], fun t a b => iShl t a (b % 64), false, [1, 1, 1]),
       (.aluShr, [3, 4, 5], fun t a b => iShr t a (b % 64), false, [1, 1, 1]),
       (.aluSar, [3, 4, 5], fun t a b => iSar t a (b % 64), false, [1, 1, 1]),
       (.aluRol, [3, 4, 5], fun t a b => iRol t a (b % 64), false, [1, 1, 1]),
       (.aluMov, [3, 4, 5, 6, 7], fun t _ b => (b, movFlags t b), false, [1, 1, 1, 1, 1]),
       (.aluClrw, [3, 4, 5, 6, 7], fun t _ _ => (0, movFlags t 0), false, [1, 1, 1, 1, 1]),
       (.aluSextb, [3, 4, 5], fun t a _ => iBits t (pat 64 (sint 8 a)), false, [1, 1, 1]),
       (.aluSexth, [3, 4, 5], fun t a _ => iBits t (pat 64 (sint 16 a)), false, [1, 1, 1])] :
       List ((Nat → Nat → Bool → Nat → Nat → Instr) × List Nat × (Nat → Nat → Nat → AluRes) × Bool × List Nat)),
   ∀ (s : State) (c ty : Nat) (d : Bool), runs s c = true →
     let k := stepCtx s c
     let a := acc k d % 2 ^ tyBits ty
     let b := acc k (!d) % 2 ^ tyBits ty
     (ty ∉ p.2.1 → exec (p.1 c ty d 0 0) s = .next (coreFault s c 0x0411 0)) ∧
     (∀ j : Nat, p.2.1[j]? = some ty →
       (p.2.2.2.1 = true ∧ ty ≤ 5 ∧ b = 0 → exec (p.1 c ty d 0 0) s = .next (coreFault s c 0x0430 0)) ∧
       (¬ (p.2.2.2.1 = true ∧ ty ≤ 5 ∧ b = 0) →
         exec (p.1 c ty d 0 0) s = .next (landed s c (accResult k d ty (p.2.2.1 ty a b)) (p.2.2.2.2.getD j 0))))) ∧
  (∀ (s : State) (c ty ty2 : Nat) (d : Bool), runs s c = true → 3 ≤ ty ∧ ty ≤ 7 →
     let k := stepCtx s c
     (3 ≤ ty2 ∧ ty2 ≤ 7 →
       exec (.aluCvt c ty d ty2 0) s = .next (landed s c (accResult k d ty2 (aluCvt true ty ty2 (acc k d))) 2)) ∧
     (6 ≤ ty → 3 ≤ ty2 ∧ ty2 ≤ 5 →
       exec (.aluTrunc c ty d ty2 0) s = .next (landed s c (accResult k d ty2 (aluCvt false ty ty2 (acc k d))) 2)) ∧
     (ty ≤ 5 ∨ ty2 < 3 ∨ 5 < ty2 → exec (.aluTrunc c ty d ty2 0) s = .next (coreFault s c 0x0411 0)) ∧
     exec (.aluSwp c ty d 0 0) s = .next (landed s c (setFlags { k with wa := k.wb, wb := k.wa }
       (movFlags ty ((if d then k.wa.toNat else k.wb.toNat) % 2 ^ tyBits ty))) 1))

/-- ADDM, SUBM, MULM and DIVM: the accumulator becomes acc op mem with the results and flags of the accumulator forms, with
2 cycles added; a zero divisor faults with DIV_ZERO. LDI writes its 16 bits into one quarter of an accumulator and clears or
keeps the others; ADDI adds the sign-extended immediate as I32 or I64 with the flags of ADD. -/
def Obligations.MemoryFormsAndImmediates : Prop :=
  (∀ p ∈ ([(.addm, aluAdd, false, fun t => if t = 6 ∨ t = 7 then 4 else 3),
       (.subm, aluSub, false, fun t => if t = 6 ∨ t = 7 then 4 else 3),
       (.mulm, aluMul, false, fun t => if t = 7 then 6 else if t = 5 ∨ t = 6 then 5 else 4),
       (.divm, aluDiv, true, fun t => if t = 5 then 20 else if t = 6 then 10 else if t = 7 then 16 else 12)] :
       List ((Nat → Nat → Nat → Nat → Bool → Nat → Instr) × (Nat → Nat → Nat → AluRes) × Bool × (Nat → Nat))),
   ∀ (s s1 : State) (c mode xi ty ofs : Nat) (ac : Bool) (bs : List Byte), runs s c = true → modeOk mode xi = true →
     3 ≤ ty ∧ ty ≤ 7 →
     let k := stepCtx s c
     let n := tySize ty
     let a := effAddr k mode xi (ofs * n)
     accessFault c a n n .load (ty == 4) = none → uncorr s c a n = false → memRd s c a n = (bs, s1) →
     (¬ (p.2.2.1 = true ∧ ty ≤ 5 ∧ leNat bs % 2 ^ tyBits ty = 0) →
       exec (p.1 c mode xi ty ac ofs) s =
         .next (landedOn s s1 c (accResult k ac ty (p.2.1 ty (acc k ac % 2 ^ tyBits ty) (leNat bs))) (p.2.2.2 ty))) ∧
     (ty ≤ 5 ∧ leNat bs % 2 ^ tyBits ty = 0 →
       exec (.divm c mode xi ty ac ofs) s = .next (coreFault s1 c 0x0430 a))) ∧
  (∀ (s : State) (c pos imm : Nat) (ac keep w : Bool), runs s c = true → pos < 4 → imm < 2 ^ 16 →
     let k := stepCtx s c
     (∃ v, exec (.ldi c ac pos keep 0 imm) s = .next (landed s c (setAcc k ac v) 1) ∧ v < 2 ^ 64 ∧
       bits v (16 * pos) 16 = imm ∧
       ∀ q, q < 4 → q ≠ pos → bits v (16 * q) 16 = (if keep then bits (acc k ac) (16 * q) 16 else 0)) ∧
     (let ty := if w then 5 else 3
      exec (.addi c ac w 0 imm) s =
        .next (landed s c (accResult k ac ty (aluAdd ty (acc k ac % 2 ^ tyBits ty) (pat (tyBits ty) (sint 16 imm)))) 1)))

/-- Integer arithmetic on patterns: sums, differences and products wrap modulo 2 to the power of the width, V marks the
exact signed (for the product of U32 unsigned) result that does not fit, C the carry or borrow; where V is 0 a signed result
is exact. The minimum divided by −1 is the minimum with V, and its remainder is 0. -/
def Obligations.IntegerResultsWrap : Prop :=
  ∀ t : Nat, t = 3 ∨ t = 4 ∨ t = 5 → ∀ a b : Nat, a < 2 ^ tyBits t → b < 2 ^ tyBits t →
    let w := tyBits t
    (aluAdd t a b).1 = (a + b) % 2 ^ w ∧ (aluSub t a b).1 = (a + 2 ^ w - b) % 2 ^ w ∧ (aluMul t a b).1 = a * b % 2 ^ w ∧
    ((aluAdd t a b).2.v = false ↔ sint w (aluAdd t a b).1 = sint w a + sint w b) ∧
    ((aluSub t a b).2.v = false ↔ sint w (aluSub t a b).1 = sint w a - sint w b) ∧
    ((aluMul t a b).2.v = false ↔ tyInt t (aluMul t a b).1 = tyInt t a * tyInt t b) ∧
    (aluAdd t a b).2.c = decide (2 ^ w ≤ a + b) ∧ (aluSub t a b).2.c = decide (a < b) ∧ (aluMul t a b).2.c = false ∧
    (b ≠ 0 → (aluDiv t a b).2.v = false → tyInt t (aluDiv t a b).1 * tyInt t b + tyInt t (iMod t a b).1 = tyInt t a) ∧
    (t ≠ 4 → (aluDiv t (2 ^ (w - 1)) (2 ^ w - 1)).1 = 2 ^ (w - 1) ∧ (aluDiv t (2 ^ (w - 1)) (2 ^ w - 1)).2.v = true ∧
      (iMod t (2 ^ (w - 1)) (2 ^ w - 1)).1 = 0) ∧
    (∀ n, w ≤ n → (iShl t a n).1 = 0 ∧ (iShr t a n).1 = 0 ∧ (iSar t a n).1 = (if 2 ^ (w - 1) ≤ a then 2 ^ w - 1 else 0)) ∧
    (iRol t a w).1 = a ∧ (iShl t a 0).2.c = false ∧ (iShr t a 0).2.c = false ∧ (iSar t a 0).2.c = false ∧
    (iRol t a 0).2.c = false

/-- CMP compares WA with WB by the type, evaluates COND, combines it into LB and sets the flags, in 1 cycle for integers and
2 for floats; the relation is that of the integers the patterns stand for, or of the floats, where a NaN makes only NE and
UN true. -/
def Obligations.CompareAndCombine : Prop :=
  ∀ (s : State) (c cond ty comb : Nat), runs s c = true → 3 ≤ ty ∧ ty ≤ 7 → cond < 8 → comb < 4 →
    let k := stepCtx s c
    let a := k.wa.toNat % 2 ^ tyBits ty
    let b := k.wb.toNat % 2 ^ tyBits ty
    let eq := if ty ≤ 5 then decide (tyInt ty a = tyInt ty b) else feq (fmt ty) a b
    let lt := if ty ≤ 5 then decide (tyInt ty a < tyInt ty b) else flt (fmt ty) a b
    let un := if ty ≤ 5 then false else (fcmp (fmt ty) a b).isNone
    let r := [eq, !eq, lt, lt || eq, !un && !lt && !eq, !un && !lt, un, !un].getD cond false
    exec (.cmp c cond ty comb 0) s = .next (landed s c
      { setFlags k (cmpFlags ty a b) with lb := [k.lb, r, k.lb && r, k.lb || r].getD comb false } (if ty ≤ 5 then 1 else 2))

/-- XALU and LXI: the new value of XD or WA, modulo 2³², in 1 cycle, with the flags and every other register unchanged.
IMM14 that is not 0 outside ADDI, and XS that is not 0 in ADDI, FROMWA and TOWA, are refused. -/
def Obligations.IndexRegisters : Prop :=
  ∀ (s : State) (c xd xs imm half : Nat) (hi keep : Bool), runs s c = true → imm < 2 ^ 14 → half < 2 ^ 16 →
    let k := stepCtx s c
    let put (v : Nat) := Host.Outcome.next (landed s c (setX k xd v) 1)
    let d := getX k xd
    let x := getX k xs
    exec (.xaluMov c xd xs 0) s = put x ∧ exec (.xaluAdd c xd xs 0) s = put ((d + x) % 2 ^ 32) ∧
    exec (.xaluSub c xd xs 0) s = put ((d + 2 ^ 32 - x) % 2 ^ 32) ∧ exec (.xaluAnd c xd xs 0) s = put (d &&& x) ∧
    exec (.xaluOr c xd xs 0) s = put (d ||| x) ∧ exec (.xaluShl c xd xs 0) s = put (d * 2 ^ (x % 32) % 2 ^ 32) ∧
    exec (.xaluShr c xd xs 0) s = put (d / 2 ^ (x % 32)) ∧
    exec (.xaluAddi c xd 0 imm) s = put ((d + (if imm < 2 ^ 13 then imm else imm + 2 ^ 32 - 2 ^ 14)) % 2 ^ 32) ∧
    exec (.xaluFromwa c xd 0 0) s = put (k.wa.toNat % 2 ^ 32) ∧
    exec (.xaluTowa c xd 0 0) s = .next (landed s c { k with wa := BitVec.ofNat 64 d } 1) ∧
    exec (.lxi c xd hi keep 0 half) s = put (if hi then half * 2 ^ 16 + (if keep then d % 2 ^ 16 else 0)
      else half + (if keep then d / 2 ^ 16 * 2 ^ 16 else 0)) ∧
    (imm ≠ 0 → ∀ i ∈ [Instr.xaluMov c xd xs imm, .xaluAdd c xd xs imm, .xaluSub c xd xs imm, .xaluAnd c xd xs imm,
      .xaluOr c xd xs imm, .xaluShl c xd xs imm, .xaluShr c xd xs imm, .xaluFromwa c xd xs imm, .xaluTowa c xd xs imm],
      exec i s = .next (coreFault s c 0x0411 0)) ∧
    (xs ≠ 0 → ∀ i ∈ [Instr.xaluAddi c xd xs imm, .xaluFromwa c xd xs imm, .xaluTowa c xd xs imm],
      exec i s = .next (coreFault s c 0x0411 0))

/-- The frame of the instructions that work on the registers of their core: after one of them the state is as it was but for
the context of that core, or the instruction faulted. So no byte of memory, no unit register, no other core and no queue
changes when it completes. -/
def Obligations.RegisterInstructionsTouchTheirContext : Prop :=
  ∀ (s t : State) (c a b d e : Nat) (f g : Bool), ∀ i ∈
    ([.lbopNot c a, .lbopLb0 c a, .lbopLb1 c a, .bop c a, .bnx c a, .bcl c a, .lbw c a, .wlb c a, .tmrxLoadq c f a b d e,
      .tmrxElapsed c f a b d e, .aluAdd c a f b d, .aluSub c a f b d, .aluMul c a f b d, .aluDiv c a f b d, .aluMod c a f b d,
      .aluNeg c a f b d, .aluAbs c a f b d, .aluMin c a f b d, .aluMax c a f b d, .aluSqrt c a f b d, .aluAnd c a f b d,
      .aluOr c a f b d, .aluXor c a f b d, .aluNot c a f b d, .aluShl c a f b d, .aluShr c a f b d, .aluSar c a f b d,
      .aluRol c a f b d, .aluCvt c a f b d, .aluTrunc c a f b d, .aluMov c a f b d, .aluSwp c a f b d, .aluClrw c a f b d,
      .aluSextb c a f b d, .aluSexth c a f b d, .ldi c f a g b d, .addi c f g a b, .cmp c a b d e, .lxi c a f g b d,
      .xaluMov c a b d, .xaluAdd c a b d, .xaluSub c a b d, .xaluAnd c a b d, .xaluOr c a b d, .xaluShl c a b d,
      .xaluShr c a b d, .xaluAddi c a b d, .xaluFromwa c a b d, .xaluTowa c a b d, .jmp c a, .jlb c a, .jlbn c a, .jf c a b,
      .call c a, .ret c a, .djnz c a b, .callx c a b, .taskNop c a] : List Instr),
    exec i s = .next t → t = s ∨ (∃ k, t = setCtx s c k) ∨ ∃ code addr, t = coreFault s c code addr

/-! ## Channels, control flow, task control -/

/-- CHR gives the value of a channel, extended by its type, in WA and the status word in WB, in 4 cycles, 3 on a safety
core; an unused channel reads 0 and 0. CHW writes WA by its type to the OUT slot, in 3 cycles. A number that the core has no
channel for faults with CH_RANGE, a TYPE that is not that of the channel with CH_TYPE, and a write to a channel that the
core does not own with CH_OWNER, which is counted; an input of the safety map refuses a write with CH_TYPE. CHINV marks one
cached entry invalid in 8 cycles, or every entry in 32; a number beyond the variant faults with CH_RANGE, and a safety core
has no CHINV. -/
def Obligations.ChannelInstructions : Prop :=
  (∀ (s : State) (c xi ty chan : Nat) (i : Bool), runs s c = true →
     let k := stepCtx s c
     let n := chanNo k i xi chan
     (chRange s c n = true → exec (.chr c i xi ty false 0 chan) s = .next (coreFault s c 0x0433 n) ∧
       exec (.chw c i xi ty false 0 chan) s = .next (coreFault s c 0x0433 n)) ∧
     (chRange s c n = false →
       let s1 := (chEntry s c n).2
       let v := (chRead s1 c n).1
       let e := (getChan s1 n).cached
       (chTypeBad s1 c n ty = false →
         exec (.chr c i xi ty false 0 chan) s = .next (landedOn s (chRead s1 c n).2 c
           { k with wa := BitVec.ofNat 64 (tyExt ty v.1), wb := BitVec.ofNat 64 v.2 } (if c < 6 then 4 else 3))) ∧
       (chTypeBad s1 c n ty = false → chRefused s1 c n = none →
         exec (.chw c i xi ty false 0 chan) s = .next (landedOn s (chWrite s1 c n (k.wa.toNat % 2 ^ tyBits ty)) c k 3)) ∧
       (c < 6 → e.used = false →
         exec (.chr c i xi ty false 0 chan) s = .next (landedOn s s1 c { k with wa := 0, wb := 0 } 4)) ∧
       (chTypeBad s1 c n ty = true → exec (.chr c i xi ty false 0 chan) s = .next (coreFault s1 c 0x0434 n) ∧
         exec (.chw c i xi ty false 0 chan) s = .next (coreFault s1 c 0x0434 n)) ∧
       (c < 6 → chTypeBad s1 c n ty = false → coreOwns e (taskOn s1 c) = false →
         exec (.chw c i xi ty false 0 chan) s = .next (coreFault (ownRefused s1 n) c 0x0435 n)) ∧
       (∀ m, 6 ≤ c → mapAt s n = some m → m.kind ≠ 1 → m.kind ≠ 5 → chTypeBad s1 c n ty = false →
         exec (.chw c i xi ty false 0 chan) s = .next (coreFault s1 c 0x0434 n)))) ∧
  (∀ (s : State) (c xi chan : Nat) (i : Bool), runs s c = true →
     let k := stepCtx s c
     let n := chanNo k i xi chan
     (c < 6 → n < nChan s → exec (.chinv c i xi false 0 chan) s = .next (landedOn s (invalidate (ddrDrain s c) n) c k 8)) ∧
     (c < 6 → exec (.chinv c false 0 true 0 0) s = .next (landedOn s (invalidateAll (ddrDrain s c)) c k 32)) ∧
     (c < 6 → nChan s ≤ n → exec (.chinv c i xi false 0 chan) s = .next (coreFault s c 0x0433 n)) ∧
     (6 ≤ c → exec (.chinv c i xi false 0 chan) s = .next (coreFault s c 0x0410 0)))

/-- Jumps: the target is the address of the jump plus 4 times the signed offset; a jump taken takes 2 cycles and one not
taken 1; a target outside the code faults with ADDR_RANGE and the jump does not take place. That the target is the address
recorded is the model's deduction (log entry 26). CALL and CALLX put the address of the next instruction on the call stack;
with 32 entries they fault with CALL_OVF. RET takes the top entry, and faults with CALL_UNF on an empty stack. None touches
the branch stack, the flags, LB or an accumulator. That a refused target is the address recorded is the model's deduction
(log entry 26). -/
def Obligations.JumpsAndCalls : Prop :=
  (∀ (s : State) (c ofs fc xd : Nat), runs s c = true →
     let k := stepCtx s c
     let T := (((getCore s c).ctx.pc % 2 ^ 32 : Nat) : Int) + 4 * sint 26 ofs
     let G := (((getCore s c).ctx.pc % 2 ^ 32 : Nat) : Int) + 4 * sint 22 ofs
     let at_ (k : Ctx) (t : Int) (n : Nat) := Host.Outcome.next (landed s c { k with pc := t.toNat } n)
     let x := (getX k xd + 2 ^ 32 - 1) % 2 ^ 32
     (0 ≤ T ∧ T < codeLen s c → exec (.jmp c ofs) s = at_ k T 2 ∧
       exec (.jlb c ofs) s = (if k.lb then at_ k T 2 else .next (landed s c k 1)) ∧
       exec (.jlbn c ofs) s = (if k.lb then .next (landed s c k 1) else at_ k T 2)) ∧
     (¬ (0 ≤ T ∧ T < codeLen s c) → exec (.jmp c ofs) s = .next (coreFault s c 0x0412 (pat 32 T))) ∧
     (0 ≤ G ∧ G < codeLen s c → fc < 12 →
       exec (.jf c fc ofs) s = (if [k.z, !k.z, k.n, !k.n && !k.u, k.c, !k.c, k.v, !k.v, k.u, !k.u, !k.z && !k.n && !k.u,
         k.z || k.n].getD fc false then at_ k G 2 else .next (landed s c k 1))) ∧
     (0 ≤ G ∧ G < codeLen s c → exec (.djnz c xd ofs) s =
       (if x ≠ 0 then at_ (setX k xd x) G 2 else .next (landed s c (setX k xd x) 1))) ∧
     (12 ≤ fc → exec (.jf c fc ofs) s = .next (coreFault s c 0x0411 0))) ∧
  (∀ (s : State) (c ofs xi : Nat), runs s c = true →
     let k := stepCtx s c
     let T := (((getCore s c).ctx.pc % 2 ^ 32 : Nat) : Int) + 4 * sint 26 ofs
     (0 ≤ T ∧ T < codeLen s c → k.calls.length < 32 →
       exec (.call c ofs) s = .next (landed s c { k with pc := T.toNat, calls := k.pc :: k.calls } 2)) ∧
     (0 ≤ T ∧ T < codeLen s c → 32 ≤ k.calls.length → exec (.call c ofs) s = .next (coreFault s c 0x0423 0)) ∧
     (c < 6 → getX k xi < codeLen s c → getX k xi % 4 = 0 → k.calls.length < 32 →
       exec (.callx c xi 0) s = .next (landed s c { k with pc := getX k xi, calls := k.pc :: k.calls } 3)) ∧
     (c < 6 → getX k xi < codeLen s c → getX k xi % 4 ≠ 0 → exec (.callx c xi 0) s = .next (coreFault s c 0x0413 (getX k xi))) ∧
     (∀ a t, k.calls = a :: t → exec (.ret c 0) s = .next (landed s c { k with pc := a, calls := t } 2)) ∧
     (k.calls = [] → exec (.ret c 0) s = .next (coreFault s c 0x0424 0)))

/-- A CALL and the RET of the called code come back to the instruction after the CALL with every register of the core as it
was, but for the 4 cycles counted, 6 on SC-B. -/
def Obligations.CallThenReturn : Prop :=
  ∀ (s : State) (c ofs : Nat), runs s c = true → (getCore s c).ctx.calls.length < 32 →
    0 ≤ (((getCore s c).ctx.pc % 2 ^ 32 : Nat) : Int) + 4 * sint 26 ofs →
    (((getCore s c).ctx.pc % 2 ^ 32 : Nat) : Int) + 4 * sint 26 ofs < codeLen s c →
    ∃ t u, exec (.call c ofs) s = .next t ∧ exec (.ret c 0) t = .next u ∧
      (getCore t c).ctx.calls.length = (getCore s c).ctx.calls.length + 1 ∧
      (getCore u c).ctx = { (getCore s c).ctx with pc := ((getCore s c).ctx.pc + 4) % 2 ^ 32,
                                                   cyc := (getCore s c).ctx.cyc + (if c = 7 then 6 else 4) } ∧
      u.mem = s.mem ∧ u.regs = s.regs ∧ ∀ d, d ≠ c → getCore u d = getCore s d

/-- ECALL: a call that the engine accepts enters its queue behind the others with the next ticket, which WA shows with the
engine's code; one that it refuses leaves the queues as they are and shows DONE and the reason in WA; a descriptor that
breaks a rule is DESC_INVALID. Issue takes 4 cycles. The synchronous form acts on the state after FENCE.X, and where the
call was refused it does not wait. FENCE: the writes of its own core that each kind completes, and nothing else but PC;
after FENCE.M no write to DATA or RETAIN waits in the store buffer of the core, after FENCE.IO none to an OUT slot. A safety
core has no fence. -/
def Obligations.CallsToEnginesAndFences : Prop :=
  (∀ (s s1 : State) (c unit fn xp inst sel len : Nat) (bad : Bool), c < 6 → runs s c = true → fnAssigned unit fn = true →
     let k := stepCtx s c
     let i := callInst sel inst
     let word (code : Nat) (s2 : State) := Host.Outcome.next
       (landedOn s s2 c { k with wa := BitVec.ofNat 64 (2 ^ 63 + (engCode unit + code) % 2 ^ 16 * 2 ^ 32) } 4)
     (inst = 0x1FF ∨ instExists s unit fn inst = true) → descBad s unit fn inst (getX k xp) = (bad, sel, len, s1) →
     (bad = true → exec (.ecall c unit fn false xp 0 inst) s = word 2 s1) ∧
     (∀ s0 sel' len' s1', fenceX s c = s0 → (getCore s0 c).run = (getCore s c).run →
       (inst = 0x1FF ∨ instExists s0 unit fn inst = true) → descBad s0 unit fn inst (getX k xp) = (true, sel', len', s1') →
       (getCore s1' c).run = (getCore s c).run →
       exec (.ecall c unit fn true xp 0 inst) s = word 2 s1') ∧
     (bad = false → instExists s1 unit fn i = false →
       exec (.ecall c unit fn false xp 0 inst) s = .next (coreFault s1 c 0x0440 0)) ∧
     (bad = false → instExists s1 unit fn i = true → ∀ code, callRefused s1 unit fn i = some code →
       exec (.ecall c unit fn false xp 0 inst) s = word code s1) ∧
     (bad = false → instExists s1 unit fn i = true → callRefused s1 unit fn i = none →
       let t := nextTicket (mget s1.tsk.tickets unit 0)
       let s2 := setEngq { s1 with tsk := { s1.tsk with tickets := mput 0 s1.tsk.tickets unit t } } unit
         (getEngq s1 unit ++ [⟨unit, fn, i, t, getX k xp, len, now s1⟩])
       exec (.ecall c unit fn false xp 0 inst) s =
         .next (landedOn s s2 c { k with wa := BitVec.ofNat 64 (t + engCode unit * 2 ^ 32) } 4))) ∧
  (∀ (s : State) (c : Nat), runs s c = true →
     (c < 6 → exec (.fenceM c 0) s = .next (landedOn s (sbDrain s c (fun w => !isOutSlot w)) c (stepCtx s c) 0) ∧
       exec (.fenceU c 0) s = .next (landedOn s (postDrain s c) c (stepCtx s c) 0) ∧
       exec (.fenceIo c 0) s = .next (landedOn s (sbDrain s c isOutSlot) c (stepCtx s c) 0) ∧
       exec (.fenceX c 0) s = .next (landedOn s
         (postDrain (sbDrain (sbDrain s c (fun w => !isOutSlot w)) c isOutSlot) c) c (stepCtx s c) 0)) ∧
     (6 ≤ c → exec (.fenceX c 0) s = .next (coreFault s c 0x0410 0)))

/-- After FENCE.M no write of the core to DATA or RETAIN waits in its store buffer, and its writes to OUT slots and its
posted writes wait as before. -/
def Obligations.FenceMDrainsStores : Prop :=
  ∀ (s : State) (c : Nat), c < 6 → runs s c = true →
    ∃ t, exec (.fenceM c 0) s = .next t ∧ (∀ e ∈ (getCore t c).sb, isOutSlot e.word = true) ∧
      (getCore t c).posted = (getCore s c).posted ∧
      (∀ e ∈ (getCore s c).sb, isOutSlot e.word = true → e ∈ (getCore t c).sb) ∧
      (∀ d, d ≠ c → getCore t d = getCore s d)

/-- TASK END ends the segment after FENCE.X, with the branch stack empty, and faults with BRANCH_OPEN otherwise; at the edge
of an output deadline (on a safety core, of t_end) that instant is judged before it. YIELD puts the segment behind the ready
segments of its band on its core; RAISE adds an entry with its tag to a configured USER task; BAR waits at its barrier after
FENCE.X; NOP does nothing. MFS gives each special register of its table in WA or in an index register, in 2 cycles; CYC
carries the additions that the spec leaves open as a free value. MTS writes the flags, and clears VALID and OVR of LE_FAULT;
any other number is refused with MTS_DENIED and has no effect. -/
def Obligations.TaskControlAndSpecialRegisters : Prop :=
  (∀ (s : State) (c evt tag : Nat), runs s c = true →
     let k := stepCtx s c
     let x := if c < 6 then deadlineDue s else tendDue s
     let kx := stepCtx x c
     (atClose s = false → deadlineDue s = s) ∧ (atTend s = false → tendDue s = s) ∧
     (c < 6 → runs x c = true → kx.br = [] → exec (.taskEnd c 0) s =
       .next (putCtx x (fenceX (fresh 32 x).2 c) c (withCyc kx c (4 + (fresh 32 x).1)) (endAfter c))) ∧
     (6 ≤ c → runs x c = true → kx.br = [] → exec (.taskEnd c 0) s = .next (safTaskEnd (landed x c kx 4) c)) ∧
     (runs x c = true → kx.br ≠ [] → exec (.taskEnd c 0) s = .next (coreFault x c 0x0422 0)) ∧
     (runs x c = false → exec (.taskEnd c 0) s = .next x) ∧
     (∀ key, c < 6 → (getCore s c).run = some key → exec (.yield c 0) s =
       .next (schedule (takeOff (landed s c k 48) c .ready (backOrd (landed s c k 48) key)) c)) ∧
     (∀ key j, (getSeg s j).ph = .ready → segCore s j = segCore s key → rank s (j / 4) = rank s (key / 4) →
       (getSeg s j).ord < backOrd s key) ∧
     (c < 6 → (getCore s c).run = none → exec (.yield c 0) s = .next (landed s c k 48)) ∧
     (c < 6 → hasTask s (8 + evt) = true → exec (.raise c 0 evt tag) s =
       .next (landedOn s (evPush s (8 + evt) { source := 0x03 + 256 * 0x1FF, tag := tag, stamp := now s }) c k 4)) ∧
     (c < 6 → hasTask s (8 + evt) = false → exec (.raise c 0 evt tag) s = .next (coreFault s c 0x0411 0)) ∧
     (c < 6 → tag < 4 → exec (.bar c 0 0 tag) s = .next (putCtx s (fenceX s c) c (withCyc k c 4) (atBarrier c tag))) ∧
     exec (.taskNop c 0) s = .next (landed s c k 1)) ∧
  (∀ (s : State) (c xr sr : Nat), c < 6 → runs s c = true →
     let k := stepCtx s c
     let q := getCore s c
     (∀ v, (sr, v) ∈ [(0, flagsWord k), (1, k.br.length), (2, leWord q.le), (3, q.le.pc), (4, q.le.addr), (5, c),
         (6, match q.run with | some key => key / 4 + 16 * (key % 4) | none => 0), (8, now s), (9, getF s R.TSK_SLOT_ACTIVE),
         (10, k.calls.length)] →
       exec (.mfs c 0 false 0 sr) s = .next (landed s c { k with wa := BitVec.ofNat 64 v } 2) ∧
       exec (.mfs c xr true 0 sr) s = .next (landed s c (setX k xr v) 2)) ∧
     (let x := (fresh 32 s).1
      exec (.mfs c 0 false 0 7) s = .next (landedOn s (fresh 32 s).2 c
        { k with cyc := k.cyc + x, wa := BitVec.ofNat 64 (k.cyc + x) } 2)) ∧
     (11 ≤ sr → exec (.mfs c xr true 0 sr) s = .next (coreFault s c 0x0411 0)) ∧
     (let v := getX k xr
      exec (.mts c xr true 0 0) s = .next (landed s c { k with z := bitOf v 0, n := bitOf v 1, v := bitOf v 2,
                                                                c := bitOf v 3, u := bitOf v 4 } 2) ∧
      (bitOf v 31 = true → exec (.mts c xr true 0 2) s =
        .next (landedOn s (setCore s c { q with le := { q.le with valid := false, ovr := false } }) c k 2)) ∧
      (bitOf v 31 = false → exec (.mts c xr true 0 2) s = .next (landed s c k 2)) ∧
      (sr ≠ 0 → sr ≠ 2 → exec (.mts c xr true 0 sr) s = .next (coreFault s c 0x0441 0))))

/-- A fault is precise: on a logic core that runs no segment it writes no register of the core and no byte of memory, and no
other core is touched. It records the code, the offset and the address while VALID is 0; otherwise it sets OVR and keeps the
recorded fault. The core then stops. -/
def Obligations.FaultsArePrecise : Prop :=
  ∀ (s : State) (c code addr : Nat), c < 6 → (getCore s c).run = none →
    let t := coreFault s c code addr
    (getCore t c).ctx = (getCore s c).ctx ∧ t.mem = s.mem ∧ (getCore t c).mode = .stopped ∧ runs t c = false ∧
    (getCore t c).sb = (getCore s c).sb ∧ (getCore t c).posted = (getCore s c).posted ∧
    (∀ d, d ≠ c → getCore t d = getCore s d) ∧
    ((getCore s c).le.valid = false → (getCore t c).le.valid = true ∧ (getCore t c).le.code = code ∧
      (getCore t c).le.pc = (getCore s c).ctx.pc ∧ (getCore t c).le.addr = addr ∧ (getCore t c).le.core = c) ∧
    ((getCore s c).le.valid = true → (getCore t c).le = { (getCore s c).le with ovr := true })

/-! ## Tasks, the timeline, the key switch, restart, change -/

/-- The events of tasks: a barrier opens when every segment of the task has arrived, and stops the task with
BARRIER_MISMATCH where the numbers differ; a synchronous call ends with its completion word in WA, or with SYNC_TIMEOUT at
its bound, and goes on before that; the oldest fault record and the oldest event entry move to their areas and release their
tasks; a task at its budget, counted in its cycles or for ERROR on the wall clock from its release, is stopped with BUDGET,
and goes on before that. What the count adds for the open times of Table HXI-1 is a free value (log entry 31). The instants
of the timeline. Each is carried out once, at the first TICK edge at or after it, and the command has no effect at another
edge: an input close, after the fast buffer closes of its edge, evaluates the stations, the safety inputs, the IN images and
the latched entries of the classes whose cycle starts next; an output deadline, after the closes of its edge, stops the
program where HALT was accepted, takes the overrun decisions, the launches (of FOUT before OUT) and the local outputs; a C0
cycle start, after the closes, the launches, the deliveries and a switch point of its edge, releases ERROR and the classes,
each with the IN buffer of the latest input close. That a command carries out its instant at the edge at which it is given,
and first what R30 puts before it, is the model's choice (log entry 21), as is the buffer of a late task (log entry 113). -/
def Obligations.TaskEventsAndTimeline : Prop :=
  (∀ s : State,
     (∀ t n, t < 16 → (getTask s t).live = true → barrierMet s t = some n →
       exec (.barrierOpen t) s = .next (barrierOpen s t)) ∧
     (∀ t, t < 16 → (getTask s t).live = true → barrierMixed s t = true →
       exec (.barrierOpen t) s = .next (taskStop s t 0x0311)) ∧
     (∀ key u t a due, key < 64 → (getSeg s key).ph = .inEcall u t a due →
       let w := rdN s (a + 8) 8
       let back (v : Nat) := Host.Outcome.next (scheduleAll (taskStat (setSeg s key
         { ph := .ready, ctx := { (getSeg s key).ctx with wa := BitVec.ofNat 64 v }, ord := backOrd s key }) (key / 4)))
       (w / 2 ^ 63 = 1 → w % 2 ^ 32 = t → exec (.syncEcallComplete key) s = back w) ∧
       (¬ (w / 2 ^ 63 = 1 ∧ w % 2 ^ 32 = t) → due ≤ tickNs s →
         exec (.syncEcallComplete key) s = back (t + (engCode u + 5) * 2 ^ 32)) ∧
       (¬ (w / 2 ^ 63 = 1 ∧ w % 2 ^ 32 = t) → tickNs s < due → exec (.syncEcallComplete key) s = .next s)) ∧
     (∀ r rest, s.tsk.fq = r :: rest → (getTask s 6).live = false → tasksOn s = true →
       let s1 := setF { s with tsk := { s.tsk with fq := rest } } R.TSK_FQ_COUNT rest.length
       hasTask s1 6 = true → exec .faultTaskRelease s = .next (scheduleAll (releaseTask
         (wrBs s1 (actSlot s1).faultArea (leBytes 4 r.fault ++ leBytes 4 r.pc ++ leBytes 4 r.addr ++ leBytes 4 r.info ++
           leBytes 8 r.stamp)) 6))) ∧
     (∀ t e rest a, 7 ≤ t ∧ t ≤ 15 → (getTask s t).evq = e :: rest → (getTask s t).live = false → tasksOn s = true →
       hasTask s t = true →
       let s1 := setF (setTask s t { getTask s t with evq := rest }) R.TSK_T_STAT_QLEN rest.length 0 t
       evArea s1 t = some a → exec (.eventTaskRelease t) s = .next (scheduleAll (releaseTask
         (wrBs s1 a (leBytes 4 e.source ++ leBytes 2 e.tag ++ leBytes 2 e.dropped ++ leBytes 8 e.stamp ++ leBytes 4 e.cond ++
           leBytes 12 0)) t))) ∧
     (∀ t, t < 16 → t ≤ 1 ∨ 5 ≤ t → (getTask s t).live = true →
       let s1 := (fresh 32 s).2
       let b := getF s R.TSK_T_BUDGET_NS 0 t
       exec (.taskBudgetExpiry t) s =
         .next (if b ≤ taskCyc s t + (fresh 32 s).1 ∨ t = 5 ∧ (getTask s t).relAt + b ≤ now s then taskStop s1 t 0x0310 else s1))) ∧
  (∀ s : State,
     let take (x : State) (n : Nat) : State := { x with done := mput 0 x.done n (x.ticks + 1) }
     (atClose s = true → undone (fastCloses s) 0 = true →
      let x := take (fastCloses s) 0
      let t0 := nextStart x 0
      let cs := classesAt x t0
      let s1 := forEach (List.range (nPort x)) x evalPort
      let s2 := if t0 % period s1 3 = 0 then safInputClose s1 t0 else s1
      let s3 := forEach cs s2 (fun x c => forEach (chanList s2) x (closeChan t0 c))
      let s4 := forEach cs s3 (fun x c => forEach (chanList s2) x (latchClass c))
      let s5 := closeStats s4 cs
      let s6 := forEach (List.range (nAxis s5)) s5 axStationCheck
      let s7 := { s6 with lnk := { s6.lnk with stas := s6.lnk.stas.map (fun x => (x.1, { x.2 with got := none })) } }
      (pairOn s7 = false ∨ role s7 ≠ 1 ∨ getF s7 R.LNK_EPOCH_MAX_EPOCH ≤ roleEpoch s7 → exec .inputClose s = .next s7) ∧
      (pairOn s7 = true → role s7 = 1 → roleEpoch s7 < getF s7 R.LNK_EPOCH_MAX_EPOCH →
        exec .inputClose s = .next (demote (setEpoch s7 (getF s7 R.LNK_EPOCH_MAX_EPOCH))))) ∧
     (atClose s = false → exec .inputClose s = .next s) ∧
     (atClose s = false → exec .outputDeadline s = .next s) ∧
     (atStart s = false → s.tsk.migPend = false → exec .cycleRelease s = .next s) ∧
     (∀ p, atFast s p = false → exec (.fastBufferClose p) s = .next s ∧ exec (.fastOutLaunch p) s = .next s) ∧
     (let y := switchDue (deliveries s)
      atStart s = true → undone y 2 = true →
       let x0 := take y 2
       let x := { x0 with tsk := { x0.tsk with migPend := false } }
       x.tsk.ph = .running → owns x = true → x.pair.abdAt = none → x.tsk.rel = true → x.time.skipTo = 0 → x.tsk.migTo ≤ now x →
       exec .cycleRelease s =
         .next (scheduleAll (forEach (classesAt x (lastStart x 0)) (releaseError x) classRelease))) ∧
     (∀ cls, inClassFault s cls = false → hasTask s (cls + 2) = true →
       ((getTask s (cls + 2)).live = false →
         classRelease s cls = releaseTask (setF (handBuffers s cls) R.TSK_T_STAT_SKIPRUN 0 0 (cls + 2)) (cls + 2)) ∧
       ((getTask s (cls + 2)).live = true → (classRelease s cls).tsk = s.tsk ∧ (classRelease s cls).cores = s.cores)) ∧
     (∀ cls n, let c := getChan (handBuffers s cls) n
       ((getChan s n).latched.used = true → (getChan s n).latched.isOut = false → (getChan s n).latched.cls = cls →
         c = { getChan s n with tkVal := (getChan s n).inVal, tkSt := (getChan s n).inSt }) ∧
       ((getChan s n).latched.cls ≠ cls → c = getChan s n)) ∧
     (atClose s = true → undone (closes s) 1 = true →
      let x0 := take (closes s) 1
      let x1 := if x0.pair.hush = 1 then { x0 with pair := { x0.pair with hush := 0 } } else x0
      let x := if x1.tsk.haltPend then programHalt x1 else x1
      let t1 := nextStart x0 0
      let cs := classesAt x t1
      let isS := t1 % period x 3 == 0
      let late := cs.filter (overran x)
      let s1 := forEach late (forEach cs x darken) overrunCount
      let s2 := if isS then safDeadline s1 t1 else s1
      let s3 := forEach (List.range (nPort s2)) (forEach cs s2 classDue) (fun x p => launchPort (fastLaunch x p) p isS)
      let s4 := wdTrigger (if s3.pair.hush = 0 then forEach cs s3 lioTake else s3)
      let s5 := forEach late (outStats s4 cs) overrunEnd
      exec .outputDeadline s = .next (pairDeadline (if cs.contains 1 then hostDeadline s5 else s5) (cs.contains 1)
        (t1 % 1000000000 == 0))) ∧
     (∀ p, atFast s p = true → undone s (16 + p) = true → exec (.fastBufferClose p) s = .next (fastClose (take s (16 + p)) p)) ∧
     (∀ p, let y := deadlineDue (closes s)
       atFast s p = true → atFast y p = true → undone y (32 + p) = true → exec (.fastOutLaunch p) s = .next (launchFast (take y (32 + p)) p)))

/-- A released task: every segment is ready with the context of its entry (everything 0, its number in X0, its entry point
in PC), and runs from there. -/
def Obligations.ReleasedSegmentsAreReady : Prop :=
  ∀ (s : State) (t : Nat),
    let u := releaseTask s t
    (getTask u t).live = true ∧ (getTask u t).relAt = now s ∧ u.mem = s.mem ∧ u.cores = s.cores ∧
    (∀ k ∈ segsOf s t, getSeg u k =
      { ph := .ready, ord := 1,
        ctx := { pc := mget (actSlot s).entries k 0, x := mput 0 [] 0 (BitVec.ofNat 32 (k % 4)) } }) ∧
    (∀ k, k / 4 ≠ t → getSeg u k = getSeg s k)

/-- The key switch: an accepted position is shown with KFAULT cleared and its event latched, and leaving TUNE, HALT and WIPE
have their effects; WIPE not accepted from HALT, or on a paired module that is not HALTED (log entry 147), latches KEY_FAULT
and the position in force stays. HALT, RESTART and the copies of RETAIN: the program stops at the C0 output deadline, with
the last copy and an orderly header; a due restart runs its steps, and releases the INIT task once every unit of W5 has left
its boundary (log entry 137); the first cyclic release follows the INIT task at a C2 cycle start; TSK.CMD RESTART is refused
outside TUNE, on a module that does not own the process, and for WARM without the warm condition; the last changed page
completes a copy. -/
def Obligations.KeyStopAndRestart : Prop :=
  (∀ (s : State) (code : Nat),
     let s0 := setF (setF (setF s R.TSK_KEY_POS code) R.TSK_KEY_RAW code) R.TSK_KEY_KFAULT 0
     let a := latch { s0 with tsk := { s0.tsk with keyAcc := true } } .tsk 0 32
     (a.tsk.ph ≠ .none → keyPos s = 0 → code = 1 → exec (.keyPositionAccept code) s = .next a) ∧
     (a.tsk.ph ≠ .none → keyPos s = 1 → code = 0 → exec (.keyPositionAccept code) s = .next (leaveTune a)) ∧
     (a.tsk.ph ≠ .none → keyPos s = 0 → code = 2 → exec (.keyPositionAccept code) s = .next (haltAccepted a)) ∧
     (a.tsk.ph ≠ .none → keyPos s = 1 → code = 2 → exec (.keyPositionAccept code) s = .next (haltAccepted (leaveTune a))) ∧
     (a.tsk.ph ≠ .none → 2 ≤ keyPos s → code < 2 → exec (.keyPositionAccept code) s = .next (haltLeft a)) ∧
     (a.tsk.ph ≠ .none → keyPos s = 2 → s.tsk.keyAcc = true → role s = 0 ∨ role s = 4 → code = 3 →
       exec (.keyPositionAccept code) s = .next (wipe a)) ∧
     (keyPos s = 2 → role s ≠ 0 → role s ≠ 4 → code = 3 →
       exec (.keyPositionAccept code) s = .next (keyFault (setF s R.TSK_KEY_RAW 3))) ∧
     (code = 3 → keyPos s < 2 → ∃ t,
       exec (.keyPositionAccept code) s = .next t ∧ exec (.keyFaultDetect code) s = .next t ∧
       t = keyFault (setF s R.TSK_KEY_RAW 3) ∧ t.mem = s.mem ∧ t.cores = s.cores)) ∧
  (∀ s : State,
     (s.tsk.haltPend = true → exec .programHalt s = exec .outputDeadline s) ∧
     (s.tsk.haltPend = false → exec .programHalt s = .next s) ∧
     (programHalt s = let s1 := finalCopy (dropSwitch (stopProgram s))
       { s1 with tsk := { s1.tsk with haltPend := false, shadow := true } }) ∧
     (∀ c f, s.tsk.due = some (true, c, f) → exec .restartWarm s = .next (restart s true c f)) ∧
     (∀ c f, s.tsk.due = some (false, c, f) → exec .restartCold s = .next (restart s false c f)) ∧
     (∀ w c f, (actSlot s).gen = 0 → restart s w c f =
       unitErr (stopProgram { s with tsk := { s.tsk with due := none } }) .sys 0 0x0118) ∧
     (∀ w c f, (actSlot s).gen ≠ 0 →
       let s1 := stepW5 (stepW4 (stepW1 { s with tsk := { s.tsk with due := none } } (!w)) w)
       let s2 := setF (setB (setF (setB s1 R.TSK_RESTART_TYPE w) R.TSK_RESTART_CAUSE c) R.TSK_RESTART_FELLBACK f) R.TSK_KEY_WIPED 0
       let s3 := { s2 with tsk := { s2.tsk with ph := .units w, shadow := true } }
       (w5Done s3 = false → restart s w c f = s3) ∧
       (w5Done s3 = true → restart s w c f =
         let s4 := releaseTask s3 (if w then 1 else 0)
         scheduleAll { s4 with tsk := { s4.tsk with ph := .init w } })) ∧
     (∀ w, s.tsk.ph = .init w → (getTask s (if w then 1 else 0)).live = false →
       (getTask s (if w then 1 else 0)).faulted = false → reaches s (period s 2) 0 = true →
       exec .cyclicFirstRelease s = .next (firstRelease s)) ∧
     (∀ w : Bool,
       let i := if w then Instr.tskRestartWarm else Instr.tskRestartCold
       let op := if w then 1 else 2
       let res (x : State) (code : Nat) := Host.Outcome.next (setF (setF x R.TSK_CMD_RES_CODE code) R.TSK_CMD_RES_OP op)
       (keyPos s ≠ 1 → exec i s = res s 0x0314) ∧
       (keyPos s = 1 → owns s = false → exec i s = res s 0x031D) ∧
       (keyPos s = 1 → owns s = true → w = true → warmOk s = false → exec i s = res s 0x0317) ∧
       (keyPos s = 1 → owns s = true → w = false ∨ warmOk s = true →
         exec i s = res { s with tsk := { s.tsk with due := some (w, 2, false) } } 0x0300)) ∧
     (∀ p, (pagesFor s (copyBank s)).contains p = true →
       let s1 := pageCopy s (copyBank s) p
       (pagesFor s1 (copyBank s) ≠ [] → exec (.retainPageCopy p) s = .next s1) ∧
       (pagesFor s1 (copyBank s) = [] → exec (.retainPageCopy p) s = .next (copyDone s1 (stopImage s1)))))

/-- Online change and stored profiles: the commands with their key positions and states, the switch and revert points at a
C2 cycle start, requests by pins and by command, the start and the end of a profile switch. -/
def Obligations.OnlineChangeAndProfiles : Prop :=
  ∀ s : State,
    let res (x : State) (op code : Nat) := setF (setF x R.TSK_CMD_RES_CODE code) R.TSK_CMD_RES_OP op
    let put (x : State) (v : Nat) := setF (setF x R.TSK_SLOT_OLC v) R.TSK_SLOT_POSTP 0
    let state := getF s R.TSK_SLOT_OLC
    (keyPos s = 1 → owns s = true → state = 1 → exec .tskSwitch s = .next (res (put s 2) 3 0x0300)) ∧
    (keyPos s ≠ 1 → exec .tskSwitch s = .next (res s 3 0x0314) ∧ exec .tskRevert s = .next (res s 5 0x0314)) ∧
    (keyPos s = 1 → state ≠ 1 → exec .tskSwitch s = .next (res s 3 0x031D)) ∧
    (keyPos s < 3 → owns s = true → state = 3 →
      let x := setIdleSlot (res (put s 0) 4 0x0300) {}
      exec .tskCommit s =
        .next (ctrlSend { x with mram := { x.mram with norA := x.tsk.slotA, norB := x.tsk.slotB } } .commit)) ∧
    (keyPos s = 1 → owns s = true → state = 3 → exec .tskRevert s = .next (ctrlSend (res (put s 4) 5 0x0300) .revert)) ∧
    (keyPos s < 4 → owns s = true → state = 4 → exec .tskCancel s = .next (res (put s 3) 7 0x0300)) ∧
    (keyPos s < 4 → owns s = true → state = 2 → exec .tskCancel s = .next (res (put s 1) 7 0x0300)) ∧
    (let y := deliveries s
     let x := { y with done := mput 0 y.done 5 (y.ticks + 1) }
     reaches s (period s 2) 0 = true → undone y 5 = true →
      (state = 2 → olc y = 2 → exec .olcSwitchPoint s = .next (switchPoint x false)) ∧
      (state = 4 → olc y = 4 → exec .olcRevertPoint s = .next (switchPoint x true))) ∧
    (∀ n, n < 4 →
      (keyPos s = 3 → exec (.tskSelect n) s = .next (res s 6 0x0314)) ∧
      (keyPos s ≠ 3 → owns s = true → (getProfile s n).stored = false → exec (.tskSelect n) s = .next (res s 6 0x031E)) ∧
      (keyPos s ≠ 3 → owns s = true → (getProfile s n).stored = true → getB s R.TSK_PROF_SRCSEL = false →
        exec (.tskSelect n) s = .next (res (setF s R.TSK_PROF_CMDVAL n) 6 0x0300) ∧
        exec (.profilePinRequest n) s = .next (profRequest (setF s R.TSK_PROF_PINS n) n)) ∧
      (keyPos s ≠ 3 → owns s = true → (getProfile s n).stored = true → getB s R.TSK_PROF_SRCSEL = true →
        exec (.tskSelect n) s = .next (profRequest (res (setF s R.TSK_PROF_CMDVAL n) 6 0x0300) n) ∧
        exec (.profilePinRequest n) s = .next (setF s R.TSK_PROF_PINS n)) ∧
      (keyPos s = 0 ∨ keyPos s = 3 → exec (.tskStore n) s = .next (res s 8 0x0314)) ∧
      (keyPos s = 1 ∨ keyPos s = 2 → s.tsk.profSw = none → exec (.tskStore n) s = .next (profStoreNow s n)) ∧
      (keyPos s = 1 ∨ keyPos s = 2 → s.tsk.profSw.isSome = true →
        exec (.tskStore n) s = .next { s with tsk := { s.tsk with profStore := some n } })) ∧
    (∀ n, let x := releases s
      reaches s (period s 2) 0 = true → switchStarts x = true → x.tsk.profLate = [] → x.tsk.profReq = some n →
      n ≠ getF x R.TSK_PROF_ACT → (getProfile x n).stored = true →
      exec .profileSwitchStart s = .next (profStart_ { x with tsk := { x.tsk with profLate := [] } } n)) ∧
    (∀ w, s.tsk.profSw = some w → w.tb < now s → reaches s (period s 0) 0 = true →
      exec .profileSwitchRun s = .next (profFinish s w))

/-! ## Units and registers -/

/-- Requests on UNIT_CTL act on the state of an instance as the table of the rule has it: what is accepted, what is not
permitted, what is refused while BUSY, and what happens at the boundary at which a pending transition completes, which for
SAF is an S cycle start or an S output deadline. A RUN request that is accepted latches the configuration of the instance as
a whole. Management requests SAF in HALT alone, the program never; an owner or a standby refuses requests on PAIR. Where
words that reached an instance while it was BUSY take effect is the model's choice (log entry 107). -/
def Obligations.UnitRequests : Prop :=
  ∀ (s : State) (b : Blk) (i : Nat) (mg : Bool), i < copies s b → (mg = true → keyPos s = 1 ∨ keyPos s = 2) →
    let res (x : State) (v : Nat) := setF x (hRes b) v i
    let free := b = .sys → stOf s .lio < 2 ∧ stOf s .time < 2
    ((b = .saf → mg = true ∧ keyPos s = 2) → (b = .pair → role s = 0 ∨ role s = 4) →
      (getB s (hBusy b) i = true → exec (.unitReqStop b i mg) s = .next (res s 2) ∧
        exec (.unitReqConfig b i mg) s = .next (res s 2) ∧ exec (.unitReqRun b i mg) s = .next (res s 2)) ∧
      (getB s (hBusy b) i = false →
        (stOf s b i = 2 → exec (.unitReqStop b i mg) s = .next (setF (res s 0) (hBusy b) 1 i)) ∧
        (stOf s b i < 2 → exec (.unitReqStop b i mg) s = .next (res (cfgLand (setSt s b i 0) b i) 0)) ∧
        (stOf s b i = 3 → b ≠ .tsk → exec (.unitReqStop b i mg) s = .next (res (cfgLand (setSt s b i 0) b i) 0)) ∧
        (stOf s b i = 3 → b = .tsk → exec (.unitReqStop b i mg) s = .next (res s 1)) ∧
        (stOf s b i = 0 → free → exec (.unitReqConfig b i mg) s = .next (res (setSt s b i 1) 0)) ∧
        (stOf s b i = 0 → ¬ free → exec (.unitReqConfig b i mg) s = .next (res s 1) ∧
          exec (.unitReqRun b i mg) s = .next (res s 1)) ∧
        (stOf s b i = 1 → exec (.unitReqConfig b i mg) s = .next (res s 0)) ∧
        (stOf s b i = 2 ∨ stOf s b i = 3 → exec (.unitReqConfig b i mg) s = .next (res s 1)) ∧
        (stOf s b i = 3 → exec (.unitReqRun b i mg) s = .next (res s 1)) ∧
        (stOf s b i = 2 → exec (.unitReqRun b i mg) s = .next (res s 0)) ∧
        (let y := cfgLand (setSt s b i 1) b i
         let w := setF (setF (cfgLatch y b i) (hRes b) 0 i) (hBusy b) 1 i
         stOf s b i < 2 → (stOf s b i = 0 → free) → mapCheck y b i = none → resConflict y b i = none →
          (runCode y b i = none → exec (.unitReqRun b i mg) s = .next (if b = .lio then lioRunStart w else w)) ∧
          ∀ code, runCode y b i = some code → exec (.unitReqRun b i mg) s = .next (runRefused y b i code)))) ∧
    ((∀ w ∈ s.lateCfg, cfgOwner w.1 ≠ some (b, i)) → cfgLand s b i = s) ∧
    (getB s (hBusy b) i = true → stOf s b i = 2 → b = .saf → reaches s (period s 3) s.tl.tGuard = false →
      exec (.unitBoundaryTransition b i) s = .next s) ∧
    (getB s (hBusy b) i = true → stOf s b i = 2 → b ≠ .saf ∨ reaches s (period s 3) s.tl.tGuard = true →
      let y := cfgLand (setF (setSt (leaveRun s b i) b i 0) (hBusy b) 0 i) b i
      exec (.unitBoundaryTransition b i) s = .next (if b = .loopCtx then loopShow y i else y)) ∧
    (getB s (hBusy b) i = true → stOf s b i ≠ 2 → runDue s b = true →
      exec (.unitBoundaryTransition b i) s = .next (setF (enterRun (setSt s b i 2) b i) (hBusy b) 0 i)) ∧
    (getB s (hBusy b) i = true → stOf s b i ≠ 2 → runDue s b = false → exec (.unitBoundaryTransition b i) s = .next s) ∧
    (keyPos s ≠ 2 → exec (.unitReqRun .saf 0 true) s = .next (unitErr s .saf 0 0x0818)) ∧
    exec (.unitReqStop .saf 0 false) s = .next s ∧ exec (.unitReqRun .saf 0 false) s = .next s ∧
    (role s ≠ 0 → role s ≠ 4 →
      exec (.unitReqStop .pair 0 mg) s = .next (unitErr (setF s (hRes .pair) 1 0) .pair 0 0x0D1C))

/-- Bits of EVT_LAT: what a latch and a write of 1s leave in the register, and the one event entry that bits newly latched
and enabled make, with SOURCE, TAG and COND: in the queue of its task, held back while no cyclic task is released, or
dropped and counted where the queue is full. In a loop context the new bits can trigger the trace. -/
def Obligations.EventsLatchAndClear : Prop :=
  ∀ (s : State) (b : Blk) (i m : Nat), i < copies s b → m < 2 ^ 32 →
    let old := getF s (hLat b) i
    let s1 := setF s (hLat b) (old ||| m) i
    let fire := (m ^^^ (m &&& old)) &&& getF s (hEn b) i
    let t := 8 + getF s (hUser b) i
    let post (x : State) := Host.Outcome.next (if b = .loopCtx then trcEvent x i (m ^^^ (m &&& old)) else x)
    let e : EvEntry := { source := b.code + 256 * (if b.rep then i else 0x1FF), tag := getF s (hTag b) i, stamp := now s,
                         cond := fire }
    (fire = 0 → exec (.eventLatch b i m) s = post s1) ∧
    (fire ≠ 0 → s.tsk.rel = true → hasTask s1 t = true → (getTask s t).evq.length < 16 →
      exec (.eventLatch b i m) s = post (setF (setTask s1 t
        { getTask s t with evq := (getTask s t).evq ++ [{ e with dropped := (getTask s t).evDrop }], evDrop := 0 })
        R.TSK_T_STAT_QLEN ((getTask s t).evq.length + 1) 0 t)) ∧
    (fire ≠ 0 → s.tsk.rel = true → hasTask s1 t = true → 16 ≤ (getTask s t).evq.length →
      exec (.eventLatch b i m) s = post (latchN 1 (unitErr (setTask s1 t
        { getTask s t with evDrop := sat 65535 ((getTask s t).evDrop + 1) }) .tsk 0 0x0316) .tsk 0 4)) ∧
    (fire ≠ 0 → s.tsk.rel = true → hasTask s1 t = false → exec (.eventLatch b i m) s = post s1) ∧
    (fire ≠ 0 → s.tsk.rel = false → (∀ h ∈ s.tsk.held, h.lat ≠ (hLat b).addr i 0) →
      exec (.eventLatch b i m) s =
        post { s1 with tsk := { s1.tsk with held := s1.tsk.held ++ [⟨(hLat b).addr i 0, t, e⟩] } }) ∧
    (let again := getF s (hDyn b) i &&& m &&& (0xFFFFFFFF ^^^ getF s (hEdge b) i) &&& old
     let s2 := setF s (hLat b) (old &&& (0xFFFFFFFF ^^^ m)) i
     (again = 0 → exec (.evtLatWrite b i m) s = .next s2 ∧ getF s2 (hLat b) i = old &&& (0xFFFFFFFF ^^^ m)) ∧
     (again ≠ 0 → exec (.evtLatWrite b i m) s = .next (latch s2 b i again)))

/-- UNIT_ERR: the first code stands and a further one sets OVR, each is recorded; a read returns the register and clears it
whole. -/
def Obligations.UnitErrorsAreKeptUntilRead : Prop :=
  ∀ (s : State) (b : Blk) (i : Nat), i < copies s b →
    let a := b.base + i * b.step + 0x0C
    exec (.unitErrRead b i) s = .next (setRegW s (hErr b) i 0 (b.code * 256)) ∧
    exec (.rcRegisterRead a) s = .next (setRegW s (hErr b) i 0 (b.code * 256)) ∧ (regRead s a).1 = regW s (hErr b) i 0 ∧
    ∀ c1 c2, c1 < 2 ^ 16 → c1 % 256 ≠ 0 → c2 < 2 ^ 16 → s.recQ.length < 63 →
      let t := unitErr (unitErr (setRegW s (hErr b) i 0 (b.code * 256)) b i c1) b i c2
      getF t (hErr b) i = c1 ∧ getF t (hOvr b) i = 1 ∧ t.recQ.length = s.recQ.length + 2 ∧ t.mem = s.mem

/-- A write of a register word by the program acts field by field under the access codes. Outside CONFIG the CFG fields keep
their values, and CFG_REFUSED is recorded where the written value of one differs. A read clears the RC fields. A register
that the variant does not have reads 0 and ignores writes. After a write of PAIR, timed outputs and CAN follow the output
path. What is written to an instance in CONFIG that already waits for RUN is kept for its next CONFIG, which is the model's
choice (log entry 107). -/
def Obligations.RegisterWordsUnderAccessCodes : Prop :=
  ∀ (s : State) (a v : Nat) (b : Blk) (i o : Nat), blkAt a = some (b, i, o) → o % 4 = 0 → i < copies s b →
    b ≠ .saf → isLoopMem a = false →
    (absentReg s b i o = true → (regRead s a).1 = 0 ∧ exec (.rcRegisterRead a) s = .next s ∧
      exec (.registerWrite false a v) s = .next s) ∧
    (absentReg s b i o = false → cmdWrite s false b i o v = none → b ≠ .chn →
      (stOf s b i = 1 → getB s (hBusy b) i = true → (fieldsAt b o ≠ [] ∧ ∀ f ∈ fieldsAt b o, f.1.acc = .cfg) →
        exec (.registerWrite false a v) s = .next { s with lateCfg := s.lateCfg ++ [(b.base + b.step * i + o, v)] }) ∧
      (let post (x : State) := if b = .pair then pathFollow (outPath s) x else x
       stOf s b i = 1 → getB s (hBusy b) i = false → exec (.registerWrite false a v) s = .next (post ((fieldsAt b o).foldl (fun x f =>
        let w := bits v f.1.lsb f.1.width
        match f.1.acc with
        | .rw | .cfg => setF x f.1 w i f.2
        | .w1c => setF x f.1 (getF x f.1 i f.2 &&& ((2 ^ f.1.width - 1) ^^^ w)) i f.2
        | .ws => setF x f.1 (getF x f.1 i f.2 ||| w) i f.2
        | .ro | .rc | .wo => x) s))) ∧
      (stOf s b i ≠ 1 → (∀ f ∈ fieldsAt b o, f.1.acc = .cfg) →
        ((∀ f ∈ fieldsAt b o, getF s f.1 i f.2 = bits v f.1.lsb f.1.width) → exec (.registerWrite false a v) s = .next s) ∧
        ((∃ f ∈ fieldsAt b o, getF s f.1 i f.2 ≠ bits v f.1.lsb f.1.width) →
          exec (.registerWrite false a v) s = .next (unitErr s b i (b.code * 256 + 1))))) ∧
    (absentReg s b i o = false → o ≠ 0 → o ≠ 0x0C → b ≠ .time → b ≠ .can → exec (.rcRegisterRead a) s = .next
      ((fieldsAt b o).foldl (fun x f => if f.1.acc = .rc then setF x f.1 0 i f.2 else x) s))

/-- On the HX7-P16 the blocks of ports 16 to 63 and of valve axes 16 to 63 read as 0 in every register, UNIT_ID among them,
and a write to them changes nothing and records no error. -/
def Obligations.AbsentInstancesReadZero : Prop :=
  ∀ (s : State) (i o v : Nat) (mg : Bool), isP16 s = true → 16 ≤ i → i < 64 →
    (o < Blk.step .lnkPort → let a := Blk.base .lnkPort + i * Blk.step .lnkPort + o
      (regRead s a).1 = 0 ∧ exec (.rcRegisterRead a) s = .next s ∧ exec (.registerWrite mg a v) s = .next s) ∧
    (o < Blk.step .vaxAx → let a := Blk.base .vaxAx + i * Blk.step .vaxAx + o
      (regRead s a).1 = 0 ∧ exec (.rcRegisterRead a) s = .next s ∧ exec (.registerWrite mg a v) s = .next s)

/-- The channel table, the cache of its entries, the force table and station simulation: writes of conversion bytes are
made, with the reserved bits left 0, writes of mapping bytes outside CONFIG of the owner are refused whole and kept in
REF_WR; an invalidated entry is counted until its re-read; a control write changes the selected entry or is refused with its
code; the simulation of a safety station is refused with FORCE_SAFETY. -/
def Obligations.ChannelUnitCommands : Prop :=
  ∀ s : State,
    (∀ n o bs, n < nChan s → bs ≠ [] → o + bs.length ≤ 64 →
      let a := 0x02000000 + (64 * n + o)
      let x := maskBytes chBits o bs
      (16 ≤ o → exec (.chtabWrite false (64 * n + o) bs) s = .next (wrBs s a x) ∧
        (keyPos s = 1 → exec (.chtabWrite true (64 * n + o) bs) s = .next (wrBs s a x)) ∧
        (o < 60 → keyPos s ≠ 1 → exec (.chtabWrite true (64 * n + o) bs) s = .next s)) ∧
      (let w := mapOwner (tableEntry s n)
       let w' := mapOwner (entryWith s n a x)
       o < 16 → inRun s .saf = false →
        (stOf s w.1 w.2 = 1 → stOf s w'.1 w'.2 = 1 → exec (.chtabWrite false (64 * n + o) bs) s = .next (wrBs s a x)) ∧
        (stOf s w.1 w.2 ≠ 1 → exec (.chtabWrite false (64 * n + o) bs) s =
          .next (refWr (latch (unitErrAt s .chn 0 0x0501 n []) .chn 0 8) (64 * n + o))))) ∧
    (∀ n, n < nChan s → (getChan s n).inv = false → exec (.chnInv n) s =
      .next (setF (setChan s n { getChan s n with inv := true }) R.CHN_REFILL_PEND (getF s R.CHN_REFILL_PEND + 1))) ∧
    (∀ v, bitOf v 31 = true → exec (.chnInv v) s = .next (invalidateAll s)) ∧
    (∀ n, (getChan s n).inv = true →
      let x := setF (setChan s n { getChan s n with inv := false, bad := false, cached := tableEntry s n, readAt := s.ticks + 1 })
        R.CHN_REFILL_PEND (getF s R.CHN_REFILL_PEND - 1)
      (1 < getF s R.CHN_REFILL_PEND → exec (.cacheRereadDone n) s = .next x) ∧
      (getF s R.CHN_REFILL_PEND ≤ 1 → exec (.cacheRereadDone n) s = .next (setF x R.CHN_REFILL_ALLBUSY 0))) ∧
    (∀ n, (getChan s n).inv = false → exec (.cacheRereadDone n) s = .next s) ∧
    (∀ p ∈ ([(.mfCtlFree, true, 0), (.mfCtlForce, true, 1), (.mfCtlSim, true, 2), (.pfCtlFree, false, 0),
        (.pfCtlSim, false, 2)] : List ((Nat → Instr) × Bool × Nat)), ∀ chan, chan < 2 ^ 14 →
      (∀ code, ctlCheck s p.2.1 p.2.2 chan = some code → exec (p.1 chan) s = .next (unitErr s .chn 0 code)) ∧
      (ctlCheck s p.2.1 p.2.2 chan = none →
        let v : Force := if p.2.2 = 0 then {} else { kind := p.2.2, chan := chan, val := ctlVal s p.2.1 }
        let s1 := setForce (ctlPut s p.2.1 p.2.2 chan) (getF s (ctlSel p.2.1)) v
        exec (p.1 chan) s = .next (ctrlSend s1 (.force s1.chn.forces s1.mram.sims)))) ∧
    (∀ chan, exec (.pfCtlForce chan) s = .next (unitErr s .chn 0 0x0515)) ∧
    (∀ i v, i < 8 → i * 32 < nSta s → v < 2 ^ 32 → keyPos s = 1 →
      let old := getF s R.CHN_SIM_SIM 0 i
      let s1 := setF s R.CHN_SIM_SIM v 0 i
      let s2 := { s1 with mram := { s1.mram with sims := mput 0 s1.mram.sims i v } }
      let s3 := level s2 .chn 0 1 ((List.range 8).any (fun k => getF s2 R.CHN_SIM_SIM 0 k != 0))
      ((∃ j, j < 32 ∧ bitOf v j = true ∧ bitOf old j = false ∧ stSafety s (i * 32 + j) = true) →
        exec (.simBitmapWrite i v) s = .next (unitErr s .chn 0 0x0513)) ∧
      ((∀ j, j < 32 → bitOf v j = true → bitOf old j = false → stSafety s (i * 32 + j) = false) → v ≠ old →
        exec (.simBitmapWrite i v) s = .next (ctrlSend s3 (.force s3.chn.forces s3.mram.sims))))

/-! ## Field links, local I/O, safety -/

/-- Frames and events of the links: a frame with a bad FCS or header is discarded and counted; an IN frame for the coming
input close, in its slot and of the station's configuration, is kept for that close, a FIN frame for its fast close; an ARSP
frame outside every grant is counted, and its last part ends the request; a frame for a later close or ahead of its slot is
counted as OVERSEND, and so is one of a position without a station; after the launches of their edge, requests and IOUT
frames, these with the values that the owners last wrote, go out in the gap they fit; the link goes down and up, and a PHY
fault or a buffer error puts a port in RUN in FAULT. The calls to LNK. `s1` is the state without the call in the queue, and
the pairs are operands as the engine reads them: ACYC and OUTNOW are refused with their codes or enter the queue of their
port, REINIT is of a DOWN station, READ copies the station's status into the descriptor. -/
def Obligations.FieldLinks : Prop :=
  (∀ (s : State) (p : Nat), p < nPort s → inRun s .lnkPort p = true →
     (∀ fr k, k = RxKind.badFcs ∨ k = RxKind.bad →
       (rxKind fr 2 = k → exec (.inFrameRx p fr) s = .next (rxDiscard s p fr k)) ∧
       (rxKind fr 4 = k → exec (.finFrameRx p fr) s = .next (rxDiscard s p fr k)) ∧
       (rxKind fr 6 = k → exec (.arspRx p fr) s = .next (rxDiscard s p fr k))) ∧
     (∀ fr q s1, frF fr 25 1 = q → q < 4 → stConfigured s (4 * p + q) = true →
       let i := 4 * p + q
       let f := parseIn fr (rxStamp s fr)
       let t0 := ((now s + s.tl.tGuard) / period s 0 + 1) * period s 0
       let n := t0 / period s 0
       rxKind fr 2 = .ok →
       (0 < (n + 65536 - f.cyc) % 65536 → (n + 65536 - f.cyc) % 65536 < 32768 →
         exec (.inFrameRx p fr) s = .next (lateFrame s p)) ∧
       (32768 ≤ (n + 65536 - f.cyc) % 65536 ∨ (n + 65536 - f.cyc) % 65536 = 0 ∧ now s + s.tl.tSl < t0 →
         exec (.inFrameRx p fr) s = .next (overSend s p)) ∧
       ((n + 65536 - f.cyc) % 65536 = 0 → t0 ≤ now s + s.tl.tSl →
         (let o := t0 - s.tl.tSl + (((getPort s p).slots.find? (fun x => x.1 == q)).map Prod.snd).getD 0
          (inSlot s fr o p q (wire (inPayload s i)) = false → exec (.inFrameRx p fr) s = .next (overSend s p)) ∧
          (inSlot s fr o p q (wire (inPayload s i)) = true → rxEpoch s i f.epoch = (s1, false) → owns s1 = true →
           f.data.length = stInLen s i → frF fr 52 2 = stInLen s i → f.cfgId = (getSta s1 i).cfgId →
           exec (.inFrameRx p fr) s = .next (takeIn s1 i f))))) ∧
     (∀ fr q, frF fr 25 1 = q → 4 ≤ q ∨ stConfigured s (4 * p + q) = false →
       (rxKind fr 2 = .ok → exec (.inFrameRx p fr) s = .next (overSend s p)) ∧
       (rxKind fr 6 = .ok → exec (.arspRx p fr) s = .next (overSend s p))) ∧
     (∀ fr q s1, frF fr 25 1 = q → q < 4 → stConfigured s (4 * p + q) = true → 2 ≤ nFast s p → rxKind fr 4 = .ok →
       let i := 4 * p + q
       stFinLen s i ≠ 0 →
       let tf := period s 0 / nFast s p
       let tj := ((now s + 4000) / tf + 1) * tf
       frF fr 24 1 < nFast s p →
       (tj / tf + 65536 * nFast s p - (frF fr 22 2 * nFast s p + frF fr 24 1)) % (65536 * nFast s p) = 0 →
       tj ≤ now s + s.tl.tFsl →
       inSlot s fr (tj - s.tl.tFsl + (((getPort s p).fslots.find? (fun x => x.1 == q)).map Prod.snd).getD 0) p q
         (wire (finPayload s i)) = true →
       rxEpoch s i (frF fr 18 4) = (s1, false) → frF fr 30 2 = stFinLen s i →
       exec (.finFrameRx p fr) s =
         .next (setSta s1 i { getSta s1 i with fgot := some ((fr.drop 34).take (stFinLen s1 i)) })) ∧
     (∀ fr q, frF fr 25 1 = q → q < 4 → stConfigured s (4 * p + q) = true → rxKind fr 6 = .ok →
       (grantFor s p q fr = none → exec (.arspRx p fr) s = .next (overSend s p)) ∧
       (∀ g r, grantFor s p q fr = some g →
         let v := getPort s p
         let left := v.grants.map (fun x => if x = g then (x.1, x.2.1, x.2.2 - frWire fr) else x)
         let s1 := setPort s p { v with grants := left }
         let s2 := (rxEpoch s1 (4 * p + q) (frF fr 18 4)).1
         (getPort s2 p).aq.find? (fun e => e.sent && e.pos == q && e.token == frF fr 32 2 && e.svc == frF fr 30 1 &&
           e.part == frF fr 36 1) = some r →
         let d := r.rsp ++ ((fr.take (fr.length - 4)).drop 38).take (frF fr 34 2)
         (frF fr 37 1 ≠ 1 → exec (.arspRx p fr) s = .next (respond s2 p r (frF fr 31 1) d)) ∧
         let more := (getPort s2 p).aq.map (fun e => if e.token = r.token then { e with part := e.part + 1, rsp := d } else e)
         (frF fr 37 1 = 1 → exec (.arspRx p fr) s = .next (setPort s2 p { getPort s2 p with aq := more })))) ∧
     (∀ r, let z := launches s
       p < nPort z → inRun z .lnkPort p = true →
       outPath z = true → (getPort z p).iout = [] → nextReq z p = some r → gapFor z p (wire (areqSize r)) = true →
       let v := getPort z p
       let x := getSta z (4 * p + r.pos)
       let body := leBytes 1 r.pos ++ leBytes 1 r.svc ++ leBytes 2 r.token ++ leBytes 2 r.data.length ++ leBytes 2 r.arg1 ++
         leBytes 4 r.arg2 ++ r.data
       let tx := lineTx z p [scatyFrame z p 5 0 0 body]
       let aq := v.aq.map (fun e => if e.token = r.token then { e with sent := true, sentAt := now z } else e)
       exec (.areqSend p) s =
         .next (setSta (setPort z p { v with tx := tx, busyTo := now z + wire (areqSize r) * 80, aq := aq })
           (4 * p + r.pos) { x with sent := x.sent ++ [tickNs z] })) ∧
     (∀ r rest b s1, let s := launches s
       p < nPort s → inRun s .lnkPort p = true →
       outPath s = true → (getPort s p).iout = r :: rest → gapFor s p (wire (20 + 12 * r.chans.length)) = true →
       ioutBody (r.chans.foldl slotNow s) r.chans = (b, s1) → b ≠ [] →
       let tx := lineTx s1 p [scatyFrame s1 p 7 0 0 (leBytes 1 r.pos ++ leBytes 1 (b.length / 12) ++ leBytes 2 0 ++ b)]
       let busy := now s + wire (20 + 12 * r.chans.length) * 80
       ioutSend p s =
         (complete (setPort s1 p { getPort s1 p with tx := tx, iout := rest, busyTo := busy }) r.call 0 0)) ∧
     exec (.ioutSend p) s = .next (ioutSend p (launches s)) ∧
     (∀ q, posList s p = [q] → polls s (4 * p + q) = true → class0Open s p q = false → (getSta s (4 * p + q)).polled = false →
       exec (.identPoll p) s = .next (askStation (setSta s (4 * p + q)
         { getSta s (4 * p + q) with polled := true, identAt := now s }) p q 1 0 0 [])) ∧
     (∀ i, i < nSta s → i / 4 = p → stState s i = 1 →
       (getSta s i).initAt + getF s R.LNK_P_CFG_T_INIT p * 100000000 ≤ now s →
       exec (.initTimeout i) s = .next (initFailed s i 0x0613)) ∧
     (∀ r, (getPort s p).aq = [r] → r.cls ≠ 0 → r.tmo ≤ now s - r.since →
       exec (.acycTimeout p) s = .next (areqEnd (unitErrAt (setAq s p []) .lnkPort p 0x0616 (4 * p + r.pos) []) r 0x16 0)) ∧
     (getB s R.LNK_P_LINK_UP p = true → exec (.portLinkDown p) s =
       .next (level (incF (setF s R.LNK_P_LINK_UP 0 p) R.LNK_P_LINK_DOWNS p) .lnkPort p 0 true)) ∧
     exec (.portLinkUp p) s = .next (level (setF (setF s R.LNK_P_LINK_UP 1 p) R.LNK_P_LINK_PHYF 0 p) .lnkPort p 0 false) ∧
     exec (.phyFault p) s =
       .next (portFault (level (setF (setF s R.LNK_P_LINK_PHYF 1 p) R.LNK_P_LINK_UP 0 p) .lnkPort p 0 true) p 0x061A) ∧
     exec (.bufUncorr p) s = .next (portFault s p 0x061B)) ∧
  (∀ (s s1 : State) (c : Call) (i : Nat),
     (takeCall s 4 i 0 = some (c, s1) → ∀ svc s2, dsc s1 c 0 1 = (svc, s2) →
       (svc ≠ 4 ∧ svc ≠ 5 → exec (.lnkAcyc i) s = .next (complete s2 c 0x17 1)) ∧
       (∀ sub idx alen tmo data tok s3 s4 s5 s6 s7 s8, svc = 4 ∨ svc = 5 → dsc s2 c 2 2 = (sub, s3) → dsc s3 c 4 4 = (idx, s4) →
         dsc s4 c 8 2 = (alen, s5) → dsc s5 c 0xC 4 = (tmo, s6) →
         engRd s6 (c.addr + 0x20) (if svc = 5 then min alen 1024 else 0) = (data, s7) → nextToken s7 (i / 4) = (tok, s8) →
         let t := if tmo = 0 then tAcyc s8 (i / 4) else tmo * 1000
         exec (.lnkAcyc i) s = .next (aqAdmit s8 (i / 4)
           { pos := i % 4, svc := svc, token := tok, arg1 := sub, arg2 := idx,
             data := data, cls := 2, since := now s, tmo := t, call := some c }))) ∧
     (takeCall s 4 i 1 = some (c, s1) → ∀ n s2 chs s3, dsc s1 c 0 4 = (n, s2) → ioutChans s2 c n = (chs, s3) →
       (n = 0 ∨ 32 < n → exec (.lnkOutnow i) s = .next (complete s2 c 0x1E 0)) ∧
       (1 ≤ n ∧ n ≤ 32 → (∀ ch ∈ chs, ch < nChan s3 ∧ ch ∈ stChans s3 i true false ++ stChans s3 i true true) →
         exec (.lnkOutnow i) s = .next (setPort s3 (i / 4)
           { getPort s3 (i / 4) with iout := (getPort s3 (i / 4)).iout ++ [⟨c, i % 4, chs⟩] }))) ∧
     (takeCall s 4 i 2 = some (c, s1) →
       (stState s1 i ≠ 4 → exec (.lnkReinit i) s = .next (complete s1 c 0x1D 0)) ∧
       (stState s1 i = 4 → exec (.lnkReinit i) s = .next (initNext (setSta (enterInit s1 i) i
         { getSta (enterInit s1 i) i with reinit := some c }) i))) ∧
     (takeCall s 4 i 3 = some (c, s1) → exec (.lnkRead i) s =
       .next (complete (wrBs s1 (c.addr + 0x10) (rdBs s1 (stAddr i 0x80) 48)) c 0 0)))

/-- The local I/O sequencer in RUN: what a sample of all inputs updates in order, how taken outputs reach their points,
supplies and outputs that trip, retry and pulse, a watchdog that expires, conversions of the analogue inputs, the steps of
the rotating spare, and the readback of an analogue output. -/
def Obligations.LocalPoints : Prop :=
  ∀ s : State, inRun s .lio = true →
    (∀ di rb, s.lio.pulse = none →
      let s1 := forEach (List.range 32) s (fun x n => match di[n]? with | none => x | some (mv, ua) => diSample x n mv ua)
      let s2 := forEach (List.range 16) (setF s1 R.LIO_DO_STATE_RB rb) (fun x n =>
        extvCount (nomSample x n) (rb % 65536) n)
      let hist := ((now s2, getF s2 R.LIO_DI_STATE_STATE, rb % 65536) :: s2.lio.hist).take 40
      let s3 := { s2 with lio := { s2.lio with hist := hist } }
      exec (.lioSample di rb) s = .next (safLocal (aoClips s3) (now s3))) ∧
    (∀ n t v, s.lio.taken = [(n, t, v)] → s.lio.pairNext = [] →
      (t ≤ now s → exec .localOutputApply s =
        .next (pointApply { s with lio := { s.lio with taken := [] } } (getChan s n).latched.point v)) ∧
      (now s < t → exec .localOutputApply s = .next s)) ∧
    (∀ n w rest v s1, s.lio.loopW = [(n, w :: rest)] → w.1 + 2000 ≤ now s → (getChan s n).latched.src = 2 →
      (getChan s n).latched.ownKind = 2 → launchVal (setChan s n { getChan s n with outVal := w.2 }) n = (some v, s1) →
      exec .localAoUpdate s = .next (pointApply (setChan s1 n { getChan s1 n with outVal := (getChan s n).outVal })
        (getChan s n).latched.point v)) ∧
    (∀ v, v < 4 →
      (bitOf (getF s R.LIO_VS_STAT_ON) v = true → exec (.vsOverloadTrip v) s =
        (let s1 := vsSet { s with lio := { s.lio with vsOff := mput none s.lio.vsOff v (some (now s)) } } v false
         .next (latch (unitErrAt (setF s1 R.LIO_VS_STAT_FAULT (getF s1 R.LIO_VS_STAT_FAULT ||| 2 ^ v)) .lio 0 0x0715 v [])
           .lio 0 4))) ∧
      (∀ t, mget s.lio.vsOff v none = some t →
        (t + 1000000000 ≤ now s → exec (.vsRetry v) s =
          .next (vsSet { s with lio := { s.lio with vsOff := mput none s.lio.vsOff v none } } v true)) ∧
        (now s < t + 1000000000 → exec (.vsRetry v) s = .next s)) ∧
      (s.lio.pulse = none → getB s R.LIO_VS_CFG_TP_EN 0 v = true → bitOf (getF s R.LIO_VS_STAT_ON) v = true →
        pulseDue s (getF s R.LIO_VS_CFG_TPI 0 v) (mget s.lio.vsTested v none) = true →
        let tested := mput none s.lio.vsTested v (some (now s))
        exec (.vsTestPulse v) s = .next { s with lio :=
          { s.lio with pulse := some { vs := true, n := v, at_ := now s }, vsTested := tested } })) ∧
    (∀ n, n < 16 →
      (s.lio.pulse = none → getB s R.LIO_DO_CFG_TP_EN 0 n = true → tpRouted s n = false → doPin s n = true →
        (getDo s n).cmd = true → onAtNominal s n = true → pulseDue s (getF s R.LIO_DO_CFG_TPI 0 n) (getDo s n).tested = true →
        let s1 := setDo s n { getDo s n with tested := some (now s) }
        exec (.doTestPulse n) s =
          .next { s1 with lio := { s1.lio with pulse := some { vs := false, n := n, at_ := now s } } }) ∧
      (doPin s n = true → exec (.doOverload n) s = .next (doTrip s n 1 0x0710)) ∧
      exec (.doOvertemp n) s = .next (doTrip s n 2 0x0711) ∧
      (getB s R.LIO_DO_CFG_OL_EN 0 n = true → tpRouted s n = false →
        exec (.doOpenLoad n) s = .next (unitErrAt (doLatch s n 4) .lio 0 0x0712 n [])) ∧
      (3 ≤ (getDo s n).extv → exec (.doExtv n) s = .next (unitErrAt (doLatch s n 8) .lio 0 0x0713 n [])) ∧
      ((getDo s n).off = true → getB s R.LIO_DO_CFG_RETRY 0 n = true → doCmd s n = true →
        (getDo s n).offAt + 1000000000 ≤ now s →
        exec (.doRetry n true) s = .next (setDo s n { getDo s n with off := false, zero := false }) ∧
        exec (.doRetry n false) s = .next s)) ∧
    (∀ k r, k < 16 → mget s.lio.wd k none = some r →
      (auxNs s < r + getF s R.LIO_DO_CFG_WD_TMO 0 k * period s 0 → exec (.wdExpired k) s = .next s) ∧
      (r + getF s R.LIO_DO_CFG_WD_TMO 0 k * period s 0 ≤ auxNs s →
        let s1 := { s with lio := { s.lio with wd := mput none s.lio.wd k none } }
        exec (.wdExpired k) s = .next (latch (unitErrAt
          (pulseDrop (setF s1 R.LIO_WD_STAT_DO (getF s1 R.LIO_WD_STAT_DO ||| 2 ^ k)) k) .lio 0 0x0717 k []) .lio 0 512))) ∧
    (∀ n code, n < 16 → 15000 ≤ now s → getF s R.LIO_AI_CFG_RANGE 0 n ≠ 3 →
      let t := aiPeriod s n
      let res := (((now s - 15000) / t * t, clampI (-8388608) 8388607 code) :: (getAi s n).res).take 40
      exec (.aiConversion n code) s =
        .next (setB (setAi s n { getAi s n with res := res, nLo := 0, nHi := 0, hi := false }) R.LIO_AI_STAT_WB false 0 n)) ∧
    (∀ n, n < 16 →
      (2 ≤ getF s R.LIO_AI_CFG_RANGE 0 n → exec (.aiOverload n) s = .next (latch (unitErrAt
        (setF (setAi s n { getAi s n with shunt := some (now s) }) R.LIO_AI_STAT_OVL 1 0 n) .lio 0 0x0718 n []) .lio 0 32)) ∧
      (∀ t still, (getAi s n).shunt = some t → t + 1000000000 ≤ now s → exec (.aiShuntRetest n still) s =
        .next (setAi s n { getAi s n with shunt := if still then some (now s) else none }))) ∧
    (let spare := getF s R.LIO_ROT_STAT_SPARE
     let phase := getF s R.LIO_ROT_STAT_PHASE
     let k := getF s R.LIO_ROT_STAT_CHAN
     (spare < 17 → phase = 0 → reaches s (getF s R.LIO_ROT_CFG_STEP * 1000000000) 0 = true → exec .rotationStep s = .next
       (setF (setF { s with lio := { s.lio with stepAt := now s } } R.LIO_ROT_STAT_CHAN (oldestChan s)) R.LIO_ROT_STAT_PHASE 1)) ∧
     (∀ off gain, phase = 1 → s.lio.stepAt + 40000000 ≤ now s → off.natAbs ≤ 1000 → gain.natAbs ≤ 5000 →
       exec (.rotationCalDone off gain) s =
         .next (setF (setCv { s with lio := { s.lio with ovAt := now s } } spare { getCv s spare with calAt := now s })
           R.LIO_ROT_STAT_PHASE 2)) ∧
     (∀ d, phase = 2 → k < 16 → overlapOver s k = true →
       let s1 := setF (rotIdle s) R.LIO_AI_STAT_DELTA (satI 16 d) 0 k
       let s2 := { s1 with lio := { s1.lio with prevRef := none } }
       d.natAbs ≤ getF s R.LIO_ROT_TOL_TOL_MAX → d.natAbs ≤ getF s R.LIO_ROT_TOL_TOL_HO →
       exec (.rotationHandover d) s = .next (setF (handOver s2 k spare) R.LIO_ROT_STAT_SPARE (convOf s k))) ∧
     (∀ c j, (List.range 16).find? (fun j => convOf s j == c && !(getAi s j).dead) = some j →
       let s1 := retire s c
       (17 ≤ spare → exec (.converterSelfcheckFail c) s = .next (setAi s1 j { getAi s1 j with dead := true })) ∧
       (spare < 17 →
         let s2 := rotIdle { s1 with lio := { s1.lio with prevRef := none } }
         let to_ := now s + 2 * aiPeriod s j
         exec (.converterSelfcheckFail c) s =
             .next (noSpare (setAi (handOver s2 j spare) j { getAi s2 j with deadFrom := now s, deadTo := to_ }))))) ∧
    (∀ n uv na, n < 4 → getB s R.LIO_AO_CFG_MODE 0 n = false → na.natAbs ≤ 20000000 →
      (uv * 3 - aoPin s n * 1000).natAbs ≤ 300000 → (getAo s n).dev = false → (getAo s n).wire = false →
      let v := getAo s n
      let rb := ((now s, uv, na) :: v.rb).take 40
      let v1 := { v with rb := rb, nShort := 0, nDev := 0, nOpen := 0, good := min 3 (v.good + 1), dev := false, wire := false }
      exec (.aoReadback n uv na) s = .next (setF (setAo s n v1) R.LIO_AO_STAT_DIAG (getF s R.LIO_AO_STAT_DIAG)))

/-- The safety cycle: at an S cycle start, after what precedes it at the same edge, the task is released on both cores with
fresh contexts; at t_end a core that still runs trips the engine with 0x13 and blocks that differ with 0x10 and the offset
of the first difference, and otherwise the resets and every group are judged, and the declared entries of the block are what
is sent. The owner's SSTATE leaves in every S cycle. A stuck reset input by its samples, the release watchdog on its own
oscillator, and the wellhead check. -/
def Obligations.SafetyCycle : Prop :=
  ∀ s : State,
    let take (x : State) (n : Nat) : State := { x with done := mput 0 x.done n (x.ticks + 1) }
    let sent (x : State) := x.saf.outA.filter (fun e => x.saf.img.imgA.decl.contains e.1)
    (atSafStart s = false → exec .safetyTaskRelease s = .next s) ∧
    (let y := releaseDue (deliveries s)
     let x := take y 3
     atSafStart s = true → undone y 3 = true →
     (safActive x = false → exec .safetyTaskRelease s = .next (setF x R.SAF_ENG_ACTIVE 0)) ∧
     (safActive x = true → x.time.skipTo ≠ 0 → lastStart x 3 ≤ x.time.skipTo → exec .safetyTaskRelease s = .next x) ∧
     (safActive x = true → x.time.skipTo = 0 →
      let fresh_ (x : State) (c e : Nat) := setCore x c { getCore x c with
        ctx := { pc := e }, mode := .ready, le := { (getCore x c).le with valid := false, ovr := false } }
      let s1 := fresh_ (fresh_ x 6 x.saf.img.imgA.entry) 7 x.saf.img.imgB.entry
      let s2 := { s1 with saf := { s1.saf with hold := false, busyA := true, busyB := true, pend := true, relAt := x.rcNs,
                                               cycAt := lastStart x 3 } }
      exec .safetyTaskRelease s = .next (wrapF (setF s2 R.SAF_ENG_ACTIVE 1) R.SAF_CYC_COUNT))) ∧
    (atTend s = false → exec .safetyTend s = .next s) ∧
    (let x := take s 4
     let send (y : State) (dl : Nat) : Host.Outcome State Fault Refusal :=
       let f := sstate y dl
       let y1 := { y with saf := { y.saf with sst := some f }, pair := { y.pair with frames := [] } }
       .next (if role y = 1 then syncSend1 y1 7 3 dl (.sstate f) else y)
     atTend s = true → undone s 4 = true →
     (outPath x = false → exec .safetyTend s = .next x) ∧
     (outPath x = true → inRun x .saf = false → x.saf.pend = false →
       exec .safetyTend s = send x (lastStart x 3 + period x 3 - x.tl.tGuard)) ∧
     (safActive x = true → x.saf.pend = true →
      let dl := x.saf.cycAt + period x 3 - x.tl.tGuard
      (x.saf.busyA = true ∨ x.saf.busyB = true → exec .safetyTend s = send (engineTrip x 0x13 0) dl) ∧
      (x.saf.busyA = false → x.saf.busyB = false →
        (∀ o, firstDiff (outBlock x 6) (outBlock x 7) = some o → exec .safetyTend s = send (engineTrip x 0x10 o) dl) ∧
        (firstDiff (outBlock x 6) (outBlock x 7) = none →
          let s1 := { x with saf := { x.saf with pend := false, blk := sent x } }
          ∀ g s2 acc, grpList x = [g] → judgeResets s1 (grpCfg x g).reset = (s2, acc) → grpList s2 = [g] →
            exec .safetyTend s = send (evalGroup s2 g dl (acc.contains g)) dl)))) ∧
    (∀ g r, inRun s .saf = true → grpList s = [g] → (getIn s (grpCfg s g).reset).rise = some r →
      bitOf (getF s R.SAF_RST_STUCK) g = false → r + (grpCfg s g).tMax * 1000000 ≤ (getIn s (grpCfg s g).reset).at_ → exec .stuckReset s =
        .next (stuckLevel (unitErrAt (setF s R.SAF_RST_STUCK (getF s R.SAF_RST_STUCK ||| 2 ^ g)) .saf 0 0x0819 g []))) ∧
    (safActive s = true →
      (s.saf.relAt + 2 * period s 3 ≤ s.rcNs →
        exec (.releaseWatchdogExpiry 0) s = .next (engineTrip (setF s R.SAF_ENG_EN_A 0) 0x16 0) ∧
        exec (.releaseWatchdogExpiry 1) s = .next (engineTrip (setF s R.SAF_ENG_EN_B 0) 0x16 0)) ∧
      ∀ c, s.rcNs < s.saf.relAt + 2 * period s 3 → exec (.releaseWatchdogExpiry c) s = .next s) ∧
    (∀ dev : Int, let s1 := setF s R.SAF_WELL_DEV (satI 16 dev)
      (dev.natAbs ≤ 200 → exec (.wellheadCheck dev) s = .next s1) ∧
      (200 < dev.natAbs → exec (.wellheadCheck dev) s = .next (engineTrip s1 0x14 0)))

/-- An engine trip stops the safety task on both cores with their registers as they were, and leaves no decided state and no
pending cause in any configured group and no profile channel locked. Memory and the logic cores are as before. -/
def Obligations.EngineTripStopsTheSafetyCores : Prop :=
  ∀ (s : State) (code info : Nat), 0x10 ≤ code ∧ code ≤ 0x16 → inRun s .saf = true →
    ∃ t, exec (.engineTrip code info) s = .next t ∧ t.mem = s.mem ∧
      (∀ c, c = 6 ∨ c = 7 → getCore t c = { getCore s c with mode := .stopped }) ∧
      (∀ c, c ≠ 6 → c ≠ 7 → getCore t c = getCore s c) ∧
      t.saf.busyA = false ∧ t.saf.busyB = false ∧ t.saf.pend = false ∧
      (∀ g ∈ grpList s, (getGrp t g).next = none ∧ (getGrp t g).ev = 0) ∧ (∀ k, (mget t.gens k {}).lock = false)

/-! ## Loop engine, trace, motion, Basin -/

/-- The loop engine: a sample keeps the inputs for the update that follows, of every law and of the profiles it may follow,
calls wait for their sample and what SETSP does there, READ answers at once, an injection ends at its duration, and the
writes to banks and tables that are refused, with reserved bits left 0. An uncorrectable error puts the context in FAULT in
every state. The trace and its triggers: ARM, FORCE and STOP by TRC.CTL and by TRIG calls; ARM and FORCE of TRC.CTL are
refused outside TUNE; recorded entries are copied to the spill region in order. -/
def Obligations.LoopEngineAndTrace : Prop :=
  (∀ (s : State) (c : Nat),
     (atSample s c = false → exec (.loopSample c) s = .next s) ∧
     (let y := releases s
      let x := { y with done := mput 0 y.done (64 + c) (y.ticks + 1) }
      atSample s c = true → undone y (64 + c) = true →
       (c < 256 → inRun x .loopCtx c = true → owns x = true →
         let laws := [0, 1, 2, 3]
         let trk := if getB x R.LOOP_L_TRK_EN c then loopRead x (getF x R.LOOP_L_TRK_CHAN c) false else (0, 0)
         let m : LSample :=
           { t := now x / loopTl x c * loopTl x c, trk := trk.1, trkSt := trk.2,
             fb := laws.map (fun l => loopRead x (getF x R.LOOP_L_LAW_FB_CHAN c l) (getB x R.LOOP_L_LAW_FB_FAST c l)),
             px := if getB x R.LOOP_L_POS_EN c then some (loopRead x (getF x R.LOOP_L_POS_CHAN c) (getB x R.LOOP_L_POS_FAST c)).1
                   else none,
             prof := laws.map (fun l => profSp x (getF x R.LOOP_L_LAW_PG c l)) }
         exec (.loopSample c) s = .next (setLoop x c { getLoop x c with smp := some m })) ∧
       (inRun x .loopCtx c = false ∨ owns x = false → exec (.loopSample c) s = .next x)) ∧
     (nextUpdate s = none → exec .loopUpdate s = .next s) ∧
     (∀ m, (nextUpdate s).isSome = true → nextUpdate (launches s) = some (c, m) →
       exec .loopUpdate s = .next { loopUpdate (launches s) c m with loopFree := now (launches s) }) ∧
     (∀ m i hand so, (lMode s c = 0 → (modeOut s c m i hand so).1.u = coef s c (lBank s c) (lLaw s c) 13 ∧
         (modeOut s c m i hand so).1.i = fz) ∧
       (lMode s c = 3 → bitOf m.trkSt 0 = false → (modeOut s c m i hand so).1.u = (getLoop s c).uPrev ∧
         (modeOut s c m i hand so).2 = true)) ∧
     (∀ p ∈ ([(.setsp, 0), (.loopMode, 1), (.bankswap, 2), (.faultrst, 3)] : List ((Nat → Instr) × Nat)), ∀ x s1,
       takeCall s 0 c p.2 = some (x, s1) →
       exec (p.1 c) s = .next (setLoop s1 c { getLoop s1 c with wait := (getLoop s1 c).wait ++ [x] })) ∧
     (∀ x s1, takeCallIf s 0 c 5 0 1 (fun op => op != 0) = some (x, s1) →
       exec (.injectStart c) s = .next (setLoop s1 c { getLoop s1 c with wait := (getLoop s1 c).wait ++ [x] })) ∧
     (∀ x s1, takeCallIf s 0 c 5 0 1 (fun op => op == 0) = some (x, s1) →
       exec (.injectStop c) s = .next (setLoop s1 c { getLoop s1 c with wait := (getLoop s1 c).wait ++ [x] })) ∧
     (∀ (x : Call) m sp vf af s1 s2 s3, x.fn = 0 →
       let s0 := dscBegin s x
       dsc s0 x 0 4 = (sp, s1) → dsc s1 x 4 4 = (vf, s2) → dsc s2 x 8 4 = (af, s3) →
       (getF s0 R.LOOP_L_LAW_SP_SRC c (lLaw s0 c) = 0 →
         loopCall s c x m = (setLoop s3 c { getLoop s0 c with sp := sp, vff := vf, aff := af }, 0, 0)) ∧
       (getF s0 R.LOOP_L_LAW_SP_SRC c (lLaw s0 c) ≠ 0 → loopCall s c x m = (s0, 0x15, 0))) ∧
     (∀ x s1, takeCall s 0 c 4 = some (x, s1) →
       let v := getLoop s1 c
       let vals := [getF s1 R.LOOP_L_U_VAL c, getF s1 R.LOOP_L_E_VAL c, getF s1 R.LOOP_L_I_VAL c, getF s1 R.LOOP_L_SP_VAL c,
         getF s1 R.LOOP_L_Y_VAL c, v.p, v.d, v.ff]
       let s2 := wrBs (dscOut s1 x 0 4 (regW s1 R.LOOP_L_STAT_MODE c 0)) (x.addr + 0x14) (vals.flatMap (leBytes 4))
       exec (.loopRead c) s = .next (complete (dscOut s2 x 0x28 8 v.at_) x 0 0)) ∧
     (∀ j, (getLoop s c).inj = some j →
       (j.dur * 1000000 ≤ j.n * loopTl s c → exec (.injectionEnd c) s = .next (injEnd s c)) ∧
       (j.n * loopTl s c < j.dur * 1000000 → exec (.injectionEnd c) s = .next s)) ∧
     (c < 256 →
       exec (.ctxUncorr c) s = .next (loopShow (loopStop
         (setF (setSt (unitErr s .loopCtx c 0x091E) .loopCtx c 3) (hBusy .loopCtx) 0 c) c cABORTED) c) ∧
       (inTune s = true → inRun s .loopCtx c = true → exec (.lBswapWrite c) s =
         .next (setF (setLoop s c { getLoop s c with swap := some (now s) }) R.LOOP_L_BSWAP_RES 3 c)) ∧
       (inTune s = false → exec (.lBswapWrite c) s = .next s)) ∧
     (∀ o v, o < 0x40000 →
       let b := o / 0x200 % 2
       let a := 0x40420000 + o / 4 * 4
       let put := Host.Outcome.next (setRawReg s a (v &&& loopBits a))
       (inRun s .loopCtx (o / 0x400) = false ∨ b ≠ lBank s (o / 0x400) →
         exec (.coeffBankWrite false o v) s = put ∧ (inTune s = true → exec (.coeffBankWrite true o v) s = put)) ∧
       (inRun s .loopCtx (o / 0x400) = true → b = lBank s (o / 0x400) →
         exec (.coeffBankWrite false o v) s = .next (unitErr s .loopCtx (o / 0x400) 0x0913)) ∧
       (inTune s = false → exec (.coeffBankWrite true o v) s = .next s)) ∧
     (∀ o v, o < 0x80000 →
       (tableBusy s (o / 0x2000) = false → exec (.tableStoreWrite o v) s = .next (setRawReg s (0x40460000 + o / 4 * 4) v)) ∧
       (tableBusy s (o / 0x2000) = true → exec (.tableStoreWrite o v) s = .next (unitErr s .loop 0 0x0914)))) ∧
  (∀ s : State,
     (∀ c x s1 op s2, takeCallIf s 0 c 6 0 1 (fun op => op == 0 || decide (op > 2)) = some (x, s1) → dsc s1 x 0 1 = (op, s2) →
       (op ≤ 2 → exec (.trigArm c) s = .next (complete (trcArm s2) x 0 0)) ∧
       (2 < op → exec (.trigArm c) s = .next (complete s2 x 0x20 0))) ∧
     (∀ c x s1, takeCallIf s 0 c 6 0 1 (fun op => op == 1) = some (x, s1) →
       exec (.trigForce c) s = .next (complete (trcFire s1) x 0 0)) ∧
     (∀ c x s1, takeCallIf s 0 c 6 0 1 (fun op => op == 2) = some (x, s1) →
       exec (.trigStop c) s = .next (complete (trcStop s1) x 0 0)) ∧
     (inTune s = true → exec .trcCtlArm s = .next (trcArm s) ∧ exec .trcCtlForce s = .next (trcFire s)) ∧
     (inTune s = false → exec .trcCtlArm s = .next (unitErr s .trc 0 0x1310) ∧
       exec .trcCtlForce s = .next (unitErr s .trc 0 0x1310)) ∧
     exec .trcCtlStop s = .next (trcStop s) ∧
     (inRun s .trc = true → isTrace s = true →
       trcArm s = setF (setB (setF { s with trc := { s.trc with prev := [] } } R.TRC_STAT_STATE
         (if getB s R.TRC_CFG_MODE then 4 else 1)) R.TRC_STAT_SPILLING (getB s R.TRC_CFG_SPILL_EN)) R.TRC_STAT_SPILL_FULL 0 ∧
       (trcState s = 1 ∨ trcState s = 2 ∨ trcState s = 4 → trcStop s =
         latch (setF (setF s R.TRC_STAT_STATE 3) R.TRC_STAT_SPILLING 0) .trc 0 2)) ∧
     (∀ e, inRun s .trc = true → isTrace s = true → s.trc.pend = [e] → getF s R.TRC_SPILL_WR_IDX + 1 < spillLen →
       let w := getF s R.TRC_SPILL_WR_IDX
       exec .traceSpillCopy s = .next (setF { s with trc := { s.trc with pend := [], spill := mput 0 s.trc.spill w e } }
         R.TRC_SPILL_WR_IDX (w + 1))))

/-- Profile channels: a planned MOVE, LIMITS or STOP waits for its sample, or ends where the lock of SS1 holds; READ
answers; a sample with nothing due publishes the plan in force, which from the arrival instant on is exactly the goal. Valve
axes: START with its checks in order and then the table download, the launch that starts streaming once the table is
confirmed, after what precedes it at its edge, and the launches of a streaming axis and of one with a waiting STOP, STOP at
rest, SETREF, SHAPE and READ; a word of a shape in use is refused. -/
def Obligations.ProfilesAndAxes : Prop :=
  (∀ (s : State) (g : Nat),
     (∀ p ∈ ([(.move, 0), (.limits, 1), (.profStop, 2)] : List ((Nat → Instr) × Nat)), ∀ x s1,
       takeCall s 1 g p.2 = some (x, s1) → x.inst = g → x.fn = p.2 →
       let v := getGen s1 g
       let wait := Host.Outcome.next (setGen s1 g { v with wait := v.wait ++ [(now s1, x)] })
       (v.lock = false ∨ p.2 = 2 → exec (p.1 g) s = wait) ∧
       (v.lock = true → p.2 < 2 → exec (p.1 g) s = .next (complete (latch s1 .profCh g 16) x 0x12 0))) ∧
     (∀ x q, getEngq s 1 = x :: q →
       (x.fn = 3 → exec .profPlan s = .next (profRead (setEngq s 1 q) x)) ∧
       (x.fn ≠ 3 → exec .profPlan s = .next (profTake (setEngq s 1 q) x))) ∧
     (∀ x s1, takeCall s 1 g 3 = some (x, s1) → exec (.profRead g) s = .next (profRead s1 x)) ∧
     (g < 128 → inRun s .profCh g = true → owns s = true → reaches s (profTp s g) 0 = true →
       (getGen s g).wait = [] → (getGen s g).ss1 = none → (getGen s g).above = none →
       let v := { getGen s g with wait := [], ss1 := none, at_ := now s }
       let s1 := genFlag (genShow (setGen s g v) g (genAt v (now s))) g R.PROF_P_STAT_ARRIVED 0 (decide (v.tArr ≤ now s))
       let s2 := genFlag (setGen s1 g { v with above := none }) g R.PROF_P_STAT_ABOVE_LIM 3 false
       exec (.profSample g) s = .next (profToLoops s2 g (now s / profTp s g * profTp s g))) ∧
     (∀ (v : Gen) (t : Nat), v.tArr ≤ t → v.goalV = false → genAt v t = ⟨v.goal, 0, 0⟩) ∧
     (∀ (v : Gen) (t : Nat), v.tArr ≤ t → v.goalV = true → (genAt v t).v = v.goal ∧ (genAt v t).a = 0)) ∧
  (∀ (s : State) (a : Nat),
     (atAxis s a = false → exec (.axisLaunch a) s = .next s) ∧
     (atAxis s a = true → undone (launches s) (1024 + a) = true →
      let x := { launches s with done := mput 0 (launches s).done (1024 + a) ((launches s).ticks + 1) }
      a < nAxis x → inRun x .vaxAx a = true → owns x = true →
       stState x (axStation x a) = 2 ∨ stState x (axStation x a) = 3 →
       let ta := axApply x a
       let m := sint 32 (getF x R.VAX_A_M_VAL a)
       (axSt x a = 2 → exec (.axisLaunch a) s = .next (axStream x a ta)) ∧
       (∀ w src, axSt x a = 1 → (getAxis x a).ready = true → (getAxis x a).stop = none → axWant x a ta m = (w, src) →
         let s1 := setB (axSend (setAxis x a {}) a w 0 1 ta) R.VAX_A_STAT_SRC src a
         let s2 := setF (setF s1 R.VAX_A_LAG_VAL 0 a) R.VAX_A_STAT_CLAMPED 0 a
         exec (.axisLaunch a) s = .next (latch (setF (setF s2 R.VAX_A_STAT_AXST 2 a) R.VAX_A_STAT_FCAUSE 0 a) .vaxAx a 2)) ∧
       (axSt x a = 1 → (getAxis x a).ready = false → (getAxis x a).stop = none → (getAxis x a).still = none →
         exec (.axisLaunch a) s = .next x) ∧
       (∀ c, axSt x a < 2 → (getAxis x a).stop = some c → exec (.axisLaunch a) s =
         .next (complete (axSend (setAxis x a { getAxis x a with stop := none }) a m (2 + getF x R.VAX_A_CFG_STILL a) 0 ta) c 0 0))) ∧
     (∀ c s1, takeCall s 2 a 0 = some (c, s1) →
       (axSt s1 a ≠ 0 → exec (.vaxStart a) s = .next (complete s1 c 0x16 0)) ∧
       (axSt s1 a = 0 → getB s1 R.VAX_A_STAT_REFOK a = false → exec (.vaxStart a) s = .next (complete s1 c 0x11 0)) ∧
       (axSt s1 a = 0 → getB s1 R.VAX_A_STAT_REFOK a = true → stState s1 (axStation s1 a) ≠ 2 →
         exec (.vaxStart a) s = .next (complete s1 c 0x12 0)) ∧
       (axSt s1 a = 0 → getB s1 R.VAX_A_STAT_REFOK a = true → stState s1 (axStation s1 a) = 2 →
         vmaxHigh s1 a (getGen s1 (axProf s1 a)).limV = false →
         let k := getF s1 R.VAX_A_CFG_SHAPE a
         let p := axStation s1 a / 4
         let tab := (List.range 256).flatMap (fun i => leBytes 2 (shapeEntry s1 k i))
         let s2 := setF (setAxis s1 a { getAxis s1 a with start := some c, ready := false }) R.VAX_A_STAT_AXST 1 a
         ∀ tok s3, nextToken s2 p = (tok, s3) → exec (.vaxStart a) s = .next (aqAdmit s3 p
           { pos := axStation s1 a % 4, svc := 6, token := tok, arg1 := getF s1 R.VAX_A_CFG_SAX a + 256 * k,
             data := tab ++ leBytes 4 (crcEth tab), cls := 1, since := now s1, tmo := tAcyc s1 p, axis := some a }))) ∧
     (∀ c s1, takeCall s 2 a 1 = some (c, s1) →
       (axSt s1 a ≠ 2 → exec (.vaxStop a) s = .next (complete s1 c 0x16 0)) ∧
       (axSt s1 a = 2 → axRest s1 a = false → exec (.vaxStop a) s = .next (complete s1 c 0x15 0)) ∧
       (axSt s1 a = 2 → axRest s1 a = true → getF s1 R.VAX_A_LAG_VAL a = 0 →
         exec (.vaxStop a) s = .next (setF (setAxis s1 a { stop := some c }) R.VAX_A_STAT_AXST 0 a))) ∧
     (∀ c s1 m s2, takeCall s 2 a 2 = some (c, s1) → dsc s1 c 0 4 = (m, s2) →
       (axSt s1 a ≠ 0 → exec (.setref a) s = .next (complete s1 c 0x16 0)) ∧
       (axSt s1 a = 0 → axRest s1 a = true →
         let x := getF s1 R.PROF_P_X_LO_VAL (axProf s1 a) + getF s1 R.PROF_P_X_HI_VAL (axProf s1 a) * 2 ^ 32
         exec (.setref a) s = .next (complete (setF (setF s2 R.VAX_A_OFS_VAL (pat 32 (sint 32 m - axScaled s1 a x)) a)
           R.VAX_A_STAT_REFOK 1 a) c 0 0))) ∧
     (∀ c s1 k s2, takeCall s 2 a 3 = some (c, s1) → dsc s1 c 0 1 = (k, s2) → k < 8 →
       (bitOf (shapeUse s2) k = true → exec (.shape a) s = .next (complete s2 c 0x17 0)) ∧
       (∀ tab s3, bitOf (shapeUse s2) k = false → engRd s2 (c.addr + 0x18) 512 = (tab, s3) → exec (.shape a) s =
         .next (complete (forEach (List.range 128) s3 (fun x i =>
           setRegW x R.VAX_SHAPE_T_LO 0 (k * 128 + i) (leNat ((tab.drop (4 * i)).take 4)))) c 0 0))) ∧
     (∀ c s1, takeCall s 2 a 4 = some (c, s1) →
       let s2 := dscOut (dscOut s1 c 0 4 (getF s1 R.VAX_A_M_VAL a)) c 4 4 (getF s1 R.VAX_A_LAG_VAL a)
       let s3 := dscOut s2 c 8 4 (regW s2 R.VAX_A_STAT_AXST a 0)
       exec (.vaxRead a) s = .next (complete (dscOut s3 c 0x10 8
         (getF s1 R.VAX_A_TAPP_LO_STAMP a + getF s1 R.VAX_A_TAPP_HI_STAMP a * 2 ^ 32)) c 0 0)) ∧
     (∀ o v, o < 4096 →
       (bitOf (shapeUse s) (o / 512) = true → exec (.vaxShapeWrite o v) s = .next (unitErr s .vax 0 0x0B17)) ∧
       (bitOf (shapeUse s) (o / 512) = false → exec (.vaxShapeWrite o v) s =
         .next (setRegW s R.VAX_SHAPE_T_LO 0 (o / 512 * 128 + o % 512 / 4) v))))

/-- The calls to BSN. `s1` is the state without the call, `s2` and `s3` those after the engine has read D and the operands:
a SOLVE is refused for its deadline, starts, supersedes a running solve that has not started and a waiting one, or is
refused as too early; a CANCEL withdraws the solves of its context, the one in a unit at the unit's end; READ writes its
three fields. The engine's own instants: a unit ends and the setup or the iteration of its solve with it, unless the instant
of its decision has passed; a running solve is decided 4 µs before its deadline, by the last iterate it accepts or the shift
path; the result with the earliest deadline is written, OSTAT behind it and the completion last; deliveries reach their loop
contexts at their deadlines, after the launches due at the edge (log entry 21) and with every decision and result write due
by then done; a CANCEL that waited for a unit completes with the decision (log entry 101); an uncorrectable error in the
scratch puts a context in FAULT; the copy of the matrices ends a RUN request. -/
def Obligations.BasinSolver : Prop :=
  (∀ (s s1 : State) (c : Call) (q : Nat),
     (takeCall s 3 q 0 = some (c, s1) → ∀ d s2 b s3, dsc s1 c 0 8 = (d, s2) → engRd s2 (c.addr + 0x18) 32 = (b, s3) →
       let w (i : Nat) := leNat ((b.drop (4 * i)).take 4)
       let v : Solve := { call := c, d := d, at_ := now s1, addrs := [w 0, w 1, w 2, w 3, w 4, w 5, w 6], opt := w 7 }
       let crowd := (deadlines s3).filter (fun x => decide (x < d + 4000) && decide (d < x + 4000))
       (now s1 + 60000000000 < d → exec (.solve q) s = .next (complete s3 c 0x17 0)) ∧
       (d ≤ now s1 + 60000000000 → 4 ≤ crowd.length → exec (.solve q) s = .next (complete s3 c 0x16 0)) ∧
       (now s1 + 4000 < d → d ≤ now s1 + 60000000000 → crowd.length < 4 →
         ((getQp s3 q).run = none →
           exec (.solve q) s = .next (qShow (bsnStart (qShow (setQp s3 q { getQp s3 q with run := some v }) q)) q)) ∧
         (∀ r, (getQp s3 q).run = some r → r.started = false → exec (.solve q) s =
           .next (qShow (bsnStart (qShow (setQp (complete s3 r.call 7 0) q { getQp s3 q with run := some v }) q)) q)) ∧
         (∀ r, (getQp s3 q).run = some r → r.started = true → d ≤ r.d → exec (.solve q) s = .next (complete s3 c 0x15 0)) ∧
         (∀ r, (getQp s3 q).run = some r → r.started = true → r.d < d →
           ((getQp s3 q).wait = none → exec (.solve q) s = .next (qShow (setQp s3 q { getQp s3 q with wait := some v }) q)) ∧
           (∀ o, (getQp s3 q).wait = some o →
             exec (.solve q) s = .next (qShow (setQp (complete s3 o.call 7 0) q { getQp s3 q with wait := some v }) q)))) ∧
       (d ≤ now s1 + 4000 → crowd.length < 4 → (getQp s3 q).run = none → exec (.solve q) s =
         .next (solveOver (acceptOrShift (setQp s3 q { getQp s3 q with run := some v }) q v 0 2) q))) ∧
     (takeCall s 3 q 1 = some (c, s1) →
       let p := getQp s1 q
       let dropWait (x : State) : State := setQp (p.wait.elim x (fun o => withdraw x o 8 0)) q { p with wait := none }
       (p.run = none → exec (.bsnCancel q) s = .next (complete (qShow (dropWait s1) q) c 0 0)) ∧
       (∀ v, p.run = some v → getB s1 R.BSN_RUNNING_BUSY = true → getF s1 R.BSN_RUNNING_CTX = q →
         exec (.bsnCancel q) s =
           .next (qShow (setQp (dropWait s1) q { p with wait := none, run := some { v with cancel := v.cancel ++ [c] } }) q)) ∧
       (∀ v, p.run = some v → (getB s1 R.BSN_RUNNING_BUSY = true → getF s1 R.BSN_RUNNING_CTX ≠ q) →
         exec (.bsnCancel q) s = .next (complete (solveOver (dropWait (withdraw s1 v 8 0)) q) c 0 0))) ∧
     (takeCall s 3 q 2 = some (c, s1) →
       let o := getF s1 R.BSN_Q_LASTSEQ_VAL q + getF s1 R.BSN_Q_LAST_FLAGS q * 2 ^ 32 + getF s1 R.BSN_Q_LAST_ITER q * 2 ^ 41 +
         getF s1 R.BSN_Q_LAST_DECIDED q * 2 ^ 48
       let dec := getF s1 R.BSN_Q_DEC_LO_VAL q + getF s1 R.BSN_Q_DEC_HI_VAL q * 2 ^ 32
       exec (.bsnRead q) s =
         .next (complete (dscOut (dscOut (dscOut s1 c 0 4 (qStat s1 q)) c 8 8 o) c 16 8 dec) c 0 0))) ∧
  (∀ (s : State) (q : Nat), q < 16 →
     (getB s R.BSN_RUNNING_BUSY = false → exec .bsnUnit s = .next (bsnStart s)) ∧
     (∀ v, getB s R.BSN_RUNNING_BUSY = true → getF s R.BSN_RUNNING_CTX = q → (getQp s q).run = some v →
       let s1 := maxF (unitOver s) R.BSN_UNITMAX_NS (now s - s.bsn.unitAt)
       (v.d < now s + 4000 → exec .bsnUnit s = exec (.bsnDeadlineDecision q) s) ∧
       (now s + 4000 ≤ v.d → v.cancel ≠ [] → exec .bsnUnit s = .next (solveOver (withdraw s1 v 8 0) q)) ∧
       (now s + 4000 ≤ v.d → v.cancel = [] → v.ready = false → exec .bsnUnit s = .next (setupEnd s1 q v)) ∧
       (now s + 4000 ≤ v.d → v.cancel = [] → v.ready = true → exec .bsnUnit s = .next (iterEnd s1 q v))) ∧
     (∀ v, (getQp s q).run = some v → (getQp s q).wait = none →
       (now s + 4000 < v.d → exec (.bsnDeadlineDecision q) s = .next s) ∧
       (v.d ≤ now s + 4000 → (getB s R.BSN_RUNNING_BUSY = true → getF s R.BSN_RUNNING_CTX ≠ q) →
         exec (.bsnDeadlineDecision q) s = .next (solveOver (completeAll (acceptOrShift s q v 0 2) v.cancel 0) q)) ∧
       (v.d ≤ now s + 4000 → getB s R.BSN_RUNNING_BUSY = true → getF s R.BSN_RUNNING_CTX = q →
         exec (.bsnDeadlineDecision q) s =
           .next (solveOver (completeAll (acceptOrShift (unitOver s) q v 0 2) v.cancel 0) q))) ∧
     (s.bsn.decided = [] → exec .bsnResultWrite s = .next s) ∧
     (∀ r, nextResult s = some r →
       let a := getF s R.BSN_Q_RES_ADDR r.ctx
       let s1 := { s with bsn := { s.bsn with decided := s.bsn.decided.erase r } }
       let body := leBytes 8 r.stamp ++ leBytes 8 r.obj ++ leBytes 8 r.rp ++ leBytes 8 r.rd ++ leBytes 8 r.mu ++
         leBytes 4 r.nreg ++ leBytes 12 0 ++ vecBytes r.z ++ vecBytes r.y ++ vecBytes r.lam
       let o := r.call.ticket + r.flags * 2 ^ 32 + r.iter * 2 ^ 41 + r.why * 2 ^ 48
       r ∈ s.bsn.decided ∧ (∀ x ∈ s.bsn.decided, r.d ≤ x.d) ∧
       exec .bsnResultWrite s = .next (complete (wrN (wrBs s1 (a + 8) body) a 8 o) r.call r.code r.flags)) ∧
     (let t := bsnSettle (launches s)
      ∀ d l x, t.bsn.dlv = [(d, l, x)] →
       let s1 := { t with bsn := { t.bsn with dlv := [] } }
       (d ≤ now t → exec .bsnDelivery s = .next (setLoop s1 l 
         { getLoop s1 l with bnext := (getLoop s1 l).bnext ++ [(d, x)] })) ∧
       (now t < d → exec .bsnDelivery s = .next t)) ∧
     (s.bsn.qps = [] → s.bsn.decided = [] → bsnSettle s = s) ∧
     (let s1 := latch (unitErr s .bsnCtx q 0x0C18) .bsn 0 1
      (inRun s .bsnCtx q = false → exec (.scratchUncorr q) s = .next s1) ∧
      (inRun s .bsnCtx q = true → (getQp s1 q).run = none → (getQp s1 q).wait = none →
        exec (.scratchUncorr q) s = .next (endQueued (setF (setSt (solveOver (setQp s1 q
          { getQp s1 q with wait := none }) q) .bsnCtx q 3) (hBusy .bsnCtx) 0 q) 3 q 8)) ∧
      (∀ v, inRun s .bsnCtx q = true → (getQp s1 q).run = some v → (getQp s1 q).wait = none →
        let s2 := completeAll (shiftPath s1 q v 0 3 0x18 true) v.cancel 8
        exec (.scratchUncorr q) s = .next (endQueued (setF (setSt (solveOver (setQp s2 q
          { getQp s2 q with wait := none }) q) .bsnCtx q 3) (hBusy .bsnCtx) 0 q) 3 q 8))) ∧
     (stOf s .bsnCtx q = 1 → getB s (hBusy .bsnCtx) q = true → ∀ fb mats s1 s2,
       readVec s (getF s R.BSN_Q_FB_ADDR q) (qN s q) = (fb, s1) → copyMats s1 q = (mats, s2) →
       (∀ code, bsnRunCheck s2 q = some code → exec (.bsnMatrixCopyDone q) s = .next (runRefused s2 .bsnCtx q code)) ∧
       (bsnRunCheck s2 q = none →
         (mats = none → exec (.bsnMatrixCopyDone q) s = .next (runRefused s2 .bsnCtx q 0x0C12)) ∧
         (∀ h e i, mats = some (h, e, i) →
           (vFin fb = false → exec (.bsnMatrixCopyDone q) s = .next (runRefused s2 .bsnCtx q 0x0C1A)) ∧
           (vFin fb = true → exec (.bsnMatrixCopyDone q) s = .next (bsnEnterRun
             (setF (setF (setSt s2 .bsnCtx q 2) (hRes .bsnCtx) 0 q) (hBusy .bsnCtx) 0 q) q h e i))))))

/-! ## The redundant pair -/

/-- SYNC frames. Each kind is discarded and counted where its CRC, its version or its role epoch is wrong. An accepted one
does what its kind says: DATA enters the staging set of its tier, a MARK whose counts and DCRC match applies the tier, CTRL
and RELAY act, an IMG of a tier is applied in phase 3, SSTATE updates the held safety record when it is later, a heartbeat
of another pair ID is counted; any other shows what does not match, is stamped on its path, and brings the partner's role,
its health and at an owner its acknowledgements, the group states, and the resynchronisation it asks for. The SYNC link:
going down is counted, recorded and latched as a level, and a STANDBY that has been without it for 1 s turns
STANDBY-SYNCING; coming up ends the level. A module that is not paired shows the link and does no more. -/
def Obligations.SyncFramesAndLink : Prop :=
  (∀ (s : State) (h : SyncHdr) (b : HbBody) (recs : List TierRec) (fr by_ : Nat) (ok : Bool) (m : CtrlMsg) (rl : RelayMsg)
     (im : ImgBody) (f : SstFrame), getB s R.PAIR_CFG_PAIRED = true → inRun s .pair = true →
     let rows := [Instr.hbRx h b, .syncDataRx h recs, .syncMarkRx h fr by_ ok, .syncCtrlRx h m, .syncRelayRx h rl, .syncImgRx h im,
       .sstateRx h f]
     (h.good = false ∨ h.ver ≠ 1 → ∀ i ∈ rows, exec i s = .next (incF s R.PAIR_FRCNT_CRCERR)) ∧
     (h.good = true → h.ver = 1 → h.epoch < roleEpoch s → ∀ i ∈ rows, exec i s = .next (incF s R.PAIR_FRCNT_STALE)) ∧
     (h.good = true → h.ver = 1 → h.epoch = roleEpoch s →
       (b.pairId ≠ getF s R.PAIR_ID_ID → exec (.hbRx h b) s = .next (incF (pairCheck s h b) R.PAIR_FRCNT_CRCERR)) ∧
       (b.pairId = getF s R.PAIR_ID_ID →
         let s3 := setF (hb1 (pairCheck s h b)) R.PAIR_ROLE_PARTNER h.role
         let s4 := setPair s3 { s3.pair with
           hb := some b, heard := true, ogen := if h.role = 1 then h.gen else s3.pair.ogen,
           abdRx := s3.pair.abdRx || (b.abd && role s3 == 3), abdRxAt := if s3.pair.abdRx then s3.pair.abdRxAt else tickNs s3,
           abdD := if s3.pair.abdRx then s3.pair.abdD else h.snap }
         let s5 := healthFrom s4 (b.healthy && !s4.pair.refused)
         let s6 := if role s5 = 1
           then setSnapB (setSnapS (setSnapF s5 (max (snapF s5) b.ackF)) (max (snapS s5) b.ackS)) b.ackB else s5
         let s7 := hbGroups (resyncServe s6 b) h b
         exec (.hbRx h b) s = .next (if role s7 = 2 ∧ h.role ≠ 1 ∧ h.role ≠ 5 then resyncFail s7 else s7)) ∧
       (receives s = false → exec (.syncDataRx h recs) s = .next s ∧ exec (.syncMarkRx h fr by_ ok) s = .next s ∧
         exec (.sstateRx h f) s = .next s) ∧
       (receives s = true →
         (let st := mget s.pair.stage h.tier {}
          let st1 : Stage := if st.snap = h.snap then st else { snap := h.snap, gen := h.gen }
          let st2 := { st1 with frames := st1.frames + 1, bytes := st1.bytes + h.len, recs := st1.recs ++ recs }
          exec (.syncDataRx h recs) s = .next (setPair s { s.pair with stage := mput {} s.pair.stage h.tier st2 })) ∧
         (let st := mget s.pair.stage h.tier {}
          let s2 := setPair s { s.pair with stage := mput {} s.pair.stage h.tier {} }
          (st.snap ≠ h.snap ∨ st.frames ≠ fr ∨ st.bytes ≠ by_ ∨ ok = false → exec (.syncMarkRx h fr by_ ok) s = .next s) ∧
          (h.tier ≤ 2 → st.snap = h.snap → st.frames = fr → st.bytes = by_ → ok = true →
            (holdsGen s h.gen = false → exec (.syncMarkRx h fr by_ ok) s = .next (unitErr s2 .pair 0 0x0D16)) ∧
            (holdsGen s h.gen = true → exec (.syncMarkRx h fr by_ ok) s =
              .next (partnerStep (resyncDone (tierValid (st.recs.foldl (applyRec h.snap) s2) h.tier h.snap)) h.tier h.snap)))) ∧
         (f.stamp ≤ s.saf.rcd.stamp → exec (.sstateRx h f) s = .next s) ∧
         (s.saf.rcd.stamp < f.stamp →
           let r := recSstate s.saf.rcd f
           r.stamp = f.stamp ∧ r.gst = f.gst ∧ exec (.sstateRx h f) s = .next { s with saf := { s.saf with rcd := r } })) ∧
       (s.pair.refused = true → exec (.syncCtrlRx h m) s = .next s ∧ exec (.syncRelayRx h rl) s = .next s ∧
         exec (.syncImgRx h im) s = .next s) ∧
       (s.pair.refused = false → exec (.syncCtrlRx h m) s = .next (ctrlApply s m) ∧
         exec (.syncRelayRx h rl) s = .next (relayTake s rl)) ∧
       (role s ≠ 2 → exec (.syncImgRx h im) s = .next s) ∧
       (role s = 2 → s.pair.refused = false → ∀ pct s1, fresh 7 s = (pct, s1) → im = .tier recs →
         let s2 := recs.foldl (applyRec h.snap) (followGen (setF s1 R.PAIR_RESYNC_PCT (min 100 pct)) h.gen)
         exec (.syncImgRx h im) s =
           .next (setF (setPair s2 { s2.pair with gotF := false, gotS := false }) R.PAIR_RESYNC_PHASE 3))) ∧
     (s.pair.norPend = true → exec .partnerNorWriteDone s = .next { s with pair := { s.pair with norPend := false }
                                                                           mram := { s.mram with norA := s.tsk.slotA
                                                                                                 norB := s.tsk.slotB } }) ∧
     (s.pair.norPend = false → exec .partnerNorWriteDone s = .next s)) ∧
  (∀ s : State,
     (getB s R.PAIR_SYNC_LINK = false → exec .syncLinkLost s = .next s) ∧
     (getB s R.PAIR_SYNC_LINK = true → getB s R.PAIR_CFG_PAIRED = false →
       exec .syncLinkLost s = .next (setB s R.PAIR_SYNC_LINK false)) ∧
     (getB s R.PAIR_SYNC_LINK = true → getB s R.PAIR_CFG_PAIRED = true → role s ≠ 1 → role s ≠ 2 → role s ≠ 3 →
       let s1 := level (unitErr (incF (setB s R.PAIR_SYNC_LINK false) R.PAIR_SYNC_DOWNS) .pair 0 0x0D22) .pair 0 9 true
       ∀ sfp los s2 s3, pick (setPair s1 { s1.pair with downAt := some (tickNs s1) }) = (sfp, s2) → pick s2 = (los, s3) →
         let s4 := setB (setB s3 R.PAIR_SYNC_SFP sfp) R.PAIR_SYNC_LOS los
         role s1 = role s → role s4 = role s → exec .syncLinkLost s = .next s4) ∧
     (let s1 := setB (setB (setB (setB s R.SYS_PLL_SD_LOCK true) R.PAIR_SYNC_LINK true) R.PAIR_SYNC_SFP true) R.PAIR_SYNC_LOS false
      exec .syncLinkRestored s = .next (level (setPair s1 { s1.pair with downAt := none }) .pair 0 9 false)) ∧
     (s.pair.downAt = none → exec .syncLinkDown s = .next s) ∧
     (∀ t, s.pair.downAt = some t → tickNs s < t + 1000000000 → exec .syncLinkDown s = .next s) ∧
     (∀ t, s.pair.downAt = some t → t + 1000000000 ≤ tickNs s → getB s R.PAIR_CFG_PAIRED = true → inRun s .pair = true →
       (role s = 3 → exec .syncLinkDown s = .next (resyncStart (setRole s 2 0x0D22))) ∧
       (role s = 1 → exec .syncLinkDown s = .next (setSnapS (setSnapF s 0) 0))))

/-- Roles of the pair: silent heartbeat paths, the end of the listen window, the claim and its collisions, the interlock
input, takeover with its collisions, abdication, the PAIR commands, the host-service class. -/
def Obligations.PairRoles : Prop :=
  ∀ s : State, getB s R.PAIR_CFG_PAIRED = true → inRun s .pair = true →
    (role s < 2 → exec .hbPulseRx s = .next (hb2 s)) ∧
    (∀ t, s.pair.h1 = some t → (now s < t + 4 * period s 0 → exec (.hbPathSilent 1) s = .next s) ∧
      (t + 4 * period s 0 ≤ now s →
        let s1 := setPair (setB s R.PAIR_HB_P1_OK false) { s.pair with n1 := 0 }
        (getB s R.PAIR_HB_P2_OK = true → getB s R.PAIR_HB_DEGRADED = false → exec (.hbPathSilent 1) s =
          .next (level (unitErr (setB (setPair s1 { s1.pair with degPath := 1 }) R.PAIR_HB_DEGRADED true) .pair 0 0x0D13) .pair 0 2 true)) ∧
        (getB s R.PAIR_HB_P2_OK = false →
          let s2 := healthFrom (setF s1 R.PAIR_ROLE_PARTNER 7) false
          exec (.hbPathSilent 1) s = .next (if role s2 = 1 ∨ role s2 = 3 then hsTake s2 else s2)))) ∧
    (getB s R.PAIR_ROLE_LISTEN = false → exec .listenWindowEnd s = .next s) ∧
    (getB s R.PAIR_ROLE_LISTEN = true → s.pair.listenTo ≤ now s → getF (listenOver s) R.SYS_BOOT_STEP ≠ 7 →
      exec .listenWindowEnd s = .next (listenOver s)) ∧
    (∀ lvl, claimKind s = none → exec (.claim lvl) s = .next s) ∧
    (∀ k lvl, claimKind s = some k → getB s R.PAIR_ILK_IN_CLEAR = true → getB s R.PAIR_MISMATCH_SIDE = false → keyPos s < 2 →
      s.pair.ownWait = false →
      let s1 := ilkLevel (raiseEpoch s) lvl
      (lvl ≠ 1 → k ≠ 2 → exec (.claim lvl) s = .next (takeOwn (setIlkOut s1 true) k)) ∧
      (lvl ≠ 1 → k = 2 → exec (.claim lvl) s = .next (takeover (setIlkOut s1 true))) ∧
      (lvl = 1 → getB s1 R.PAIR_ROLE_SIDE = true → exec (.claim lvl) s = .next s1) ∧
      (lvl = 1 → getB s1 R.PAIR_ROLE_SIDE = false → exec (.claim lvl) s =
        .next (setIlkOut (setPair s1 { s1.pair with ownWait := true, claim := some k }) true))) ∧
    (let s1 := setB (setB s R.PAIR_ILK_IN true) R.PAIR_ILK_IN_CLEAR false
     getB s1 R.PAIR_CFG_PAIRED = true → exec (.ilkInChange 1) s = .next (pathUpdate s1)) ∧
    (let s1 := ilkLevel s 0
     getB s1 R.PAIR_CFG_PAIRED = true → (pathUpdate s1).pair.ownWait = true → ∀ k, (pathUpdate s1).pair.claim = some k →
      exec (.ilkInChange 0) s = .next (ownBy (pathUpdate s1) k)) ∧
    (takeoverDue s = false → ∀ lvl, exec (.takeover lvl) s = .next s) ∧
    (takeoverDue s = true → ∀ lvl,
      let s1 := ilkLevel (raiseEpoch s) lvl
      (lvl ≠ 1 → exec (.takeover lvl) s = .next (takeover (setIlkOut s1 true))) ∧
      (lvl = 1 → getB s1 R.PAIR_ROLE_SIDE = true → exec (.takeover lvl) s = .next s1) ∧
      (lvl = 1 → getB s1 R.PAIR_ROLE_SIDE = false → exec (.takeover lvl) s =
        .next (setIlkOut (setPair s1 { s1.pair with ownWait := true, claim := some 2 }) true))) ∧
    (role s ≠ 1 → exec .abdication s = .next s ∧
      exec .switchover s = .next (setF (setF s R.PAIR_CMD_RES_CODE 0x0D1C) R.PAIR_CMD_RES_OP 1)) ∧
    (role s = 1 → s.pair.abdAt = none →
      let new := abdBits s &&& (0x1F ^^^ s.pair.seen)
      let s1 := setPair s { s.pair with seen := abdBits s }
      (new = 0 → exec .abdication s = .next s1) ∧
      (∀ i, i < 5 → bitOf new i = true → (∀ j, j < i → bitOf new j = false) → healthyStandby s1 = true →
        exec .abdication s = .next (setPair s1 { s1.pair with abd := some (i + 1) })) ∧
      (new ≠ 0 → healthyStandby s1 = false → exec .abdication s = .next (recCond s1 0x0D14 0 0 (leBytes 1 new)))) ∧
    (role s = 1 → healthyStandby s = false →
      exec .switchover s = .next (setF (setF s R.PAIR_CMD_RES_CODE 0x0D14) R.PAIR_CMD_RES_OP 1)) ∧
    (role s = 1 → healthyStandby s = true → exec .switchover s =
      .next (setPair (setF (setF s R.PAIR_CMD_RES_CODE 0x0D00) R.PAIR_CMD_RES_OP 1) { s.pair with planned := some (0, 0) })) ∧
    (let ok := setF (setF s R.PAIR_CMD_RES_CODE 0x0D00) R.PAIR_CMD_RES_OP 2
     (role s = 0 ∨ role s = 4 → exec .resync s = .next (setF (setF s R.PAIR_CMD_RES_CODE 0x0D1C) R.PAIR_CMD_RES_OP 2)) ∧
     (role s = 1 → exec .resync s = .next (ctrlSend ok .resyncReq)) ∧
     (role s = 2 ∨ role s = 3 → exec .resync s = .next (resyncStart (setRole ok 2 0x0D00)))) ∧
    (let s2 := setPair (setF (setF s R.PAIR_CMD_RES_CODE 0x0D00) R.PAIR_CMD_RES_OP 3)
       { s.pair with ctrlTx := s.pair.ctrlTx ++ [.hsMove] }
     role s = 1 ∨ role s = 3 →
      (getB s R.PAIR_SYNC_LINK = false →
        exec .hsMove s = .next (setF (setF s R.PAIR_CMD_RES_CODE 0x0D1C) R.PAIR_CMD_RES_OP 3)) ∧
      (getB s R.PAIR_SYNC_LINK = true → exec .hsMove s = .next (if getB s2 R.PAIR_ROLE_HS_OWN then hsGive s2 else hsTake s2))) ∧
    (s.pair.settle = none → exec .hsSettleExpiry s = .next s) ∧
    (∀ t, s.pair.settle = some t → getF s R.PAIR_ROLE_SIDE = getF s R.PAIR_CFG_HS_PREF → getB s R.PAIR_ROLE_HS_OWN = false →
      t + getF s R.PAIR_CFG_HS_SETTLE * 1000000000 ≤ tickNs s →
      exec .hsSettleExpiry s = .next (hsTake (setPair s { s.pair with ctrlTx := s.pair.ctrlTx ++ [.hsMove] }))) ∧
    (s.pair.abdAt = none → exec .abdicateIlkDrop s = .next s) ∧
    (∀ d, (s.pair.abdAt = some (d, false) → exec .abdicateIlkDrop s = .next (leaveOwner s (if keyPos s ≥ 2 then 4 else 2) 0x0D1F)) ∧
      (s.pair.abdAt = some (d, true) → snapF s < d → now s < d + 500000 → exec .abdicateIlkDrop s = .next s) ∧
      (s.pair.abdAt = some (d, true) → d + 500000 ≤ now s →
        exec .abdicateIlkDrop s = .next (leaveOwner s (if keyPos s ≥ 2 then 4 else 2) 0x0D1F)))

/-- Two claims cannot both hold the output path: while ILK_IN is asserted, a claim or a takeover of this module leaves its
OUTPATH as the interlock has it, and a takeover is not made within 10 µs of ILK_IN clearing. -/
def Obligations.OutputPathFollowsTheInterlock : Prop :=
  ∀ s : State,
    (getB (pathUpdate s) R.PAIR_ROLE_OUTPATH = true →
      getB s R.PAIR_CFG_PAIRED = true ∧ getB s R.PAIR_ILK_OUT = true ∧ getB s R.PAIR_ILK_IN = false) ∧
    (getB s R.PAIR_ILK_IN_CLEAR = false ∨ tickNs s < s.pair.clearAt + 10000 → ∀ lvl, exec (.takeover lvl) s = .next s)

/-! ## Time and CAN -/

/-- The calls to TIME. Hypotheses name the call, the byte of the operation and the operands as the engine reads them: a list
or a periodic schedule arms a timed output or is refused as malformed, too soon, unordered, unusable or already occupied;
CANCEL leaves nothing pending at IDLE_LVL; TCREAD empties a FIFO oldest first; OFFSET hands the servo its sample; ALARM arms
and cancels. Instants of time: an alarm enters its entry and is armed again by its period, an armed edge appears at its pin
and a capture, each after the releases and samples of the edge (`samples s`, log entry 21), is stamped and queued or
dropped, a step that waits is made at once where it may or at its C2 output deadline, a source that falls silent is dropped,
holdover ends, and a read of NOW_SEC_LO latches the four words. -/
def Obligations.TimeCallsAndInstants : Prop :=
  (∀ (s s1 : State) (c : Call) (n op : Nat),
     (timeCall s n 0 (fun x => x == 0 || decide (x > 2)) = some (c, op, s1) → ∀ mode cnt b s2 s3 s4,
       dsc s1 c 1 1 = (mode, s2) → dsc s2 c 2 2 = (cnt, s3) → engRd s3 (c.addr + 0x18) (16 * min cnt 16) = (b, s4) →
       (2 < op ∨ 1 < mode ∨ cnt = 0 ∨ 16 < cnt → exec (.tpedgeList n) s = .next (complete s4 c 0x1B 0)) ∧
       (op ≤ 2 → mode ≤ 1 → cnt = 1 →
         let e := (leNat (b.take 8), leNat ((b.drop 8).take 1) % 2 == 1)
         let v := getTp s4 n
         let keep := if mode = 1 then tpKeep v e.1 else v.edges
         let gap := if tpRouted s4 n then 100000 else 16
         (e.1 < c.since + 2000 → exec (.tpedgeList n) s = .next (complete s4 c 0x10 0)) ∧
         (c.since + 2000 ≤ e.1 → rising gap ((keep ++ [e]).map Prod.fst) = false →
           exec (.tpedgeList n) s = .next (complete s4 c 0x11 0)) ∧
         (c.since + 2000 ≤ e.1 → rising gap ((keep ++ [e]).map Prod.fst) = true →
           (mode = 0 ∧ v.per.isSome = true ∨ 16 ≤ keep.length → exec (.tpedgeList n) s = .next (complete s4 c 0x13 0)) ∧
           (mode = 1 ∨ v.per = none → keep.length < 16 → exec (.tpedgeList n) s =
             .next (complete (setTp s4 n { v with edges := keep ++ [e], per := none, k := 0 }) c 0 0))))) ∧
     (timeCall s n 0 (fun x => x == 1) = some (c, op, s1) → ∀ mode cnt st p h s2 s3 s4 s5 s6,
       dsc s1 c 1 1 = (mode, s2) → dsc s2 c 2 2 = (cnt, s3) → dsc s3 c 8 8 = (st, s4) → dsc s4 c 16 4 = (p, s5) →
       dsc s5 c 20 4 = (h, s6) →
       let v := getTp s6 n
       let keep := if mode = 1 then tpKeep v st else v.edges
       let ok := rising (if tpRouted s6 n then 100000 else 16) (keep.map Prod.fst ++ [st])
       (1 < mode → exec (.tpedgePeriodic n) s = .next (complete s6 c 0x1B 0)) ∧
       (mode ≤ 1 → st < c.since + 2000 → exec (.tpedgePeriodic n) s = .next (complete s6 c 0x10 0)) ∧
       (mode ≤ 1 → c.since + 2000 ≤ st → ok = false → exec (.tpedgePeriodic n) s = .next (complete s6 c 0x11 0)) ∧
       (mode ≤ 1 → c.since + 2000 ≤ st → ok = true →
         (p < 32 ∨ h < 16 ∨ p ≤ h + 16 → exec (.tpedgePeriodic n) s = .next (complete s6 c 0x12 0)) ∧
         (200000 ≤ p → 16 ≤ h → h + 16 < p → (mode = 1 ∨ v.per = none) → exec (.tpedgePeriodic n) s =
           .next (complete (setTp s6 n { edges := keep, per := some (st, p, h, cnt), k := 0 }) c 0 0)))) ∧
     (timeCall s n 0 (fun x => x == 2) = some (c, op, s1) → ∀ mode s2, dsc s1 c 1 1 = (mode, s2) →
       (1 < mode → exec (.tpedgeCancel n) s = .next (complete s2 c 0x1B 0)) ∧
       (mode ≤ 1 → exec (.tpedgeCancel n) s =
         .next (complete (tpLevel (setTp s2 n {}) n (getB s2 R.TIME_TP_CFG_IDLE_LVL 0 n)) c 0 0))) ∧
     (timeCall s n 1 (fun _ => true) = some (c, op, s1) → ∀ mx s2, dsc s1 c 0 2 = (mx, s2) →
       (mx = 0 ∨ 16 < mx → exec (.tcread n) s = .next (complete s2 c 0x1B 0)) ∧
       (∀ t lvl rest, 0 < mx → mx ≤ 16 → (getTc s2 n).take mx = [(t, lvl)] → (getTc s2 n).drop mx = rest → exec (.tcread n) s =
         .next (complete (setTc (wrBs (dscOut s2 c 2 2 (if lvl then 1 else 0)) (c.addr + 0x18) (leBytes 8 t)) n rest) c 0 1)) ∧
       (0 < mx → mx ≤ 16 → getTc s2 n = [] →
         exec (.tcread n) s = .next (complete (setTc (dscOut s2 c 2 2 0) n []) c 0 0))) ∧
     (timeCall s 0 2 (fun _ => true) = some (c, op, s1) → ∀ th st s2 s3, dsc s1 c 0 8 = (th, s2) → dsc s2 c 8 8 = (st, s3) →
       let use := getF s1 R.TIME_STATE_SRC == 3
       (use = false → srcPri s3 3 = 0 ∨ (getSrc s3 3).valid = true → exec .offset s = .next (complete s3 c 0x16 0)) ∧
       (use = true ∨ (srcPri s3 3 ≠ 0 ∧ (getSrc s3 3).valid = false) →
         (st + 1000000000 < c.since → exec .offset s = .next (complete s3 c 0x17 0)) ∧
         (c.since ≤ st + 1000000000 →
           (∀ t, s3.time.prgAt = some t → c.since < t + 10000000 → exec .offset s = .next (complete s3 c 0x18 0)) ∧
           (s3.time.prgAt = none ∨ (∃ t, s3.time.prgAt = some t ∧ t + 10000000 ≤ c.since) → exec .offset s = .next
             (complete (timeSample { s3 with time := { s3.time with prgAt := some c.since } } 3 (sint 64 th * 65536)) c 0 0))))) ∧
     (timeCall s n 3 (fun x => x != 1) = some (c, op, s1) → ∀ t p s2 s3, dsc s1 c 8 8 = (t, s2) → dsc s2 c 16 4 = (p, s3) →
       (1 < op → exec (.alarmArm n) s = .next (complete s3 c 0x1B 0)) ∧
       (op = 0 → hasTask s3 7 = false → exec (.alarmArm n) s = .next (complete s3 c 0x15 0)) ∧
       (op = 0 → hasTask s3 7 = true →
         (t < c.since + 2000 → exec (.alarmArm n) s = .next (complete s3 c 0x14 0)) ∧
         (c.since + 2000 ≤ t → exec (.alarmArm n) s = .next (complete (setAlarm s3 n (some (t, p))) c 0 0)))) ∧
     (timeCall s n 3 (fun x => x == 1) = some (c, op, s1) →
       exec (.alarmCancel n) s = .next (complete (setAlarm s1 n none) c 0 0))) ∧
  (∀ (s : State) (n : Nat),
     (let u := samples s
      (mget u.time.alarms n none = none → exec (.alarmExpiry n) s = .next u) ∧
      (∀ t p, mget u.time.alarms n none = some (t, p) → (now u < t → exec (.alarmExpiry n) s = .next u) ∧
       (t ≤ now u → p = 0 → exec (.alarmExpiry n) s = .next (setAlarm (alarmEntry u n t) n none)) ∧
       (t ≤ now u → p ≠ 0 → exec (.alarmExpiry n) s = .next (setAlarm (alarmEntry u n t) n (some (t + p * 1000, p)))))) ∧
     (let u := samples s
      (tpNext (getTp u n) = none → exec (.tpEdgeOut n) s = .next u) ∧
      (∀ t lvl, tpNext (getTp u n) = some (t, lvl) → (now u < t → exec (.tpEdgeOut n) s = .next u) ∧
       (t ≤ now u → n < 4 → exec (.tpEdgeOut n) s = .next (tpTake u n)))) ∧
     (∀ lvl, n < 4 →
       let s1 := setB (samples s) R.TIME_TC_STAT_LEVEL lvl 0 n
       let on := bitOf (getF (samples s) R.TIME_TC_CFG_EDGE 0 n) (if lvl then 0 else 1)
       (on = false → exec (.tcCapture n lvl) s = .next s1) ∧
       (on = true → (getTc s1 n).length < 16 → exec (.tcCapture n lvl) s = .next (setTc s1 n (getTc s1 n ++ [(now (samples s), lvl)]))) ∧
       (on = true → 16 ≤ (getTc s1 n).length → exec (.tcCapture n lvl) s =
         .next (latch (unitErrAt (incF s1 R.TIME_TC_STAT_DROPPED 0 n) .time 0 0x0E19 n []) .time 0 128))) ∧
     (s.time.step = none → exec .timeStep s = .next s) ∧
     (∀ d t, s.time.step = some (d, t) → stepFree s = true → exec .timeStep s = .next (doStep s d)) ∧
     (∀ d t, s.time.step = some (d, t) → stepFree s = false → now s ≤ t ∨ reaches s (period s 2) s.tl.tGuard = false →
       exec .timeStep s = .next s) ∧
     (∀ d t d2 t2, s.time.step = some (d, t) → stepFree s = false → t < now s → reaches s (period s 2) s.tl.tGuard = true →
       (launches s).time.step = some (d2, t2) → exec .timeStep s = .next (doStep (launches s) d2)) ∧
     (∀ k t, 1 ≤ k → k ≤ 3 → (getSrc s k).at_ = some t →
       (now s < t + srcTmo s k → exec (.sourceTimeout k) s = .next s) ∧
       (t + srcTmo s k ≤ now s → let s1 := setSrc s k {}
         (getF s1 R.TIME_STATE_SRC ≠ k → exec (.sourceTimeout k) s = .next s1) ∧
         (getF s1 R.TIME_STATE_SRC = k → bestSrc s1 ≠ 0 → exec (.sourceTimeout k) s = .next (useSrc s1 (bestSrc s1))) ∧
         (getF s1 R.TIME_STATE_SRC = k → bestSrc s1 = 0 → servo (useSrc s1 0) = 2 →
           exec (.sourceTimeout k) s = .next (enterServo (useSrc s1 0) 3)))) ∧
     (servo s ≠ 3 → exec .holdoverTimeout s = .next s) ∧
     (servo s = 3 → s.time.holdAt + getF s R.TIME_HOLD_CFG_HOLD_TMO * 1000000000 ≤ now s →
       exec .holdoverTimeout s = .next (enterServo s 0)) ∧
     exec .nowSecLoRead s = .next (setF (setF (setF (setF s R.TIME_NOW_SEC_LO_VAL s.sec) R.TIME_NOW_SEC_HI_VAL (s.sec / 2 ^ 32))
       R.TIME_NOW_NS_VAL s.ns) R.TIME_NOW_FRAC_VAL s.frac))

/-- PTP on a port. Messages of another domain, on a port that runs no PTP or outside the supported subset are discarded and
counted, under P2P a Delay_Resp too; the slave port takes Sync of its parent, Follow_Up and Delay_Resp, a Follow_Up with its
Sync and a known delay gives a sample; a master port answers a Delay_Req and sends Sync, Follow_Up and Announce; Pdelay
measures a link. -/
def Obligations.PtpMessages : Prop :=
  ∀ (s : State) (p : Nat) (m : PtpMsg),
    (ptpTakes s p m = false → ∀ i ∈ [Instr.ptpSyncRx p m, .ptpFollowUpRx p m, .ptpDelayRespRx p m, .ptpPdelayRx p m,
      .ptpAnnounceRx p m, .ptpDelayReqRx p m], exec i s = .next (incF s R.TIME_PTP_CNT_DISC)) ∧
    (ptpTakes s p m = true →
      (m.twoStep = false → exec (.ptpSyncRx p m) s = .next (incF s R.TIME_PTP_CNT_DISC)) ∧
      (m.twoStep = true → ptpState s p ≠ 9 → exec (.ptpSyncRx p m) s = .next s) ∧
      (m.twoStep = true → (erBest s p).any (fun x => x.src == m.src && x.srcPort == m.srcPort) = false →
        exec (.ptpSyncRx p m) s = .next s) ∧
      (getB s R.TIME_PTP_CFG_DELAY = true → exec (.ptpDelayRespRx p m) s = .next (incF s R.TIME_PTP_CNT_DISC)) ∧
      (m.twoStep = true → ptpState s p = 9 → (erBest s p).any (fun x => x.src == m.src && x.srcPort == m.srcPort) = true →
        exec (.ptpSyncRx p m) s = .next (setPtp s p { getPtp s p with sync := some (m, now s) })) ∧
      ((getPtp s p).sync = none → exec (.ptpFollowUpRx p m) s = .next s) ∧
      (∀ y t2 d, (getPtp s p).sync = some (y, t2) → ptpState s p = 9 → y.seq = m.seq → y.src = m.src → y.srcPort = m.srcPort →
        let ms : Int := (((t2 : Int) - (m.ts : Int)) * 65536) - y.corr - m.corr
        let s1 := setPtp s p { getPtp s p with sync := none, ms := some ms }
        ((getPtp s p).dly = none → exec (.ptpFollowUpRx p m) s = .next s1) ∧
        ((getPtp s p).dly = some d → exec (.ptpFollowUpRx p m) s = .next (timeSample s1 1 (ms - d)))) ∧
      (∀ q t3 ms, (getPtp s p).req = some (q, t3) → (getPtp s p).ms = some ms → m.own = true → q = m.seq →
        getB s R.TIME_PTP_CFG_DELAY = false →
        let sm : Int := ((m.ts : Int) - (t3 : Int)) * 65536 - m.corr
        exec (.ptpDelayRespRx p m) s = .next (ptpDelay (setPtp s p { getPtp s p with req := none }) p ((ms + sm) / 2))) ∧
      (m.kind = 4 → getB s R.TIME_PTP_CFG_DELAY = true → exec (.ptpPdelayRx p m) s = .next (setPtp s p { getPtp s p with
        tx := [{ ownMsg s p 5 m.seq (now s) with own := false }, ownMsg s p 6 m.seq (now s)] })) ∧
      (m.src = s.time.clockId ∨ 255 ≤ m.steps → exec (.ptpAnnounceRx p m) s = .next s) ∧
      (m.src ≠ s.time.clockId → m.steps < 255 → (getPtp s p).foreign = [] → exec (.ptpAnnounceRx p m) s =
        .next (ptpDecide (setPtp s p { getPtp s p with foreign := [{ ann := m, n := 1, at_ := now s }] }))) ∧
      (getB s R.TIME_PTP_CFG_DELAY = false → ptpState s p = 6 → exec (.ptpDelayReqRx p m) s =
        .next (setPtp s p { getPtp s p with tx := [{ ownMsg s p 3 m.seq (now s) with corr := m.corr }] }))) ∧
    (let t := ptpDecide s
     let v := getPtp t p
     (ptpOn t p = false ∨ ptpState t p ≠ 6 → exec (.ptpSyncTx p) s = .next t ∧ exec (.ptpAnnounceTx p) s = .next t) ∧
     (ptpOn t p = true → ptpState t p = 6 →
       exec (.ptpSyncTx p) s = .next (ptpSend (setPtp t p { v with seqSync := (v.seqSync + 1) % 65536 }) p
         [ownMsg t p 0 v.seqSync 0, ownMsg t p 1 v.seqSync (now t)]) ∧
       (ptpState t (1 - p) ≠ 9 → exec (.ptpAnnounceTx p) s =
         .next (ptpSend (setPtp t p { v with seqAnn := (v.seqAnn + 1) % 65536 }) p [{ ownAnn t with
           kind := 7, tr := getF t R.TIME_PTP_CFG_TRANSPORT, dom := getF t R.TIME_PTP_CFG_DOMAIN, seq := v.seqAnn, src := t.time.clockId, srcPort := p + 1 }])))) ∧
    (ptpOn s p = false → exec (.ptpDelayReqTx p) s = .next s) ∧
    (ptpOn s p = true → ptpState s p = 9 → getB s R.TIME_PTP_CFG_DELAY = false →
      let v := getPtp s p
      let v1 := { v with seqReq := (v.seqReq + 1) % 65536, req := some (v.seqReq, now s), presp := none }
      exec (.ptpDelayReqTx p) s = .next (ptpSend (setPtp s p v1) p [ownMsg s p 2 v.seqReq 0]))

/-- The calls to a CAN channel. `s1` is the state without the call, and the operands are those the engine reads: a TX frame
enters the FIFO, an EXPRESS frame its mailbox, superseding what was there; both are refused as invalid or to a sleeping
channel; ABORT of an unknown ticket is refused and of a FIFO frame not in transmission removes it; RXREAD moves frames
oldest first; SLEEP waits for its confirmation, and its OP 1 for the wake. The bus and the counters: the frame selected at
arbitration, the three ends of an attempt, reception through the filters into the FIFO or the overflow count, the error
counters, bus-off and its end, sleep and wake, integration, and the snapshot pairs. -/
def Obligations.CanChannels : Prop :=
  (∀ (s s1 : State) (c : Call) (k : Nat),
     (takeCall s 5 k 0 = some (c, s1) → ∀ f m s2, canOperand s1 c = (f, m, s2) →
       (canFrameBad s2 k f = true → exec (.canTx k) s = .next (complete s2 c 0x14 0)) ∧
       (canFrameBad s2 k f = false → getB s2 R.CAN_C_ERR_ASLEEP k = true → exec (.canTx k) s = .next (complete s2 c 0x18 0)) ∧
       (canFrameBad s2 k f = false → getB s2 R.CAN_C_ERR_ASLEEP k = false → exec (.canTx k) s =
         .next (setCan s2 k { getCan s2 k with fifo := (getCan s2 k).fifo ++ [{ call := c, frame := f }] }))) ∧
     (takeCall s 5 k 1 = some (c, s1) → ∀ f m s2, canOperand s1 c = (f, m, s2) →
       (3 < m → exec (.express k) s = .next (complete s2 c 0x1B 0)) ∧
       (m ≤ 3 → canFrameBad s2 k f = true → exec (.express k) s = .next (complete s2 c 0x14 0)) ∧
       (m ≤ 3 → canFrameBad s2 k f = false → getB s2 R.CAN_C_ERR_ASLEEP k = false →
         let v := getCan s2 k
         let s3 := setCan s2 k { v with mbox := mput none v.mbox m (some { call := c, frame := f }) }
         (v.cur = some (some m) → exec (.express k) s = .next (complete s2 c 0x12 0)) ∧
         (v.cur ≠ some (some m) → mget v.mbox m none = none → exec (.express k) s = .next s3) ∧
         (∀ old, v.cur ≠ some (some m) → mget v.mbox m none = some old →
           exec (.express k) s = .next (complete s3 old.call 7 0)))) ∧
     (takeCall s 5 k 2 = some (c, s1) → ∀ t s2, dsc s1 c 0 4 = (t, s2) →
       (canFind (getCan s2 k) t = none → exec (.canAbort k) s = .next (complete s2 c 0x13 0)) ∧
       (∀ i x, canFind (getCan s2 k) t = some (none, i, x) → (getCan s2 k).cur ≠ some none → exec (.canAbort k) s =
         .next (complete (complete (setCan s2 k { getCan s2 k with fifo := (getCan s2 k).fifo.eraseIdx i }) x.call 8 0) c 0 0))) ∧
     (takeCall s 5 k 3 = some (c, s1) → ∀ mx s2, dsc s1 c 0 2 = (mx, s2) →
       (mx = 0 ∨ 16 < mx → exec (.rxread k) s = .next (complete s2 c 0x1B 0)) ∧
       (1 ≤ mx → mx ≤ 16 →
         let l := (getCan s2 k).rx.take mx
         let s3 := setCan s2 k { getCan s2 k with rx := (getCan s2 k).rx.drop mx }
         exec (.rxread k) s = .next (complete (wrBs s3 (c.addr + 0x18) (l.flatMap canRecord)) c 0 l.length))) ∧
     (takeCallIf s 5 k 4 0 1 (fun op => op != 1) = some (c, s1) → ∀ op s2, dsc s1 c 0 1 = (op, s2) →
       (1 < op → exec (.canSleep k) s = .next (complete s2 c 0x1B 0)) ∧
       (op = 0 → getB s2 R.CAN_C_ERR_ASLEEP k = true → exec (.canSleep k) s = .next (complete s2 c 0 0)) ∧
       (op = 0 → getB s2 R.CAN_C_ERR_ASLEEP k = false →
         ((getCan s2 k).fifo ≠ [] → exec (.canSleep k) s = .next (complete s2 c 0x17 0)) ∧
         ((getCan s2 k).fifo = [] → mbxBits (getCan s2 k) = 0 → exec (.canSleep k) s =
           .next (setCan s2 k { getCan s2 k with sleep := (getCan s2 k).sleep ++ [c] })))) ∧
     (takeCallIf s 5 k 4 0 1 (fun op => op == 1) = some (c, s1) →
       (getB s1 R.CAN_C_ERR_ASLEEP k = false → exec (.canWakeLocal k) s = .next (complete s1 c 0 0)) ∧
       (getB s1 R.CAN_C_ERR_ASLEEP k = true → (getCan s1 k).waking = true → exec (.canWakeLocal k) s =
         .next (setCan s1 k { getCan s1 k with waking := true, wake := (getCan s1 k).wake ++ [c] })))) ∧
  (∀ (s : State) (k : Nat), k < 4 →
     (canMaySend s k = false → exec (.canArbitration k) s = .next s) ∧
     (canMaySend s k = true → (getCan s k).cur = none →
       (canSelect (getCan s k) = none → exec (.canArbitration k) s = .next s) ∧
       (canSelect (getCan s k) = some none →
         let q := (getCan s k).fifo.modify 0 (fun x => { x with n := x.n + 1 })
         exec (.canArbitration k) s = .next (setCan s k { getCan s k with cur := some none, sof := canCount s, fifo := q }))) ∧
     (canCur (getCan s k) = none → ∀ e, exec (.canTxDone k e) s = .next s) ∧
     (∀ x w, canCur (getCan s k) = some (x, w) →
       let v := getCan s k
       exec (.canTxDone k .lost) s = .next (canFail s k) ∧
       exec (.canTxDone k (.err true false)) s = .next (canFail (canErrs s k (v.tec + 8) v.rec_) k) ∧
       (let s1 := dscOut (canErrs (setCan s k w) k (v.tec - 1) v.rec_) x.call 8 4 v.sof
        exec (.canTxDone k .ok) s = .next (completeAll (complete s1 x.call 0 (min 32767 x.n)) x.abort 0x13))) ∧
     (∀ f ago, (f.fdf = false ∨ (f.rtr = false ∧ getB s R.CAN_C_CFG_FD_EN k = true)) → canLenOk f.fdf f.len = true →
       getB s R.CAN_C_CFG_LISTEN k = false → getB s R.CAN_C_CFG_REST k = false →
       f.id < 2048 → (getCan s k).rec_ ≤ 127 → canOwnId (canErrs s k (getCan s k).tec ((getCan s k).rec_ - 1)) k f = false →
       let s1 := canErrs s k (getCan s k).tec ((getCan s k).rec_ - 1)
       (canOnBus s k = false → exec (.canFrameRx k f ago) s = .next s) ∧
       (canOnBus s k = true →
         (canFilter s1 k f = none → exec (.canFrameRx k f ago) s = .next (incF s1 R.CAN_C_CNT_NOMATCH k)) ∧
         (∀ i, canFilter s1 k f = some i →
           (getB s1 R.CAN_C_FMASK_ACT k i = true → exec (.canFrameRx k f ago) s = .next s1) ∧
           (getB s1 R.CAN_C_FMASK_ACT k i = false →
             (256 ≤ (getCan s1 k).rx.length → exec (.canFrameRx k f ago) s =
               .next (latch (unitErr (incF s1 R.CAN_C_CNT_OVF k) .canCh k 0x0F16) .canCh k 8)) ∧
             ((getCan s1 k).rx.length < 256 →
               let r : CanRx := { frame := f, filter := i, conflict := false
                                  stamp := (canCount s1 + 2 ^ 32 - ago % 2 ^ 32) % 2 ^ 32 }
               exec (.canFrameRx k f ago) s =
                 .next (latch (setCan s1 k { getCan s1 k with rx := (getCan s1 k).rx ++ [r] }) .canCh k 32)))))) ∧
     (inRun s .canCh k = true → getF s R.CAN_C_ERR_STATE k = 2 → exec (.busOffRecovery k) s = .next (canErrClear s k)) ∧
     (getF s R.CAN_C_ERR_STATE k ≠ 2 → exec (.busOffRecovery k) s = .next s) ∧
     (inRun s .canCh k = true → (getCan s k).sleep ≠ [] → exec (.canSleepConfirmed k) s =
       .next (completeAll (setB (setCan s k { getCan s k with sleep := [] }) R.CAN_C_ERR_ASLEEP true k) (getCan s k).sleep 0)) ∧
     (inRun s .canCh k = true → getB s R.CAN_C_ERR_ASLEEP k = true → (getCan s k).waking = false → ∀ e,
       (wakeCause s k e = none → exec (.canWake k e) s = .next s) ∧
       (∀ w, wakeCause s k e = some w → exec (.canWake k e) s =
         .next (latch (setCan (canWakeNote s k w) k { getCan s k with waking := true }) .canCh k 16))) ∧
     (stOf s .canCh k = 1 → getB s (hBusy .canCh) k = true →
       let s1 := setF (setSt s .canCh k 2) (hBusy .canCh) 0 k
       let s2 := setCan s1 k { getCan s1 k with rx := [] }
       exec (.canBusIntegrated k) s = .next (setB (canErrClear s2 k) R.CAN_C_CFG_REST (!outPath s2) k)) ∧
     (stOf s .canCh k = 2 → (getCan s k).waking = true → exec (.canBusIntegrated k) s = .next (completeAll (setB (setCan s k
       { getCan s k with waking := false, wake := [] }) R.CAN_C_ERR_ASLEEP false k) (getCan s k).wake 0)) ∧
     (canOnBus s k = true → getB s R.CAN_C_CFG_LISTEN k = false → getB s R.CAN_C_CFG_REST k = false →
       exec (.canBusError k 0) s = .next (canErrs s k (getCan s k).tec (min 135 ((getCan s k).rec_ + 1))) ∧
       exec (.canBusError k 1) s = .next (canErrs s k (getCan s k).tec (min 135 ((getCan s k).rec_ + 8))) ∧
       exec (.canBusError k 2) s = .next (canErrs s k ((getCan s k).tec + 8) (getCan s k).rec_)) ∧
     (reaches s 100000000 0 = true → undone s 2048 = true →
       let s1 := { s with done := mput 0 s.done 2048 (s.ticks + 1) }
       exec .canSnapshot s = .next (setF { s1 with
         can := { s.can with p1 := (canCount s1, now s), p0 := some s.can.p1 } } R.CAN_SNAP_CNT1_VAL (canCount s1))) ∧
     (reaches s 100000000 0 = false → exec .canSnapshot s = .next s) ∧
     (let q := s.can.p0.getD (0, 0)
      let s1 := setF (setF s R.CAN_SNAP_T1_LO_VAL s.can.p1.2) R.CAN_SNAP_T1_HI_VAL (s.can.p1.2 / 2 ^ 32)
      exec .snapCnt1Read s = .next (setF (setF (setF s1 R.CAN_SNAP_CNT0_VAL q.1) R.CAN_SNAP_T0_LO_VAL q.2)
        R.CAN_SNAP_T0_HI_VAL (q.2 / 2 ^ 32))))

/-! ## Host, recorder, panel, power -/

/-- Ports and sessions: links and their levels, frames for services that a port does not offer and the answers to ARP and
ICMP echo, a connection that is not for management, that is refused, fails to authenticate or opens a session, and the ends
of sessions and of blocks. That a connection without TLS 1.3 is no failed authentication is the model's choice (log entry
140). The Modbus server, the answer to a relayed write that fails to come, and IEC 61162-450 datagrams. A closed server does
not answer and counts what comes while it is switched off; a function code that it does not have is exception 1 (log entry
141), a length outside a function's limit 3, an address of no point 2, a write with the gate shut 4. -/
def Obligations.SessionsAndServers : Prop :=
  (∀ (s : State) (n : Nat), n < 4 →
     (getB s R.HOST_Pn_LINK_UP 0 n = true → exec (.hostLinkDown n) s =
       .next (portLevel (incF (setB s R.HOST_Pn_LINK_UP false 0 n) R.HOST_Pn_LINK_DOWNS 0 n))) ∧
     exec (.hostLinkUp n) s = .next (portLevel (setB s R.HOST_Pn_LINK_UP true 0 n)) ∧
     (∀ svc, getB s R.HOST_Pn_CFG_EN 0 n = true →
       (offers s n svc = false → exec (.hostFrameRx n svc) s = .next (incF s R.HOST_Pn_LINK_DISC 0 n)) ∧
       (offers s n svc = true → svc < 4 → exec (.hostFrameRx n svc) s = .next s) ∧
       (svc = 4 ∨ svc = 5 → exec (.hostFrameRx n svc) s = .next { s with host := { s.host with echo := some (n, svc) } })) ∧
     (∀ addr tls fp, let i := Instr.sessionConnect n addr tls fp
       (getB s R.HOST_Pn_CFG_EN 0 n = false → exec i s = .next s) ∧
       (getB s R.HOST_Pn_CFG_EN 0 n = true →
         (n = 3 ∨ tls.tcp ≠ getF s R.HOST_CFG_MGMT_PORT → exec i s = .next (incF s R.HOST_Pn_LINK_DISC 0 n)) ∧
         (n < 3 → tls.tcp = getF s R.HOST_CFG_MGMT_PORT →
           (tickNs s < mget s.host.blocks addr 0 ∨ tlsOk tls = false → exec i s = .next s) ∧
           (mget s.host.blocks addr 0 ≤ tickNs s → tlsOk tls = true →
             (certOk s tls = false ∨ privOf s fp = none → exec i s = .next (authFail s addr)) ∧
             (∀ p, certOk s tls = true → privOf s fp = some p →
               (3 ≤ p → n ≠ 2 → getB s R.HOST_CFG_ENG_PLANES = false → exec i s = .next s) ∧
               (p < 3 ∨ n = 2 →
                 (getF s R.HOST_CFG_MAXSESS ≤ s.host.sess.length → exec i s = .next (answer s 0 0x1018 0 [])) ∧
                 (∀ k, s.host.sess.length < getF s R.HOST_CFG_MAXSESS →
                   (List.range 8).find? (fun k => (getSess s k).priv == 0) = some k →
                   exec i s = .next (setSess s k { port := n, addr := addr, fp := fp, priv := p, last := tickNs s })))))))) ∧
     (∀ k, (getSess s k).priv = 0 → exec (.sessionClosed k) s = .next s ∧ exec (.sessionIdleClose k) s = .next s) ∧
     (∀ k, (getSess s k).priv ≠ 0 → exec (.sessionClosed k) s = .next (sessClose s k) ∧
       ((getSess s k).last + 120000000000 ≤ tickNs s → exec (.sessionIdleClose k) s = .next (sessClose s k)) ∧
       (tickNs s < (getSess s k).last + 120000000000 → exec (.sessionIdleClose k) s = .next s)) ∧
     (∀ addr, mget s.host.blocks addr 0 ≠ 0 →
       (mget s.host.blocks addr 0 ≤ tickNs s → exec (.authBlockExpiry addr) s =
         .next { s with host := { s.host with blocks := mput 0 s.host.blocks addr 0 } }) ∧
       (tickNs s < mget s.host.blocks addr 0 → exec (.authBlockExpiry addr) s = .next s))) ∧
  (∀ (s : State) (conn unit fn a n v : Nat) (vs : List Nat),
     let h (f : Nat) : MbHdr := { conn := conn, unit := unit, fn := f }
     let rows := [(fun f => Instr.modbusReadCoils (h f) a n, 1), (fun f => .modbusReadDiscrete (h f) a n, 2),
       (fun f => .modbusReadHolding (h f) a n, 3), (fun f => .modbusReadInput (h f) a n, 4), (fun f => .modbusWriteCoil (h f) a v, 5),
       (fun f => .modbusWriteRegister (h f) a v, 6), (fun f => .modbusWriteMultiple (h f) a vs, 16)]
     (mbOpen s (h 0) = false → ∀ r ∈ rows, exec (r.1 fn) s = .next
       (if getB s R.HOST_Pn_CFG_EN 0 3 = true ∧ getB s R.HOST_CFG_MB_EN = false then incF s R.HOST_Pn_LINK_DISC 0 3 else s)) ∧
     (mbOpen s (h 0) = true →
       (fn ∉ ([1, 2, 3, 4, 5, 6, 16] : List Nat) → ∀ r ∈ rows, exec (r.1 fn) s = .next (mbAnswer s fn 1 [])) ∧
       (∀ r ∈ [(Instr.modbusReadCoils (h 1) a n, 1, 0, 2000), (.modbusReadDiscrete (h 2) a n, 2, 1, 2000),
           (.modbusReadHolding (h 3) a n, 3, 3, 125), (.modbusReadInput (h 4) a n, 4, 2, 125)],
         (n = 0 ∨ r.2.2.2 < n → exec r.1 s = .next (mbAnswer s r.2.1 3 [])) ∧
         (0 < n → n ≤ r.2.2.2 →
           (mbCover n s r.2.2.1 a n = none → exec r.1 s = .next (mbAnswer s r.2.1 2 [])) ∧
           (∀ l, mbCover n s r.2.2.1 a n = some l → exec r.1 s =
             .next (mbAnswer s r.2.1 0 (l.flatMap (fun p => mbWords p.2 (mget s.host.mbVals p.1 0))))))) ∧
       (v ≠ 0xFF00 → v ≠ 0 → exec (.modbusWriteCoil (h 5) a v) s = .next (mbAnswer s 5 3 [])) ∧
       (v = 0xFF00 ∨ v = 0 → exec (.modbusWriteCoil (h 5) a v) s = .next (mbWrite 5 0 a [if v = 0 then 0 else 1] s)) ∧
       (123 < vs.length ∨ vs = [] → exec (.modbusWriteMultiple (h 16) a vs) s = .next (mbAnswer s 16 3 [])) ∧
       (vs.length ≤ 123 → vs ≠ [] → exec (.modbusWriteMultiple (h 16) a vs) s = .next (mbWrite 16 3 a vs s)) ∧
       (mbCover 1 s 3 a 1 = none → exec (.modbusWriteRegister (h 6) a v) s = .next (mbAnswer s 6 2 [])) ∧
       (∀ l, mbCover 1 s 3 a 1 = some l →
         ((∃ p ∈ l, p.2.src ≠ 2 ∨ p.2.wr = false) → exec (.modbusWriteRegister (h 6) a v) s = .next (mbAnswer s 6 2 [])) ∧
         ((∀ p ∈ l, p.2.src = 2 ∧ p.2.wr = true) →
           (getB s R.HOST_MB_GATE_GATE = false → exec (.modbusWriteRegister (h 6) a v) s =
             .next (latch (unitErr (mbAnswer s 6 4 []) .host 0 0x101B) .host 0 4)) ∧
           (getB s R.HOST_MB_GATE_GATE = true → exec (.modbusWriteRegister (h 6) a v) s =
             .next (hostWait s true 0 6 (mbParts l [v])))))) ∧
     (∀ id w, s.host.waits = [w] → w.id = id →
       let s1 := { s with host := { s.host with waits := [] } }
       (tickNs s < w.at_ + 4 * period s 1 → exec (.relayTimeout id) s = .next s) ∧
       (w.at_ + 4 * period s 1 ≤ tickNs s → exec (.relayTimeout id) s =
         .next (if w.mb then mbAnswer s1 w.fn 6 []
           else answer { s1 with host := { s1.host with reqId := w.rid } } 3 0x101A 0 []))) ∧
     (∀ g hdr len tags xs,
       (getB s R.HOST_CFG_NMEA_EN = false → getB s R.HOST_Pn_CFG_EN 0 3 = true →
         exec (.nmeaDatagramRx g hdr len tags xs) s = .next (incF s R.HOST_Pn_LINK_DISC 0 3)) ∧
       (getB s R.HOST_CFG_NMEA_EN = true → hdr = false ∨ 1472 < len ∨ min 4 s.host.cfg.groups.length ≤ g →
         exec (.nmeaDatagramRx g hdr len tags xs) s = .next s) ∧
       (∀ x, xs = [x] → getB s R.HOST_CFG_NMEA_EN = true → getB s R.HOST_Pn_CFG_EN 0 3 = true → hostServes s = true →
         g < min 4 s.host.cfg.groups.length → hdr = true → len ≤ 1472 →
         exec (.nmeaDatagramRx g hdr len tags xs) s = .next (nmeaSent tags s x))))

/-- Requests on an open session: one that comes while an earlier one waits for its answer waits too; a malformed request and
one below the privilege of its operation are refused with their statuses; HELLO, READ, WRITE, LWRITE, the loads, SUBSCRIBE
and KEYSET check in the order of their rules and act. LWRITE writes its words in order up to the first that is refused, a
word outside SYS, PWR, HOST and PAIR among them, and answers with the number of words or with the refused address. `t` is
the state in which the session's idle time has begun anew and the request is the one that its answer echoes. -/
def Obligations.ManagementRequests : Prop :=
  ∀ (s : State) (k id e rsv len a n kind total slot key sig : Nat) (bs : List Byte) (on saf : Bool) (img : LoadImg),
    (getSess s k).priv ≠ 0 →
    let t0 := setSess s k { getSess s k with last := tickNs s }
    let t := { t0 with host := { t0.host with reqId := id } }
    let hd (op : Nat) : MgHead := { op := op, id := id, rsv := rsv }
    let rows := [(fun o => Instr.hello k (hd o) len, MgReq.hello, 1, 1, 0), (fun o => .read k (hd o) len a n, .read a n, 2, 1, 0),
      (fun o => .write k e (hd o) len a bs, .write a bs, 3, 2, e), (fun o => .lwrite k (hd o) len a bs, .lwrite a bs, 4, 3, 0),
      (fun o => .loadBegin k e (hd o) len kind total, .loadBegin kind total, 5, 3, e),
      (fun o => .loadData k e (hd o) len a bs, .loadData a bs, 6, 3, e), (fun o => .loadEnd k e (hd o) len sig img, .loadEnd sig img, 7, 3, e),
      (fun o => .subscribe k (hd o) len on, .subscribe on, 8, 1, 0),
      (fun o => .keyset k (hd o) len slot key saf sig, .keyset slot key saf sig, 10, 4, 0)]
    (∀ o, mgWaits s k = true ∨ (getSess s k).q ≠ [] → ∀ r ∈ rows, exec (r.1 o) s = .next (setSess s k
      { getSess s k with last := tickNs s, q := (getSess s k).q ++ [(mgHdr (hd o) r.2.2.2.2 len, r.2.1)] })) ∧
    (mgWaits s k = false → (getSess s k).q = [] →
      (∀ o, ∀ r ∈ rows, o ≠ r.2.2.1 ∨ rsv ≠ 0 ∨ 65560 < len → exec (r.1 o) s = .next (answer t o 0x1019 0 [])) ∧
      (rsv = 0 → len ≤ 65560 →
        (∀ r ∈ rows, (getSess s k).priv < r.2.2.2.1 → exec (r.1 r.2.2.1) s = .next (answer t r.2.2.1 0x1013 0 [])) ∧
        (4 ≤ (getSess s k).priv →
          exec (.hello k (hd 1) len) s = .next (answer t 1 0x1000 0 (helloData t)) ∧
          (n = 0 ∨ 65536 < n → exec (.read k (hd 2) len a n) s = .next (answer t 2 0x1019 0 [])) ∧
          (0 < n → n ≤ 65536 → exec (.read k (hd 2) len a n) s = .next (mgRead t a n)) ∧
          (wordsOk a bs = false → exec (.write k e (hd 3) len a bs) s = .next (answer t 3 0x1019 0 []) ∧
            exec (.lwrite k (hd 4) len a bs) s = .next (answer t 4 0x1019 0 [])) ∧
          (wordsOk a bs = true →
            (e ≠ roleEpoch t → exec (.write k e (hd 3) len a bs) s = .next (answer t 3 0x1010 0 [])) ∧
            (∀ u, e = roleEpoch t → owns t = true → mgWords (fun _ => true) (bs.length / 4) t a bs = (u, none) →
              exec (.write k e (hd 3) len a bs) s = .next (mgmtWrite (answer u 3 0x1000 (bs.length / 4) []) k)) ∧
            (∀ u x c, e = roleEpoch t → owns t = true → mgWords (fun _ => true) (bs.length / 4) t a bs = (u, some (x, c)) →
              exec (.write k e (hd 3) len a bs) s = .next (answer u 3 c x [])) ∧
            (e = roleEpoch t → owns t = false → hostServes t = false →
              exec (.write k e (hd 3) len a bs) s = .next (answer t 3 0x1011 0 [])) ∧
            (e = roleEpoch t → owns t = false → hostServes t = true → inData a bs.length = true →
              exec (.write k e (hd 3) len a bs) s = .next (hostWait t false k 3 [{ addr := a, data := bs }])) ∧
            (localReg a = false → exec (.lwrite k (hd 4) len a bs) s = .next (answer t 4 0x1014 a [])) ∧
            (∀ u c, localReg a = true → mgWord t a (bs.take 4) = (u, some c) →
              exec (.lwrite k (hd 4) len a bs) s = .next (answer u 4 c a [])) ∧
            (∀ u, localReg a = true → bs.length = 4 → mgWord t a (bs.take 4) = (u, none) →
              exec (.lwrite k (hd 4) len a bs) s = .next (mgmtChange (answer u 4 0x1000 1 []) k 4)) ∧
            (∀ u, mgWords localReg (bs.length / 4) t a bs = (u, none) →
              exec (.lwrite k (hd 4) len a bs) s = .next (mgmtChange (answer u 4 0x1000 (bs.length / 4) []) k 4))) ∧
          (2 < kind → exec (.loadBegin k e (hd 5) len kind total) s = .next (answer t 5 0x1019 0 [])) ∧
          (kind < 2 → e ≠ roleEpoch t → exec (.loadBegin k e (hd 5) len kind total) s = .next (answer t 5 0x1010 0 [])) ∧
          (kind < 2 → e = roleEpoch t → owns t = false → exec (.loadBegin k e (hd 5) len kind total) s = .next (answer t 5 0x1011 0 [])) ∧
          (kind = 2 ∨ (kind < 2 ∧ e = roleEpoch t ∧ owns t = true) →
            (t.host.load.isSome = true → exec (.loadBegin k e (hd 5) len kind total) s = .next (answer t 5 0x1017 0 [])) ∧
            (t.host.load = none →
              let s1 := { t with host := { t.host with load := some { sess := k, kind := kind, total := total, data := [] } } }
              let s2 := setF (setF (setF s1 R.HOST_LOAD_STATE 1) R.HOST_LOAD_KIND kind) R.HOST_LOAD_PCT 0
              exec (.loadBegin k e (hd 5) len kind total) s = .next (answer (mgmtChange s2 k 5) 5 0x1000 0 []))) ∧
          (t.host.load = none → exec (.loadData k e (hd 6) len a bs) s = .next (answer t 6 0x1017 0 []) ∧
            exec (.loadEnd k e (hd 7) len sig img) s = .next (answer t 7 0x1017 0 [])) ∧
          (∀ l, t.host.load = some l → l.kind = 2 ∨ (e = roleEpoch t ∧ owns t = true) →
            (l.sess ≠ k → exec (.loadData k e (hd 6) len a bs) s = .next (answer t 6 0x1017 0 []) ∧
              exec (.loadEnd k e (hd 7) len sig img) s = .next (answer t 7 0x1017 0 [])) ∧
            (l.sess = k → a = l.data.length → a + bs.length ≤ l.total → bs.length ≤ 65536 →
              let s1 := { t with host := { t.host with load := some { l with data := l.data ++ bs } } }
              exec (.loadData k e (hd 6) len a bs) s = .next (answer (mgmtChange
                (setF s1 R.HOST_LOAD_PCT ((l.data.length + bs.length) * 100 / max l.total 1)) k 6) 6 0x1000 0 [])) ∧
            (l.sess = k → l.data.length = l.total →
              let s1 := latch (loadEnd t) .host 0 16
              let x := withSig sig l.data img
              (imgKind img ≠ l.kind → exec (.loadEnd k e (hd 7) len sig img) s = .next (answer s1 7 0x1016 0 [])) ∧
              (imgKind img = l.kind →
                (∀ st code, loadRefusal s1 l.total sig x = some (st, code) →
                  exec (.loadEnd k e (hd 7) len sig img) s = .next (answer s1 7 st code [])) ∧
                (loadRefusal s1 l.total sig x = none →
                  exec (.loadEnd k e (hd 7) len sig img) s = .next (answer (mgmtChange (loadTake s1 sig x) k 7) 7 0x1000 0 []))))) ∧
          (hostServes t = false → exec (.subscribe k (hd 8) len on) s = .next (answer t 8 0x1011 0 [])) ∧
          (hostServes t = true → exec (.subscribe k (hd 8) len on) s =
            .next (answer (setSess t k { getSess t k with sub := on }) 8 0x1000 0 [])) ∧
          (3 < slot → exec (.keyset k (hd 10) len slot key saf sig) s = .next (answer t 10 0x1019 0 [])) ∧
          (slot ≤ 3 → keyPos t ≠ 2 → exec (.keyset k (hd 10) len slot key saf sig) s = .next (answer t 10 0x1012 0 [])) ∧
          (slot ≤ 3 → keyPos t = 2 →
            (t.mram.keys = [] → exec (.keyset k (hd 10) len slot key saf sig) s = .next (answer t 10 0x1015 0 [])) ∧
            ((∃ x ∈ t.mram.keys, x.1 ≠ slot ∧ x.2 = 1 + 2 * sig + (if saf then 1 else 0)) →
              let keys := mput 0 t.mram.keys slot (1 + 2 * key + (if saf then 1 else 0))
              let s1 := latch { t with mram := { t.mram with keys := keys } } .host 0 32
              exec (.keyset k (hd 10) len slot key saf sig) s = .next (answer (mgmtChange s1 k 10) 10 0x1000 0 []))))))

/-- The recorder: COND enters the write queue or is refused, STAT samples a declared statistic, a request is written or
folded and a COND call completes with it, an interval's record is requested at its boundary, an operating second is counted.
-/
def Obligations.RecorderCommands : Prop :=
  ∀ (s s1 : State) (c : Call),
    (takeCall s 7 0 0 = some (c, s1) → ∀ code i d s2 s3 s4, dsc s1 c 0 2 = (code, s2) → dsc s2 c 2 2 = (i, s3) →
      engRd s3 (c.addr + 0x18) 20 = (d, s4) →
      (code < 0x1180 ∨ 0x11FF < code → exec .cond s = .next (complete s4 c 0x12 0)) ∧
      (0x1180 ≤ code → code ≤ 0x11FF →
        (64 ≤ s4.recQ.length → exec .cond s = .next (complete s4 c 3 0)) ∧
        (s4.recQ.length < 64 → exec .cond s =
          .next (recPush s4 { typ := 1, key := code, inst := i, origin := 1, ptp := now s4, unsync := getB s4 R.TIME_STATE_UNSYNC,
                              detail := d, opsec := s4.mram.opsec, sub := opSub s4, call := some c })))) ∧
    (takeCall s 7 0 1 = some (c, s1) → ∀ n x s2 s3, dsc s1 c 0 1 = (n, s2) → dsc s2 c 4 4 = (x, s3) →
      ((∃ i, i < 64 ∧ getB s3 R.REC_S_SRC_EN 0 i = true ∧ getF s3 R.REC_S_SRC_KIND 0 i = 7 ∧ getF s3 R.REC_S_SRC_ID 0 i = n) →
        exec .stat s = .next (complete (statSample s3 7 n (f64of32 x)) c 0 0)) ∧
      ((∀ i, i < 64 → getB s3 R.REC_S_SRC_EN 0 i = false) → exec .stat s = .next (complete s3 c 0x11 0))) ∧
    (getB s R.REC_STAT_SCANNED = false ∨ stOf s .rcd = 3 → exec .recordWrite s = .next s) ∧
    (getB s R.REC_STAT_SCANNED = true → stOf s .rcd ≠ 3 → s.recDrop = 0 →
      (s.recQ = [] → exec .recordWrite s = .next s) ∧
      (∀ r t, s.recQ = r :: t → let s2 := { s with recQ := t }
        (∀ k, recFold s2 r = some k → r.typ = 1 → r.call = some c →
          exec .recordWrite s = .next (notifyLast (complete (recRefold s2 k r) c 0 1))) ∧
        (recFold s2 r = none → r.typ = 1 → r.call = some c →
          exec .recordWrite s = .next (notifyLast (complete (recNew s2 r) c 0 0))) ∧
        (recFold s2 r = none → r.typ ≠ 1 → r.call = none → exec .recordWrite s = .next (recNew s2 r)))) ∧
    ((∀ i, i < 64 → getB s R.REC_S_SRC_EN 0 i = false ∨ now s < mget s.statAt i 0) → exec .statIntervalEnd s = .next s) ∧
    (∀ i, i < 64 → inRun s .rcd = true → getB s R.REC_S_SRC_EN 0 i = true → 0 < mget s.statAt i 0 → mget s.statAt i 0 ≤ now s →
      0 < statIv s i → s.recQ.length < 64 → (∀ j, j < 64 → j ≠ i → getB s R.REC_S_SRC_EN 0 j = false) →
      let r : RecReq := { typ := 2, kind := getF s R.REC_S_SRC_KIND 0 i, key := getF s R.REC_S_SRC_ID 0 i, opsec := s.mram.opsec,
                          sub := opSub s, detail := statBody (mget s.stats i {}) }
      let at_ := mget s.statAt i 0
      exec .statIntervalEnd s = .next { s with
        recQ := s.recQ ++ [r], stats := mput {} s.stats i {}
        statAt := mput 0 s.statAt i (at_ + ((now s - at_) / statIv s i + 1) * statIv s i) }) ∧
    (let s2 := { s with mram := { s.mram with opsec := (s.mram.opsec + 1) % 2 ^ 32 }, opAt := s.ticks }
     let deg (x : State) (i : Nat) := fdiv f64 (f64i (sint 16 (getF x R.PWR_TEMP_T 0 i))) (f64i 10)
     exec .operatingSecond s = .next (forEach [0, 1, 2, 3] s2 (fun x i => statSample x 8 i (deg x i))))

/-- The panel: update requests for regions, a request for a region of another source is refused; an update starts with the
temperature of the panel, waits below −15 °C for the next reading after 10 s, ends with its frames or is abandoned; the
discharge runs with the queue empty for 1 s. The pixels of a redraw and VCOM between two mV are free values (log entry 62),
so that no clause rests on them. -/
def Obligations.PanelCommands : Prop :=
  ∀ (s : State) (v r : Nat) (t : Int),
    (inRun s .pnl = false → exec (.pnlUpd v) s = .next s ∧ exec (.panelRedraw r) s = .next s ∧ exec (.panelUpdate t) s = .next s) ∧
    (inRun s .pnl = true → rgnOn s (v % 8) = true → getF s R.PNL_RSIZE_SRC 0 (v % 8) = 6 →
      let q := s.pnl.q
      (q.length < 8 → exec (.pnlUpd v) s = .next (updRes (setPq s (q ++ [(v % 8, bitOf v 3)])) 0x1200 false)) ∧
      (8 ≤ q.length → s.pnl.run = none →
        (∀ i, q.findIdx? (fun e => e.1 == v % 8) = some i →
          exec (.pnlUpd v) s = .next (updRes (setPq s (q.set i (v % 8, bitOf v 3))) 0x1200 true)) ∧
        (q.findIdx? (fun e => e.1 == v % 8) = none →
          exec (.pnlUpd v) s = .next (latch (unitErr (updRes s 0x1210 false) .pnl 0 0x1210) .pnl 0 2)))) ∧
    (inRun s .pnl = true → rgnOn s (v % 8) = false ∨ getF s R.PNL_RSIZE_SRC 0 (v % 8) ≠ 6 →
      exec (.pnlUpd v) s = .next (updRes s 0x1212 false)) ∧
    (inRun s .pnl = true → r < 8 → rgnOn s r = true → getF s R.PNL_RSIZE_SRC 0 r ≤ 5 → s.pnl.boot = false →
      mget s.pnl.drawAt r 0 = 0 → rgnWords s r = [] →
      let s2 := { s with pnl := { s.pnl with drawAt := mput 0 s.pnl.drawAt r (tickNs s) } }
      exec (.panelRedraw r) s = .next (pnlRequest s2 r false)) ∧
    (inRun s .pnl = true → s.pnl.run = none → s.pwr.pf = false →
      (getB s R.PNL_STAT_COLD = true → exec (.panelUpdate t) s = .next s ∧
        (tickNs s < s.pnl.coldAt + 10000000000 → exec (.panelColdRecheck t) s = .next s) ∧
        (s.pnl.coldAt + 10000000000 ≤ tickNs s → exec (.panelColdRecheck t) s = .next (pnlStart s t))) ∧
      (getB s R.PNL_STAT_COLD = false → exec (.panelColdRecheck t) s = .next s ∧ exec (.panelUpdate t) s = .next (pnlStart s t) ∧
        (s.pnl.q = [] → exec (.panelUpdate t) s = .next s) ∧
        (∀ e q, s.pnl.q = e :: q → t < -150 →
          let s0 := setF { s with pnl := { s.pnl with coldAt := tickNs s } } R.PNL_TEMP_VAL (pat 16 t)
          getB s0 R.PNL_STAT_COLD = false →
          exec (.panelUpdate t) s = .next (level (unitErr (setB s0 R.PNL_STAT_COLD true) .pnl 0 0x1211) .pnl 0 2 true)))) ∧
    (s.pnl.run = none → exec .panelUpdateDone s = .next s ∧ exec .panelSupplyFault s = .next s) ∧
    (∀ px e q, s.pnl.run = some px → s.pnl.q = e :: q → tickNs s < s.pnl.doneAt → exec .panelUpdateDone s = .next s) ∧
    (∀ px e q, s.pnl.run = some px → s.pnl.q = e :: q → s.pnl.doneAt ≤ tickNs s → rgnWords s e.1 = [] →
      let d := s.mram.panelDirty
      let s2 := setDirty s (if bitOf d e.1 then d - 2 ^ e.1 else d) s.mram.panelDisch
      exec .panelUpdateDone s = .next (pnlPop (latch s2 .pnl 0 1))) ∧
    (∀ px, s.pnl.run = some px → exec .panelSupplyFault s = .next (latch (unitErr (pnlPop s) .pnl 0 0x1213) .pnl 0 8)) ∧
    (s.pnl.boot = true → s.pnl.q = [] → s.mram.panelDirty = 0 → exec .panelDischarge s =
      .next { pnlDischarge s with pnl := { s.pnl with boot := false } }) ∧
    (s.pnl.boot = false →
      (s.pnl.q ≠ [] ∨ getF s R.PNL_STAT_STATE = 0 ∨ tickNs s < s.pnl.emptyAt + 1000000000 → exec .panelDischarge s = .next s) ∧
      (s.pnl.q = [] → getF s R.PNL_STAT_STATE ≠ 0 → s.pnl.emptyAt + 1000000000 ≤ tickNs s →
        exec .panelDischarge s = .next (pnlDischarge s)))

/-- Feeds, temperature, clocks, resets and idle states: a feed is lost and counted, both lost run the power-fail sequence, a
module held in reset starts when its cause ends, the junction's limits act, a PLL or the watchdog resets with its cause, and
a unit with no work enters the deepest permitted idle state and leaves it. SYS.CMD: by the program it is refused, outside
HALT it is refused, and from management in HALT each operation acts: the reset, the converter retirements, the firmware
preference, the FAILED marks. CMD_RES shows the operation and its code. -/
def Obligations.PowerAndSystemCommands : Prop :=
  (∀ (s : State) (t u : Nat),
     (getB s R.PWR_FEED_A_OK = true →
       let s1 := level (unitErr (incF (setB s R.PWR_FEED_A_OK false) R.PWR_FEEDLOSS_A) .pwr 0 0x0210) .pwr 0 0 true
       (fed s1 = true → exec (.feedLost 0) s = .next s1) ∧ (fed s1 = false → exec (.feedLost 0) s = .next (powerFail s1 1))) ∧
     (getB s R.PWR_FEED_A_OK = false → exec (.feedLost 0) s = .next s) ∧
     (getB s R.PWR_FEED_B_OK = true →
       let s1 := level (unitErr (incF (setB s R.PWR_FEED_B_OK false) R.PWR_FEEDLOSS_B) .pwr 0 0x0210) .pwr 0 1 true
       (fed s1 = true → exec (.feedLost 1) s = .next s1) ∧ (fed s1 = false → exec (.feedLost 1) s = .next (powerFail s1 1))) ∧
     (let a := level (setB s R.PWR_FEED_A_OK true) .pwr 0 0 false
      let b := level (setB s R.PWR_FEED_B_OK true) .pwr 0 1 false
      (s.pwr.inRst = false → exec (.feedGood 0) s = .next a ∧ exec (.feedGood 1) s = .next b) ∧
      (s.pwr.inRst = true → exec (.feedGood 0) s = .next (startUp a) ∧ exec (.feedGood 1) s = .next (startUp b))) ∧
     exec .powerfail s = .next (powerFail (feedLost (feedLost s 0) 1) 1) ∧
     (sint 16 t < 1400 → exec (.tempHigh t) s = .next s) ∧
     (1400 ≤ sint 16 t → exec (.tempHigh t) s = .next (latch (unitErr (setF s R.PWR_TEMP_T t 0 0) .pwr 0 0x0214) .pwr 0 16)) ∧
     (sint 16 t < 1500 → exec (.tempTrip t) s = .next s) ∧
     (1500 ≤ sint 16 t → exec (.tempTrip t) s = .next (powerFail (setF s R.PWR_TEMP_T t 0 0) 2)) ∧
     (1250 ≤ sint 16 t → exec (.junctionCooled t) s = .next s) ∧
     (sint 16 t < 1250 → s.pwr.inRst = false → exec (.junctionCooled t) s = .next (setF s R.PWR_TEMP_T t 0 0)) ∧
     (sint 16 t < 1250 → s.pwr.inRst = true → s.pwr.hot = true →
       let s1 := setF s R.PWR_TEMP_T t 0 0
       exec (.junctionCooled t) s = .next (startUp { s1 with pwr := { s1.pwr with hot := false } })) ∧
     (t ≤ 5 → exec (.moduleReset t) s = .next (startUp (resetUnits s t))) ∧
     (s.pwr.inRst = true → exec .fwWdog s = .next s ∧ exec (.pllLoss t) s = .next s) ∧
     (s.pwr.inRst = false → exec .fwWdog s = .next (moduleReset s 3) ∧ exec (.pllLoss 0) s = .next (moduleReset s 4) ∧
       exec (.pllLoss 1) s = .next (moduleReset (engineTrip s 0x16 0) 4)) ∧
     exec .serdesPllLoss s =
       .next (syncLost (latch (incF (setB s R.SYS_PLL_SD_LOCK false) R.SYS_PLL_SD_LOSS) .sys 0 4)) ∧
     (s.pwr.waitS6 = none → exec .syncWaitExpiry s = .next s) ∧
     (∀ w, s.pwr.waitS6 = some w →
       (servo s = 2 → exec .syncWaitExpiry s = .next (bootS7 s)) ∧
       (w + getF s R.TIME_HOLD_CFG_SYNC_WAIT * 1000000000 ≤ tickNs s → exec .syncWaitExpiry s = .next (bootS7 s)) ∧
       (servo s ≠ 2 → tickNs s < w + getF s R.TIME_HOLD_CFG_SYNC_WAIT * 1000000000 → exec .syncWaitExpiry s = .next s)) ∧
     (u ≤ 10 → unitIdle s u = false ∨ s.pwr.pf = true ∨ idleState s u ≠ 0 → exec (.idleEntry u) s = .next s) ∧
     (u ≤ 10 → unitIdle s u = true → s.pwr.pf = false → idleState s u = 0 → getF s R.SYS_BOOT_STEP = 8 → s.tsk.ph ≠ .none →
       let nap (x : State) := { x with pwr := { x.pwr with idleAt := mput 0 x.pwr.idleAt u (tickNs s + 1) } }
       (idleChoice s u = 0 → exec (.idleEntry u) s = .next s) ∧
       (idleChoice s u = 1 → exec (.idleEntry u) s = .next (nap (setIdle s u 1))) ∧
       (idleChoice s u = 3 → tickNs (incF (setIdle s u 3) R.PWR_NAPS_COUNT) = tickNs s →
         exec (.idleEntry u) s = .next (nap (incF (setIdle s u 3) R.PWR_NAPS_COUNT)))) ∧
     (idleState s u = 0 → exec (.idleExit u) s = .next s) ∧
     (u ≤ 10 → idleState s u = 1 ∨ idleState s u = 2 → mget s.pwr.idleAt u 0 ≤ tickNs s + 1 →
       let s1 := setIdle s u 0
       exec (.idleExit u) s = .next { s1 with pwr := { s1.pwr with idleAt := mput 0 s1.pwr.idleAt u 0 } })) ∧
  (∀ s : State,
     let res (op c : Nat) := setF (setF s R.SYS_CMD_RES_CODE c) R.SYS_CMD_RES_OP op
     let ok (op : Nat) := latch (res op 0x0100) .sys 0 8
     let rows (mg : Bool) := [(Instr.sysModuleReset mg, 1), (.convClear mg, 2), (.fwSelectA mg, 3), (.fwSelectB mg, 4), (.fwClear mg, 5)]
     (∀ r ∈ rows false, exec r.1 s = .next (res r.2 0x0117)) ∧
     (keyPos s ≠ 2 → ∀ r ∈ rows true, exec r.1 s = .next (res r.2 0x0116)) ∧
     (keyPos s = 2 →
       exec (.sysModuleReset true) s = .next (moduleReset (ok 1) 5) ∧
       (let x := ok 2
        let x1 := setF (setF { x with mram := { x.mram with convRet := 0 } } R.LIO_CONV_RET_RET 0) R.LIO_ROT_STAT_RETIRED 0
        let x2 := forEach (List.range 16) x1 (fun y k => setAi y k { getAi y k with dead := false })
        exec (.convClear true) s = .next (setF x2 R.LIO_ROT_STAT_SPARE (spareFree x2))) ∧
       (let x := ok 3
        exec (.fwSelectA true) s = .next (fwShow { x with mram := { x.mram with fwPref := false } })) ∧
       (let x := ok 4
        exec (.fwSelectB true) s = .next (fwShow { x with mram := { x.mram with fwPref := true } })) ∧
       (let x := ok 5
        exec (.fwClear true) s =
          .next (fwShow (setFw (setFw x false { x.mram.fwA with failed := false }) true { x.mram.fwB with failed := false })))))

/-- A module reset leaves every unit at reset but keeps MRAM, the profiles and the waiting commands, latches its cause and
counts the resets since power-on. -/
def Obligations.ModuleResetKeepsTheRetainedState : Prop :=
  ∀ (s : State) (cause : Nat), 8 ≤ getF s R.SYS_BOOT_STEP → cause < 8 →
    let t := resetUnits s cause
    t.pending = s.pending ∧ t.tsk.profiles = s.tsk.profiles ∧ t.mram.recs = s.mram.recs ∧ t.mram.norA = s.mram.norA ∧
    t.mram.norB = s.mram.norB ∧ t.mram.rstCause = cause ∧ t.mram.rstCount = (if cause = 0 then 0 else min 65535 (s.mram.rstCount + 1)) ∧
    t.mem = [] ∧ t.cores = [] ∧ t.recQ = [] ∧ getF t R.SYS_RSTCAUSE_CAUSE = cause ∧ getF t R.SYS_RSTCAUSE_COUNT = t.mram.rstCount

/-! ## Completion -/

/-- Every engine call, in the case in which its engine answers it with success, by conditions on the state alone: `c` is the
call and `s1` the state in which the engine has taken it. A call that ends at once leaves its completion word with code 0 at
its descriptor (Table ORD-7); one that ends later is held where its end finds it: with its context or channel until the
sample, with its axis until the launch, with its Basin context until the result, in the port's queue until the response,
with its CAN channel until the frame has been sent, and a COND call with the request in the write queue. When an engine
reads the operands is the model's choice (log entry 99). -/
def Obligations.EngineCallsSucceed : Prop :=
  ∀ (s s1 : State) (c : Call) (i : Nat),
    let ends (x : Instr) (res : Nat) : Prop :=
      ∃ t, exec x s = .next t ∧ rdN t (c.addr + 8) 8 = cmplWord c.ticket (engCode c.unit) res
    (takeCall s 0 i 4 = some (c, s1) → ends (.loopRead i) 0) ∧
    (∀ p ∈ ([(.setsp, 0), (.loopMode, 1), (.bankswap, 2), (.faultrst, 3)] : List ((Nat → Instr) × Nat)),
      takeCall s 0 i p.2 = some (c, s1) →
      ∃ t, exec (p.1 i) s = .next t ∧ (getLoop t i).wait = (getLoop s1 i).wait ++ [c]) ∧
    (∀ p ∈ ([(.injectStart, fun op => op != 0), (.injectStop, fun op => op == 0)] : List ((Nat → Instr) × (Nat → Bool))),
      takeCallIf s 0 i 5 0 1 p.2 = some (c, s1) →
      ∃ t, exec (p.1 i) s = .next t ∧ (getLoop t i).wait = (getLoop s1 i).wait ++ [c]) ∧
    (takeCallIf s 0 i 6 0 1 (fun op => op == 0 || decide (op > 2)) = some (c, s1) → (dsc s1 c 0 1).1 = 0 → ends (.trigArm i) 0) ∧
    (takeCallIf s 0 i 6 0 1 (fun op => op == 1) = some (c, s1) → ends (.trigForce i) 0) ∧
    (takeCallIf s 0 i 6 0 1 (fun op => op == 2) = some (c, s1) → ends (.trigStop i) 0) ∧
    (∀ p ∈ ([(.move, 0), (.limits, 1), (.profStop, 2)] : List ((Nat → Instr) × Nat)), takeCall s 1 i p.2 = some (c, s1) →
      c.inst = i → c.fn = p.2 → (getGen s1 i).lock = false →
      ∃ t, exec (p.1 i) s = .next t ∧ (getGen t i).wait = (getGen s1 i).wait ++ [(now s1, c)]) ∧
    (takeCall s 1 i 3 = some (c, s1) → ends (.profRead i) 0) ∧
    (takeCall s 2 i 0 = some (c, s1) → axSt s1 i = 0 → getB s1 R.VAX_A_STAT_REFOK i = true → stState s1 (axStation s1 i) = 2 →
      vmaxHigh s1 i (getGen s1 (axProf s1 i)).limV = false →
      ∃ t r, exec (.vaxStart i) s = .next (aqAdmit t (axStation s1 i / 4) r) ∧ (getAxis t i).start = some c ∧ r.svc = 6 ∧
        r.axis = some i) ∧
    (takeCall s 2 i 1 = some (c, s1) → axSt s1 i = 2 → axRest s1 i = true → getF s1 R.VAX_A_LAG_VAL i = 0 →
      ∃ t, exec (.vaxStop i) s = .next t ∧ (getAxis t i).stop = some c) ∧
    (takeCall s 2 i 2 = some (c, s1) → axSt s1 i = 0 → axRest s1 i = true → ends (.setref i) 0) ∧
    (takeCall s 2 i 3 = some (c, s1) → (dsc s1 c 0 1).1 < 8 → bitOf (shapeUse (dsc s1 c 0 1).2) (dsc s1 c 0 1).1 = false →
      ends (.shape i) 0) ∧
    (takeCall s 2 i 4 = some (c, s1) → ends (.vaxRead i) 0) ∧
    (takeCall s 3 i 0 = some (c, s1) →
      let d := (dsc s1 c 0 8).1
      let s2 := (engRd (dsc s1 c 0 8).2 (c.addr + 0x18) 32).2
      now s1 + 4000 < d → d ≤ now s1 + 60000000000 →
      ((deadlines s2).filter (fun x => decide (x < d + 4000) && decide (d < x + 4000))).length < 4 → (getQp s2 i).run = none →
      ∃ t v, exec (.solve i) s = .next t ∧ (getQp t i).run = some v ∧ v.call = c ∧ v.d = d) ∧
    (takeCall s 3 i 1 = some (c, s1) → (getQp s1 i).run = none → ends (.bsnCancel i) 0) ∧
    (takeCall s 3 i 2 = some (c, s1) → ends (.bsnRead i) 0) ∧
    (takeCall s 4 i 0 = some (c, s1) → (dsc s1 c 0 1).1 = 4 ∨ (dsc s1 c 0 1).1 = 5 →
      ∃ t r, exec (.lnkAcyc i) s = .next (aqAdmit t (i / 4) r) ∧ r.call = some c ∧ r.pos = i % 4 ∧ r.svc = (dsc s1 c 0 1).1) ∧
    (takeCall s 4 i 1 = some (c, s1) →
      let n := (dsc s1 c 0 4).1
      let r := ioutChans (dsc s1 c 0 4).2 c n
      1 ≤ n → n ≤ 32 → (∀ ch ∈ r.1, ch < nChan r.2 ∧ ch ∈ stChans r.2 i true false ++ stChans r.2 i true true) →
      ∃ t, exec (.lnkOutnow i) s = .next t ∧ (getPort t (i / 4)).iout = (getPort r.2 (i / 4)).iout ++ [⟨c, i % 4, r.1⟩]) ∧
    (takeCall s 4 i 2 = some (c, s1) → stState s1 i = 4 →
      ∃ t, exec (.lnkReinit i) s = .next (initNext t i) ∧ (getSta t i).reinit = some c) ∧
    (takeCall s 4 i 3 = some (c, s1) → ends (.lnkRead i) 0) ∧
    (takeCall s 5 i 0 = some (c, s1) →
      let r := canOperand s1 c
      canFrameBad r.2.2 i r.1 = false → getB r.2.2 R.CAN_C_ERR_ASLEEP i = false →
      ∃ t, exec (.canTx i) s = .next t ∧ (getCan t i).fifo = (getCan r.2.2 i).fifo ++ [{ call := c, frame := r.1 }]) ∧
    (takeCall s 5 i 1 = some (c, s1) →
      let r := canOperand s1 c
      r.2.1 ≤ 3 → canFrameBad r.2.2 i r.1 = false → getB r.2.2 R.CAN_C_ERR_ASLEEP i = false →
      (getCan r.2.2 i).cur ≠ some (some r.2.1) → mget (getCan r.2.2 i).mbox r.2.1 none = none →
      ∃ t, exec (.express i) s = .next t ∧ mget (getCan t i).mbox r.2.1 none = some { call := c, frame := r.1 }) ∧
    (∀ k x, takeCall s 5 i 2 = some (c, s1) → canFind (getCan (dsc s1 c 0 4).2 i) (dsc s1 c 0 4).1 = some (none, k, x) →
      (getCan (dsc s1 c 0 4).2 i).cur ≠ some none → ends (.canAbort i) 0) ∧
    (takeCall s 5 i 3 = some (c, s1) → 1 ≤ (dsc s1 c 0 2).1 → (dsc s1 c 0 2).1 ≤ 16 →
      ends (.rxread i) ((getCan (dsc s1 c 0 2).2 i).rx.take (dsc s1 c 0 2).1).length) ∧
    (takeCallIf s 5 i 4 0 1 (fun op => op != 1) = some (c, s1) →
      let s2 := (dsc s1 c 0 1).2
      (dsc s1 c 0 1).1 = 0 → getB s2 R.CAN_C_ERR_ASLEEP i = false → (getCan s2 i).fifo = [] → mbxBits (getCan s2 i) = 0 →
      ∃ t, exec (.canSleep i) s = .next t ∧ (getCan t i).sleep = (getCan s2 i).sleep ++ [c]) ∧
    (takeCallIf s 5 i 4 0 1 (fun op => op == 1) = some (c, s1) → getB s1 R.CAN_C_ERR_ASLEEP i = false →
      ends (.canWakeLocal i) 0) ∧
    (∀ op, timeCall s i 0 (fun x => x == 2) = some (c, op, s1) → (dsc s1 c 1 1).1 ≤ 1 → ends (.tpedgeCancel i) 0) ∧
    (timeCall s i 0 (fun x => x == 0 || decide (x > 2)) = some (c, 0, s1) →
      let s2 := (dsc s1 c 1 1).2
      let s3 := (dsc s2 c 2 2).2
      let e := leNat ((engRd s3 (c.addr + 0x18) 16).1.take 8)
      (dsc s1 c 1 1).1 = 0 → (dsc s2 c 2 2).1 = 1 → c.since + 2000 ≤ e →
      (getTp (engRd s3 (c.addr + 0x18) 16).2 i).edges = [] → (getTp (engRd s3 (c.addr + 0x18) 16).2 i).per = none →
      ends (.tpedgeList i) 0) ∧
    (timeCall s i 0 (fun x => x == 1) = some (c, 1, s1) →
      let m := dsc s1 c 1 1
      let n := dsc m.2 c 2 2
      let b := dsc n.2 c 8 8
      let p := dsc b.2 c 16 4
      let h := dsc p.2 c 20 4
      m.1 = 0 → c.since + 2000 ≤ b.1 → 200000 ≤ p.1 → 16 ≤ h.1 → h.1 + 16 < p.1 → (getTp h.2 i).edges = [] →
      (getTp h.2 i).per = none → ends (.tpedgePeriodic i) 0) ∧
    (∀ op, timeCall s i 1 (fun _ => true) = some (c, op, s1) → 1 ≤ (dsc s1 c 0 2).1 → (dsc s1 c 0 2).1 ≤ 16 →
      ends (.tcread i) ((getTc (dsc s1 c 0 2).2 i).take (dsc s1 c 0 2).1).length) ∧
    (∀ op, timeCall s 0 2 (fun _ => true) = some (c, op, s1) →
      let a := dsc s1 c 0 8
      let b := dsc a.2 c 8 8
      getF s1 R.TIME_STATE_SRC = 3 → c.since ≤ b.1 + 1000000000 → b.2.time.prgAt = none → ends .offset 0) ∧
    (timeCall s i 3 (fun x => x != 1) = some (c, 0, s1) →
      let t := dsc s1 c 8 8
      let p := dsc t.2 c 16 4
      hasTask p.2 7 = true → c.since + 2000 ≤ t.1 → ends (.alarmArm i) 0) ∧
    (∀ op, timeCall s i 3 (fun x => x == 1) = some (c, op, s1) → ends (.alarmCancel i) 0) ∧
    (takeCall s 7 0 0 = some (c, s1) →
      let k := dsc s1 c 0 2
      let n := dsc k.2 c 2 2
      0x1180 ≤ k.1 → k.1 ≤ 0x11FF → (engRd n.2 (c.addr + 0x18) 20).2.recQ.length < 64 →
      ∃ t r, exec .cond s = .next t ∧ r ∈ t.recQ ∧ r.call = some c ∧ r.key = k.1 ∧ r.inst = n.1) ∧
    (takeCall s 7 0 1 = some (c, s1) →
      let n := dsc s1 c 0 1
      let x := dsc n.2 c 4 4
      (∃ j, j < 64 ∧ getB x.2 R.REC_S_SRC_EN 0 j = true ∧ getF x.2 R.REC_S_SRC_KIND 0 j = 7 ∧ getF x.2 R.REC_S_SRC_ID 0 j = n.1) →
      ends .stat 0)

/-- Where eight commands have their own effect, by conditions on the state and the operands alone. HB: an accepted heartbeat
of the pair's partner is kept, with its role. ABDICATION: a new cause on an owner with a healthy standby leaves an
abdication waiting for the next C0 output deadline. LWRITE: one word that its register takes is written and answered with
the count 1. COND: the request stands last in the write queue. STAT: the sample of a declared statistic ends its call with
code 0. RECORD_WRITE: the front of the queue is in its slot, with the next number. STAT_INTERVAL_END: every statistic whose
boundary has come starts a new interval. OPERATING_SECOND: OPSEC counts one more second. -/
def Obligations.HeartbeatLwriteAndRecorderComplete : Prop :=
  ∀ (s s1 : State) (c : Call),
    (∀ h b, pairOn s = true → h.good = true → h.ver = 1 → h.epoch = roleEpoch s → b.pairId = getF s R.PAIR_ID_ID → role s ≠ 2 →
      ∃ t, exec (.hbRx h b) s = .next t ∧ t.pair.hb = some b ∧ t.pair.heard = true ∧ t.pair.h1 = some (now s) ∧
        getF t R.PAIR_ROLE_PARTNER = h.role % 8) ∧
    (pairOn s = true → role s = 1 → s.pair.abdAt = none → abdBits s &&& (0x1F ^^^ s.pair.seen) ≠ 0 →
      healthyStandby { s with pair := { s.pair with seen := abdBits s } } = true →
      ∃ t n, exec .abdication s = .next t ∧ t.pair.abd = some n ∧ 1 ≤ n ∧ n ≤ 5 ∧ t.pair.seen = abdBits s) ∧
    (∀ k id a bs u, 3 ≤ (getSess s k).priv → mgWaits s k = false → (getSess s k).q = [] → localReg a = true → a % 4 = 0 →
      bs.length = 4 →
      let t0 := setSess s k { getSess s k with last := tickNs s }
      mgWord { t0 with host := { t0.host with reqId := id } } a bs = (u, none) →
      exec (.lwrite k { op := 4, id := id } (8 + bs.length) a bs) s =
        .next (mgmtChange (answer u 4 0x1000 1 []) k 4)) ∧
    (takeCall s 7 0 0 = some (c, s1) →
      let k := dsc s1 c 0 2
      let n := dsc k.2 c 2 2
      let d := engRd n.2 (c.addr + 0x18) 20
      0x1180 ≤ k.1 → k.1 ≤ 0x11FF → d.2.recQ.length < 64 →
      ∃ t r, exec .cond s = .next t ∧ t.recQ = d.2.recQ ++ [r] ∧ r.call = some c ∧ r.typ = 1 ∧ r.key = k.1 ∧ r.inst = n.1 ∧
        r.origin = 1 ∧ r.detail = d.1) ∧
    (takeCall s 7 0 1 = some (c, s1) →
      let n := dsc s1 c 0 1
      let x := dsc n.2 c 4 4
      (∃ j, j < 64 ∧ getB x.2 R.REC_S_SRC_EN 0 j = true ∧ getF x.2 R.REC_S_SRC_KIND 0 j = 7 ∧ getF x.2 R.REC_S_SRC_ID 0 j = n.1) →
      exec .stat s = .next (complete (statSample x.2 7 n.1 (f64of32 x.1)) c 0 0)) ∧
    (∀ r t, getB s R.REC_STAT_SCANNED = true → stOf s .rcd ≠ 3 → s.recDrop = 0 → s.recQ = r :: t →
      recFold { s with recQ := t } r = none →
      ∃ u, exec .recordWrite s = .next u ∧ getRec u (recSlot s) = recBytes s r (getF s R.REC_SEQ_VAL) ∧
        getF u R.REC_SEQ_VAL = (getF s R.REC_SEQ_VAL + 1) % 2 ^ 32) ∧
    (inRun s .rcd = true → ∃ t, exec .statIntervalEnd s = .next t ∧
      ∀ i, i < 64 → getB s R.REC_S_SRC_EN 0 i = true → 0 < mget s.statAt i 0 → mget s.statAt i 0 ≤ now s → 0 < statIv s i →
        now s < mget t.statAt i 0 ∧ mget t.statAt i 0 ≤ now s + statIv s i ∧ mget t.stats i {} = {}) ∧
    (∃ t, exec .operatingSecond s = .next t ∧ t.mram.opsec = (s.mram.opsec + 1) % 2 ^ 32 ∧ t.opAt = s.ticks ∧ t.mem = s.mem ∧
      t.tsk = s.tsk)

/-- No command stops the model: on every state and for every operand each of the commands, every instruction of the HXI set
among them, answers a next state, and so does a step. What the spec calls a fault of the program (Table HXI-7) is an effect
on the state: the faulting task stops and the condition is recorded; the module goes on. -/
def Obligations.EveryCommandAnswersANextState : Prop :=
  (∀ (i : Instr) (s : State), ∃ t, exec i s = .next t) ∧ (∀ s : State, ∃ t, step s = .next t)
end

