-- ==== Sys2Proof/Laws/Instants.lean ====
section
/-!
SUPPORT. The instants of the timeline: at an edge at which nothing is due, what R30 puts first changes nothing.
-/

namespace Sys2Proof.Machine

/-- A loop whose every turn changes nothing changes nothing. -/
theorem forEach_const {α : Type} (l : List α) (s : State) (f : State → α → State) (h : ∀ x ∈ l, f s x = s) :
    forEach l s f = s := by
  induction l with
  | nil => rfl
  | cons x t ih =>
    simp only [forEach, List.foldl_cons, h x (by simp)] at *
    exact ih (fun y hy => h y (by simp [hy]))

/-- No fast buffer close is due. -/
theorem fastCloses_idle (s : State) (hf : ∀ p < nPort s, atFast s p = false) : fastCloses s = s :=
  forEach_const _ _ _ (fun p hp => by simp [fastCloseDue, hf p (List.mem_range.1 hp)])

/-- No close is due. -/
theorem closes_idle (s : State) (h : atClose s = false) (hf : ∀ p < nPort s, atFast s p = false) : closes s = s := by
  simp only [closes, fastCloses_idle s hf, closeDue, h, Bool.false_eq_true, if_false]

/-- No launch is due. -/
theorem launches_idle (s : State) (h : atClose s = false) (hf : ∀ p < nPort s, atFast s p = false) : launches s = s := by
  simp only [launches, deadlineDue, h, Bool.false_eq_true, if_false, closes_idle s h hf]
  exact forEach_const _ _ _ (fun p hp => by simp [fastOutDue, hf p (List.mem_range.1 hp)])

/-- Basin holds nothing that is due: no undecided solve, no result to write, no delivery. -/
def basinIdle (s : State) : Prop := s.bsn.qps = [] ∧ s.bsn.decided = [] ∧ s.bsn.dlv = []

/-- What R29 has done by now is nothing where Basin holds nothing. -/
theorem bsnDeliver_idle (s : State) (hd : basinIdle s) : bsnDeliver s = s := by
  obtain ⟨hq, hr, hd⟩ := hd
  have hs : bsnSettle s = s := by simp [bsnSettle, hq, hr, mkeys, forEach, writesDue]
  simp only [bsnDeliver, hs, hd, List.filter_nil, forEach, List.foldl_nil]
  rw [show ({ s.bsn with dlv := [] } : BsnSt) = s.bsn by rw [← hd]]

/-- No launch is due and Basin holds nothing. -/
theorem deliveries_idle (s : State) (h : atClose s = false) (hf : ∀ p < nPort s, atFast s p = false) (hd : basinIdle s) :
    deliveries s = s := by
  rw [deliveries, launches_idle s h hf, bsnDeliver_idle s hd]

/-- Nothing of ranks 1 to 6 is due. -/
theorem samples_idle (s : State) (h : atClose s = false) (hf : ∀ p < nPort s, atFast s p = false) (hd : basinIdle s)
    (ht : atStart s = false) (hm : s.tsk.migPend = false) (hs : atSafStart s = false)
    (hl : ∀ c < 256, inRun s .loopCtx c = false) : samples s = s := by
  have hr : releases s = s := by simp [releases, deliveries_idle s h hf hd, releaseDue, ht, hm, safReleaseDue, hs]
  simp only [samples, hr]
  exact forEach_const _ _ _ (fun c hc => by simp [hl c (List.mem_range.1 hc)])

end Sys2Proof.Machine
end

