-- ==== Sys2Proof/Laws/PerInstr.lean ====
section
/-!
SUPPORT. Statements made per constructor: none is stated (LAWS.json names no family).
-/
end

