-- ==== Sys2Proof/Tests/Slice0.lean ====
section
/-!
SUPPORT. Tests: ill-formed terms that the checks refuse, words built by hand from Table HXI-4, single steps on small states,
and for each statement with hypotheses a state and operands that meet them.
-/

namespace Sys2Proof.Machine

set_option Elab.async false

/-! ## Well-formedness: each check refuses an ill-formed term -/

theorem test_wf_good : wellFormed (.ld 0 0 0 0x100 0) = true := by decide
theorem test_wf_core : wellFormed (.ld 8 0 0 0x100 0) = false := by decide
theorem test_wf_field : wellFormed (.ld 0 0 16 0x100 0) = false := by decide
theorem test_wf_under : wellFormed (.vsOverloadTrip 3) = true ∧ wellFormed (.vsOverloadTrip 4) = false := by decide
theorem test_wf_copies : wellFormed (.unitReqRun .canCh 3 false) = true ∧ wellFormed (.unitReqRun .canCh 4 false) = false := by decide
theorem test_wf_path : wellFormed (.hbPathSilent 2) = true ∧ wellFormed (.hbPathSilent 0) = false := by decide

/-! ## Words, one of each format, built by hand from Table HXI-4 and the opcodes of Table HXI-16 -/

theorem test_word_b : decodeHxi 0 0x11804018 = .andn 0 3 0 0x803 0 := by decide
theorem test_word_s : decodeHxi 0 0x3C400000 = .bop 0 0 := by decide
theorem test_word_t : decodeHxi 0 0x40AA0ABC = .tmrTon 0 true 5 1 0 0xABC := by decide
theorem test_word_m : decodeHxi 0 0x513D9234 = .lw 0 2 7 5 true 0x1234 ∧ decodeHxi 0 0x48800003 = .ctu 0 1 0 0 3 := by decide
theorem test_word_a : decodeHxi 0 0x72320000 = .aluRol 0 4 true 0 0 := by decide
theorem test_word_i : decodeHxi 0 0x7B00FFFF = .addi 0 true true 0 0xFFFF ∧ decodeHxi 0 0x76804220 = .ldi 0 true 1 false 0 0x4220 := by
  decide
theorem test_word_c : decodeHxi 0 0x7E680000 = .cmp 0 4 6 2 0 := by decide
theorem test_word_x : decodeHxi 0 0x82708001 = .lxi 0 9 true true 0 0x8001 ∧ decodeHxi 0 0x864DFFFF = .xaluAddi 0 9 3 0x3FFF := by
  decide
theorem test_word_h : decodeHxi 0 0x96B83FFF = .chw 0 true 5 6 false 0 0x3FFF := by decide
theorem test_word_v : decodeHxi 0 0xA0480FFF = .movb 0 1 2 0 0xFFF := by decide
theorem test_word_l : decodeHxi 0 0xA44AE001 = .tbl 0 1 2 5 true 0x2001 := by decide
theorem test_word_j : decodeHxi 0 0xC3FFFFFE = .jmp 0 0x3FFFFFE := by decide
theorem test_word_g : decodeHxi 0 0xCDFFFFFE = .jf 0 7 0x3FFFFE ∧ decodeHxi 0 0xD9FFFFFE = .djnz 0 7 0x3FFFFE ∧
    decodeHxi 0 0xDDC00000 = .callx 0 7 0 := by decide
theorem test_word_e : decodeHxi 0 0xE0C2A1FF = .ecall 0 3 2 true 4 0 0x1FF := by decide
theorem test_word_f : decodeHxi 0 0xE6000000 = .fenceIo 0 0 := by decide
theorem test_word_k : decodeHxi 0 0xE885BEEF = .raise 0 0 5 0xBEEF := by decide
theorem test_word_p : decodeHxi 0 0xF0C00002 = .mts 0 3 false 0 2 := by decide
theorem test_word_n : decodeHxi 0 0xD4000000 = .ret 0 0 := by decide
theorem test_word_illegal : decodeHxi 0 0xFC000000 = .illegalOpcode 0 0xFC000000 ∧
    decodeHxi 0 0x4C000000 = .illegalOpcode 0 0x4C000000 := by decide

/-! ## Small states -/

/-- The machine after reset, with the context of a core replaced. -/
def on (c : Nat) (k : Ctx) : State := { setCtx State.reset c k with saf := { busyA := true, busyB := true } }

/-- A state with register fields set: (field, value, copy, index). -/
def withF (l : List (Fld × Nat × Nat × Nat)) (s : State) : State := l.foldl (fun s x => setF s x.1 x.2.1 x.2.2.1 x.2.2.2) s

/-- A call of a function to an instance of an engine, with its descriptor at 0x100. -/
def callOf (u fn inst : Nat) : Call := { unit := u, fn := fn, inst := inst, ticket := 1, addr := 0x100, len := 64, since := 0 }

/-- A state with one call waiting in an engine's queue. -/
def called (u fn inst : Nat) (s : State) : State := setEngq s u [callOf u fn inst]

/-- The state after reset at an instant of the time counter, in ns below one second. -/
def at_ (t : Nat) : State := { State.reset with ns := t }

/-- Words of memory written: (address, bytes, value). -/
def withM (l : List (Nat × Nat × Nat)) (s : State) : State := l.foldl (fun s x => wrN s x.1 x.2.1 x.2.2) s

/-! ## A state and operands that meet the hypotheses of each statement, clause by clause -/

theorem wit_StepRunsFrontOrTicks : (at_ 5).pending = [] ∧ (at_ 5).pwr.waitS6 = none ∧
    (∀ w, (at_ 5).tsk.ph ≠ .units w) ∧ (∀ k, (getSess (at_ 5) k).q = []) ∧
    (∀ c, (getCore (at_ 5) c).sb = [] ∧ (getCore (at_ 5) c).posted = []) ∧
    counter (at_ 5) + getInc (at_ 5) < 2 ^ 64 * 1000000000 * 2 ^ 32 ∧
    (counter (at_ 5) + getInc (at_ 5)) / 2 ^ 32 / 1000000000 = (at_ 5).sec :=
  ⟨rfl, rfl, fun _ h => RunPh.noConfusion h, fun _ => rfl, fun _ => ⟨rfl, rfl⟩, by decide +kernel, by decide +kernel⟩

theorem wit_HxiWordsRoundTrip : wellFormed (.ld 0 0 0 0x100 0) = true ∧ encodeHxi (.ld 0 0 0 0x100 0) = some 0x04000800 ∧
    wellFormed (.illegalOpcode 0 0xFC000000) = true ∧ opIllegal (0xFC000000 / 2 ^ 26 % 64) = true ∧
    encodeHxi (.illegalOpcode 0 0xFC000000) = some 0xFC000000 := by decide +kernel

theorem wit_LbopSubOperations : runs (on 0 {}) 0 = true ∧ (stepCtx (on 0 {}) 0).br = [] ∧
    (stepCtx (on 0 { br := [(true, false)] }) 0).br = [(true, false)] ∧
    (stepCtx (on 0 { br := List.replicate 15 (true, false) }) 0).br.length < 16 ∧
    16 ≤ (stepCtx (on 0 { br := List.replicate 16 (true, false) }) 0).br.length ∧
    runs (on 6 {}) 6 = true ∧ runs (on 7 {}) 7 = true := by decide +kernel

theorem wit_BranchDeliversOrOfPaths : runs (on 0 { lb := true }) 0 = true ∧ (stepCtx (on 0 { lb := true }) 0).br.length < 16 := by
  decide +kernel

/-- An input channel 3 of station 0 and an output channel 4 that task 2 owns, both of type BIT, in the copies of the entries. -/
def chans (s : State) : State :=
  setChan (setChan s 3 { cached := { src := 1, types := 0, mode := 0 } }) 4
    { cached := { src := 1, types := 0, mode := 1, ownKind := 0, ownInst := 0 } }

/-- Core 0 runs segment 0 of the C0 task with channels. -/
def onC0 (k : Ctx) : State := chans (setCore State.reset 0 { ctx := k, run := some 8 })

theorem wit_BitOperands :
    (let s := on 0 { x := [(1, 0x40)] }
     modeOk 0 0 = true ∧ accessFault 0 (effAddr (stepCtx s 0) 0 0 0x7FFF) 1 1 .bitRd false = none ∧
     uncorr s 0 (effAddr (stepCtx s 0) 0 0 0x7FFF) 1 = false ∧ modeOk 2 1 = true ∧
     accessFault 0 (effAddr (stepCtx s 0) 2 1 0) 1 1 .bitWr false = none ∧
     uncorr (rmwDrain s 0 (effAddr (stepCtx s 0) 2 1 0) 1) 0 (effAddr (stepCtx s 0) 2 1 0) 1 = false) ∧
    (let s := on 6 {}
     runs s 6 = true ∧ modeOk 1 0 = true ∧ accessFault 6 (effAddr (stepCtx s 6) 1 0 0xFFF) 1 1 .bitWr false = none ∧
     uncorr s 6 (effAddr (stepCtx s 6) 1 0 0xFFF) 1 = false) ∧
    (let s := onC0 {}
     runs s 0 = true ∧ chRange s 0 (bitChan (stepCtx s 0) 3 0 3) = false ∧
     chTypeBad (chEntry s 0 3).2 0 3 0 = false ∧ chRange s 0 (bitChan (stepCtx s 0) 3 0 4) = false ∧
     chTypeBad (chEntry s 0 4).2 0 4 0 = false ∧ chRefused (chEntry s 0 4).2 0 4 = none) := by decide +kernel

theorem wit_ChecksBeforeEffects :
    (let s := on 0 { x := [(1, 0x00A00000)] }
     runs s 0 = true ∧ modeOk 2 1 = true ∧
     accessFault 0 (effAddr (stepCtx s 0) 2 1 (0 * tySize 3)) (tySize 3) (tySize 3) .load (3 == 4) = some 0x0412 ∧
     accessFault 0 (effAddr (stepCtx s 0) 2 1 0) 1 1 .bitWr false = some 0x0412 ∧
     region (effAddr (stepCtx s 0) 2 1 (0 * tySize 3)) (tySize 3) = none) ∧
    (let s := on 0 { x := [(1, 2)] }
     accessFault 0 (effAddr (stepCtx s 0) 2 1 (0 * tySize 3)) (tySize 3) (tySize 3) .load (3 == 4) = some 0x0413) ∧
    runs (on 6 {}) 6 = true ∧ 0xFC000000 / 2 ^ 26 % 64 = 0x3F ∧ 0 / 2 ^ 26 % 64 = 0 := by decide +kernel

theorem wit_TimersAndCounters :
    (let s := on 0 { x := [(1, 4095)] }
     runs s 0 = true ∧ cellNo (stepCtx s 0) true 1 0 < cellCount 0 ∧ cellCount 0 ≤ cellNo (stepCtx s 0) true 1 1) ∧
    (let s := on 6 {}
     cellNo (stepCtx s 6) false 0 255 < cellCount 6 ∧ cellCount 6 ≤ cellNo (stepCtx s 6) false 0 256 ∧
     modeOk 0 0 = true ∧ accessFault 6 (effAddr (stepCtx s 6) 0 0 (4 * 16)) 16 16 .store false = none ∧
     uncorr s 6 (effAddr (stepCtx s 6) 0 0 (4 * 16)) 16 = false) ∧
    (let s := on 0 {}
     accessFault 0 (effAddr (stepCtx s 0) 1 0 (4 * 16)) 16 16 .store false = none ∧
     uncorr (rmwDrain s 0 (effAddr (stepCtx s 0) 1 0 (4 * 16)) 16) 0 (effAddr (stepCtx s 0) 1 0 (4 * 16)) 16 = false) := by
  decide +kernel

theorem wit_TonShowsQAfterPreset :
    (let s := on 0 { lb := true }
     runs s 0 = true ∧ (getCore s 0).ctx.lb = true ∧ cellNo (stepCtx s 0) false 0 4095 < cellCount 0 ∧
     (getTimer s (cellKey 0 (cellNo (stepCtx s 0) false 0 4095))).inp = false) := by decide +kernel

theorem wit_WordsAndBlocks :
    (let s := on 0 { x := [(1, 0x10), (2, 0x18)] }
     runs s 0 = true ∧ modeOk 0 0 = true ∧ accessFault 0 (effAddr (stepCtx s 0) 0 0 (2 * tySize 5)) 8 8 .load (5 == 4) = none ∧
     uncorr s 0 (effAddr (stepCtx s 0) 0 0 (2 * tySize 5)) 8 = false ∧
     accessFault 0 (effAddr (stepCtx s 0) 0 0 (2 * tySize 5)) 8 8 .store (5 == 4) = none ∧
     moveFault 0 (getX (stepCtx s 0) 1) (getX (stepCtx s 0) 2) (4095 + 1) = none ∧
     uncorr s 0 (getX (stepCtx s 0) 1) (4095 + 1) = false) := by decide +kernel

theorem wit_TableElements :
    (let s := on 0 { x := [(1, 0x10), (2, 16383), (3, 16384), (4, 4), (5, 5)] }
     let k := stepCtx s 0
     runs s 0 = true ∧ accessFault 0 ((getX k 1 + getX k 2 * tySize 1) % 2 ^ 32) 1 1 .load (1 == 4) = none ∧
     getX k 2 < (if 0 = 0 then 16384 else 0) ∧ uncorr s 0 ((getX k 1 + getX k 2 * tySize 1) % 2 ^ 32) 1 = false ∧
     (if 0 = 0 then 16384 else 0) ≤ getX k 3 ∧ accessFault 0 ((getX k 1 + getX k 3 * tySize 1) % 2 ^ 32) 1 1 .load (1 == 4) = none ∧
     getX k 4 < (if 5 = 0 then 16384 else 5) ∧ (if 5 = 0 then 16384 else 5) ≤ getX k 5) := by decide +kernel

theorem wit_SafetyCoreLoadsWhatItStored :
    (let s := on 7 { wa := 5 }
     runs s 7 = true ∧ modeOk 1 0 = true ∧ accessFault 7 (effAddr (stepCtx s 7) 1 0 (511 * tySize 5)) 8 8 .store false = none ∧
     uncorr s 7 (effAddr (stepCtx s 7) 1 0 (511 * tySize 5)) 8 = false) := by decide +kernel

theorem wit_StoresWaitInOrder :
    (let s := on 0 { wa := 5, x := [(1, 0x10000000)] }
     runs s 0 = true ∧ modeOk 0 0 = true ∧ effAddr (stepCtx s 0) 0 0 (3 * tySize 3) < 0x01000000 ∧
     accessFault 0 (effAddr (stepCtx s 0) 0 0 (3 * tySize 3)) 4 4 .store (3 == 4) = none ∧ (getCore s 0).sb.length < 16 ∧
     modeOk 2 1 = true ∧ 0x01000000 ≤ effAddr (stepCtx s 0) 2 1 (0 * tySize 3) ∧
     accessFault 0 (effAddr (stepCtx s 0) 2 1 (0 * tySize 3)) 4 4 .store (3 == 4) = none ∧ (getCore s 0).posted.length < 32) := by
  decide +kernel

theorem wit_SafetyCoreStoresFrame :
    (let s := on 6 {}
     let k := stepCtx s 6
     runs s 6 = true ∧ modeOk 0 0 = true ∧ accessFault 6 (effAddr k 0 0 9) 1 1 .bitWr false = none ∧
     uncorr s 6 (effAddr k 0 0 9) 1 = false ∧
     accessFault 6 (effAddr k 0 0 (9 * tySize 5)) (tySize 5) (tySize 5) .store false = none ∧
     accessFault 6 (effAddr k 0 0 (9 * 16)) 16 16 .store false = none ∧ uncorr s 6 (effAddr k 0 0 (9 * 16)) 16 = false ∧
     Memory.wf s.mem = true) := by decide +kernel

theorem wit_AluAndConversions :
    (let s := on 0 { wa := 7, wb := 3 }
     runs s 0 = true ∧ ¬ (3 ∈ [6, 7]) ∧ [6, 7][1]? = some 7 ∧ [3, 4, 5, 6, 7][0]? = some 3 ∧
     ¬ (true = true ∧ 3 ≤ 5 ∧ acc (stepCtx s 0) true % 2 ^ tyBits 3 = 0) ∧
     (let z := on 0 { wa := 7 }
      runs z 0 = true ∧ acc (stepCtx z 0) true % 2 ^ tyBits 3 = 0)) := by decide +kernel

theorem wit_MemoryFormsAndImmediates :
    (let s := withM [(0x100, 4, 6)] (on 0 { wa := 7 })
     let k := stepCtx s 0
     runs s 0 = true ∧ modeOk 0 0 = true ∧ accessFault 0 (effAddr k 0 0 (0x40 * tySize 3)) 4 4 .load (3 == 4) = none ∧
     uncorr s 0 (effAddr k 0 0 (0x40 * tySize 3)) 4 = false ∧
     ¬ (leNat (memRd s 0 (effAddr k 0 0 (0x40 * tySize 3)) 4).1 % 2 ^ tyBits 3 = 0) ∧
     leNat (memRd s 0 (effAddr k 0 0 (0x41 * tySize 3)) 4).1 % 2 ^ tyBits 3 = 0 ∧
     accessFault 0 (effAddr k 0 0 (0x41 * tySize 3)) 4 4 .load (3 == 4) = none ∧
     uncorr s 0 (effAddr k 0 0 (0x41 * tySize 3)) 4 = false) := by decide +kernel

theorem wit_IntegerResultsWrap : 2 ^ 31 < 2 ^ tyBits 3 ∧ 2 ^ 32 - 1 < 2 ^ tyBits 3 ∧ 2 ^ 64 - 1 < 2 ^ tyBits 5 ∧
    (aluDiv 3 7 2).2.v = false ∧ tyBits 4 ≤ 32 := by decide +kernel

theorem wit_CompareAndCombine : runs (on 7 { wa := 7 }) 7 = true ∧ runs (on 0 { wa := 7 }) 0 = true := by decide +kernel

theorem wit_IndexRegisters : runs (on 0 { x := [(1, 0xFFFFFFFF)] }) 0 = true ∧ 2 ^ 14 - 1 < 2 ^ 14 ∧ 2 ^ 16 - 1 < 2 ^ 16 := by
  decide +kernel

theorem wit_RegisterInstructionsTouchTheirContext :
    (match exec (.lbopNot 0 0) (on 0 {}) with | .next _ => true | _ => false) = true := by decide +kernel

theorem wit_ChannelInstructions :
    (let s := onC0 { x := [(1, 16384)] }
     let k := stepCtx s 0
     runs s 0 = true ∧ chRange s 0 (chanNo k true 1 0) = true ∧ chRange s 0 (chanNo k false 0 16383) = false ∧
     (getChan (chEntry s 0 16383).2 16383).cached.used = false ∧ chTypeBad (chEntry s 0 3).2 0 3 0 = false ∧
     chTypeBad (chEntry s 0 4).2 0 4 0 = false ∧ chRefused (chEntry s 0 4).2 0 4 = none ∧ 16383 < nChan s ∧
     chTypeBad (chEntry s 0 3).2 0 3 1 = true ∧ nChan s ≤ chanNo k true 1 0) ∧
    (let s := setChan (onC0 {}) 5 { cached := { src := 1, types := 0, mode := 1, ownKind := 1, ownInst := 3 } }
     chTypeBad (chEntry s 0 5).2 0 5 0 = false ∧
     coreOwns (getChan (chEntry s 0 5).2 5).cached (taskOn (chEntry s 0 5).2 0) = false) ∧
    (let s := { on 6 {} with saf := { img := { map := [(3, ⟨7, 1, 0, 0, 0, 0, 0, 15, 0⟩)] }, busyA := true, busyB := true } }
     runs s 6 = true ∧ chRange s 6 3 = false ∧ (mapAt s 3).isSome = true ∧ (mapAt s 3).map (fun m => m.kind) ≠ some 5) ∧
    runs (on 6 {}) 6 = true := by decide +kernel

/-- A slot with 64 bytes of code, and tasks C0, ERROR, FAULT, TIME and USER0, each with a segment and an area. -/
def slot : Slot :=
  { gen := 5, codeLen := 64, entries := [(8, 4), (20, 8), (24, 12), (28, 12), (32, 16)], faultArea := 0x400,
    evAreas := [(7, 0x500), (8, 0x600)] }

/-- Core 0 with the slot as the active one. -/
def coded (k : Ctx) : State := { on 0 k with tsk := { slotA := slot } }

theorem wit_JumpsAndCalls :
    (let s := coded { pc := 56, x := [(1, 60), (2, 62), (3, 1)] }
     let k := stepCtx s 0
     runs s 0 = true ∧ 0 ≤ (((getCore s 0).ctx.pc % 2 ^ 32 : Nat) : Int) + 4 * sint 26 1 ∧
     (((getCore s 0).ctx.pc % 2 ^ 32 : Nat) : Int) + 4 * sint 26 1 < codeLen s 0 ∧
     ¬ (((getCore s 0).ctx.pc % 2 ^ 32 : Nat) : Int) + 4 * sint 26 2 < codeLen s 0 ∧
     (((getCore s 0).ctx.pc % 2 ^ 32 : Nat) : Int) + 4 * sint 22 (2 ^ 22 - 14) = 0 ∧ k.calls.length < 32 ∧
     getX k 1 < codeLen s 0 ∧ getX k 1 % 4 = 0 ∧ getX k 2 < codeLen s 0 ∧ getX k 2 % 4 ≠ 0 ∧ k.calls = []) ∧
    32 ≤ (stepCtx (coded { calls := List.replicate 32 4 }) 0).calls.length ∧
    (stepCtx (coded { calls := [4] }) 0).calls = [4] := by decide +kernel

theorem wit_CallThenReturn :
    (let s := coded { pc := 8 }
     runs s 0 = true ∧ (getCore s 0).ctx.calls.length < 32 ∧ 0 ≤ (((getCore s 0).ctx.pc % 2 ^ 32 : Nat) : Int) + 4 * sint 26 2 ∧
     (((getCore s 0).ctx.pc % 2 ^ 32 : Nat) : Int) + 4 * sint 26 2 < codeLen s 0) := by decide +kernel

theorem wit_CallsToEnginesAndFences :
    (let d := withM [(0x104, 4, 64)] (on 0 { x := [(1, 0x100)] })
     let r := withF [(hState .profCh, 2, 1, 0)] d
     let b := descBad d 1 2 1 (getX (stepCtx d 0) 1)
     let rb := descBad r 1 2 1 (getX (stepCtx r 0) 1)
     runs d 0 = true ∧ fnAssigned 1 2 = true ∧ instExists d 1 2 1 = true ∧ b.1 = false ∧
     instExists b.2.2.2 1 2 (callInst b.2.1 1) = true ∧ callRefused b.2.2.2 1 2 1 = some 4 ∧
     runs r 0 = true ∧ rb.1 = false ∧ callRefused rb.2.2.2 1 2 1 = none ∧
     (descBad d 1 2 1 0x104).1 = true ∧ (descBad (fenceX d 0) 1 2 1 0x104).1 = true ∧
     (getCore (fenceX d 0) 0).run = (getCore d 0).run) ∧
    (let e := withM [(0x100, 4, 200), (0x104, 4, 64)] (on 0 {})
     let b := descBad e 1 2 0x1FF 0x100
     b.1 = false ∧ instExists b.2.2.2 1 2 (callInst b.2.1 0x1FF) = false) ∧
    runs (on 6 {}) 6 = true := by decide +kernel

theorem wit_FenceMDrainsStores :
    (let s := setCore State.reset 0 { sb := [⟨0x100, 255, 7, false, 0, 0⟩, ⟨0x01030000, 255, 7, false, 0, 0⟩] }
     runs s 0 = true ∧ isOutSlot 0x100 = false ∧ isOutSlot 0x01030000 = true) := by decide +kernel

theorem wit_TaskControlAndSpecialRegisters :
    (let s := coded { pc := 8, x := [(1, 0x80000000)] }
     runs s 0 = true ∧ (stepCtx s 0).br = [] ∧ hasTask s (8 + 0) = true ∧ hasTask s (8 + 7) = false ∧
     bitOf (getX (stepCtx s 0) 1) 31 = true ∧ bitOf (getX (stepCtx s 0) 2) 31 = false) ∧
    (stepCtx (coded { br := [(true, true)] }) 0).br ≠ [] ∧ runs (on 6 {}) 6 = true ∧ atClose (on 0 {}) = false ∧
    atTend (on 6 {}) = false ∧ (getCore (on 0 {}) 0).run = none ∧
    (let s := { on 6 {} with ns := 9960000, regs := (withF [(hState .saf, 2, 0, 0)] State.reset).regs,
                             saf := { pend := true, busyA := true, busyB := true } }
     runs s 6 = true ∧ runs (tendDue s) 6 = false) ∧
    (let s := { setSeg State.reset 9 { ph := .ready, ord := 3 } with cores := [(0, { run := some 8 })] }
     runs s 0 = true ∧ (getCore s 0).run = some 8 ∧ (getSeg s 9).ph = .ready ∧ segCore s 9 = segCore s 8 ∧
     rank s (9 / 4) = rank s (8 / 4)) := by decide +kernel

theorem wit_FaultsArePrecise :
    (getCore (on 0 {}) 0).run = none ∧ (getCore (on 0 {}) 0).le.valid = false ∧
    (let s := setCore State.reset 0 { le := { valid := true, code := 0x0410 } }
     (getCore s 0).run = none ∧ (getCore s 0).le.valid = true) := by decide +kernel

/-! ## Tasks, restart, units -/

/-- A program runs: its cyclic tasks are released, and the slot is the active one. -/
def prog : State := { State.reset with tsk := { slotA := slot, ph := .running, rel := true } }

/-- `prog` with task 2 released, its one segment in a phase. -/
def taskAt (ph : SegPh) : State := setSeg (setTask prog 2 { live := true }) 8 { ph := ph }

theorem wit_TaskEventsAndTimeline :
    (let s := taskAt (.atBarrier 3)
     (getTask s 2).live = true ∧ barrierMet s 2 = some 3) ∧
    (let s := setF (setSeg (taskAt (.atBarrier 3)) 9 { ph := .atBarrier 4 }) R.TSK_T_CFG_NSEG 1 0 2
     (getTask s 2).live = true ∧ barrierMixed s 2 = true) ∧
    (let e := SegPh.inEcall 1 5 0x200 1000
     let s := taskAt e
     let d := withM [(0x208, 4, 5), (0x20C, 4, 0x80000000)] s
     (getSeg d 8).ph = e ∧ rdN d (0x200 + 8) 8 / 2 ^ 63 = 1 ∧ rdN d (0x200 + 8) 8 % 2 ^ 32 = 5 ∧
     (getSeg s 8).ph = e ∧ ¬ (rdN s (0x200 + 8) 8 / 2 ^ 63 = 1 ∧ rdN s (0x200 + 8) 8 % 2 ^ 32 = 5) ∧ tickNs s < 1000 ∧
     1000 ≤ tickNs { s with ticks := 1000 }) ∧
    (let s := { prog with tsk := { prog.tsk with fq := [{ fault := 0x0410 }] } }
     s.tsk.fq = { fault := 0x0410 } :: [] ∧ (getTask s 6).live = false ∧ tasksOn s = true ∧
     hasTask (setF { s with tsk := { s.tsk with fq := [] } } R.TSK_FQ_COUNT 0) 6 = true) ∧
    (let s := setTask prog 7 { evq := [{ source := 0x03 }] }
     (getTask s 7).evq = { source := 0x03 } :: [] ∧ (getTask s 7).live = false ∧ tasksOn s = true ∧ hasTask s 7 = true ∧
     evArea (setF (setTask s 7 { getTask s 7 with evq := [] }) R.TSK_T_STAT_QLEN 0 0 7) 7 = some 0x500) ∧
    ((getTask (setTask prog 5 { live := true }) 5).live = true ∧ inClassFault prog 0 = false ∧
     hasTask prog (0 + 2) = true ∧ (getTask prog (0 + 2)).live = false ∧ (getTask (taskAt .ready) (0 + 2)).live = true) :=
  by decide +kernel

theorem wit_TaskEventsAndTimeline_instants :
    (let s7 (s : State) : State :=
       let x := { s with done := mput 0 s.done 0 (s.ticks + 1) }
       let t0 := nextStart x 0
       let cs := classesAt x t0
       let s1 := forEach (List.range (nPort x)) x evalPort
       let s2 := if t0 % period s1 3 = 0 then safInputClose s1 t0 else s1
       let s3 := forEach cs s2 (fun x c => forEach (chanList s2) x (closeChan t0 c))
       let s4 := forEach cs s3 (fun x c => forEach (chanList s2) x (latchClass c))
       let s5 := closeStats s4 cs
       let s6 := forEach (List.range (nAxis s5)) s5 axStationCheck
       { s6 with lnk := { s6.lnk with stas := s6.lnk.stas.map (fun x => (x.1, { x.2 with got := none })) } }
     let s := at_ 240000
     let d := withF [(R.PAIR_CFG_PAIRED, 1, 0, 0), (hState .pair, 2, 0, 0), (R.PAIR_ROLE_ROLE, 1, 0, 0),
       (R.LNK_EPOCH_MAX_EPOCH, 7, 0, 0)] s
     atClose s = true ∧ undone s 0 = true ∧ pairOn (s7 s) = false ∧ atClose d = true ∧ undone d 0 = true ∧
     pairOn (s7 d) = true ∧ role (s7 d) = 1 ∧ roleEpoch (s7 d) < getF (s7 d) R.LNK_EPOCH_MAX_EPOCH ∧
     atClose (at_ 239996) = false ∧ undone { s with done := [(0, 1)] } 0 = false ∧ undone (closes s) 1 = true) ∧
    (let s := { prog with ns := 250000 }
     let y := deliveries s
     atStart s = true ∧ undone y 2 = true ∧ y.tsk.ph = .running ∧ owns y = true ∧ y.tsk.rel = true ∧ y.time.skipTo = 0 ∧
     y.tsk.migTo ≤ now y ∧ atStart (at_ 249996) = false) ∧
    (let s := chans (setChan State.reset 9 { latched := { src := 1, types := 0, mode := 2 } })
     (getChan s 9).latched.used = true ∧ (getChan s 9).latched.isOut = false ∧ (getChan s 9).latched.cls = 1 ∧
     (getChan s 9).latched.cls ≠ 0) ∧
    (let s := withF [(hState .lnkPort, 2, 63, 0), (R.LNK_P_CFG_NF, 1, 63, 0)] (at_ 121000)
     let y := deadlineDue (closes s)
     atFast s 63 = true ∧ undone s (16 + 63) = true ∧ undone y (32 + 63) = true ∧ atFast s 62 = false) := by decide +kernel

theorem wit_KeyStopAndRestart :
    (let s (k code : Nat) :=
       let s := withF [(R.TSK_KEY_POS, k, 0, 0)] prog
       latch (let s0 := setF (setF (setF s R.TSK_KEY_POS code) R.TSK_KEY_RAW code) R.TSK_KEY_KFAULT 0
              { s0 with tsk := { s0.tsk with keyAcc := true } }) .tsk 0 32
     let h := withF [(R.TSK_KEY_POS, 2, 0, 0)] prog
     (s 0 1).tsk.ph ≠ .none ∧ keyPos (withF [(R.TSK_KEY_POS, 0, 0, 0)] prog) = 0 ∧ (s 1 0).tsk.ph ≠ .none ∧ (s 0 2).tsk.ph ≠ .none ∧
     (s 3 1).tsk.ph ≠ .none ∧ keyPos { h with tsk := { h.tsk with keyAcc := true } } = 2 ∧ (s 2 3).tsk.ph ≠ .none) ∧
    (let s := { prog with tsk := { prog.tsk with due := some (true, 2, false), ph := .init true } }
     s.tsk.due = some (true, 2, false) ∧ (actSlot s).gen ≠ 0 ∧ (actSlot State.reset).gen = 0 ∧
     s.tsk.ph = .init true ∧ (getTask s (if true then 1 else 0)).live = false ∧
     (getTask s (if true then 1 else 0)).faulted = false ∧ reaches s (period s 2) 0 = true) ∧
    (let s := withF [(R.TSK_KEY_POS, 1, 0, 0)] prog
     keyPos prog ≠ 1 ∧ keyPos s = 1 ∧ owns s = true ∧ warmOk s = false ∧
     owns (withF [(R.PAIR_ROLE_ROLE, 3, 0, 0)] s) = false) ∧
    (let s := { prog with mram := { prog.mram with dirty := [8192 + 8191, 8192] } }
     (pagesFor s (copyBank s)).contains 8191 = true ∧ pagesFor (pageCopy s (copyBank s) 8191) (copyBank s) ≠ [] ∧
     pagesFor (pageCopy (pageCopy s (copyBank s) 8191) (copyBank s) 0) (copyBank s) = []) ∧
    { prog with tsk := { prog.tsk with haltPend := true } }.tsk.haltPend = true := by decide +kernel

theorem wit_OnlineChangeAndProfiles :
    (let s := withF [(R.TSK_KEY_POS, 1, 0, 0), (R.TSK_SLOT_OLC, 1, 0, 0)] prog
     let t := withF [(R.TSK_KEY_POS, 1, 0, 0), (R.TSK_SLOT_OLC, 3, 0, 0)] prog
     keyPos s = 1 ∧ owns s = true ∧ getF s R.TSK_SLOT_OLC = 1 ∧ keyPos prog ≠ 1 ∧ getF t R.TSK_SLOT_OLC = 3 ∧ keyPos t < 3 ∧
     owns t = true ∧ getF (withF [(R.TSK_SLOT_OLC, 2, 0, 0)] s) R.TSK_SLOT_OLC = 2 ∧
     reaches (withF [(R.TSK_SLOT_OLC, 2, 0, 0)] s) (period s 2) 0 = true ∧
     getF (withF [(R.TSK_SLOT_OLC, 4, 0, 0)] s) R.TSK_SLOT_OLC = 4) ∧
    (let s := { prog with tsk := { prog.tsk with profiles := [(3, { stored := true })] } }
     let c := withF [(R.TSK_PROF_SRCSEL, 1, 0, 0)] s
     keyPos s ≠ 3 ∧ owns s = true ∧ (getProfile s 3).stored = true ∧ getB s R.TSK_PROF_SRCSEL = false ∧
     (getProfile s 0).stored = false ∧ getB c R.TSK_PROF_SRCSEL = true ∧
     keyPos (withF [(R.TSK_KEY_POS, 3, 0, 0)] s) = 3 ∧ keyPos (withF [(R.TSK_KEY_POS, 2, 0, 0)] s) = 2 ∧ s.tsk.profSw = none ∧
     (let q := { s with tsk := { s.tsk with profReq := some 3 } }
      switchStarts q = true ∧ q.tsk.profLate = [] ∧ 3 ≠ getF q R.TSK_PROF_ACT) ∧
     (let w := { at_ 100000 with tsk := { prog.tsk with profSw := some { target := 3, insts := [], tb := 5 } } }
      5 < now w ∧ w.tsk.profSw.isSome = true) ∧ reaches prog (period prog 0) 0 = true) := by decide +kernel

theorem wit_UnitRequests :
    (let s := withF [(R.TSK_KEY_POS, 1, 0, 0)] State.reset
     let r (v busy : Nat) := withF [(hState .profCh, v, 127, 0), (hBusy .profCh, busy, 127, 0)] s
     127 < copies s .profCh ∧ keyPos s = 1 ∧ getB (r 2 1) (hBusy .profCh) 127 = true ∧ getB (r 2 0) (hBusy .profCh) 127 = false ∧
     stOf (r 2 0) .profCh 127 = 2 ∧ stOf (r 0 0) .profCh 127 = 0 ∧ stOf (r 1 0) .profCh 127 = 1 ∧ stOf (r 3 0) .profCh 127 = 3 ∧
     stOf (r 2 1) .profCh 127 = 2 ∧ stOf (r 1 1) .profCh 127 ≠ 2 ∧
     (let y := cfgLand (setSt s .time 0 1) .time 0
      mapCheck y .time 0 = none ∧ resConflict y .time 0 = none ∧ runCode y .time 0 = none) ∧
     (let y := cfgLand (setSt s .vaxAx 63 1) .vaxAx 63
      mapCheck y .vaxAx 63 = none ∧ resConflict y .vaxAx 63 = none ∧ (runCode y .vaxAx 63).isSome = true) ∧
     stOf s .lio 0 < 2 ∧ stOf s .time 0 < 2 ∧ ¬ stOf (setSt s .lio 0 2) .lio 0 < 2 ∧ stOf (r 1 1) .profCh 127 ≠ 2 ∧
     runDue (r 1 1) .profCh = true ∧ runDue s .canCh = false ∧ s.lateCfg = [] ∧ role s = 0 ∧
     role (withF [(R.PAIR_ROLE_ROLE, 3, 0, 0)] s) ≠ 0 ∧ role (withF [(R.PAIR_ROLE_ROLE, 3, 0, 0)] s) ≠ 4 ∧ keyPos s ≠ 2 ∧ keyPos (withF [(R.TSK_KEY_POS, 2, 0, 0)] s) = 2) := by
  decide +kernel

theorem wit_EventsLatchAndClear :
    (let s := withF [(hEn .canCh, 2, 3, 0)] prog
     let old := getF s (hLat .canCh) 3
     let f (m : Nat) := (m ^^^ (m &&& old)) &&& getF s (hEn .canCh) 3
     let s1 (m : Nat) := setF s (hLat .canCh) (old ||| m) 3
     3 < copies s .canCh ∧ f 1 = 0 ∧ f 2 ≠ 0 ∧ s.tsk.rel = true ∧ hasTask (s1 2) (8 + getF s (hUser .canCh) 3) = true ∧
     (getTask s (8 + getF s (hUser .canCh) 3)).evq.length < 16) ∧
    (let s := withF [(hEn .canCh, 2, 3, 0), (hUser .canCh, 7, 3, 0)] prog
     hasTask (setF s (hLat .canCh) 2 3) (8 + getF s (hUser .canCh) 3) = false) ∧
    (let s := setTask (withF [(hEn .canCh, 2, 3, 0)] prog) 8 { evq := List.replicate 16 {} }
     16 ≤ (getTask s (8 + getF s (hUser .canCh) 3)).evq.length) ∧
    (let s := withF [(hEn .canCh, 2, 3, 0)] { prog with tsk := { prog.tsk with rel := false } }
     s.tsk.rel = false ∧ s.tsk.held = []) ∧
    (let s := withF [(hLat .canCh, 2, 3, 0), (hDyn .canCh, 2, 3, 0)] prog
     getF s (hDyn .canCh) 3 &&& 2 &&& (0xFFFFFFFF ^^^ getF s (hEdge .canCh) 3) &&& getF s (hLat .canCh) 3 ≠ 0) := by decide +kernel

theorem wit_UnitErrorsAreKeptUntilRead : 63 < copies State.reset .lnkPort ∧ 0x1234 < 2 ^ 16 ∧ 0x1234 % 256 ≠ 0 ∧ 0x0CFF < 2 ^ 16 ∧
    State.reset.recQ.length < 63 := by decide +kernel

theorem wit_RegisterWordsUnderAccessCodes :
    (let s := withF [(hState .profCh, 1, 127, 0)] State.reset
     let a := Blk.base .profCh + 127 * Blk.step .profCh + 0x40
     blkAt a = some (.profCh, 127, 0x40) ∧ 0x40 % 4 = 0 ∧ 127 < copies s .profCh ∧ isLoopMem a = false ∧
     cmdWrite s false .profCh 127 0x40 5 = none ∧ stOf s .profCh 127 = 1 ∧ stOf State.reset .profCh 127 ≠ 1) ∧
    (let a := Blk.base .tsk + 0x60
     blkAt a = some (.tsk, 0, 0x60) ∧ cmdWrite State.reset false .tsk 0 0x60 5 = none) ∧
    (let s := withF [(hState .profCh, 1, 127, 0), (hBusy .profCh, 1, 127, 0)] State.reset
     absentReg s .profCh 127 0x40 = false ∧ stOf s .profCh 127 = 1 ∧ getB s (hBusy .profCh) 127 = true ∧
     (fieldsAt .profCh 0x40).isEmpty = false) ∧
    (let s := withF [(R.SYS_ORDER_VARIANT, 1, 0, 0)] State.reset
     blkAt (Blk.base .trc + 0x80) = some (.trc, 0, 0x80) ∧ absentReg s .trc 0 0x80 = true) ∧
    (fieldsAt .profCh 0x40).all (fun f => f.1.acc == .cfg) = true := by
  decide +kernel

theorem wit_AbsentInstancesReadZero : isP16 (withF [(R.SYS_ORDER_VARIANT, 1, 0, 0)] State.reset) = true ∧ 0x3FF < Blk.step .lnkPort ∧
    0xFF < Blk.step .vaxAx := by decide +kernel

theorem wit_ChannelUnitCommands :
    (let s := withF [(R.TSK_KEY_POS, 1, 0, 0)] State.reset
     let cfg := withF [(hState .lio, 1, 0, 0)] (withM [(0x02000000 + 64 * 16383, 1, 2)] s)
     16383 < nChan s ∧ 63 + 1 ≤ 64 ∧ inRun s .saf = false ∧ keyPos State.reset ≠ 1 ∧
     mapOwner (tableEntry cfg 16383) = (.lio, 0) ∧ stOf cfg .lio 0 = 1 ∧
     mapOwner (entryWith cfg 16383 (0x02000000 + (64 * 16383 + 1)) (maskBytes chBits 1 [1])) = (.lio, 0) ∧
     stOf s (mapOwner (tableEntry s 0)).1 (mapOwner (tableEntry s 0)).2 ≠ 1 ∧
     (getChan s 16383).inv = false ∧ bitOf (2 ^ 31) 31 = true) ∧
    (let s := withF [(R.CHN_REFILL_PEND, 2, 0, 0)] (setChan State.reset 9 { inv := true })
     (getChan s 9).inv = true ∧ 1 < getF s R.CHN_REFILL_PEND) ∧
    (let s := withF [(R.TSK_KEY_POS, 1, 0, 0)] State.reset
     ctlCheck State.reset true 1 5 = some 0x0514 ∧ ctlCheck s true 0 5 = none ∧ ctlCheck s false 0 5 = none ∧
     ctlCheck State.reset false 2 (2 ^ 14 - 1) = some 0x0517) ∧
    (let s := withM [(stAddr 33 0x11, 1, 3)] (withF [(R.TSK_KEY_POS, 1, 0, 0)] State.reset)
     1 * 32 < nSta s ∧ 7 * 32 < nSta s ∧ bitOf 2 1 = true ∧ bitOf (getF s R.CHN_SIM_SIM 0 1) 1 = false ∧ stSafety s (1 * 32 + 1) = true ∧
     stSafety s (7 * 32 + 31) = false ∧ 2 ≠ getF s R.CHN_SIM_SIM 0 1) := by decide +kernel

/-- A frame from the bytes before its FCS, padded. -/
def framed (l : List Byte) : List Byte :=
  let f := l ++ List.replicate (60 - l.length) 0
  f ++ leBytes 4 (crcEth f)

/-- A Scaty frame of a type to or from position `q`, with CYC, the minor cycle and the bytes from 30 on. -/
def scaty (ftype cyc minor q : Nat) (body : List Byte) : List Byte :=
  framed (List.replicate 12 0 ++ [0x88, 0xB5] ++ leBytes 1 1 ++ leBytes 1 ftype ++ leBytes 2 0 ++ leBytes 4 0 ++ leBytes 2 cyc ++
    leBytes 1 minor ++ leBytes 1 q ++ leBytes 4 0 ++ body)

/-- Port 0 in RUN at an instant, its link up, with station 0 configured, in INIT. -/
def portAt (t : Nat) : State :=
  withM [(stAddr 0 0x11, 1, 1), (stAddr 0 0x80, 1, 1)] (withF [(hState .lnkPort, 2, 0, 0), (R.LNK_P_LINK_UP, 1, 0, 0)] (at_ t))

/-- A request of class 1 to position 0. -/
def areq : AReq := { pos := 0, svc := 4, token := 1, cls := 1, since := 0, tmo := 5 }

theorem wit_FieldLinks_receive :
    (let s := portAt 806000
     let fr := scaty 2 4 0 0 []
     0 < nPort s ∧ inRun s .lnkPort 0 = true ∧ rxKind [] 2 = .badFcs ∧ rxKind (framed []) 6 = .bad ∧ frF fr 25 1 = 0 ∧
     stConfigured s (4 * 0 + 0) = true ∧ rxKind fr 2 = .ok ∧
     (let f := parseIn fr (rxStamp s fr)
      let t0 := ((now s + s.tl.tGuard) / period s 0 + 1) * period s 0
      let n := t0 / period s 0
      let o := t0 - s.tl.tSl + (((getPort s 0).slots.find? (fun x => x.1 == 0)).map Prod.snd).getD 0
      (n + 65536 - f.cyc) % 65536 = 0 ∧ t0 ≤ now s + s.tl.tSl ∧ inSlot s fr o 0 0 (wire (inPayload s 0)) = true ∧
      inSlot (portAt 850000) fr o 0 0 (wire (inPayload s 0)) = false ∧ (rxEpoch s 0 f.epoch).2 = false ∧
      owns (rxEpoch s 0 f.epoch).1 = true ∧ f.data.length = stInLen s 0 ∧ frF fr 52 2 = stInLen s 0 ∧
      f.cfgId = (getSta (rxEpoch s 0 f.epoch).1 0).cfgId ∧
      (n + 65536 - (parseIn (scaty 2 3 0 0 []) 0).cyc) % 65536 = 1 ∧
      32768 ≤ (n + 65536 - (parseIn (scaty 2 5 0 0 []) 0).cyc) % 65536)) ∧
    (let s := portAt 741000
     let t0 := ((now s + s.tl.tGuard) / period s 0 + 1) * period s 0
     now s + s.tl.tSl < t0 ∧ (t0 / period s 0 + 65536 - (parseIn (scaty 2 4 0 0 []) 0).cyc) % 65536 = 0) ∧
    (let s := withF [(R.LNK_P_CFG_NF, 1, 0, 0)] (portAt 476000)
     let fr := scaty 4 2 0 0 []
     let tf := period s 0 / nFast s 0
     let tj := ((now s + 4000) / tf + 1) * tf
     2 ≤ nFast s 0 ∧ rxKind fr 4 = .ok ∧ frF fr 24 1 < nFast s 0 ∧
     (tj / tf + 65536 * nFast s 0 - (frF fr 22 2 * nFast s 0 + frF fr 24 1)) % (65536 * nFast s 0) = 0 ∧ tj ≤ now s + s.tl.tFsl ∧
     inSlot s fr (tj - s.tl.tFsl + (((getPort s 0).fslots.find? (fun x => x.1 == 0)).map Prod.snd).getD 0) 0 0
       (wire (finPayload s 0)) = true ∧ (rxEpoch s 0 (frF fr 18 4)).2 = false ∧ frF fr 30 2 = stFinLen s 0) ∧
    (let fr (more : Byte) := scaty 6 0 0 0 [4, 0, 1, 0, 0, 0, 0, more]
     let g : Nat × Nat × Nat := (0, 0, 1000)
     let s := setPort (portAt 10000) 0 { aq := [{ areq with sent := true }], grants := [g], winLen := 100000 }
     rxKind (fr 0) 6 = .ok ∧ rxKind (fr 1) 6 = .ok ∧ grantFor (portAt 806000) 0 0 (fr 0) = none ∧ grantFor s 0 0 (fr 0) = some g ∧
     (let v := getPort s 0
      let left := v.grants.map (fun x => if x = g then (x.1, x.2.1, x.2.2 - frWire (fr 0)) else x)
      let s1 := setPort s 0 { v with grants := left }
      let s2 := (rxEpoch s1 (4 * 0 + 0) (frF (fr 0) 18 4)).1
      ((getPort s2 0).aq.find? (fun e => e.sent && e.pos == 0 && e.token == frF (fr 0) 32 2 && e.svc == frF (fr 0) 30 1 &&
        e.part == frF (fr 0) 36 1)).isSome = true ∧ frF (fr 0) 37 1 ≠ 1 ∧ frF (fr 1) 37 1 = 1)) := by decide +kernel

theorem wit_FieldLinks_send :
    (let s := setSta (setPort (portAt 10000) 0 { aq := [areq] }) 0 { credit := 1 }
     outPath s = true ∧ (getPort s 0).iout = [] ∧ nextReq s 0 = some areq ∧ gapFor s 0 (wire (areqSize areq)) = true) ∧
    (let r : IoutReq := ⟨callOf 4 1 0, 0, [3]⟩
     let c : Chan := { latched := { src := 1, types := 0, mode := 1 } }
     let s := setChan (setPort (portAt 10000) 0 { iout := [r] }) 3 c
     outPath s = true ∧ (getPort s 0).iout = r :: [] ∧ gapFor s 0 (wire (20 + 12 * r.chans.length)) = true ∧
     (ioutBody (r.chans.foldl slotNow s) r.chans).1 ≠ []) ∧
    (let s := setSta (portAt 100000000) 0 { ph := .ident }
     let d := setSta (portAt 900000000) 0 { ph := .ident }
     posList s 0 = [0] ∧ polls s (4 * 0 + 0) = true ∧ class0Open s 0 0 = false ∧ (getSta s (4 * 0 + 0)).polled = false ∧
     0 < nSta s ∧ stState s 0 = 1 ∧
     (let d := { d with sec := 100 }
      (getSta d 0).initAt + getF d R.LNK_P_CFG_T_INIT 0 * 100000000 ≤ now d)) ∧
    (let s := setPort (portAt 10000) 0 { aq := [areq] }
     (getPort s 0).aq = [areq] ∧ areq.cls ≠ 0 ∧ areq.tmo ≤ now s - areq.since ∧ getB s R.LNK_P_LINK_UP 0 = true) := by decide +kernel

theorem wit_FieldLinks_calls :
    (let s := called 4 0 255 State.reset
     let s1 := setEngq s 4 []
     let d := called 4 0 255 (withM [(0x110, 1, 5)] State.reset)
     takeCall s 4 255 0 = some (callOf 4 0 255, s1) ∧ (dsc s1 (callOf 4 0 255) 0 1).1 = 0 ∧
     (dsc (setEngq d 4 []) (callOf 4 0 255) 0 1).1 = 5) ∧
    (let c := callOf 4 1 0
     let z := called 4 1 0 State.reset
     let s := called 4 1 0 (setChan (withM [(0x110, 4, 1), (0x118, 2, 7)] State.reset) 7
       { latched := { src := 1, types := 0, mode := 1 } })
     takeCall z 4 0 1 = some (c, setEngq z 4 []) ∧ (dsc z c 0 4).1 = 0 ∧ takeCall s 4 0 1 = some (c, setEngq s 4 []) ∧
     (dsc (setEngq s 4 []) c 0 4).1 = 1 ∧ (ioutChans (setEngq s 4 []) c 1).1 = [7] ∧
     7 < nChan (ioutChans (setEngq s 4 []) c 1).2 ∧
     (stChans (ioutChans (setEngq s 4 []) c 1).2 0 true false).contains 7 = true) ∧
    (let s := called 4 2 0 State.reset
     let d := called 4 2 0 (withM [(stAddr 0 0x80, 1, 4)] State.reset)
     takeCall s 4 0 2 = some (callOf 4 2 0, setEngq s 4 []) ∧ stState (setEngq s 4 []) 0 ≠ 4 ∧ stState (setEngq d 4 []) 0 = 4 ∧
     takeCall (called 4 3 0 s) 4 0 3 = some (callOf 4 3 0, setEngq s 4 [])) := by decide +kernel

/-- LIO in RUN at an instant, with register fields set. -/
def lioAt (t : Nat) (l : List (Fld × Nat × Nat × Nat)) : State := withF ((hState .lio, 2, 0, 0) :: l) (at_ t)

theorem wit_LocalPoints_supplies :
    (let s := lioAt 900000000 [(R.LIO_VS_STAT_ON, 8, 0, 0)]
     inRun s .lio = true ∧ s.lio.pulse = none ∧ s.lio.pairNext = [] ∧ bitOf (getF s R.LIO_VS_STAT_ON) 3 = true ∧
     getB s R.LIO_VS_CFG_TP_EN 0 3 = true ∧
     pulseDue { s with sec := 60, ns := 5000000 } (getF s R.LIO_VS_CFG_TPI 0 3) (mget s.lio.vsTested 3 none) = true ∧
     (let o := { s with lio := { s.lio with vsOff := [(3, some 5)] } }
      mget o.lio.vsOff 3 none = some 5 ∧ now o < 5 + 1000000000 ∧ 5 + 1000000000 ≤ now { o with sec := 2 }) ∧
     (let t := { s with lio := { s.lio with taken := [(7, 900000000, 1)] } }
      t.lio.taken = [(7, 900000000, 1)] ∧ 900000000 ≤ now t ∧ now (lioAt 899999999 []) < 900000000) ∧
     (let w := setChan { s with lio := { s.lio with loopW := [(7, [(899998000, 5)])] } } 7
        { latched := { src := 2, ownKind := 2, point := 0x40, mode := 1 } }
      w.lio.loopW = [(7, (899998000, 5) :: [])] ∧ 899998000 + 2000 ≤ now w ∧ (getChan w 7).latched.src = 2 ∧
      (getChan w 7).latched.ownKind = 2 ∧
      (launchVal (setChan w 7 { getChan w 7 with outVal := 5 }) 7).1.isSome = true)) := by decide +kernel

theorem wit_LocalPoints_outputs :
    (let s := setDo (lioAt 900000000 [(R.LIO_DO_CFG_RETRY, 1, 0, 15), (R.LIO_DO_CFG_OL_EN, 1, 0, 15)]) 15 { cmd := true }
     15 < 16 ∧ s.lio.pulse = none ∧ onAtNominal (setDo { s with sec := 60 } 15 { cmd := true, nom := some (60000000000, true) }) 15 = true ∧
     getB s R.LIO_DO_CFG_TP_EN 0 15 = true ∧ tpRouted s 15 = false ∧ doPin s 15 = true ∧
     (getDo s 15).cmd = true ∧
     pulseDue { s with sec := 60, ns := 5000000 } (getF s R.LIO_DO_CFG_TPI 0 15) (getDo s 15).tested = true ∧
     getB s R.LIO_DO_CFG_OL_EN 0 15 = true ∧
     (let d := setDo { s with sec := 2 } 15 { cmd := true, off := true, offAt := 5, extv := 3 }
      3 ≤ (getDo d 15).extv ∧ (getDo d 15).off = true ∧ getB d R.LIO_DO_CFG_RETRY 0 15 = true ∧
      (getDo d 15).offAt + 1000000000 ≤ now d)) ∧
    (let s := { lioAt 900000000 [(R.LIO_DO_CFG_WD_TMO, 10, 0, 15)] with lio := { wd := [(15, some 5)] } }
     mget s.lio.wd 15 none = some 5 ∧
     5 + getF s R.LIO_DO_CFG_WD_TMO 0 15 * period s 0 ≤ auxNs { s with ticks := 225000000 } ∧
     auxNs { s with ticks := 2 } < 5 + getF s R.LIO_DO_CFG_WD_TMO 0 15 * period s 0) := by decide +kernel

theorem wit_LocalPoints_analogue :
    (let s := lioAt 15000 [(R.LIO_AI_CFG_RANGE, 2, 0, 15)]
     15 < 16 ∧ 15000 ≤ now s ∧ getF s R.LIO_AI_CFG_RANGE 0 15 ≠ 3 ∧ 2 ≤ getF s R.LIO_AI_CFG_RANGE 0 15 ∧
     (let t := setAi { s with sec := 2 } 15 { shunt := some 5 }
      (getAi t 15).shunt = some 5 ∧ 5 + 1000000000 ≤ now t)) ∧
    (let s (phase : Nat) := lioAt 900000000 [(R.LIO_ROT_STAT_SPARE, 16, 0, 0), (R.LIO_ROT_STAT_PHASE, phase, 0, 0),
       (R.LIO_ROT_STAT_CHAN, 15, 0, 0)]
     reaches (lioAt 0 []) (getF (lioAt 0 []) R.LIO_ROT_CFG_STEP * 1000000000) 0 = true ∧ overlapOver (s 2) 15 = true ∧
     getF (s 0) R.LIO_ROT_STAT_SPARE < 17 ∧ getF (s 0) R.LIO_ROT_STAT_PHASE = 0 ∧ getF (s 1) R.LIO_ROT_STAT_PHASE = 1 ∧
     (s 1).lio.stepAt + 40000000 ≤ now (s 1) ∧ (1000 : Int).natAbs ≤ 1000 ∧ (-5000 : Int).natAbs ≤ 5000 ∧
     getF (s 2) R.LIO_ROT_STAT_PHASE = 2 ∧ getF (s 2) R.LIO_ROT_STAT_CHAN < 16 ∧
     (-5 : Int).natAbs ≤ getF (s 2) R.LIO_ROT_TOL_TOL_MAX ∧ (-5 : Int).natAbs ≤ getF (s 2) R.LIO_ROT_TOL_TOL_HO ∧
     (List.range 16).find? (fun j => convOf (s 2) j == 4 && !(getAi (s 2) j).dead) = some 4 ∧
     17 ≤ getF (lioAt 0 [(R.LIO_ROT_STAT_SPARE, 17, 0, 0)]) R.LIO_ROT_STAT_SPARE) ∧
    (let s := lioAt 0 []
     getB s R.LIO_AO_CFG_MODE 0 3 = false ∧ (20000000 : Int).natAbs ≤ 20000000 ∧
     ((0 : Int) * 3 - aoPin s 3 * 1000).natAbs ≤ 300000 ∧ (getAo s 3).dev = false ∧ (getAo s 3).wire = false) := by decide +kernel

/-- The safety unit in RUN on the owner at an instant, with the trip group 15 configured. -/
def safAt (t : Nat) : State :=
  { withF [(hState .saf, 2, 0, 0)] (at_ t) with
    saf := { img := { groups := [(15, { reset := 2 })], imgA := { decl := [3] }, map := [(3, ⟨7, 1, 0, 0, 0, 0, 0, 15, 0⟩)] } } }

theorem wit_SafetyCycle :
    (let s := safAt 900000000
     let w := { s with saf := { s.saf with pend := true } }
     let c (t : Nat) := { safAt t with saf := { (safAt t).saf with pend := true } }
     atTend (c 9960000) = true ∧ undone (c 9960000) 4 = true ∧ outPath (c 9960000) = true ∧ safActive (c 9960000) = true ∧
     atTend (c 9959996) = false ∧ inRun (at_ 9960000) .saf = false ∧ outPath (withF [(R.PAIR_CFG_PAIRED, 1, 0, 0), (R.PAIR_ROLE_ROLE, 2, 0, 0), (R.PAIR_ROLE_OUTPATH, 0, 0, 0)] s) = false ∧
     (let y := releaseDue (deliveries (safAt 10000000))
      atSafStart (safAt 10000000) = true ∧ undone y 3 = true ∧ safActive y = true ∧ atSafStart (safAt 9999996) = false) ∧
     safActive State.reset = false ∧ safActive s = true ∧ w.saf.pend = true ∧ w.saf.busyA = false ∧ w.saf.busyB = false ∧
     firstDiff (outBlock w 6) (outBlock w 7) = none ∧ grpList w = [15] ∧
     (let s1 := { w with saf := { w.saf with pend := false, blk := w.saf.outA } }
      let r := judgeResets s1 (grpCfg w 15).reset
      grpList r.1 = [15]) ∧
     (let d := { w with saf := { w.saf with outA := [(3, 1)] } }
      firstDiff (outBlock d 6) (outBlock d 7) = some 0) ∧
     s.saf.relAt + 2 * period s 3 ≤ { s with rcNs := 20000000 }.rcNs ∧ s.rcNs < s.saf.relAt + 2 * period s 3 ∧
     (let r := setIn { s with sec := 60 } 2 { rise := some 5, at_ := 60000000000 }
      inRun r .saf = true ∧ grpList r = [15] ∧ (getIn r (grpCfg r 15).reset).rise = some 5 ∧
      bitOf (getF r R.SAF_RST_STUCK) 15 = false ∧ 5 + (grpCfg r 15).tMax * 1000000 ≤ (getIn r (grpCfg r 15).reset).at_) ∧
     (-200 : Int).natAbs ≤ 200 ∧ 200 < (201 : Int).natAbs) := by decide +kernel

theorem wit_EngineTripStopsTheSafetyCores : 0x10 ≤ 0x16 ∧ inRun (safAt 0) .saf = true := by decide +kernel

theorem wit_LoopEngineAndTrace :
    (let s := withF [(hState .loopCtx, 2, 255, 0)] (at_ 900000000)
     let l := setLoop s 255 { smp := some ⟨0, [], none, 0, 1, []⟩ }
     let x := { releases s with done := mput 0 (releases s).done (64 + 255) ((releases s).ticks + 1) }
     atSample s 255 = true ∧ undone (releases s) (64 + 255) = true ∧ 255 < 256 ∧ inRun x .loopCtx 255 = true ∧ owns x = true ∧
     atSample (at_ 900000004) 255 = false ∧ inRun (releases State.reset) .loopCtx 254 = false ∧
     nextUpdate s = none ∧ (nextUpdate l).isSome = true ∧ (nextUpdate (launches l)).isSome = true ∧ lMode s 255 = 0 ∧
     lMode (withF [(R.LOOP_L_STAT_MODE, 3, 255, 0)] s) 255 = 3 ∧ bitOf 0 0 = false ∧
     (let i := setLoop s 255 { inj := some ⟨0, 0, 5, 0, 0, 0, 5, 0, 1, 0, 50000, 1⟩ }
      (getLoop i 255).inj = some ⟨0, 0, 5, 0, 0, 0, 5, 0, 1, 0, 50000, 1⟩ ∧ 5 * 1000000 ≤ 50000 * loopTl i 255 ∧
      0 * loopTl i 255 < 5 * 1000000) ∧
     inRun State.reset .loopCtx 255 = false ∧ inTune (withF [(R.TSK_KEY_POS, 1, 0, 0)] s) = true ∧ inTune s = false ∧
     lBank s 255 ≠ 1 ∧ lBank s 255 = 0 ∧ (0x3FDFC / 0x400 = 255 ∧ 0x3FDFC / 0x200 % 2 = 0) ∧
     tableBusy State.reset (0x7FFFC / 0x2000) = false ∧
     tableBusy (setRawReg (withF [(R.LOOP_L_LAW_DEF, 1, 255, 3)] s) (coefAddr 255 0 3 21) 0x40) 0 = true) ∧
    (let s (fn : Nat) := called 0 fn 255 State.reset
     takeCall (s 0) 0 255 0 = some (callOf 0 0 255, setEngq (s 0) 0 []) ∧
     takeCall (s 3) 0 255 3 = some (callOf 0 3 255, setEngq (s 3) 0 []) ∧
     takeCall (s 4) 0 255 4 = some (callOf 0 4 255, setEngq (s 4) 0 []) ∧
     (takeCallIf (s 5) 0 255 5 0 1 (fun op => op == 0)).isSome = true ∧
     (let t := withM [(0x110, 1, 1)] (s 5)
      (takeCallIf t 0 255 5 0 1 (fun op => op != 0)).isSome = true) ∧
     (callOf 0 0 255).fn = 0 ∧
     (let d := dscBegin (s 0) (callOf 0 0 255)
      let e := dscBegin (withF [(R.LOOP_L_LAW_SP_SRC, 1, 255, 0)] (s 0)) (callOf 0 0 255)
      getF d R.LOOP_L_LAW_SP_SRC 255 (lLaw d 255) = 0 ∧ getF e R.LOOP_L_LAW_SP_SRC 255 (lLaw e 255) ≠ 0) ∧
     (takeCallIf (s 6) 0 255 6 0 1 (fun op => op == 0 || decide (op > 2))).isSome = true ∧
     (takeCallIf (withM [(0x110, 1, 3)] (s 6)) 0 255 6 0 1 (fun op => op == 0 || decide (op > 2))).isSome = true ∧
     (takeCallIf (withM [(0x110, 1, 1)] (s 6)) 0 255 6 0 1 (fun op => op == 1)).isSome = true ∧
     (takeCallIf (withM [(0x110, 1, 2)] (s 6)) 0 255 6 0 1 (fun op => op == 2)).isSome = true) ∧
    (let s := withF [(hState .trc, 2, 0, 0), (R.TRC_STAT_STATE, 4, 0, 0)] State.reset
     let p := { s with trc := { pend := [5] } }
     inRun s .trc = true ∧ isTrace s = true ∧ trcState s = 4 ∧ p.trc.pend = [5] ∧ getF p R.TRC_SPILL_WR_IDX + 1 < spillLen) := by
  decide +kernel

theorem wit_ProfilesAndAxes_profiles :
    (let s (fn : Nat) := called 1 fn 127 State.reset
     let c (fn : Nat) := callOf 1 fn 127
     takeCall (s 0) 1 127 0 = some (c 0, setEngq (s 0) 1 []) ∧ (c 0).inst = 127 ∧ (c 0).fn = 0 ∧
     takeCall (s 1) 1 127 1 = some (c 1, setEngq (s 1) 1 []) ∧ takeCall (s 2) 1 127 2 = some (c 2, setEngq (s 2) 1 []) ∧
     (getGen (setEngq (s 0) 1 []) 127).lock = false ∧ (getGen (setGen (setEngq (s 0) 1 []) 127 { lock := true }) 127).lock = true ∧
     getEngq (s 3) 1 = [c 3] ∧ (c 3).fn = 3 ∧ getEngq (s 1) 1 = [c 1] ∧ (c 1).fn ≠ 3 ∧
     takeCall (s 3) 1 127 3 = some (c 3, setEngq (s 3) 1 [])) ∧
    (let s := withF [(hState .profCh, 2, 127, 0)] State.reset
     127 < 128 ∧ inRun s .profCh 127 = true ∧ owns s = true ∧ reaches s (profTp s 127) 0 = true ∧ (getGen s 127).wait = [] ∧
     (getGen s 127).ss1 = none ∧ (getGen s 127).above = none) ∧
    (let v : Gen := { tArr := 5 }
     v.tArr ≤ 5 ∧ v.goalV = false ∧ { v with goalV := true }.goalV = true) := by decide +kernel

theorem wit_ProfilesAndAxes_axes :
    (let s (st : Nat) := withM [(stAddr 255 0x80, 1, 2)] (withF [(hState .vaxAx, 2, 63, 0), (R.VAX_A_CFG_STATION, 255, 63, 0),
       (R.VAX_A_STAT_AXST, st, 63, 0), (R.VAX_A_STAT_REFOK, 1, 63, 0)] (at_ 238000))
     let c := callOf 2 0 63
     63 < nAxis (s 0) ∧ inRun (s 0) .vaxAx 63 = true ∧ owns (s 0) = true ∧ stState (s 0) (axStation (s 0) 63) = 2 ∧
     axSt (s 2) 63 = 2 ∧ axSt (s 1) 63 = 1 ∧ axSt (s 0) 63 = 0 ∧ (getAxis (s 1) 63).ready = false ∧
     atAxis (at_ 5) 63 = false ∧
     (let y := setAxis (s 1) 63 { ready := true }
      let x := { launches y with done := mput 0 (launches y).done (1024 + 63) ((launches y).ticks + 1) }
      atAxis y 63 = true ∧ undone (launches y) (1024 + 63) = true ∧ 63 < nAxis x ∧ inRun x .vaxAx 63 = true ∧ owns x = true ∧ stState x (axStation x 63) = 2 ∧ axSt x 63 = 1 ∧
      (getAxis x 63).ready = true) ∧
     (getAxis (setAxis (s 1) 63 { ready := true, start := some c }) 63).start = some c ∧
     (getAxis (setAxis (s 1) 63 { ready := true, start := some c }) 63).ready = true ∧
     (getAxis (setAxis (s 0) 63 { stop := some c }) 63).stop = some c ∧
     takeCall (called 2 0 63 (s 0)) 2 63 0 = some (c, setEngq (s 0) 2 []) ∧ getB (s 0) R.VAX_A_STAT_REFOK 63 = true ∧
     getB State.reset R.VAX_A_STAT_REFOK 63 = false ∧ stState (withM [(stAddr 255 0x80, 1, 4)] (s 0)) 255 ≠ 2 ∧
     vmaxHigh (s 0) 63 (getGen (s 0) (axProf (s 0) 63)).limV = false ∧
     takeCall (called 2 1 63 (s 2)) 2 63 1 = some (callOf 2 1 63, setEngq (s 2) 2 []) ∧ axRest (s 2) 63 = true ∧
     axRest (withF [(R.PROF_P_STAT_MOVING, 1, 0, 0)] (s 2)) 63 = false ∧ getF (s 2) R.VAX_A_LAG_VAL 63 = 0 ∧
     takeCall (called 2 2 63 (s 0)) 2 63 2 = some (callOf 2 2 63, setEngq (s 0) 2 []) ∧
     takeCall (called 2 3 63 (s 0)) 2 63 3 = some (callOf 2 3 63, setEngq (s 0) 2 []) ∧
     takeCall (called 2 4 63 (s 0)) 2 63 4 = some (callOf 2 4 63, setEngq (s 0) 2 []) ∧
     (dsc (s 0) (callOf 2 3 63) 0 1).1 = 0 ∧ (dsc (withM [(0x110, 1, 7)] (s 0)) (callOf 2 3 63) 0 1).1 = 7 ∧
     bitOf (shapeUse (s 2)) 0 = true ∧ bitOf (shapeUse (s 2)) 7 = false ∧ 4095 < 4096 ∧ 4095 / 512 = 7) := by decide +kernel

/-- A solve with a deadline. -/
def solveAt (d : Nat) (started : Bool) : Solve := { call := callOf 3 0 15, d := d, at_ := 0, started := started }

theorem wit_BasinSolver_calls :
    (let c := callOf 3 0 15
     let s (d : Nat) := called 3 0 15 (withM [(0x110, 8, d)] State.reset)
     let run (r : QpSt) := setQp (s 5000) 15 r
     let s3 (x : State) := (engRd (dsc (setEngq x 3 []) c 0 8).2 (c.addr + 0x18) 32).2
     takeCall (s 5000) 3 15 0 = some (c, setEngq (s 5000) 3 []) ∧ (dsc (setEngq (s 5000) 3 []) c 0 8).1 = 5000 ∧
     now (setEngq (s 5000) 3 []) + 4000 < 5000 ∧ 5000 ≤ now (s 5000) + 60000000000 ∧ now (s 0) + 60000000000 < 60000000001 ∧
     (dsc (setEngq (s 60000000001) 3 []) c 0 8).1 = 60000000001 ∧ 4000 ≤ now (s 4000) + 4000 ∧
     ((deadlines (s3 (s 5000))).filter (fun x => decide (x < 5000 + 4000) && decide (5000 < x + 4000))).length < 4 ∧
     (getQp (s3 (s 5000)) 15).run = none ∧
     (getQp (s3 (run { run := some (solveAt 6000 false) })) 15).run = some (solveAt 6000 false) ∧
     (getQp (s3 (run { run := some (solveAt 6000 true) })) 15).run = some (solveAt 6000 true) ∧ 5000 ≤ (solveAt 6000 true).d ∧
     (solveAt 4900 true).d < 5000 ∧ (solveAt 4900 true).started = true ∧ (solveAt 6000 false).started = false ∧
     (let w := s3 (run { run := some (solveAt 4900 true), wait := some (solveAt 4950 false) })
      (getQp w 15).run = some (solveAt 4900 true) ∧ (getQp w 15).wait = some (solveAt 4950 false)) ∧
     (let w := s3 (setQp (setQp (run { run := some (solveAt 5000 true), wait := some (solveAt 5000 false) }) 0
        { run := some (solveAt 5000 true), wait := some (solveAt 5000 true) }) 1 { run := some (solveAt 5000 true) })
      4 ≤ ((deadlines w).filter (fun x => decide (x < 5000 + 4000) && decide (5000 < x + 4000))).length)) ∧
    (let s := called 3 1 15 State.reset
     let b := withF [(R.BSN_RUNNING_BUSY, 1, 0, 0), (R.BSN_RUNNING_CTX, 15, 0, 0)] (setQp s 15 { run := some (solveAt 5 true) })
     takeCall s 3 15 1 = some (callOf 3 1 15, setEngq s 3 []) ∧ (getQp (setEngq s 3 []) 15).wait = none ∧
     (getQp (setEngq s 3 []) 15).run = none ∧ (getQp (setEngq b 3 []) 15).run = some (solveAt 5 true) ∧
     getB (setEngq b 3 []) R.BSN_RUNNING_BUSY = true ∧ getF (setEngq b 3 []) R.BSN_RUNNING_CTX = 15 ∧
     getB (setEngq s 3 []) R.BSN_RUNNING_BUSY = false ∧
     (let r := { getQp s 15 with run := some (solveAt 5 true), wait := some (solveAt 6 false) }
      r.run = some (solveAt 5 true) ∧ r.wait = some (solveAt 6 false)) ∧
     takeCall (called 3 2 15 s) 3 15 2 = some (callOf 3 2 15, setEngq s 3 [])) := by decide +kernel

theorem wit_BasinSolver_instants :
    (let s := State.reset
     let v (d : Nat) (c : List Call) (r : Bool) : Solve := { solveAt d true with cancel := c, ready := r }
     let b (w : Solve) := withF [(R.BSN_RUNNING_BUSY, 1, 0, 0), (R.BSN_RUNNING_CTX, 15, 0, 0)] (setQp s 15 { run := some w })
     getB s R.BSN_RUNNING_BUSY = false ∧ getB (b (v 5 [] false)) R.BSN_RUNNING_BUSY = true ∧
     getF (b (v 5 [] false)) R.BSN_RUNNING_CTX = 15 ∧ (getQp (b (v 5 [] false)) 15).run = some (v 5 [] false) ∧
     (v 5 [callOf 3 1 15] false).cancel ≠ [] ∧ (v 5 [] false).ready = false ∧ (v 5 [] true).ready = true ∧
     (getQp (b (v 5 [] false)) 15).wait = none ∧ now s + 4000 < (v 4001 [] false).d ∧ (v 4000 [] false).d ≤ now s + 4000 ∧
     s.bsn.decided = [] ∧
     (let r (q d : Nat) : QpRes := ⟨q, callOf 3 0 q, d, 0, 0, 0, 0, 0, 0, 0, 0, 0, 0, [], [], []⟩
      nextResult { s with bsn := { s.bsn with decided := [r 1 9, r 15 8] } } = some (r 15 8)) ∧
     (let t := launches { s with bsn := { s.bsn with dlv := [(0, 255, 5)] } }
      let u := launches { s with bsn := { s.bsn with dlv := [(5, 255, 5)] } }
      t.bsn.dlv = [(0, 255, 5)] ∧ 0 ≤ now t ∧ u.bsn.dlv = [(5, 255, 5)] ∧ now u < 5) ∧
     (let q := setQp (withF [(hState .bsnCtx, 2, 15, 0)] s) 15 { run := some (v 5 [] true) }
      let s1 := latch (unitErr q .bsnCtx 15 0x0C18) .bsn 0 1
      inRun q .bsnCtx 15 = true ∧ (getQp s1 15).run = some (v 5 [] true) ∧ (getQp s1 15).wait = none)) ∧
    (inRun State.reset .bsnCtx 15 = false ∧ inRun (withF [(hState .bsnCtx, 2, 15, 0)] State.reset) .bsnCtx 15 = true) ∧
    (let s (nv : Nat) := withF [(hState .bsnCtx, 1, 15, 0), (hBusy .bsnCtx, 1, 15, 0), (R.BSN_Q_DIM_NV, nv, 15, 0),
       (R.BSN_Q_RES_ADDR, 0x200, 15, 0), (R.BSN_Q_FB_ADDR, 0x100, 15, 0), (R.BSN_Q_ITER_CAP, 64, 15, 0)] State.reset
     let r (x : State) := readVec x (getF x R.BSN_Q_FB_ADDR 15) (qN x 15)
     stOf (s 1) .bsnCtx 15 = 1 ∧ getB (s 1) (hBusy .bsnCtx) 15 = true ∧
     bsnRunCheck (copyMats (r (s 0)).2 15).2 15 = some 0x0C11 ∧ bsnRunCheck (copyMats (r (s 1)).2 15).2 15 = none ∧
     (copyMats (r (s 1)).2 15).1 = some ([0], [], []) ∧ vFin (r (s 1)).1 = true ∧
     (let n := withM [(0x100, 8, 0x7FF0000000000000)] (s 1)
      vFin (r n).1 = false) ∧
     (let h := withM [(0, 8, 0x7FF0000000000000)] (s 1)
      (copyMats (r h).2 15).1 = none)) := by decide +kernel

/-- A paired module in a role, with fields set. -/
def paired (r : Nat) (l : List (Fld × Nat × Nat × Nat)) : State :=
  withF ([(hState .pair, 2, 0, 0), (R.PAIR_CFG_PAIRED, 1, 0, 0), (R.PAIR_ROLE_ROLE, r, 0, 0)] ++ l) (at_ 2000000)

theorem wit_SyncFramesAndLink :
    (let s := paired 3 []
     let h : SyncHdr := { snap := 5 }
     let g (x : State) := setPair x { x.pair with stage := [(3, { snap := 5, frames := 2, bytes := 9 }), (2, { snap := 5 })] }
     getB s R.PAIR_CFG_PAIRED = true ∧ inRun s .pair = true ∧ { h with good := false }.good = false ∧ { h with ver := 2 }.ver ≠ 1 ∧
     h.good = true ∧ h.ver = 1 ∧ h.epoch = roleEpoch s ∧ h.epoch < roleEpoch (paired 3 [(R.PAIR_EPOCH_EPOCH, 1, 0, 0)]) ∧
     ({ pairId := 7 } : HbBody).pairId ≠ getF s R.PAIR_ID_ID ∧ receives s = true ∧ receives (paired 1 []) = false ∧
     (mget s.pair.stage 3 {}).snap ≠ h.snap ∧ (mget (g s).pair.stage 2 {}).snap = 5 ∧ holdsGen s 0 = true ∧ holdsGen s 9 = false ∧
     0 ≤ s.saf.rcd.stamp ∧ s.saf.rcd.stamp < 1 ∧ s.pair.refused = false ∧
     (setPair s { s.pair with refused := true }).pair.refused = true ∧ role s ≠ 2 ∧ role (paired 2 []) = 2 ∧
     s.pair.norPend = false ∧ (setPair s { s.pair with norPend := true }).pair.norPend = true) ∧
    (getB (paired 3 []) R.PAIR_SYNC_LINK = false ∧ getB (paired 4 [(R.PAIR_SYNC_LINK, 1, 0, 0)]) R.PAIR_SYNC_LINK = true ∧
     role (paired 4 []) ≠ 1 ∧ role (paired 4 []) ≠ 2 ∧ role (paired 4 []) ≠ 3 ∧ role (paired 3 []) = 3 ∧ role (paired 1 []) = 1 ∧
     (let s := paired 4 [(R.PAIR_SYNC_LINK, 1, 0, 0)]
      let s1 := level (unitErr (incF (setB s R.PAIR_SYNC_LINK false) R.PAIR_SYNC_DOWNS) .pair 0 0x0D22) .pair 0 9 true
      ∀ sfp los, role s1 = role s ∧
        role (setB (setB { setPair s1 { s1.pair with downAt := some (tickNs s1) } with free := 2 } R.PAIR_SYNC_SFP sfp) R.PAIR_SYNC_LOS los) =
          role s) ∧
     (let s (t : Nat) := { setPair (paired 3 []) { downAt := some 0 } with ticks := t }
      (s 0).pair.downAt = some 0 ∧ tickNs (s 0) < 0 + 1000000000 ∧ 0 + 1000000000 ≤ tickNs (s 1000000000) ∧
      (paired 3 []).pair.downAt = none)) ∧
    (∃ pct s1, fresh 7 (paired 2 []) = (pct, s1)) :=
  ⟨by decide +kernel, by decide +kernel, _, _, rfl⟩

theorem wit_PairRoles :
    (let s := paired 1 []
     let l := paired 0 [(R.PAIR_ROLE_LISTEN, 1, 0, 0)]
     let p (x : State) (q : PairSt) := setPair x q
     role l < 2 ∧ (p s { h1 := some 0 }).pair.h1 = some 0 ∧ 0 + 4 * period s 0 ≤ now s ∧ now (at_ 5) < 0 + 4 * period (at_ 5) 0 ∧
     getB (paired 1 [(R.PAIR_HB_P2_OK, 1, 0, 0)]) R.PAIR_HB_P2_OK = true ∧ getB s R.PAIR_HB_DEGRADED = false ∧
     getB s R.PAIR_HB_P2_OK = false ∧ getB s R.PAIR_ROLE_LISTEN = false ∧ getB l R.PAIR_ROLE_LISTEN = true ∧
     l.pair.listenTo ≤ now l ∧ getF (listenOver l) R.SYS_BOOT_STEP ≠ 7 ∧ claimKind s = none) ∧
    (let k (side : Nat) := setPair (paired 0 [(R.PAIR_ILK_IN_CLEAR, 1, 0, 0), (R.TSK_KEY_POS, 0, 0, 0),
       (R.PAIR_ROLE_SIDE, side, 0, 0)]) { claim := some 1 }
     claimKind (k 0) = some 1 ∧ claimKind (setPair (k 0) { claim := some 2 }) = some 2 ∧ getB (k 0) R.PAIR_ILK_IN_CLEAR = true ∧ getB (k 0) R.PAIR_MISMATCH_SIDE = false ∧ keyPos (k 0) < 2 ∧
     (k 0).pair.ownWait = false ∧ getB (ilkLevel (raiseEpoch (k 1)) 1) R.PAIR_ROLE_SIDE = true ∧
     getB (ilkLevel (raiseEpoch (k 0)) 1) R.PAIR_ROLE_SIDE = false ∧
     (let w := ilkLevel (setPair (k 0) { claim := some 1, ownWait := true }) 0
      getB w R.PAIR_CFG_PAIRED = true ∧ (pathUpdate w).pair.ownWait = true ∧ (pathUpdate w).pair.claim = some 1) ∧
     getB (setB (setB (k 0) R.PAIR_ILK_IN true) R.PAIR_ILK_IN_CLEAR false) R.PAIR_CFG_PAIRED = true) ∧
    (let t (side : Nat) := { paired 3 [(R.PAIR_ILK_IN_CLEAR, 1, 0, 0), (R.PAIR_ROLE_SIDE, side, 0, 0)] with ticks := 100000 }
     takeoverDue (paired 1 []) = false ∧ takeoverDue (t 0) = true ∧ takeoverDue (t 1) = true ∧
     getB (ilkLevel (raiseEpoch (t 1)) 1) R.PAIR_ROLE_SIDE = true ∧ getB (ilkLevel (raiseEpoch (t 0)) 1) R.PAIR_ROLE_SIDE = false) ∧
    (let s := paired 1 []
     let f := { s with pwr := { s.pwr with pf := true } }
     let g := paired 1 [(R.PAIR_ROLE_PARTNER, 3, 0, 0), (R.PAIR_ROLE_HEALTHY, 1, 0, 0)]
     role (paired 3 []) ≠ 1 ∧ role s = 1 ∧ s.pair.abdAt = none ∧ abdBits s &&& (0x1F ^^^ s.pair.seen) = 0 ∧
     abdBits f &&& (0x1F ^^^ f.pair.seen) ≠ 0 ∧ healthyStandby (setPair f { f.pair with seen := abdBits f }) = false ∧
     healthyStandby s = false ∧ healthyStandby g = true ∧ role (paired 4 []) = 4 ∧ role (paired 2 []) = 2 ∧
     getB s R.PAIR_SYNC_LINK = false ∧ getB (paired 1 [(R.PAIR_SYNC_LINK, 1, 0, 0)]) R.PAIR_SYNC_LINK = true ∧ s.pair.settle = none) ∧
    (let s := setPair { paired 1 [] with ticks := 10 ^ 12 } { settle := some 0 }
     s.pair.settle = some 0 ∧ getF s R.PAIR_ROLE_SIDE = getF s R.PAIR_CFG_HS_PREF ∧ getB s R.PAIR_ROLE_HS_OWN = false ∧
     0 + getF s R.PAIR_CFG_HS_SETTLE * 1000000000 ≤ tickNs s) ∧
    (let a (d : Nat) (b : Bool) := setPair (paired 1 []) { abdAt := some (d, b) }
     (a 5 false).pair.abdAt = some (5, false) ∧ (a 1900000 true).pair.abdAt = some (1900000, true) ∧ snapF (a 1900000 true) < 1900000 ∧
     now (a 1900000 true) < 1900000 + 500000 ∧ 1500000 + 500000 ≤ now (a 1500000 true)) := by decide +kernel

theorem wit_OutputPathFollowsTheInterlock :
    getB (pathUpdate (paired 1 [(R.PAIR_ILK_OUT, 1, 0, 0)])) R.PAIR_ROLE_OUTPATH = true ∧ getB State.reset R.PAIR_ILK_IN_CLEAR = false ∧
    tickNs State.reset < State.reset.pair.clearAt + 10000 := by decide +kernel

theorem wit_TimeCallsAndInstants_calls :
    (let c (fn n : Nat) := callOf 6 fn n
     let s (fn n op : Nat) := called 6 fn n (withM [(0x110, 1, op)] prog)
     (timeCall (s 0 3 0) 3 0 (fun x => x == 0 || decide (x > 2))).map (fun r => (r.1, r.2.1)) = some (c 0 3, 0) ∧
     (timeCall (s 0 3 3) 3 0 (fun x => x == 0 || decide (x > 2))).map (fun r => (r.1, r.2.1)) = some (c 0 3, 3) ∧
     (timeCall (s 0 3 1) 3 0 (fun x => x == 1)).map (fun r => (r.1, r.2.1)) = some (c 0 3, 1) ∧
     (timeCall (s 0 3 2) 3 0 (fun x => x == 2)).map (fun r => (r.1, r.2.1)) = some (c 0 3, 2) ∧
     (timeCall (s 1 3 0) 3 1 (fun _ => true)).map (fun r => (r.1, r.2.1)) = some (c 1 3, 0) ∧
     (timeCall (s 2 0 0) 0 2 (fun _ => true)).map (fun r => (r.1, r.2.1)) = some (c 2 0, 0)) ∧
    (let c (fn n : Nat) := callOf 6 fn n
     let s (fn n op : Nat) := called 6 fn n (withM [(0x110, 1, op)] prog)
     let after_ (fn n op : Nat) := (dsc (setEngq (s fn n op) 6 []) (c fn n) 0 1).2
     (timeCall (s 3 7 0) 7 3 (fun x => x != 1)).map (fun r => (r.1, r.2.1)) = some (c 3 7, 0) ∧
     (timeCall (s 3 7 2) 7 3 (fun x => x != 1)).map (fun r => (r.1, r.2.1)) = some (c 3 7, 2) ∧
     (timeCall (s 3 7 1) 7 3 (fun x => x == 1)).map (fun r => (r.1, r.2.1)) = some (c 3 7, 1) ∧ hasTask (after_ 3 7 0) 7 = true ∧
     hasTask State.reset 7 = false ∧ (dsc (after_ 0 3 0) (c 0 3) 1 1).1 = 0 ∧ (dsc (after_ 0 3 0) (c 0 3) 2 2).1 = 0) := by decide +kernel

theorem wit_TimeCallsAndInstants_checks :
    (let v : TpSt := { edges := [(5, true)] }
     (0 : Nat) < 0 + 2000 ∧ 0 + 2000 ≤ 2000 ∧ rising 16 ((v.edges ++ [(20, false)]).map Prod.fst) = false ∧
     rising 16 ((v.edges ++ [(21, false)]).map Prod.fst) = true ∧ v.per = none ∧ v.edges.length < 16 ∧
     { v with per := some (0, 32, 16, 0) }.per.isSome = true ∧ 16 ≤ (List.replicate 16 (5, true)).length ∧
     rising 16 ((tpKeep v 5).map Prod.fst ++ [5]) = true ∧ rising 16 (v.edges.map Prod.fst ++ [20]) = false ∧ 31 < 32 ∧
     200000 ≤ 200000 ∧ 16 + 16 ≤ 200000) ∧
    (let s := setTc State.reset 3 [(5, true)]
     (getTc s 3).take 16 = [(5, true)] ∧ (getTc s 3).drop 16 = [] ∧ getTc State.reset 3 = []) ∧
    (let s := withF [(R.TIME_STATE_SRC, 3, 0, 0)] State.reset
     let p := withF [(R.TIME_SRC_CFG_PRI_PROGRAM, 1, 0, 0)] State.reset
     (getF s R.TIME_STATE_SRC == 3) = true ∧ (getF p R.TIME_STATE_SRC == 3) = false ∧ srcPri State.reset 3 = 0 ∧ srcPri p 3 ≠ 0 ∧
     (getSrc p 3).valid = false ∧ s.time.prgAt = none ∧ { s.time with prgAt := some 5 }.prgAt = some 5 ∧ 6 < 5 + 10000000 ∧
     5 + 10000000 ≤ 10000005) := by decide +kernel

theorem wit_TimeCallsAndInstants_edges :
    let s (t : Nat) := { at_ t with time := { tps := [(3, { edges := [(8, true)] })] } }
    let c (q : List (Nat × Bool)) :=
      { at_ 8 with regs := (setF State.reset R.TIME_TC_CFG_EDGE 1 0 3).regs, time := { tcs := [(3, q)] } }
    let full := List.replicate 16 (5, true)
    let al (t : Nat) := { at_ t with time := { alarms := [(7, some (8, 5))] } }
    samples (al 8) = al 8 ∧ samples (al 4) = al 4 ∧ samples (s 8) = s 8 ∧ samples (s 4) = s 4 ∧ samples (at_ 8) = at_ 8 ∧ samples (c []) = c [] ∧ samples (c full) = c full ∧
    tpNext (getTp (at_ 8) 3) = none ∧ tpNext (getTp (s 8) 3) = some (8, true) ∧ 8 ≤ now (s 8) ∧ now (s 4) < 8 ∧
    mget (at_ 8).time.alarms 7 none = none ∧ mget (al 8).time.alarms 7 none = some (8, 5) ∧ 8 ≤ now (al 8) ∧ now (al 4) < 8 ∧
    bitOf (getF (c []) R.TIME_TC_CFG_EDGE 0 3) 0 = true ∧ bitOf (getF (c []) R.TIME_TC_CFG_EDGE 0 3) 1 = false ∧
    (getTc (c []) 3).length < 16 ∧ 16 ≤ (getTc (c full) 3).length := by
  refine ⟨samples_idle _ ?_ ?_ ?_ ?_ ?_ ?_ ?_, samples_idle _ ?_ ?_ ?_ ?_ ?_ ?_ ?_, samples_idle _ ?_ ?_ ?_ ?_ ?_ ?_ ?_,
    samples_idle _ ?_ ?_ ?_ ?_ ?_ ?_ ?_, samples_idle _ ?_ ?_ ?_ ?_ ?_ ?_ ?_,
    samples_idle _ ?_ ?_ ?_ ?_ ?_ ?_ ?_, samples_idle _ ?_ ?_ ?_ ?_ ?_ ?_ ?_, ?_⟩ <;> first | decide +kernel | (unfold basinIdle; decide +kernel)

theorem wit_TimeCallsAndInstants_instants :
    (let s := { State.reset with time := { step := some (5, 0) } }
     let r (t : Nat) := { at_ t with time := { step := some (8, 5) }, tsk := { rel := true, ph := .running } }
     State.reset.time.step = none ∧ s.time.step = some (5, 0) ∧ stepFree s = true ∧ stepFree (r 0) = false ∧ now (r 0) ≤ 5 ∧
     5 < now (r 99990000) ∧ reaches (r 99990000) (period (r 99990000) 2) (r 99990000).tl.tGuard = true ∧
     (launches (r 99990000)).time.step = some (8, 5)) ∧
    (let s (src : Nat) := setSrc (withF [(R.TIME_STATE_SRC, src, 0, 0), (R.TIME_STATE_SERVO, 2, 0, 0)] { State.reset with sec := 60 }) 3
       { at_ := some 5, valid := true }
     let b := setSrc (withF [(R.TIME_SRC_CFG_PRI_PTP, 3, 0, 0)] (s 3)) 1 { valid := true }
     (getSrc (s 3) 3).at_ = some 5 ∧ 5 + srcTmo (s 3) 3 ≤ now (s 3) ∧ now (at_ 6) < 5 + srcTmo (at_ 6) 3 ∧
     getF (setSrc (s 1) 3 {}) R.TIME_STATE_SRC ≠ 3 ∧ getF (setSrc (s 3) 3 {}) R.TIME_STATE_SRC = 3 ∧
     bestSrc (setSrc (s 3) 3 {}) = 0 ∧ servo (useSrc (setSrc (s 3) 3 {}) 0) = 2 ∧ bestSrc (setSrc b 3 {}) ≠ 0) ∧
    (let s := withF [(R.TIME_STATE_SERVO, 3, 0, 0)] { State.reset with sec := 10 ^ 9 }
     servo State.reset ≠ 3 ∧ servo s = 3 ∧ s.time.holdAt + getF s R.TIME_HOLD_CFG_HOLD_TMO * 1000000000 ≤ now s) := by decide +kernel

theorem wit_PtpMessages :
    (let s (st : Nat) := withF [(hState .time, 2, 0, 0), (R.TIME_PTP_CFG_MODE, 1, 0, 0), (R.TIME_PTP_CFG_PTP_PORT, 1, 0, 0),
       (R.TIME_PTP_STAT_HP1, st, 0, 0)] State.reset
     let m : PtpMsg := { src := 9 }
     let v : PtpPort := { sync := some (m, 7), ms := some 5, dly := some 3, req := some (0, 5) }
     let d := withF [(R.TIME_PTP_CFG_DELAY, 1, 0, 0)] (s 9)
     ptpTakes State.reset 1 m = false ∧ ptpTakes (s 9) 1 m = true ∧ { m with twoStep := false }.twoStep = false ∧ m.twoStep = true ∧
     ptpState (s 9) 1 = 9 ∧ ptpState (s 6) 1 ≠ 9 ∧ (getPtp (s 9) 1).sync = none ∧ (getPtp (setPtp (s 9) 1 v) 1).sync = some (m, 7) ∧
     (getPtp (setPtp (s 9) 1 v) 1).dly = some 3 ∧ (getPtp (setPtp (s 9) 1 { v with dly := none }) 1).dly = none ∧
     (getPtp (setPtp (s 9) 1 v) 1).req = some (0, 5) ∧ (getPtp (setPtp (s 9) 1 v) 1).ms = some 5 ∧
     { m with own := true }.own = true ∧ getB (s 9) R.TIME_PTP_CFG_DELAY = false ∧ { m with kind := 4 }.kind = 4 ∧
     getB d R.TIME_PTP_CFG_DELAY = true ∧ ptpTakes d 1 m = true ∧ m.src ≠ (s 9).time.clockId ∧ m.steps < 255 ∧
     255 ≤ { m with steps := 255 }.steps ∧ (getPtp (s 9) 1).foreign = [] ∧ ptpState (s 6) 1 = 6 ∧ ptpTakes (s 6) 1 m = true ∧
     ptpOn (ptpDecide State.reset) 1 = false ∧
     (let t := ptpDecide (withF [(R.TIME_PTP_CFG_SLAVE_ONLY, 0, 0, 0)] { s 6 with sec := 1000 })
      ptpOn t 1 = true ∧ ptpState t 1 = 6 ∧ ptpState t (1 - 1) ≠ 9) ∧ ptpOn State.reset 1 = false ∧ ptpOn (s 9) 1 = true) := by
  decide +kernel

/-- CAN channel 3 in RUN, with fields set. -/
def canAt (l : List (Fld × Nat × Nat × Nat)) : State := withF ((hState .canCh, 2, 3, 0) :: l) State.reset

theorem wit_CanChannels_calls :
    (let c (fn : Nat) := callOf 5 fn 3
     let s (fn : Nat) := called 5 fn 3 (canAt [])
     let o := canOperand (setEngq (s 0) 5 []) (c 0)
     let bad := canOperand (withM [(0x115, 1, 9)] (canAt [])) (c 0)
     let x : CanTx := { call := { c 0 with ticket := 9 }, frame := {} }
     takeCall (s 0) 5 3 0 = some (c 0, setEngq (s 0) 5 []) ∧ takeCall (s 1) 5 3 1 = some (c 1, setEngq (s 1) 5 []) ∧
     takeCall (s 2) 5 3 2 = some (c 2, setEngq (s 2) 5 []) ∧ takeCall (s 3) 5 3 3 = some (c 3, setEngq (s 3) 5 []) ∧
     canFrameBad o.2.2 3 o.1 = false ∧ canFrameBad bad.2.2 3 bad.1 = true ∧ getB o.2.2 R.CAN_C_ERR_ASLEEP 3 = false ∧
     getB (canAt [(R.CAN_C_ERR_ASLEEP, 1, 3, 0)]) R.CAN_C_ERR_ASLEEP 3 = true ∧ o.2.1 ≤ 3 ∧
     3 < (canOperand (withM [(0x116, 1, 4)] (canAt [])) (c 1)).2.1 ∧ (getCan (s 1) 3).cur ≠ some (some 0) ∧
     (getCan (setCan (s 1) 3 { cur := some (some 0) }) 3).cur = some (some 0) ∧ mget (getCan (s 1) 3).mbox 0 none = none ∧
     mget (getCan (setCan (s 1) 3 { mbox := [(0, some x)] }) 3).mbox 0 none = some x ∧ canFind (getCan (s 2) 3) 9 = none ∧
     canFind (getCan (setCan (s 2) 3 { fifo := [x] }) 3) 9 = some (none, 0, x) ∧
     (getCan (setCan (s 2) 3 { fifo := [x] }) 3).cur ≠ some none ∧ (dsc (s 3) (c 3) 0 2).1 = 0 ∧
     (dsc (withM [(0x110, 2, 16)] (s 3)) (c 3) 0 2).1 = 16) ∧
    (let s (op : Nat) := called 5 4 3 (withM [(0x110, 1, op)] (canAt []))
     (takeCallIf (s 0) 5 3 4 0 1 (fun op => op != 1)).isSome = true ∧ (takeCallIf (s 2) 5 3 4 0 1 (fun op => op != 1)).isSome = true ∧
     (takeCallIf (s 1) 5 3 4 0 1 (fun op => op == 1)).isSome = true ∧ (getCan (s 0) 3).fifo = [] ∧ mbxBits (getCan (s 0) 3) = 0 ∧
     (getCan (setCan (s 0) 3 { fifo := [{ call := callOf 5 0 3, frame := {} }], waking := true }) 3).fifo ≠ [] ∧
     (getCan (setCan (s 1) 3 { waking := true }) 3).waking = true) := by decide +kernel

theorem wit_CanChannels_bus :
    (let s := canAt []
     let x : CanTx := { call := callOf 5 0 3, frame := {} }
     let q := setCan s 3 { fifo := [x] }
     canMaySend State.reset 3 = false ∧ canMaySend s 3 = true ∧ (getCan s 3).cur = none ∧ canSelect (getCan s 3) = none ∧
     canSelect (getCan q 3) = some none ∧ canCur (getCan s 3) = none ∧ (canCur (getCan (setCan s 3 { fifo := [x], cur := some none }) 3)).isSome = true ∧
     canOnBus State.reset 3 = false ∧ canOnBus s 3 = true) ∧
    (let s := canAt [(R.CAN_C_FID_EN, 1, 3, 127)]
     let f : CanFrame := { id := 2047, fdf := true, len := 64 }
     let s1 (x : State) := canErrs x 3 (getCan x 3).tec ((getCan x 3).rec_ - 1)
     getB s R.CAN_C_CFG_FD_EN 3 = true ∧ canLenOk f.fdf f.len = true ∧ f.id < 2048 ∧ (getCan s 3).rec_ ≤ 127 ∧
     canOwnId (s1 s) 3 f = false ∧ canFilter (s1 (canAt [])) 3 f = none ∧ (canFilter (s1 s) 3 { f with id := 0 }).isSome = true ∧
     getB (s1 s) R.CAN_C_FMASK_ACT 3 127 = false ∧
     getB (s1 (canAt [(R.CAN_C_FID_EN, 1, 3, 127), (R.CAN_C_FMASK_ACT, 1, 3, 127)])) R.CAN_C_FMASK_ACT 3 127 = true ∧
     (getCan (s1 s) 3).rx.length < 256 ∧
     256 ≤ (getCan (s1 (setCan s 3 { rx := List.replicate 256 { frame := f, filter := 0, conflict := false, stamp := 0 } })) 3).rx.length) ∧
    (let s := canAt []
     let z := canAt [(R.CAN_C_ERR_ASLEEP, 1, 3, 0)]
     inRun s .canCh 3 = true ∧ getF s R.CAN_C_ERR_STATE 3 ≠ 2 ∧ getF (canAt [(R.CAN_C_ERR_STATE, 2, 3, 0)]) R.CAN_C_ERR_STATE 3 = 2 ∧
     (getCan (setCan s 3 { sleep := [callOf 5 4 3] }) 3).sleep ≠ [] ∧ getB z R.CAN_C_ERR_ASLEEP 3 = true ∧ (getCan z 3).waking = false ∧
     wakeCause z 3 (.dominant 0) = none ∧ wakeCause z 3 (.dominant 6300) = some 1 ∧
     (let c := withF [(hState .canCh, 1, 3, 0), (hBusy .canCh, 1, 3, 0)] State.reset
      stOf c .canCh 3 = 1 ∧ getB c (hBusy .canCh) 3 = true) ∧ stOf s .canCh 3 = 2 ∧ getB s R.CAN_C_CFG_LISTEN 3 = false ∧
     getB s R.CAN_C_CFG_REST 3 = false ∧ reaches s 100000000 0 = true ∧ undone s 2048 = true ∧ reaches (at_ 5) 100000000 0 = false) := by decide +kernel

/-- A module with the Modbus and IEC 61162-450 servers on, two points and an access list. -/
def hostAt (l : List (Fld × Nat × Nat × Nat)) : State :=
  { withF ([(R.HOST_CFG_MB_EN, 1, 0, 0), (R.HOST_CFG_NMEA_EN, 1, 0, 0), (R.HOST_CFG_MAXSESS, 1, 0, 0)] ++
      (List.range 4).map (fun n => (R.HOST_Pn_CFG_EN, 1, 0, n)) ++ l) State.reset with
    host := { cfg := { acl := [(5, 4), (6, 1)], groups := [(1, 2)], anchors := [8],
                       points := [{ tbl := 3, addr := 7, typ := 2, src := 2, ref := 0x40, wr := true }, { tbl := 3, addr := 8, typ := 2 }] } } }

theorem wit_SessionsAndServers :
    (let s := hostAt [(R.HOST_Pn_LINK_UP, 1, 0, 3)]
     3 < 4 ∧ getB s R.HOST_Pn_LINK_UP 0 3 = true ∧ getB s R.HOST_Pn_CFG_EN 0 3 = true ∧ offers s 3 1 = false ∧ offers s 3 5 = true ∧ offers s 3 2 = true ∧
     1 < 3 ∧ getF s R.HOST_CFG_MGMT_PORT ≠ getF s R.HOST_CFG_MGMT_PORT + 1 ∧ tlsOk { anchor := 8 } = true ∧ tlsOk { ver := 0x0303 } = false ∧
     certOk s { anchor := 8 } = true ∧ certOk s { anchor := 9 } = false ∧ certOk s { anchor := 8, keyKind := 3 } = false ∧
     getB (withF [(R.HOST_Pn_CFG_EN, 0, 0, 3)] s) R.HOST_Pn_CFG_EN 0 3 = false ∧
     tickNs s < mget [(9, 5)] 9 0 ∧ mget s.host.blocks 9 0 ≤ tickNs s ∧ privOf s 4 = none ∧ privOf s 5 = some 4 ∧
     privOf s 6 = some 1 ∧ getB s R.HOST_CFG_ENG_PLANES = false ∧ s.host.sess.length < getF s R.HOST_CFG_MAXSESS ∧
     (List.range 8).find? (fun k => (getSess s k).priv == 0) = some 0 ∧
     (let o := setSess s 7 { priv := 4 }
      getF o R.HOST_CFG_MAXSESS ≤ o.host.sess.length ∧ (getSess o 7).priv ≠ 0 ∧ (getSess s 7).priv = 0 ∧
      tickNs o < (getSess o 7).last + 120000000000 ∧
      (getSess { o with ticks := 120000000000 } 7).last + 120000000000 ≤ tickNs { o with ticks := 120000000000 })) ∧
    (let s := hostAt []
     let w : HostW := ⟨3, true, 0, 0, 6, 0, ⟨3, [], 0⟩⟩
     let off := withF [(R.HOST_CFG_MB_EN, 0, 0, 0), (R.HOST_CFG_NMEA_EN, 0, 0, 0)] s
     mbOpen State.reset {} = false ∧ mbOpen s { conn := 3 } = true ∧ mbOpen s { unit := 1 } = true ∧ mbOpen s { conn := 4 } = false ∧
     mbOpen s { unit := 2 } = false ∧ mbOpen off {} = false ∧ getB off R.HOST_Pn_CFG_EN 0 3 = true ∧ getB off R.HOST_CFG_MB_EN = false ∧
     getB off R.HOST_CFG_NMEA_EN = false ∧ 7 ∉ ([1, 2, 3, 4, 5, 6, 16] : List Nat) ∧ 125 < 126 ∧ mbCover 2 s 3 7 2 ≠ none ∧
     mbCover 125 s 3 7 125 = none ∧ mbCover 1 s 3 9 1 = none ∧ (mbCover 1 s 3 7 1).isSome = true ∧
     (∀ p ∈ (mbCover 1 s 3 7 1).getD [], p.2.src = 2 ∧ p.2.wr = true) ∧
     (∃ p ∈ (mbCover 1 s 3 8 1).getD [], p.2.src ≠ 2 ∨ p.2.wr = false) ∧ getB s R.HOST_MB_GATE_GATE = false ∧
     getB (hostAt [(R.HOST_MB_GATE_GATE, 1, 0, 0)]) R.HOST_MB_GATE_GATE = true ∧ 123 < (List.replicate 124 0).length ∧
     { s with host := { s.host with waits := [w] } }.host.waits = [w] ∧ w.id = 3 ∧ tickNs s < w.at_ + 4 * period s 1 ∧
     w.at_ + 4 * period s 1 ≤ tickNs { s with ticks := 10 ^ 12 } ∧ hostServes s = true ∧ 0 < min 4 s.host.cfg.groups.length ∧
     min 4 s.host.cfg.groups.length ≤ 1 ∧ getB s R.HOST_CFG_NMEA_EN = true) := by decide +kernel

theorem wit_ManagementRequests :
    (let s := setSess (hostAt [(R.TSK_KEY_POS, 2, 0, 0)]) 7 { priv := 4 }
     let l (x : State) (v : LoadSt) := { x with host := { x.host with load := some v } }
     (getSess s 7).priv ≠ 0 ∧ 4 ≤ (getSess s 7).priv ∧ (getSess (setSess s 7 { priv := 1 }) 7).priv < 2 ∧ wordsOk 0x100 [1, 2, 3, 4] = true ∧
     wordsOk 0x101 [1, 2, 3, 4] = false ∧ roleEpoch s = 0 ∧ owns s = true ∧ owns (withF [(R.PAIR_ROLE_ROLE, 3, 0, 0)] s) = false ∧
     hostServes (withF [(R.PAIR_ROLE_ROLE, 3, 0, 0)] s) = false ∧
     hostServes (withF [(R.PAIR_ROLE_ROLE, 3, 0, 0), (R.PAIR_ROLE_HS_OWN, 1, 0, 0)] s) = true ∧ inData 0x100 4 = true ∧
     localReg 0x100 = false ∧ localReg 0x40A00000 = true ∧ (List.replicate 4 (0 : Byte)).length = 4 ∧ s.host.load = none ∧
     (l s ⟨7, 2, 10, List.replicate 4 0⟩).host.load = some ⟨7, 2, 10, List.replicate 4 0⟩ ∧
     4 = (List.replicate 4 (0 : Byte)).length ∧ 4 + (List.replicate 6 (0 : Byte)).length ≤ 10 ∧ (List.replicate 10 (0 : Byte)).length = 10 ∧
     mgWaits s 7 = false ∧ (getSess s 7).q = [] ∧ (getSess (setSess s 7 { priv := 4, q := [({}, .hello)] }) 7).q ≠ [] ∧
     mgWaits { s with host := { s.host with waits := [⟨0, false, 7, 0, 3, 0, ⟨0, [], 0⟩⟩] } } 7 = true ∧
     (mgWords (fun _ => true) 1 s 0x100 [1, 2, 3, 4]).2 = none ∧ (mgWords (fun _ => true) 1 s 0xF0000000 [1, 2, 3, 4]).2.isSome = true ∧
     (mgWords localReg 1 s 0x40A00000 [1, 2, 3, 4]).2 = none ∧ (mgWord s 0x40A00000 [1, 2, 3, 4]).2 = none ∧ (mgWord (withF [(R.TSK_KEY_POS, 0, 0, 0)] s) 0x40A00004 [2, 0, 0, 0]).2.isSome = true ∧ localReg 0x40A00004 = true ∧
     imgKind (.firmware 5) = 2 ∧ imgKind (.program {} 0 0) ≠ 2 ∧
     (loadRefusal (latch (loadEnd (l s ⟨7, 2, 10, List.replicate 10 0⟩)) .host 0 16) 10 9 (.firmware 5)).isSome = true ∧ keyPos s = 2 ∧
     keyPos (hostAt [(R.TSK_KEY_POS, 0, 0, 0)]) ≠ 2 ∧ { s.mram with keys := [] }.keys = [] ∧
     (let k := { s with mram := { s.mram with keys := [(2, 1 + 2 * 9)] } }
      loadRefusal (latch (loadEnd (l k ⟨7, 2, 10, List.replicate 10 0⟩)) .host 0 16) 10 9 (.firmware 5) = none ∧
      ∃ x ∈ k.mram.keys, x.1 ≠ 3 ∧ x.2 = 1 + 2 * 9 + (if false = true then 1 else 0))) := by decide +kernel

theorem wit_RecorderCommands :
    (let s (fn code : Nat) := called 7 fn 0 (withM [(0x110, 2, code)] State.reset)
     let c (fn : Nat) := callOf 7 fn 0
     takeCall (s 0 0x1180) 7 0 0 = some (c 0, setEngq (s 0 0x1180) 7 []) ∧ (dsc (s 0 0x1180) (c 0) 0 2).1 = 0x1180 ∧
     (dsc (s 0 0x11FF) (c 0) 0 2).1 = 0x11FF ∧ 0x1200 > 0x11FF ∧ (s 0 0x1180).recQ.length < 64 ∧
     takeCall (s 1 5) 7 0 1 = some (c 1, setEngq (s 1 5) 7 []) ∧ (dsc (s 1 5) (c 1) 0 1).1 = 5) ∧
    64 ≤ { State.reset with recQ := List.replicate 64 { typ := 1, key := 5 } }.recQ.length ∧
    (let s := withF [(R.REC_S_SRC_EN, 1, 0, 63), (R.REC_S_SRC_KIND, 7, 0, 63), (R.REC_S_SRC_ID, 5, 0, 63)] State.reset
     63 < 64 ∧ getB s R.REC_S_SRC_EN 0 63 = true ∧ getF s R.REC_S_SRC_KIND 0 63 = 7 ∧ getF s R.REC_S_SRC_ID 0 63 = 5 ∧
     (∀ i, i < 64 → getB State.reset R.REC_S_SRC_EN 0 i = false)) ∧
    (let s := withF [(R.REC_STAT_SCANNED, 1, 0, 0)] State.reset
     let r : RecReq := { typ := 1, key := 0x1180, call := some (callOf 7 0 0) }
     let f := { s with rcd := { last := some (0, 0x1180, 0) } }
     getB State.reset R.REC_STAT_SCANNED = false ∧ getB s R.REC_STAT_SCANNED = true ∧ stOf s .rcd ≠ 3 ∧ s.recDrop = 0 ∧ s.recQ = [] ∧
     { s with recQ := [r] }.recQ = r :: [] ∧ recFold s r = none ∧ (recFold f r).isSome = true ∧ r.typ = 1 ∧
     ({ typ := 2, key := 0 } : RecReq).typ ≠ 1) := by decide +kernel

/-- The panel in RUN with region 7 on, from a source. -/
def pnlAt (src : Nat) : State :=
  withF [(hState .pnl, 2, 0, 0), (R.PNL_RSIZE_EN, 1, 0, 7), (R.PNL_RSIZE_SRC, src, 0, 7)] State.reset

theorem wit_PanelCommands :
    (let s := pnlAt 6
     let full (x : State) := { x with pnl := { x.pnl with q := List.replicate 8 (6, false) } }
     inRun State.reset .pnl = false ∧ inRun s .pnl = true ∧ rgnOn s (15 % 8) = true ∧ getF s R.PNL_RSIZE_SRC 0 (15 % 8) = 6 ∧
     s.pnl.q.length < 8 ∧ 8 ≤ (full s).pnl.q.length ∧ (full s).pnl.run = none ∧ (full s).pnl.q.findIdx? (fun e => e.1 == 15 % 8) = none ∧
     (List.replicate 8 (7, false)).findIdx? (fun e => e.1 == 15 % 8) = some 0 ∧ rgnOn s 0 = false) ∧
    (let s := withF [(R.PNL_RSIZE_H, 0, 0, 7)] (pnlAt 5)
     getF s R.PNL_RSIZE_SRC 0 7 ≤ 5 ∧ s.pnl.boot = false ∧ mget s.pnl.drawAt 7 0 = 0 ∧ rgnWords s 7 = []) ∧
    (let s := pnlAt 6
     let q := { s with pnl := { s.pnl with q := [(7, false)] } }
     s.pnl.run = none ∧ s.pwr.pf = false ∧ getB (withF [(R.PNL_STAT_COLD, 1, 0, 0)] s) R.PNL_STAT_COLD = true ∧
     getB s R.PNL_STAT_COLD = false ∧ s.pnl.q = [] ∧ q.pnl.q = (7, false) :: [] ∧ (-151 : Int) < -150 ∧
     getB (setF q R.PNL_TEMP_VAL (pat 16 (-151))) R.PNL_STAT_COLD = false ∧ s.mram.panelDirty = 0 ∧
     tickNs s < s.pnl.coldAt + 10000000000 ∧ s.pnl.coldAt + 10000000000 ≤ tickNs { s with ticks := 2500000000 } ∧
     tickNs s < { s.pnl with doneAt := 1 }.doneAt ∧ s.pnl.doneAt ≤ tickNs s ∧
     rgnWords (withF [(R.PNL_RSIZE_H, 0, 0, 7)] s) 7 = [] ∧
     { s with pnl := { s.pnl with run := some [] } }.pnl.run = some [] ∧ { s with pnl := { s.pnl with boot := true } }.pnl.boot = true ∧
     getF (withF [(R.PNL_STAT_STATE, 1, 0, 0)] s) R.PNL_STAT_STATE ≠ 0 ∧
     s.pnl.emptyAt + 1000000000 ≤ tickNs { s with ticks := 1000000000 } ∧ tickNs s < s.pnl.emptyAt + 1000000000) := by decide +kernel

theorem wit_PowerAndSystemCommands :
    (let s := withF [(R.PWR_FEED_A_OK, 1, 0, 0), (R.PWR_FEED_B_OK, 1, 0, 0), (R.TIME_HOLD_CFG_SYNC_WAIT, 1, 0, 0)] State.reset
     let held := { s with pwr := { s.pwr with inRst := true, hot := true } }
     let w := { s with pwr := { s.pwr with waitS6 := some 0 } }
     getB s R.PWR_FEED_A_OK = true ∧ getB s R.PWR_FEED_B_OK = true ∧ getB (withF [(R.PWR_FEED_A_OK, 0, 0, 0)] s) R.PWR_FEED_A_OK = false ∧
     (let f (a c : Fld) (n : Nat) (u : State) := level (unitErr (incF (setB u a false) c) .pwr 0 0x0210) .pwr 0 n true
      fed (f R.PWR_FEED_A_OK R.PWR_FEEDLOSS_A 0 s) = true ∧ fed (f R.PWR_FEED_A_OK R.PWR_FEEDLOSS_A 0 (withF [(R.PWR_FEED_B_OK, 0, 0, 0)] s)) = false ∧
      fed (f R.PWR_FEED_B_OK R.PWR_FEEDLOSS_B 1 s) = true ∧ fed (f R.PWR_FEED_B_OK R.PWR_FEEDLOSS_B 1 (withF [(R.PWR_FEED_A_OK, 0, 0, 0)] s)) = false) ∧
     s.pwr.inRst = false ∧ held.pwr.inRst = true ∧ held.pwr.hot = true ∧ sint 16 1399 < 1400 ∧ 1400 ≤ sint 16 1400 ∧ sint 16 1499 < 1500 ∧
     1500 ≤ sint 16 1500 ∧ 1250 ≤ sint 16 1250 ∧ sint 16 1249 < 1250 ∧ s.pwr.waitS6 = none ∧ w.pwr.waitS6 = some 0 ∧
     servo (withF [(R.TIME_STATE_SERVO, 2, 0, 0)] w) = 2 ∧ servo w ≠ 2 ∧ tickNs w < 0 + getF w R.TIME_HOLD_CFG_SYNC_WAIT * 1000000000 ∧
     0 + getF w R.TIME_HOLD_CFG_SYNC_WAIT * 1000000000 ≤ tickNs { w with ticks := 10 ^ 13 }) ∧
    (let s (mode : Nat) := withF [(R.SYS_BOOT_STEP, 8, 0, 0), (R.PWR_POLICY_MODE, mode, 0, 0)] { State.reset with tsk := { ph := .halted } }
     unitIdle (s 0) 10 = true ∧ unitIdle { s 0 with trc := { pend := [5] } } 10 = false ∧ (s 0).pwr.pf = false ∧ idleState (s 0) 10 = 0 ∧
     getF (s 0) R.SYS_BOOT_STEP = 8 ∧ (s 0).tsk.ph ≠ .none ∧ idleChoice (s 0) 10 = 1 ∧ idleChoice (s 1) 10 = 3 ∧
     tickNs (incF (setIdle (s 1) 10 3) R.PWR_NAPS_COUNT) = tickNs (s 1) ∧ idleState (setIdle (s 0) 10 1) 10 = 1 ∧
     mget (s 0).pwr.idleAt 10 0 ≤ tickNs (s 0) + 1) ∧
    (keyPos (withF [(R.TSK_KEY_POS, 1, 0, 0)] State.reset) ≠ 2 ∧ keyPos (withF [(R.TSK_KEY_POS, 2, 0, 0)] State.reset) = 2) := by decide +kernel

theorem wit_ModuleResetKeepsTheRetainedState : 8 ≤ getF (withF [(R.SYS_BOOT_STEP, 8, 0, 0)] State.reset) R.SYS_BOOT_STEP ∧ 7 < 8 := by
  decide +kernel

/-- A call has been taken, and the state in which it has been meets a condition. -/
def got (r : Option (Call × State)) (p : State → Bool) : Bool := r.elim false (fun x => p x.2)

theorem wit_EngineCallsSucceed_motion :
    (let s (fn op : Nat) := called 0 fn 255 (withM [(0x110, 1, op)] State.reset)
     ([0, 1, 2, 3, 4].all (fun fn => got (takeCall (s fn 0) 0 255 fn) (fun _ => true))) = true ∧
     got (takeCallIf (s 5 1) 0 255 5 0 1 (fun op => op != 0)) (fun _ => true) = true ∧
     got (takeCallIf (s 5 0) 0 255 5 0 1 (fun op => op == 0)) (fun _ => true) = true ∧
     got (takeCallIf (s 6 0) 0 255 6 0 1 (fun op => op == 0 || decide (op > 2))) (fun x => (dsc x (callOf 0 6 255) 0 1).1 == 0) = true ∧
     got (takeCallIf (s 6 1) 0 255 6 0 1 (fun op => op == 1)) (fun _ => true) = true ∧
     got (takeCallIf (s 6 2) 0 255 6 0 1 (fun op => op == 2)) (fun _ => true) = true) ∧
    (let s (fn : Nat) := called 1 fn 127 State.reset
     ([0, 1, 2, 3].all (fun fn => got (takeCall (s fn) 1 127 fn) (fun x => !(getGen x 127).lock))) = true ∧
     (callOf 1 2 127).inst = 127 ∧ (callOf 1 2 127).fn = 2) ∧
    (let s (fn st op : Nat) := called 2 fn 63 (withM [(stAddr 255 0x80, 1, 2), (0x110, 1, op)] (withF [(hState .vaxAx, 2, 63, 0),
       (R.VAX_A_CFG_STATION, 255, 63, 0), (R.VAX_A_STAT_AXST, st, 63, 0), (R.VAX_A_STAT_REFOK, 1, 63, 0)] State.reset))
     got (takeCall (s 0 0 0) 2 63 0) (fun x => axSt x 63 == 0 && getB x R.VAX_A_STAT_REFOK 63 && stState x (axStation x 63) == 2 &&
       !vmaxHigh x 63 (getGen x (axProf x 63)).limV) = true ∧
     got (takeCall (s 1 2 0) 2 63 1) (fun x => axSt x 63 == 2 && axRest x 63 && getF x R.VAX_A_LAG_VAL 63 == 0) = true ∧
     got (takeCall (s 2 0 0) 2 63 2) (fun x => axSt x 63 == 0 && axRest x 63) = true ∧
     got (takeCall (s 3 0 7) 2 63 3) (fun x => let r := dsc x (callOf 2 3 63) 0 1
       decide (r.1 < 8) && !bitOf (shapeUse r.2) r.1) = true ∧
     got (takeCall (s 4 0 0) 2 63 4) (fun _ => true) = true) := by decide +kernel

theorem wit_EngineCallsSucceed_links :
    (let s (fn d : Nat) := called 3 fn 15 (withM [(0x110, 8, d)] State.reset)
     got (takeCall (s 0 5000) 3 15 0) (fun x =>
       let c := callOf 3 0 15
       let d := (dsc x c 0 8).1
       let s2 := (engRd (dsc x c 0 8).2 (c.addr + 0x18) 32).2
       decide (now x + 4000 < d) && decide (d ≤ now x + 60000000000) &&
       decide (((deadlines s2).filter (fun x => decide (x < d + 4000) && decide (d < x + 4000))).length < 4) &&
       (getQp s2 15).run.isNone) = true ∧
     got (takeCall (s 1 0) 3 15 1) (fun x => (getQp x 15).run.isNone) = true ∧
     got (takeCall (s 2 0) 3 15 2) (fun _ => true) = true) ∧
    (let s (fn i : Nat) (l : List (Nat × Nat × Nat)) := called 4 fn i (setChan (withM l State.reset) 7
       { latched := { src := 1, types := 0, mode := 1 } })
     got (takeCall (s 0 255 [(0x110, 1, 5)]) 4 255 0) (fun x => (dsc x (callOf 4 0 255) 0 1).1 == 5) = true ∧
     got (takeCall (s 1 0 [(0x110, 4, 1), (0x118, 2, 7)]) 4 0 1) (fun x =>
       let r := ioutChans (dsc x (callOf 4 1 0) 0 4).2 (callOf 4 1 0) (dsc x (callOf 4 1 0) 0 4).1
       (dsc x (callOf 4 1 0) 0 4).1 == 1 && r.1.all (fun ch => decide (ch < nChan r.2) &&
         (stChans r.2 0 true false ++ stChans r.2 0 true true).contains ch)) = true ∧
     got (takeCall (s 2 0 [(stAddr 0 0x80, 1, 4)]) 4 0 2) (fun x => stState x 0 == 4) = true ∧
     got (takeCall (s 3 0 []) 4 0 3) (fun _ => true) = true) := by decide +kernel

theorem wit_EngineCallsSucceed_can :
    (let x : CanTx := { call := { callOf 5 0 3 with ticket := 9 }, frame := {} }
     let s (fn op : Nat) := called 5 fn 3 (setCan (withM [(0x110, 2, op)] (canAt [])) 3 (if fn = 2 then { fifo := [x] } else {}))
     let o (y : State) (fn : Nat) := canOperand y (callOf 5 fn 3)
     got (takeCall (s 0 0) 5 3 0) (fun y => !canFrameBad (o y 0).2.2 3 (o y 0).1 && !getB (o y 0).2.2 R.CAN_C_ERR_ASLEEP 3) = true ∧
     got (takeCall (s 1 0) 5 3 1) (fun y => decide ((o y 1).2.1 ≤ 3) && !canFrameBad (o y 1).2.2 3 (o y 1).1 &&
       !getB (o y 1).2.2 R.CAN_C_ERR_ASLEEP 3 && decide ((getCan (o y 1).2.2 3).cur ≠ some (some (o y 1).2.1)) &&
       (mget (getCan (o y 1).2.2 3).mbox (o y 1).2.1 none).isNone) = true ∧
     got (takeCall (s 2 9) 5 3 2) (fun y => let r := dsc y (callOf 5 2 3) 0 4
       decide (canFind (getCan r.2 3) r.1 = some (none, 0, x)) && decide ((getCan r.2 3).cur ≠ some none)) = true ∧
     got (takeCall (s 3 16) 5 3 3) (fun y => (dsc y (callOf 5 3 3) 0 2).1 == 16) = true ∧
     got (takeCallIf (s 4 0) 5 3 4 0 1 (fun op => op != 1)) (fun y => let r := dsc y (callOf 5 4 3) 0 1
       r.1 == 0 && !getB r.2 R.CAN_C_ERR_ASLEEP 3 && (getCan r.2 3).fifo.isEmpty && mbxBits (getCan r.2 3) == 0) = true ∧
     got (takeCallIf (s 4 1) 5 3 4 0 1 (fun op => op == 1)) (fun y => !getB y R.CAN_C_ERR_ASLEEP 3) = true) := by decide +kernel

theorem wit_EngineCallsSucceed_time :
    (let c (fn n : Nat) := callOf 6 fn n
     let s (fn n : Nat) (l : List (Nat × Nat × Nat)) := called 6 fn n (withM l (withF [(R.TIME_STATE_SRC, 3, 0, 0)] prog))
     let g (r : Option (Call × Nat × State)) (p : State → Bool) : Bool := r.elim false (fun x => p x.2.2)
     g (timeCall (s 0 3 [(0x110, 1, 2)]) 3 0 (fun x => x == 2)) (fun _ => true) = true ∧
     g (timeCall (s 0 3 [(0x112, 2, 1), (0x118, 8, 2000)]) 3 0 (fun x => x == 0 || decide (x > 2))) (fun y =>
       let a := dsc y (c 0 3) 1 1
       let b := dsc a.2 (c 0 3) 2 2
       let e := engRd b.2 (0x100 + 0x18) 16
       a.1 == 0 && b.1 == 1 && decide ((c 0 3).since + 2000 ≤ leNat (e.1.take 8)) && (getTp e.2 3).edges.isEmpty &&
       (getTp e.2 3).per.isNone) = true ∧
     g (timeCall (s 0 3 [(0x110, 1, 1), (0x118, 8, 2000), (0x120, 4, 200000), (0x124, 4, 199983)]) 3 0 (fun x => x == 1)) (fun y =>
       let m := dsc y (c 0 3) 1 1
       let n := dsc m.2 (c 0 3) 2 2
       let b := dsc n.2 (c 0 3) 8 8
       let p := dsc b.2 (c 0 3) 16 4
       let h := dsc p.2 (c 0 3) 20 4
       m.1 == 0 && decide (2000 ≤ b.1) && p.1 == 200000 && decide (16 ≤ h.1) && decide (h.1 + 16 < p.1) &&
       (getTp h.2 3).edges.isEmpty && (getTp h.2 3).per.isNone) = true ∧
     g (timeCall (s 1 3 [(0x110, 2, 16)]) 3 1 (fun _ => true)) (fun y => (dsc y (c 1 3) 0 2).1 == 16) = true ∧
     g (timeCall (s 2 0 []) 0 2 (fun _ => true)) (fun y =>
       let a := dsc y (c 2 0) 0 8
       let b := dsc a.2 (c 2 0) 8 8
       getF y R.TIME_STATE_SRC == 3 && decide ((c 2 0).since ≤ b.1 + 1000000000) && b.2.time.prgAt.isNone) = true ∧
     g (timeCall (s 3 7 [(0x118, 8, 2000)]) 7 3 (fun x => x != 1)) (fun y =>
       let t := dsc y (c 3 7) 8 8
       let p := dsc t.2 (c 3 7) 16 4
       hasTask p.2 7 && decide ((c 3 7).since + 2000 ≤ t.1)) = true ∧
     g (timeCall (s 3 7 [(0x110, 1, 1)]) 7 3 (fun x => x == 1)) (fun _ => true) = true) ∧
    (let s (fn : Nat) (l : List (Nat × Nat × Nat)) := called 7 fn 0 (withM l (withF [(R.REC_S_SRC_EN, 1, 0, 63),
       (R.REC_S_SRC_KIND, 7, 0, 63), (R.REC_S_SRC_ID, 5, 0, 63)] State.reset))
     got (takeCall (s 0 [(0x110, 2, 0x1180)]) 7 0 0) (fun y =>
       let k := dsc y (callOf 7 0 0) 0 2
       let n := dsc k.2 (callOf 7 0 0) 2 2
       k.1 == 0x1180 && decide ((engRd n.2 (0x100 + 0x18) 20).2.recQ.length < 64)) = true ∧
     got (takeCall (s 1 [(0x110, 1, 5)]) 7 0 1) (fun y =>
       let n := dsc y (callOf 7 1 0) 0 1
       let x := dsc n.2 (callOf 7 1 0) 4 4
       getB x.2 R.REC_S_SRC_EN 0 63 && getF x.2 R.REC_S_SRC_KIND 0 63 == 7 && getF x.2 R.REC_S_SRC_ID 0 63 == n.1) = true) := by
  decide +kernel

/-! ## Clauses on instants, the pair and completion -/

theorem wit_TaskEventsAndTimeline_edges :
    (let s := { prog with ns := 250000 }
     let m := { prog with tsk := { prog.tsk with migPend := true } }
     let p := { s with tsk := { s.tsk with haltPend := true } }
     let h := { s with pair := { s.pair with hush := 1 } }
     atStart s = true ∧ undone (switchDue (deliveries s)) 2 = true ∧ s.tsk.migPend = false ∧ m.tsk.migPend = true ∧
     atStart m = true ∧ (switchDue (deliveries s)).pair.abdAt = none ∧ p.tsk.haltPend = true ∧ h.pair.hush = 1) ∧
    undone (fastCloses (at_ 240000)) 0 = true := by decide +kernel

theorem wit_KeyStopAndRestart_units :
    (let h := withF [(R.TSK_KEY_POS, 2, 0, 0)] prog
     let a := { h with tsk := { h.tsk with keyAcc := true } }
     a.tsk.keyAcc = true ∧ role a = 0 ∧ role (withF [(R.PAIR_ROLE_ROLE, 4, 0, 0)] a) = 4 ∧
     role (withF [(R.PAIR_ROLE_ROLE, 1, 0, 0)] a) ≠ 0 ∧ role (withF [(R.PAIR_ROLE_ROLE, 1, 0, 0)] a) ≠ 4 ∧
     prog.tsk.haltPend = false) ∧
    (let s := withF [(R.TSK_SLOT_OLC, 2, 0, 0)] prog
     let r := withF [(R.TSK_SLOT_OLC, 4, 0, 0)] prog
     olc (deliveries s) = 2 ∧ undone (deliveries s) 5 = true ∧ olc (deliveries r) = 4 ∧
     (let q := { prog with tsk := { prog.tsk with profReq := some 3, profiles := [(3, { stored := true })] } }
      switchStarts (releases q) = true ∧ (releases q).tsk.profLate = [] ∧ (releases q).tsk.profReq = some 3 ∧
      (getProfile (releases q) 3).stored = true)) := by decide +kernel

/-- The state in which a restart waits for its units. -/
def waits5 (s : State) : State :=
  let s1 := stepW5 (stepW4 (stepW1 { s with tsk := { s.tsk with due := none } } false) true)
  let s2 := setF (setB (setF (setB s1 R.TSK_RESTART_TYPE true) R.TSK_RESTART_CAUSE 2) R.TSK_RESTART_FELLBACK false) R.TSK_KEY_WIPED 0
  { s2 with tsk := { s2.tsk with ph := .units true, shadow := true } }

/-- Where no instance of a unit has a configuration, W5 leaves the unit alone. -/
theorem goW5_idle (s : State) (b : Blk) (h : (allCopies s b).all (fun i => !hasCfg s b i) = true) :
    forEach (allCopies s b) s (fun s i => if hasCfg s b i then toRun s b i else s) = s :=
  forEach_const _ _ _ (fun i hi => by simp [by simpa using List.all_eq_true.1 h i hi])

/-- W5 where only the time base and the channel unit have a configuration. -/
theorem stepW5_idle (s : State) (h1 : (allCopies (toRun s .time 0) .lnkPort).all (fun i => !hasCfg (toRun s .time 0) .lnkPort i) = true)
    (h2 : [Blk.canCh, .loopCtx, .profCh, .vaxAx, .bsnCtx].all (fun b =>
      (allCopies (toRun (toRun s .time 0) .chn 0) b).all (fun i => !hasCfg (toRun (toRun s .time 0) .chn 0) b i)) = true) :
    stepW5 s = toRun (toRun s .time 0) .chn 0 := by
  simp only [List.all_cons, List.all_nil, Bool.and_true, Bool.and_eq_true] at h2
  have k1 := goW5_idle _ _ h1
  obtain ⟨a, b, c, d, e⟩ := h2
  have k := fun x (h : (allCopies (toRun (toRun s .time 0) .chn 0) x).all _ = true) => goW5_idle (toRun (toRun s .time 0) .chn 0) x h
  simp only [forEach] at k k1
  simp only [stepW5, forEach, List.foldl_cons, List.foldl_nil]
  rw [k1, k _ a, k _ b, k _ c, k _ d, k _ e]

theorem wit_KeyStopAndRestart_waits :
    w5Done (waits5 (withF [(hBusy .canCh, 1, 3, 0)] prog)) = false ∧ w5Done (waits5 prog) = true := by
  refine ⟨?_, ?_⟩ <;> (unfold waits5; rw [stepW5_idle _ (by decide +kernel) (by decide +kernel)]; decide +kernel)

theorem wit_UnitRequests_safety :
    (let s (t : Nat) := withF [(hBusy .saf, 1, 0, 0)] (safAt t)
     getB (s 9990000) (hBusy .saf) = true ∧ stOf (s 9990000) .saf = 2 ∧ reaches (s 9990000) (period (s 9990000) 3) (s 9990000).tl.tGuard = true ∧
     reaches (s 9989996) (period (s 9989996) 3) (s 9989996).tl.tGuard = false) ∧
    (let x := { safAt 10000000 with time := { skipTo := 20000000 } }
     let y := releaseDue (deliveries x)
     safActive y = true ∧ y.time.skipTo ≠ 0 ∧ lastStart y 3 ≤ y.time.skipTo ∧ undone y 3 = true) := by decide +kernel

theorem wit_FieldLinks_positions :
    (let s := portAt 806000
     let fr (t : Nat) := scaty t 4 0 5 []
     frF (fr 2) 25 1 = 5 ∧ 4 ≤ 5 ∧ stConfigured s (4 * 0 + 3) = false ∧ frF (scaty 6 0 0 3 []) 25 1 = 3 ∧ rxKind (fr 2) 2 = .ok ∧
     rxKind (fr 6) 6 = .ok) ∧
    (let z := launches (setSta (setPort (portAt 10000) 0 { aq := [areq] }) 0 { credit := 1 })
     0 < nPort z ∧ inRun z .lnkPort 0 = true ∧ outPath z = true ∧ (getPort z 0).iout = [] ∧ nextReq z 0 = some areq ∧
     gapFor z 0 (wire (areqSize areq)) = true) ∧
    stFinLen (withM [(stAddr 0 0x11, 1, 1), (stAddr 0 0x0C, 2, 4)] State.reset) 0 ≠ 0 := by decide +kernel

theorem wit_LocalPoints_retry :
    (let s := setDo (lioAt 900000000 [(R.LIO_DO_CFG_RETRY, 1, 0, 15)]) 15 { cmd := true, off := true }
     (getDo s 15).off = true ∧ doCmd s 15 = true) := by decide +kernel

theorem wit_ProfilesAndAxes_rest :
    (let s := withM [(stAddr 255 0x80, 1, 2)] (withF [(hState .vaxAx, 2, 63, 0), (R.VAX_A_CFG_STATION, 255, 63, 0),
       (R.VAX_A_STAT_AXST, 1, 63, 0)] (at_ 238000))
     let x (y : State) := { launches y with done := mput 0 (launches y).done (1024 + 63) ((launches y).ticks + 1) }
     let c := callOf 2 1 63
     axSt (x s) 63 = 1 ∧ (getAxis (x s) 63).ready = false ∧ (getAxis (x s) 63).stop = none ∧ (getAxis (x s) 63).still = none ∧
     axSt (x (setAxis s 63 { stop := some c })) 63 < 2 ∧ (getAxis (x (setAxis s 63 { stop := some c })) 63).stop = some c) := by
  decide +kernel

theorem wit_BasinSolver_units :
    (let v (d : Nat) (c : List Call) (r : Bool) : Solve := { solveAt d true with cancel := c, ready := r }
     (v 3999 [] false).d < now State.reset + 4000 ∧ now State.reset + 4000 ≤ (v 4000 [] false).d ∧
     (v 4000 [callOf 3 1 15] false).cancel ≠ [] ∧ (v 4000 [] false).ready = false ∧ (v 4000 [] true).ready = true ∧
     State.reset.bsn.qps = [] ∧ State.reset.bsn.decided = [] ∧
     (let t := bsnSettle (launches { State.reset with bsn := { dlv := [(0, 255, 5)] } })
      let u := bsnSettle (launches { State.reset with bsn := { dlv := [(5, 255, 5)] } })
      t.bsn.dlv = [(0, 255, 5)] ∧ 0 ≤ now t ∧ u.bsn.dlv = [(5, 255, 5)] ∧ now u < 5)) := by decide +kernel

theorem wit_PairRoles_abdication :
    (let g := paired 1 [(R.PAIR_ROLE_PARTNER, 3, 0, 0), (R.PAIR_ROLE_HEALTHY, 1, 0, 0)]
     let f := { g with pwr := { g.pwr with pf := true } }
     let new := abdBits f &&& (0x1F ^^^ f.pair.seen)
     pairOn f = true ∧ role f = 1 ∧ f.pair.abdAt = none ∧ new ≠ 0 ∧ healthyStandby { f with pair := { f.pair with seen := abdBits f } } = true ∧
     (∃ i < 5, bitOf new i = true ∧ ∀ j < i, bitOf new j = false)) ∧
    (let z (sides : Nat) := paired 4 [(R.PAIR_SYNC_LINK, 1, 0, 0), (R.PAIR_CFG_PAIRED, sides, 0, 0)]
     getB (z 0) R.PAIR_CFG_PAIRED = false ∧ getB (z 0) R.PAIR_SYNC_LINK = true) ∧
    (let s := paired 3 []
     pairOn s = true ∧ ({} : SyncHdr).good = true ∧ ({} : SyncHdr).ver = 1 ∧ ({} : SyncHdr).epoch = roleEpoch s ∧
     ({} : HbBody).pairId = getF s R.PAIR_ID_ID ∧ role s ≠ 2) := by decide +kernel

theorem wit_HeartbeatLwriteAndRecorderComplete :
    (let s := setSess (hostAt [(R.TSK_KEY_POS, 2, 0, 0)]) 7 { priv := 4 }
     let t0 := setSess s 7 { getSess s 7 with last := tickNs s }
     3 ≤ (getSess s 7).priv ∧ mgWaits s 7 = false ∧ (getSess s 7).q = [] ∧ localReg 0x40A00004 = true ∧ 0x40A00004 % 4 = 0 ∧
     (mgWord { t0 with host := { t0.host with reqId := 9 } } 0x40A00004 [2, 0, 0, 0]).2 = none) ∧
    (let s (fn code : Nat) := called 7 fn 0 (withM [(0x110, 2, code)] State.reset)
     let c (fn : Nat) := callOf 7 fn 0
     let k := dsc (setEngq (s 0 0x1180) 7 []) (c 0) 0 2
     let d := engRd (dsc k.2 (c 0) 2 2).2 ((c 0).addr + 0x18) 20
     takeCall (s 0 0x1180) 7 0 0 = some (c 0, setEngq (s 0 0x1180) 7 []) ∧ 0x1180 ≤ k.1 ∧ k.1 ≤ 0x11FF ∧ d.2.recQ.length < 64) ∧
    (let s := withF [(R.REC_S_SRC_EN, 1, 0, 63), (R.REC_S_SRC_KIND, 7, 0, 63), (R.REC_S_SRC_ID, 5, 0, 63)] (called 7 1 0 (withM [(0x110, 1, 5)] State.reset))
     let c := callOf 7 1 0
     let n := dsc (setEngq s 7 []) c 0 1
     let x := (dsc n.2 c 4 4).2
     takeCall s 7 0 1 = some (c, setEngq s 7 []) ∧ getB x R.REC_S_SRC_EN 0 63 = true ∧ getF x R.REC_S_SRC_KIND 0 63 = 7 ∧
     getF x R.REC_S_SRC_ID 0 63 = n.1) ∧
    (let s := { withF [(hState .rcd, 2, 0, 0), (R.REC_S_SRC_EN, 1, 0, 63), (R.REC_S_INT_SEC, 60, 0, 63)] State.reset with
       sec := 60, statAt := [(63, 5)] }
     inRun s .rcd = true ∧ getB s R.REC_S_SRC_EN 0 63 = true ∧ 0 < mget s.statAt 63 0 ∧ mget s.statAt 63 0 ≤ now s ∧ 0 < statIv s 63 ∧
     s.recQ.length < 64 ∧ ∀ j < 64, j ≠ 63 → getB s R.REC_S_SRC_EN 0 j = false) := by decide +kernel

theorem wit_SessionsAndTime_clauses :
    (let c := callOf 6 0 3
     let s (m : Nat) := called 6 0 3 (withM [(0x110, 1, 2), (0x111, 1, m)] State.reset)
     (timeCall (s 0) 3 0 (fun x => x == 2)).isSome = true ∧ (dsc (setEngq (s 0) 6 []) c 1 1).1 ≤ 1 ∧
     1 < (dsc (setEngq (s 2) 6 []) c 1 1).1) ∧
    (let s := withF [(hState .time, 2, 0, 0), (R.TIME_PTP_CFG_MODE, 1, 0, 0), (R.TIME_PTP_CFG_PTP_PORT, 1, 0, 0),
       (R.TIME_PTP_STAT_HP1, 9, 0, 0)] State.reset
     let m : PtpMsg := { src := 9 }
     let f := setPtp s 1 { foreign := [{ ann := m, n := 2, at_ := 0 }] }
     (erBest s 1).any (fun x => x.src == m.src && x.srcPort == m.srcPort) = false ∧ ptpState f 1 = 9 ∧
     (erBest f 1).any (fun x => x.src == m.src && x.srcPort == m.srcPort) = true) := by decide +kernel

/-! ## Single steps -/

/-- The state after a command. -/
def after_ (i : Instr) (s : State) : State := match step { s with pending := [i] } with | .next t => t | _ => s

-- Table HXI-12 and R60: I32 wraps, V shows it, the result is sign-extended (R47).
theorem test_add_wraps : let k := (getCore (after_ (.aluAdd 0 3 false 0 0) (on 0 { wa := 0x7FFFFFFF, wb := 1 })) 0).ctx
    k.wa = 0xFFFFFFFF80000000 ∧ k.v = true ∧ k.n = true := by decide +kernel
-- Table HXI-12: DIV truncates toward zero.
theorem test_div_truncates : (getCore (after_ (.aluDiv 0 3 false 0 0) (on 0 { wa := 0xFFFFFFFFFFFFFFF9, wb := 2 })) 0).ctx.wa =
    0xFFFFFFFFFFFFFFFD := by decide +kernel
-- Table HXI-7: a U8 load extends with zeros.
theorem test_lw_u8 : (getCore (after_ (.lw 0 0 0 0 true 0x123) (withM [(0x123, 1, 0x80)] (on 0 {}))) 0).ctx.wb = 0x80 := by
  decide +kernel
-- Table HXI-10, step 1: LD DATA 0x0100.0.
theorem test_ld_bit : (getCore (after_ (.ld 0 0 0 0x100 7) (withM [(0x100, 1, 0x80)] (on 0 {}))) 0).ctx.lb = true := by
  decide +kernel
-- Table HXI-15: ILLEGAL_OPCODE is 0x0410, and it is kept with VALID (R74).
theorem test_illegal : let e := (getCore (after_ (.illegalOpcode 6 0xFC000000) (on 6 {})) 6).le
    e.code = 0x0410 ∧ e.valid = true := by decide +kernel
-- R69: XALU ADD wraps modulo 2^32 into a source that is also the destination.
theorem test_xalu_add : getX (getCore (after_ (.xaluAdd 0 1 1 0) (on 0 { x := [(1, 0x80000001)] })) 0).ctx 1 = 2 := by decide +kernel
-- R391: an alarm without a TIME task is refused; the completion word carries 0x15.
theorem test_alarm_refused : rdN (after_ (.alarmArm 7) (called 6 3 7 State.reset)) 0x10C 4 / 2 ^ 31 = 1 := by decide +kernel
-- A step on an empty queue is one tick of the TICK domain, 250 MHz (Table ARC-8): 4 ns.
theorem test_idle : tickNs (countTick State.reset) = 4 := by decide +kernel

end Sys2Proof.Machine
end

section
/-!
PROOFS. Absent instances of the HX7-P16 (R3): which copy an address of a repeated block belongs to (Table MAP-2), and what
a read and a write of a register that the variant does not have do.
-/

namespace Sys2Proof.Machine

/-! ## The block copy of an address -/

/-- The list of the blocks is complete. -/
theorem mem_allBlocks (b : Blk) : b ∈ allBlocks := by cases b <;> decide

/-- No two blocks overlap (Table MAP-2). -/
theorem blk_extents_disjoint : ∀ b ∈ allBlocks, ∀ c ∈ allBlocks, b ≠ c →
    b.base + b.extent ≤ c.base ∨ c.base + c.extent ≤ b.base := by decide

/-- The search for the block of an address finds the one whose extent holds it. -/
theorem find_block_of_mem_extent {b : Blk} {a : Nat} (hlo : b.base ≤ a) (hhi : a < b.base + b.extent) :
    allBlocks.find? (fun b => decide (b.base ≤ a) && decide (a < b.base + b.extent)) = some b := by
  cases h : allBlocks.find? (fun b => decide (b.base ≤ a) && decide (a < b.base + b.extent)) with
  | none =>
    have hb := List.find?_eq_none.1 h b (mem_allBlocks b)
    simp [hlo, hhi] at hb
  | some c =>
    have hc := List.find?_some h
    simp only [Bool.and_eq_true, decide_eq_true_eq] at hc
    by_cases hbc : b = c
    · rw [hbc]
    · have hd := blk_extents_disjoint b (mem_allBlocks b) c (mem_allBlocks c) hbc
      omega

/-- The copies of a repeated block fill its extent. -/
theorem extent_of_rep {b : Blk} (hr : b.rep = true) : b.extent = b.step * b.count := by
  cases b <;> simp [Blk.rep, Blk.step] at hr <;> rfl

/-- An offset within copy `i` of a repeated block lies in that copy. -/
theorem blkAt_copy {b : Blk} {i o : Nat} (hr : b.rep = true) (hi : i < b.count) (ho : o < b.step) :
    blkAt (b.base + i * b.step + o) = some (b, i, o) := by
  have hcopy : (i + 1) * b.step ≤ b.step * b.count := by
    rw [Nat.mul_comm b.step]; exact Nat.mul_le_mul_right _ hi
  have hfind := find_block_of_mem_extent (b := b) (a := b.base + i * b.step + o) (by omega)
    (by rw [extent_of_rep hr]; rw [Nat.succ_mul] at hcopy; omega)
  have hoff : b.base + i * b.step + o - b.base = o + b.step * i := by rw [Nat.mul_comm b.step]; omega
  have hpos : 0 < b.step := by omega
  simp only [blkAt, hfind, hr, hoff, if_true, Nat.add_mul_div_left _ _ hpos, Nat.add_mul_mod_self_left,
    Nat.div_eq_of_lt ho, Nat.mod_eq_of_lt ho, Nat.zero_add]

/-! ## Registers that the variant does not have -/

/-- The addresses outside the banks and tables of the loop engine. -/
theorem isLoopMem_eq_false_iff {a : Nat} : isLoopMem a = false ↔ a < 0x40420000 ∨ 0x404E0000 ≤ a := by
  rw [isLoopMem, Bool.and_eq_false_iff, decide_eq_false_iff_not, decide_eq_false_iff_not]
  omega

/-- Every register of a copy beyond the variant's is absent. -/
theorem absentReg_of_copies_le {s : State} {b : Blk} {i : Nat} (h : copies s b ≤ i) (o : Nat) : absentReg s b i o = true := by
  simp [absentReg, h]

section
variable {s : State} {a i o : Nat} {b : Blk}

/-- A read of an absent register reads 0 and changes nothing. -/
theorem regRead_absent (hm : isLoopMem a = false) (hb : blkAt a = some (b, i, o)) (hx : absentReg s b i (o / 4 * 4) = true) :
    regRead s a = (0, s) := by
  simp [regRead, hm, hb, hx]

/-- An address outside the banks and tables of the loop engine lies in neither part of them. -/
theorem not_bank_not_table (hm : isLoopMem a = false) :
    ¬(0x40420000 ≤ a ∧ a < 0x40460000) ∧ ¬(0x40460000 ≤ a ∧ a < 0x404E0000) := by
  rw [isLoopMem_eq_false_iff] at hm
  omega

/-- A write of an absent register changes nothing. -/
theorem regWrite_absent (hm : isLoopMem a = false) (hb : blkAt a = some (b, i, o))
    (hx : absentReg s b i (o / 4 * 4) = true) (mg : Bool) (v : Nat) : regWrite s mg a v = s := by
  obtain ⟨hbank, htable⟩ := not_bank_not_table hm
  simp [regWrite, hbank, htable, hb, hx]

/-- Management is refused no write of an absent register. -/
theorem mgRefusal_absent (hm : isLoopMem a = false) (hb : blkAt a = some (b, i, o))
    (hx : absentReg s b i (o / 4 * 4) = true) (v : Nat) : mgRefusal s a v = none := by
  obtain ⟨hbank, htable⟩ := not_bank_not_table hm
  simp [mgRefusal, hbank, htable, hb, hx]

/-- The command that reads an absent register changes nothing. -/
theorem exec_rcRegisterRead_absent (hm : isLoopMem a = false) (hb : blkAt a = some (b, i, o))
    (hx : absentReg s b i (o / 4 * 4) = true) : exec (.rcRegisterRead a) s = .next s := by
  change Host.Outcome.next (regRead s a).2 = _
  rw [regRead_absent hm hb hx]

/-- The command that writes an absent register changes nothing, from the program and from management. -/
theorem exec_registerWrite_absent (hm : isLoopMem a = false) (hb : blkAt a = some (b, i, o))
    (hx : absentReg s b i (o / 4 * 4) = true) (mg : Bool) (v : Nat) : exec (.registerWrite mg a v) s = .next s := by
  change execRegisterWrite mg a v s = _
  cases mg with
  | false => simp [execRegisterWrite, regWrite_absent hm hb hx]
  | true => simp [execRegisterWrite, mgRefusal_absent hm hb hx, regWrite_absent hm hb hx]

end

/-- A register of a copy beyond the variant's reads 0; neither a read nor a write of it changes anything. -/
theorem absent_copy_inert {s : State} {b : Blk} {i o : Nat} (hr : b.rep = true) (hi : i < b.count) (ho : o < b.step)
    (hc : copies s b ≤ i) (hm : isLoopMem (b.base + i * b.step + o) = false) (mg : Bool) (v : Nat) :
    (regRead s (b.base + i * b.step + o)).1 = 0 ∧ exec (.rcRegisterRead (b.base + i * b.step + o)) s = .next s ∧
      exec (.registerWrite mg (b.base + i * b.step + o) v) s = .next s := by
  have hb := blkAt_copy hr hi ho
  have hx := absentReg_of_copies_le hc (o / 4 * 4)
  exact ⟨by rw [regRead_absent hm hb hx], exec_rcRegisterRead_absent hm hb hx, exec_registerWrite_absent hm hb hx mg v⟩

/-- The HX7-P16 has 16 ports. -/
theorem copies_lnkPort_of_isP16 {s : State} (h : isP16 s = true) : copies s .lnkPort = 16 := by simp [copies, nPort, h]

/-- The HX7-P16 has 16 valve axes. -/
theorem copies_vaxAx_of_isP16 {s : State} (h : isP16 s = true) : copies s .vaxAx = 16 := by simp [copies, nAxis, h]

/-- The blocks of the ports lie below the banks of the loop engine. -/
theorem isLoopMem_lnkPort {i o : Nat} (hi : i < 64) (ho : o < Blk.step .lnkPort) :
    isLoopMem (Blk.base .lnkPort + i * Blk.step .lnkPort + o) = false := by
  simp only [isLoopMem_eq_false_iff, Blk.base, Blk.step] at ho ⊢
  omega

/-- The blocks of the valve axes lie above the tables of the loop engine. -/
theorem isLoopMem_vaxAx (i o : Nat) : isLoopMem (Blk.base .vaxAx + i * Blk.step .vaxAx + o) = false := by
  simp only [isLoopMem_eq_false_iff, Blk.base, Blk.step]
  omega

/-- Settles O37: ports and axes 16 to 63 are copies beyond those of the HX7-P16. -/
theorem absentInstancesReadZero : Obligations.AbsentInstancesReadZero := by
  intro s i o v mg hp hlo hhi
  constructor
  · intro ho
    exact absent_copy_inert rfl hhi ho ((copies_lnkPort_of_isP16 hp).trans_le hlo) (isLoopMem_lnkPort hhi ho) mg v
  · intro ho
    exact absent_copy_inert rfl hhi ho ((copies_vaxAx_of_isP16 hp).trans_le hlo) (isLoopMem_vaxAx i o) mg v

end Sys2Proof.Machine
end

section
/-!
PROOFS. The registers of a core: the branch stack, tables, memory forms and immediates, comparisons and index registers
(R54, R62, R63, R67, R69). First what an instruction answers once its checks have passed.
-/

namespace Sys2Proof.Machine

/-! ## Checks that pass -/

section
variable {s : State} {c : Nat} {f : State → Ctx → Out} {k : Ctx} {n : Nat}

/-- An instruction that is done in the state it found lands with its new context. -/
theorem runOn_landed (hr : runs s c = true) (hf : f s (stepCtx s c) = .done s k n) :
    runOn s c f = .next (landed s c k n) := runOn_done s c f k n hr hf

/-- An instruction that is done in another state lands on that state. -/
theorem runOn_landedOn {s1 : State} (hr : runs s c = true) (hf : f s (stepCtx s c) = .done s1 k n) :
    runOn s c f = .next (landedOn s s1 c k n) := runOn_done' s s1 c f k n hr hf

end

/-- A word operand that passes its checks is used at its effective address. -/
theorem wordChecked_of_ok {s : State} {c : Nat} {k : Ctx} {mode xi ofs n : Nat} {u : Use} {u32 : Bool} {f : Nat → Out}
    (hm : modeOk mode xi = true) (ha : accessFault c (effAddr k mode xi (ofs * n)) n n u u32 = none) :
    wordChecked s c k mode xi ofs n u u32 f = f (effAddr k mode xi (ofs * n)) := by
  simp [wordChecked, hm, ha]

/-- A read without an uncorrectable error goes on with the bytes read. -/
theorem loading_of_corr {s s1 : State} {c a n : Nat} {bs : List Byte} {f : State → List Byte → Out}
    (hu : uncorr s c a n = false) (hrd : memRd s c a n = (bs, s1)) : loading s c a n f = f s1 bs := by
  simp [loading, hu, hrd]

/-! ## LBOP (R54) -/

section
variable {s : State} {c : Nat}

/-- A sub-operation of LBOP without a condition lands with its context. -/
theorem lbop_landed (f : Ctx → Ctx) (hr : runs s c = true) :
    lbop c 0 f s = .next (landed s c (f (stepCtx s c)) 1) := runOn_landed hr rfl

/-- NOT is a sub-operation on LB. -/
theorem exec_lbopNot (rsv : Nat) : exec (.lbopNot c rsv) s = lbop c rsv (fun k => { k with lb := !k.lb }) s := rfl
/-- LB0 is a sub-operation on LB. -/
theorem exec_lbopLb0 (rsv : Nat) : exec (.lbopLb0 c rsv) s = lbop c rsv (fun k => { k with lb := false }) s := rfl
/-- LB1 is a sub-operation on LB. -/
theorem exec_lbopLb1 (rsv : Nat) : exec (.lbopLb1 c rsv) s = lbop c rsv (fun k => { k with lb := true }) s := rfl
/-- LBW is a sub-operation on WA. -/
theorem exec_lbw (rsv : Nat) : exec (.lbw c rsv) s = lbop c rsv (fun k => setAcc k false (b2n k.lb)) s := rfl
/-- WLB is a sub-operation on LB. -/
theorem exec_wlb (rsv : Nat) :
    exec (.wlb c rsv) s = lbop c rsv (fun k => { k with lb := decide (acc k false ≠ 0) }) s := rfl

/-- BOP with room pushes LB, with no path yet. -/
theorem execBop_of_room (hr : runs s c = true) (h : (stepCtx s c).br.length < 16) :
    execBop c 0 s =
      .next (landed s c { stepCtx s c with br := ((stepCtx s c).lb, false) :: (stepCtx s c).br } 1) :=
  runOn_landed hr (by simp [h])

/-- BOP on a full branch stack overflows. -/
theorem execBop_of_full (hr : runs s c = true) (h : 16 ≤ (stepCtx s c).br.length) :
    execBop c 0 s = .next (coreFault s c 0x0420 0) :=
  runOn_fault s s c _ _ _ hr (by simp [Nat.not_lt.2 h])

/-- BNX on an empty branch stack underflows. -/
theorem execBnx_of_empty (hr : runs s c = true) (h : (stepCtx s c).br = []) :
    execBnx c 0 s = .next (coreFault s c 0x0421 0) :=
  runOn_fault s s c _ _ _ hr (by simp [h])

/-- BCL on an empty branch stack underflows. -/
theorem execBcl_of_empty (hr : runs s c = true) (h : (stepCtx s c).br = []) :
    execBcl c 0 s = .next (coreFault s c 0x0421 0) :=
  runOn_fault s s c _ _ _ hr (by simp [h])

variable {l po : Bool} {t : List (Bool × Bool)}

/-- BNX starts the next path: the branch's LB again, and the path's LB gathered. -/
theorem execBnx_of_top (hr : runs s c = true) (h : (stepCtx s c).br = (l, po) :: t) :
    execBnx c 0 s =
      .next (landed s c { stepCtx s c with lb := l, br := (l, po || (stepCtx s c).lb) :: t } 1) :=
  runOn_landed hr (by simp [h])

/-- BCL closes the branch: the OR of its paths, and its entry removed. -/
theorem execBcl_of_top (hr : runs s c = true) (h : (stepCtx s c).br = (l, po) :: t) :
    execBcl c 0 s = .next (landed s c { stepCtx s c with lb := po || (stepCtx s c).lb, br := t } 1) :=
  runOn_landed hr (by simp [h])

end

/-- WA holds 0 exactly where its number is 0. -/
theorem acc_false_ne_zero_iff (k : Ctx) : acc k false ≠ 0 ↔ k.wa ≠ 0 := by
  simp [acc, ← BitVec.toNat_inj]

/-- Settles O5, by the state of the branch stack. -/
theorem lbopSubOperations : Obligations.LbopSubOperations := by
  intro s c hr
  refine ⟨(exec_lbopNot 0).trans (lbop_landed _ hr), (exec_lbopLb0 0).trans (lbop_landed _ hr),
    (exec_lbopLb1 0).trans (lbop_landed _ hr), ?lbw, ?wlb, execBop_of_room hr, execBop_of_full hr,
    fun h => ⟨execBnx_of_empty hr h, execBcl_of_empty hr h⟩,
    fun _ _ _ h => ⟨execBnx_of_top hr h, execBcl_of_top hr h⟩⟩
  case lbw =>
    rw [exec_lbw, lbop_landed _ hr]
    cases h : (stepCtx s c).lb <;> simp [setAcc, b2n, h]
  case wlb =>
    rw [exec_wlb, lbop_landed _ hr]
    simp only [acc_false_ne_zero_iff]

/-! ## TBL (R67) -/

section
variable {s : State} {c xb xi ty lim : Nat} {ac : Bool} {a : Nat}

/-- TBL below its limit loads the element, with Z and N as LW sets them. -/
theorem execTbl_of_lt {s1 : State} {bs : List Byte} (hr : runs s c = true)
    (hadr : (getX (stepCtx s c) xb + getX (stepCtx s c) xi * tySize ty) % 2 ^ 32 = a)
    (ha : accessFault c a (tySize ty) (tySize ty) .load (ty == 4) = none) (hlt : getX (stepCtx s c) xi < tblLim lim)
    (hu : uncorr s c a (tySize ty) = false) (hrd : memRd s c a (tySize ty) = (bs, s1)) :
    execTbl c xb xi ty ac lim s =
      .next (landedOn s s1 c (loadFlags (setAcc (stepCtx s c) ac (tyExt ty (leNat bs))) ty (leNat bs)) 3) :=
  runOn_landedOn hr (by simp only [hadr, ha, hlt, decide_true, need_true, loading_of_corr hu hrd])

/-- TBL at or beyond its limit faults with TBL_RANGE at the element's address (log entry 111). -/
theorem execTbl_of_ge (hr : runs s c = true)
    (hadr : (getX (stepCtx s c) xb + getX (stepCtx s c) xi * tySize ty) % 2 ^ 32 = a)
    (ha : accessFault c a (tySize ty) (tySize ty) .load (ty == 4) = none) (hge : tblLim lim ≤ getX (stepCtx s c) xi) :
    execTbl c xb xi ty ac lim s = .next (coreFault s c 0x0431 a) :=
  runOn_fault s s c _ _ _ hr (by simp only [hadr, ha, Nat.not_lt.2 hge, decide_false, need_false])

end

/-- Settles O12, by whether the index is below the limit. -/
theorem tableElements : Obligations.TableElements := by
  intro s c xb xi ty lim ac hr k n a ha
  exact ⟨fun bs s1 hlt hu hrd => execTbl_of_lt hr rfl ha hlt hu hrd, fun hge => execTbl_of_ge hr rfl ha hge⟩

/-! ## Memory forms (R62) -/

/-- The zero divisors are those of the integer types. -/
theorem divZero_iff {ty b : Nat} (h : 3 ≤ ty) : divZero ty b = true ↔ ty ≤ 5 ∧ b % 2 ^ tyBits ty = 0 := by
  simp [divZero, isInt, h]

section
variable {s s1 : State} {c mode xi ty ofs cyc a : Nat} {ac dz : Bool} {bs : List Byte} {f : Nat → Nat → Nat → AluRes}
  (hr : runs s c = true) (hty : isArith ty = true) (hm : modeOk mode xi = true)
  (hadr : effAddr (stepCtx s c) mode xi (ofs * tySize ty) = a)
  (ha : accessFault c a (tySize ty) (tySize ty) .load (ty == 4) = none) (hu : uncorr s c a (tySize ty) = false)
  (hrd : memRd s c a (tySize ty) = (bs, s1))
include hr hty hm hadr ha hu hrd

/-- A memory form without a zero divisor lands with the result of its function. -/
theorem memArith_landedOn (hz : (dz && divZero ty (leNat bs)) = false) :
    memArith c mode xi ty ac ofs f dz cyc s = .next (landedOn s s1 c
      (accResult (stepCtx s c) ac ty (f ty (acc (stepCtx s c) ac % 2 ^ tyBits ty) (leNat bs))) (cyc + 2)) := by
  subst hadr
  apply runOn_landedOn hr
  rw [hty, need_true, wordChecked_of_ok hm ha, loading_of_corr hu hrd, hz, Bool.not_false, need_true]

/-- A division by a zero in memory faults with DIV_ZERO at the operand's address (log entry 110). -/
theorem memArith_divZero (hz : divZero ty (leNat bs) = true) :
    memArith c mode xi ty ac ofs f true cyc s = .next (coreFault s1 c 0x0430 a) := by
  subst hadr
  apply runOn_fault s s1 c _ _ _ hr
  rw [hty, need_true, wordChecked_of_ok hm ha, loading_of_corr hu hrd, hz, Bool.and_self, Bool.not_true, need_false]

end

/-- Cycles by type, with the 2 cycles of the memory operand. -/
theorem tyCyc_add_two (ty i32 i64 c32 c64 : Nat) :
    tyCyc ty i32 i64 c32 c64 + 2 =
      if ty = 5 then i64 + 2 else if ty = 6 then c32 + 2 else if ty = 7 then c64 + 2 else i32 + 2 := by
  unfold tyCyc
  split_ifs <;> rfl

/-! ## LDI and ADDI (R62) -/

/-- A field replaced in a number of `n` bits leaves a number of `n` bits. -/
theorem setBits_lt_two_pow {v n l w : Nat} (x : Nat) (hv : v < 2 ^ n) (h : l + w ≤ n) : setBits v l w x < 2 ^ n := by
  refine Nat.lt_pow_two_of_testBit _ fun i hi => ?_
  have hbit := bits_setBits_other v l w x i 1 (.inr (h.trans hi))
  have htest : ∀ u : Nat, u.testBit i = decide (bits u i 1 = 1) := by simp [bits, Nat.testBit]
  rw [htest, hbit, ← htest, Nat.testBit_lt_two_pow (hv.trans_le (Nat.pow_le_pow_right Nat.two_pos hi))]

/-- An accumulator holds 64 bits. -/
theorem acc_lt (k : Ctx) (b : Bool) : acc k b < 2 ^ 64 := by
  cases b
  · exact k.wa.isLt
  · exact k.wb.isLt

/-- The signed value of a pattern cut to its width is that of the pattern. -/
theorem sint_mod (w v : Nat) : sint w (v % 2 ^ w) = sint w v := by simp only [sint, Nat.mod_mod]

/-- The integer sum depends on its first operand modulo the width alone. -/
theorem iAdd_mod_left (t a b : Nat) : iAdd t (a % 2 ^ tyBits t) b = iAdd t a b := by
  simp only [iAdd, sint_mod, Nat.mod_mod]

/-- LDI lands with the quarter replaced in the accumulator, or in 0. -/
theorem execLdi_landed {s : State} {c : Nat} (hr : runs s c = true) (ac : Bool) {pos : Nat} (hpos : pos < 4) (keep : Bool)
    (imm : Nat) :
    execLdi c ac pos keep 0 imm s = .next (landed s c (setAcc (stepCtx s c) ac
      (setBits (if keep then acc (stepCtx s c) ac else 0) (16 * pos) 16 imm)) 1) :=
  runOn_landed hr (by simp [Nat.mod_eq_of_lt hpos])

/-- A field of a number that is kept or cleared. -/
theorem bits_ite_zero (keep : Bool) (v l w : Nat) :
    bits (if keep then v else 0) l w = if keep then bits v l w else 0 := by
  cases keep <;> simp [bits]

/-- ADDI lands with the result of ADD, as I32 or I64. -/
theorem execAddi_landed {s : State} {c : Nat} (hr : runs s c = true) (ac w : Bool) (imm : Nat) :
    execAddi c ac w 0 imm s = .next (landed s c (accResult (stepCtx s c) ac (if w then 5 else 3)
      (aluAdd (if w then 5 else 3) (acc (stepCtx s c) ac % 2 ^ tyBits (if w then 5 else 3))
        (pat (tyBits (if w then 5 else 3)) (sint 16 imm)))) 1) := by
  have hflt : isFlt (if w then 5 else 3) = false := by cases w <;> rfl
  apply runOn_landed hr
  simp [aluAdd, hflt, iAdd_mod_left]

/-- Settles O17: each memory form is `memArith` of its function, and LDI replaces one field. -/
theorem memoryFormsAndImmediates : Obligations.MemoryFormsAndImmediates := by
  refine ⟨?memory, ?immediates⟩
  case memory =>
    intro p hp s s1 c mode xi ty ofs ac bs hr hm hty k n a ha hu hrd
    have harith : isArith ty = true := decide_eq_true hty
    obtain ⟨cyc, hexec, hcyc⟩ : ∃ cyc, exec (p.1 c mode xi ty ac ofs) s = memArith c mode xi ty ac ofs p.2.1 p.2.2.1 cyc s ∧
        cyc + 2 = p.2.2.2 ty := by
      simp only [List.mem_cons, List.not_mem_nil, or_false] at hp
      rcases hp with rfl | rfl | rfl | rfl
      all_goals exact ⟨_, rfl, (tyCyc_add_two ..).trans (by grind)⟩
    constructor
    · intro hz
      rw [hexec, ← hcyc]
      exact memArith_landedOn hr harith hm rfl ha hu hrd (by simpa [← divZero_iff hty.1] using hz)
    · intro hz
      exact memArith_divZero hr harith hm rfl ha hu hrd ((divZero_iff hty.1).2 hz)
  case immediates =>
    intro s c pos imm ac keep w hr hpos himm k
    refine ⟨⟨_, execLdi_landed hr ac hpos keep imm, ?_, ?_, ?_⟩, execAddi_landed hr ac w imm⟩
    · apply setBits_lt_two_pow
      · cases keep
        · exact Nat.two_pow_pos 64
        · exact acc_lt k ac
      · omega
    · rw [bits_setBits_same, Nat.mod_eq_of_lt himm]
    · intro q hq hne
      rw [bits_setBits_other _ _ _ _ _ _ (by omega), bits_ite_zero]

/-! ## CMP (R63) -/

/-- Two patterns have the same signed value exactly where they agree modulo the width. -/
theorem sint_eq_sint_iff {w a b : Nat} : sint w a = sint w b ↔ a % 2 ^ w = b % 2 ^ w := by
  have ha := Nat.mod_lt a (Nat.two_pow_pos w)
  have hb := Nat.mod_lt b (Nat.two_pow_pos w)
  unfold sint
  split_ifs <;> omega

/-- Two patterns of an integer type stand for the same integer exactly where they agree modulo the width. -/
theorem tyInt_eq_tyInt_iff {ty a b : Nat} : tyInt ty a = tyInt ty b ↔ a % 2 ^ tyBits ty = b % 2 ^ tyBits ty := by
  unfold tyInt
  split
  · exact sint_eq_sint_iff
  · exact Int.ofNat_inj

/-- The arithmetic types above I64 are the floats. -/
theorem isFlt_eq_of_arith {ty : Nat} (h : 3 ≤ ty ∧ ty ≤ 7) : isFlt ty = decide (¬ ty ≤ 5) :=
  decide_eq_decide.2 (by omega)

/-- CMP takes 1 cycle for integers and 2 for floats. -/
theorem cmp_cycles {ty : Nat} (h : 3 ≤ ty ∧ ty ≤ 7) : (if isFlt ty then 2 else 1) = if ty ≤ 5 then 1 else 2 := by
  by_cases hi : ty ≤ 5 <;> simp [isFlt_eq_of_arith h, hi]

section
variable {ty : Nat} (h : 3 ≤ ty ∧ ty ≤ 7) (a b : Nat)
include h

/-- Z of CMP is equality, of the integers or of the floats. -/
theorem cmpFlags_z :
    (cmpFlags ty a b).z = if ty ≤ 5 then decide (tyInt ty a = tyInt ty b) else feq (fmt ty) a b := by
  by_cases hi : ty ≤ 5 <;> simp [cmpFlags, isFlt_eq_of_arith h, hi, tyInt_eq_tyInt_iff]

/-- The order of CMP is C for U32 and N for the signed types and the floats. -/
theorem cmpFlags_less :
    (if ty = 4 then (cmpFlags ty a b).c else (cmpFlags ty a b).n) =
      if ty ≤ 5 then decide (tyInt ty a < tyInt ty b) else flt (fmt ty) a b := by
  by_cases h4 : ty = 4
  · subst h4
    exact decide_eq_decide.2 Int.ofNat_lt.symm
  · obtain ⟨hlo, hhi⟩ := h
    interval_cases ty <;> simp_all [cmpFlags, isFlt, tyInt, tySigned]

/-- U of CMP is set for unordered floats alone. -/
theorem cmpFlags_u : (cmpFlags ty a b).u = if ty ≤ 5 then false else (fcmp (fmt ty) a b).isNone := by
  by_cases hi : ty ≤ 5 <;> simp [cmpFlags, isFlt_eq_of_arith h, hi]

end

/-- The condition of CMP from equality, order and unordered. -/
theorem cmpRel_eq_getD {cond ty a b : Nat} (hc : cond < 8) {eq lt un : Bool} (hz : (cmpFlags ty a b).z = eq)
    (hlt : (if ty = 4 then (cmpFlags ty a b).c else (cmpFlags ty a b).n) = lt) (hu : (cmpFlags ty a b).u = un) :
    cmpRel cond ty a b =
      [eq, !eq, lt, lt || eq, !un && !lt && !eq, !un && !lt, un, !un].getD cond false := by
  subst hz hlt hu
  interval_cases cond <;> rfl

/-- The combinations of CMP into LB. -/
theorem combine_eq_getD {comb : Nat} (h : comb < 4) (lb r : Bool) :
    combine comb lb r = [lb, r, lb && r, lb || r].getD comb false := by
  interval_cases comb <;> rfl

/-- CMP lands with the flags of the relation and its result combined into LB. -/
theorem execCmp_landed {s : State} {c ty : Nat} (hr : runs s c = true) (hty : isArith ty = true) (cond comb : Nat) {a b : Nat}
    (ha : acc (stepCtx s c) false % 2 ^ tyBits ty = a) (hb : acc (stepCtx s c) true % 2 ^ tyBits ty = b) :
    execCmp c cond ty comb 0 s = .next (landed s c
      { setFlags (stepCtx s c) (cmpFlags ty a b) with
        lb := combine comb (stepCtx s c).lb (cmpRel cond ty a b) } (if isFlt ty then 2 else 1)) :=
  runOn_landed hr (by simp [hty, ha, hb])

/-- Settles O19, from the flags of the relation. -/
theorem compareAndCombine : Obligations.CompareAndCombine := by
  intro s c cond ty comb hr hty hcond hcomb k a b eq lt un r
  have hrel : cmpRel cond ty a b = r :=
    cmpRel_eq_getD hcond (cmpFlags_z hty a b) (cmpFlags_less hty a b) (cmpFlags_u hty a b)
  have hland := execCmp_landed hr (decide_eq_true hty) cond comb (a := a) (b := b) rfl rfl
  rw [hrel, combine_eq_getD hcomb, cmp_cycles hty] at hland
  exact hland

/-! ## Index registers (R69) -/

/-- An index register holds 32 bits. -/
theorem getX_lt (k : Ctx) (i : Nat) : getX k i < 2 ^ 32 := (mget k.x (i % 16) 0).isLt

/-- An index register takes its value modulo 2³². -/
@[simp] theorem setX_mod (k : Ctx) (i v : Nat) : setX k i (v % 2 ^ 32) = setX k i v := by
  simp [setX, BitVec.ofNat, Fin.ofNat]

section
variable {s : State} {c xd xs imm : Nat}

/-- MOV as an operation of XALU. -/
theorem exec_xaluMov : exec (.xaluMov c xd xs imm) s = xalu c xd (imm == 0) (fun k => getX k xs) s := rfl
/-- ADD as an operation of XALU. -/
theorem exec_xaluAdd : exec (.xaluAdd c xd xs imm) s = xalu c xd (imm == 0) (fun k => getX k xd + getX k xs) s := rfl
/-- SUB as an operation of XALU. -/
theorem exec_xaluSub : exec (.xaluSub c xd xs imm) s = xalu c xd (imm == 0) (fun k => getX k xd + 2 ^ 32 - getX k xs) s := rfl
/-- AND as an operation of XALU. -/
theorem exec_xaluAnd : exec (.xaluAnd c xd xs imm) s = xalu c xd (imm == 0) (fun k => getX k xd &&& getX k xs) s := rfl
/-- OR as an operation of XALU. -/
theorem exec_xaluOr : exec (.xaluOr c xd xs imm) s = xalu c xd (imm == 0) (fun k => getX k xd ||| getX k xs) s := rfl
/-- SHL as an operation of XALU. -/
theorem exec_xaluShl : exec (.xaluShl c xd xs imm) s = xalu c xd (imm == 0) (fun k => getX k xd * 2 ^ (getX k xs % 32)) s := rfl
/-- SHR as an operation of XALU. -/
theorem exec_xaluShr : exec (.xaluShr c xd xs imm) s = xalu c xd (imm == 0) (fun k => getX k xd / 2 ^ (getX k xs % 32)) s := rfl
/-- ADDI as an operation of XALU. -/
theorem exec_xaluAddi : exec (.xaluAddi c xd xs imm) s = xalu c xd (xs == 0) (fun k => getX k xd + pat 32 (sint 14 imm)) s := rfl
/-- FROMWA as an operation of XALU. -/
theorem exec_xaluFromwa : exec (.xaluFromwa c xd xs imm) s = xalu c xd (imm == 0 && xs == 0) (fun k => acc k false) s := rfl

end

section
variable {s : State} {c xd : Nat} {f : Ctx → Nat}

/-- XALU with its fields permitted lands with the new index register. -/
theorem xalu_landed (hr : runs s c = true) :
    xalu c xd true f s = .next (landed s c (setX (stepCtx s c) xd (f (stepCtx s c))) 1) := runOn_landed hr rfl

/-- XALU that wraps lands with the result modulo 2³². -/
theorem xalu_landed_mod (hr : runs s c = true) :
    xalu c xd true f s = .next (landed s c (setX (stepCtx s c) xd (f (stepCtx s c) % 2 ^ 32)) 1) := by
  rw [xalu_landed hr, setX_mod]

/-- XALU with a field that is not permitted is refused. -/
theorem xalu_refused {ok : Bool} (hr : runs s c = true) (hok : ok = false) :
    xalu c xd ok f s = .next (coreFault s c 0x0411 0) := runOn_fault s s c _ _ _ hr (by rw [hok, need_false])

/-- TOWA lands with the index register in WA. -/
theorem execXaluTowa_landed (hr : runs s c = true) (xd : Nat) :
    execXaluTowa c xd 0 0 s =
      .next (landed s c { stepCtx s c with wa := BitVec.ofNat 64 (getX (stepCtx s c) xd) } 1) := runOn_landed hr rfl

/-- TOWA with a field that is not permitted is refused. -/
theorem execXaluTowa_refused {xs imm : Nat} (hr : runs s c = true) (hok : (imm == 0 && xs == 0) = false) :
    execXaluTowa c xd xs imm s = .next (coreFault s c 0x0411 0) :=
  runOn_fault s s c _ _ _ hr (by rw [hok, need_false])

end

/-- The 32-bit pattern of a signed 14-bit immediate. -/
theorem pat_sint_imm14 {imm : Nat} (h : imm < 2 ^ 14) :
    pat 32 (sint 14 imm) = if imm < 2 ^ 13 then imm else imm + 2 ^ 32 - 2 ^ 14 := by
  unfold pat sint
  split_ifs <;> omega

/-- A half of a 32-bit number replaced, the other half kept or cleared. -/
theorem setBits_half {d half : Nat} (hd : d < 2 ^ 32) (hh : half < 2 ^ 16) (hi keep : Bool) :
    setBits (if keep then d else 0) (if hi then 16 else 0) 16 half =
      if hi then half * 2 ^ 16 + (if keep then d % 2 ^ 16 else 0)
      else half + (if keep then d / 2 ^ 16 * 2 ^ 16 else 0) := by
  rw [setBits_eq]
  cases hi <;> cases keep <;> simp <;> omega

/-- LXI lands with one half of the index register replaced. -/
theorem execLxi_landed {s : State} {c : Nat} (hr : runs s c = true) (xd : Nat) (hi keep : Bool) {half : Nat}
    (hh : half < 2 ^ 16) :
    execLxi c xd hi keep 0 half s = .next (landed s c (setX (stepCtx s c) xd
      (if hi then half * 2 ^ 16 + (if keep then getX (stepCtx s c) xd % 2 ^ 16 else 0)
        else half + (if keep then getX (stepCtx s c) xd / 2 ^ 16 * 2 ^ 16 else 0))) 1) :=
  runOn_landed hr (by rw [← setBits_half (getX_lt _ _) hh]; rfl)

/-- ADDI of XALU lands with the sum of the register and the signed immediate. -/
theorem execXaluAddi_landed {s : State} {c : Nat} (hr : runs s c = true) (xd : Nat) {imm : Nat} (h : imm < 2 ^ 14) :
    execXaluAddi c xd 0 imm s = .next (landed s c (setX (stepCtx s c) xd ((getX (stepCtx s c) xd +
      (if imm < 2 ^ 13 then imm else imm + 2 ^ 32 - 2 ^ 14)) % 2 ^ 32)) 1) := by
  rw [← pat_sint_imm14 h]
  exact xalu_landed_mod hr

/-- Settles O20, by the permitted fields. -/
theorem indexRegisters : Obligations.IndexRegisters := by
  intro s c xd xs imm half hi keep hr himm hhalf k put d x
  refine ⟨exec_xaluMov.trans (xalu_landed hr), exec_xaluAdd.trans (xalu_landed_mod hr),
    exec_xaluSub.trans (xalu_landed_mod hr), exec_xaluAnd.trans (xalu_landed hr), exec_xaluOr.trans (xalu_landed hr),
    exec_xaluShl.trans (xalu_landed_mod hr), exec_xaluShr.trans (xalu_landed hr), execXaluAddi_landed hr xd himm,
    exec_xaluFromwa.trans (xalu_landed_mod hr), execXaluTowa_landed hr xd, execLxi_landed hr xd hi keep hhalf, ?imm14, ?xs⟩
  case imm14 =>
    intro h
    have himm0 : (imm == 0) = false := beq_eq_false_iff_ne.2 h
    have hboth : (imm == 0 && xs == 0) = false := by rw [himm0, Bool.false_and]
    simp only [List.forall_mem_cons, exec_xaluMov, exec_xaluAdd, exec_xaluSub, exec_xaluAnd, exec_xaluOr, exec_xaluShl,
      exec_xaluShr, exec_xaluFromwa, xalu_refused hr himm0, xalu_refused hr hboth, true_and]
    exact ⟨execXaluTowa_refused hr hboth, List.forall_mem_nil _⟩
  case xs =>
    intro h
    have hxs0 : (xs == 0) = false := beq_eq_false_iff_ne.2 h
    have hboth : (imm == 0 && xs == 0) = false := by rw [hxs0, Bool.and_false]
    simp only [List.forall_mem_cons, exec_xaluAddi, exec_xaluFromwa, xalu_refused hr hxs0, xalu_refused hr hboth, true_and]
    exact ⟨execXaluTowa_refused hr hboth, List.forall_mem_nil _⟩

end Sys2Proof.Machine
end

section
/-!
PROOFS. The words of the instructions (Tables HXI-4 and HXI-16): each format's fields read back what the word was written
from, so that decoding a word gives its instruction back.
-/

namespace Sys2Proof.Machine

/-! ## Fields of the formats -/

/-- A field of a word is a quotient and a remainder. -/
theorem bits_eq (v l w : Nat) : bits v l w = v / 2 ^ l % 2 ^ w := by rw [bits, Nat.shiftRight_eq_div_pow]

/-- A bit of a word is the field of width 1. -/
theorem bitOf_eq_iff {v n : Nat} {b : Bool} : bitOf v n = b ↔ bits v n 1 = b2n b := by
  cases b <;> simp [bitOf, bits, b2n]

/-- A truth value takes one bit. -/
theorem b2n_lt (b : Bool) : b2n b < 2 := by cases b <;> decide

/-- The fields of the format of bit logic. -/
theorem wordLd_fields {op mode xi ofs bit : Nat} (hop : op < 64) (hmode : mode < 8) (hxi : xi < 16)
    (hofs : ofs < 65536) (hbit : bit < 8) :
    bits (wordLd op mode xi ofs bit) 26 6 = op ∧
    bits (wordLd op mode xi ofs bit) 23 3 = mode ∧
    bits (wordLd op mode xi ofs bit) 19 4 = xi ∧
    bits (wordLd op mode xi ofs bit) 3 16 = ofs ∧
    bits (wordLd op mode xi ofs bit) 0 3 = bit := by
  simp only [bits_eq, wordLd]
  omega

/-- The fields of the format of LBOP. -/
theorem wordLbopNot_fields {op sub rsv : Nat} (hop : op < 64) (hsub : sub < 64) (hrsv : rsv < 1048576) :
    bits (wordLbopNot op sub rsv) 26 6 = op ∧
    bits (wordLbopNot op sub rsv) 20 6 = sub ∧
    bits (wordLbopNot op sub rsv) 0 20 = rsv := by
  simp only [bits_eq, wordLbopNot]
  omega

/-- The fields of the format of TMR and TMRX. -/
theorem wordTmrTon_fields {op sub xi unit rsv cell : Nat} {i : Bool} (hop : op < 64) (hsub : sub < 4)
    (hxi : xi < 16) (hunit : unit < 4) (hrsv : rsv < 32) (hcell : cell < 4096) :
    bits (wordTmrTon op sub i xi unit rsv cell) 26 6 = op ∧
    bits (wordTmrTon op sub i xi unit rsv cell) 24 2 = sub ∧
    bitOf (wordTmrTon op sub i xi unit rsv cell) 23 = i ∧
    bits (wordTmrTon op sub i xi unit rsv cell) 19 4 = xi ∧
    bits (wordTmrTon op sub i xi unit rsv cell) 17 2 = unit ∧
    bits (wordTmrTon op sub i xi unit rsv cell) 12 5 = rsv ∧
    bits (wordTmrTon op sub i xi unit rsv cell) 0 12 = cell := by
  have hi := b2n_lt i
  simp only [bitOf_eq_iff, bits_eq, wordTmrTon]
  omega

/-- The fields of the format of CTR. -/
theorem wordCtu_fields {op sub mode xi ac ofs : Nat} (hop : op < 64) (hsub : sub < 8) (hmode : mode < 8)
    (hxi : xi < 16) (hac : ac < 2) (hofs : ofs < 32768) :
    bits (wordCtu op sub mode xi ac ofs) 26 6 = op ∧
    bits (wordCtu op sub mode xi ac ofs) 16 3 = sub ∧
    bits (wordCtu op sub mode xi ac ofs) 23 3 = mode ∧
    bits (wordCtu op sub mode xi ac ofs) 19 4 = xi ∧
    bits (wordCtu op sub mode xi ac ofs) 15 1 = ac ∧
    bits (wordCtu op sub mode xi ac ofs) 0 15 = ofs := by
  simp only [bits_eq, wordCtu]
  omega

/-- The fields of the format of the word forms. -/
theorem wordLw_fields {op mode xi ty ofs : Nat} {ac : Bool} (hop : op < 64) (hmode : mode < 8) (hxi : xi < 16)
    (hty : ty < 8) (hofs : ofs < 32768) :
    bits (wordLw op mode xi ty ac ofs) 26 6 = op ∧
    bits (wordLw op mode xi ty ac ofs) 23 3 = mode ∧
    bits (wordLw op mode xi ty ac ofs) 19 4 = xi ∧
    bits (wordLw op mode xi ty ac ofs) 16 3 = ty ∧
    bitOf (wordLw op mode xi ty ac ofs) 15 = ac ∧
    bits (wordLw op mode xi ty ac ofs) 0 15 = ofs := by
  have hac := b2n_lt ac
  simp only [bitOf_eq_iff, bits_eq, wordLw]
  omega

/-- The fields of the format of ALU. -/
theorem wordAluAdd_fields {op sub ty ty2 rsv : Nat} {d : Bool} (hop : op < 64) (hsub : sub < 32) (hty : ty < 8)
    (hty2 : ty2 < 8) (hrsv : rsv < 16384) :
    bits (wordAluAdd op sub ty d ty2 rsv) 26 6 = op ∧
    bits (wordAluAdd op sub ty d ty2 rsv) 21 5 = sub ∧
    bits (wordAluAdd op sub ty d ty2 rsv) 18 3 = ty ∧
    bitOf (wordAluAdd op sub ty d ty2 rsv) 17 = d ∧
    bits (wordAluAdd op sub ty d ty2 rsv) 14 3 = ty2 ∧
    bits (wordAluAdd op sub ty d ty2 rsv) 0 14 = rsv := by
  have hd := b2n_lt d
  simp only [bitOf_eq_iff, bits_eq, wordAluAdd]
  omega

/-- The fields of the format of LDI. -/
theorem wordLdi_fields {op pos rsv imm : Nat} {ac keep : Bool} (hop : op < 64) (hpos : pos < 4) (hrsv : rsv < 64)
    (himm : imm < 65536) :
    bits (wordLdi op ac pos keep rsv imm) 26 6 = op ∧
    bitOf (wordLdi op ac pos keep rsv imm) 25 = ac ∧
    bits (wordLdi op ac pos keep rsv imm) 23 2 = pos ∧
    bitOf (wordLdi op ac pos keep rsv imm) 22 = keep ∧
    bits (wordLdi op ac pos keep rsv imm) 16 6 = rsv ∧
    bits (wordLdi op ac pos keep rsv imm) 0 16 = imm := by
  have hac := b2n_lt ac
  have hkeep := b2n_lt keep
  simp only [bitOf_eq_iff, bits_eq, wordLdi]
  omega

/-- The fields of the format of ADDI. -/
theorem wordAddi_fields {op rsv imm : Nat} {ac w : Bool} (hop : op < 64) (hrsv : rsv < 256) (himm : imm < 65536) :
    bits (wordAddi op ac w rsv imm) 26 6 = op ∧
    bitOf (wordAddi op ac w rsv imm) 25 = ac ∧
    bitOf (wordAddi op ac w rsv imm) 24 = w ∧
    bits (wordAddi op ac w rsv imm) 16 8 = rsv ∧
    bits (wordAddi op ac w rsv imm) 0 16 = imm := by
  have hac := b2n_lt ac
  have hw := b2n_lt w
  simp only [bitOf_eq_iff, bits_eq, wordAddi]
  omega

/-- The fields of the format of CMP. -/
theorem wordCmp_fields {op cond ty comb rsv : Nat} (hop : op < 64) (hcond : cond < 8) (hty : ty < 8)
    (hcomb : comb < 4) (hrsv : rsv < 262144) :
    bits (wordCmp op cond ty comb rsv) 26 6 = op ∧
    bits (wordCmp op cond ty comb rsv) 23 3 = cond ∧
    bits (wordCmp op cond ty comb rsv) 20 3 = ty ∧
    bits (wordCmp op cond ty comb rsv) 18 2 = comb ∧
    bits (wordCmp op cond ty comb rsv) 0 18 = rsv := by
  simp only [bits_eq, wordCmp]
  omega

/-- The fields of the format of LXI. -/
theorem wordLxi_fields {op xd rsv imm : Nat} {hi keep : Bool} (hop : op < 64) (hxd : xd < 16) (hrsv : rsv < 16)
    (himm : imm < 65536) :
    bits (wordLxi op xd hi keep rsv imm) 26 6 = op ∧
    bits (wordLxi op xd hi keep rsv imm) 22 4 = xd ∧
    bitOf (wordLxi op xd hi keep rsv imm) 21 = hi ∧
    bitOf (wordLxi op xd hi keep rsv imm) 20 = keep ∧
    bits (wordLxi op xd hi keep rsv imm) 16 4 = rsv ∧
    bits (wordLxi op xd hi keep rsv imm) 0 16 = imm := by
  have hhi := b2n_lt hi
  have hkeep := b2n_lt keep
  simp only [bitOf_eq_iff, bits_eq, wordLxi]
  omega

/-- The fields of the format of XALU. -/
theorem wordXaluMov_fields {op sub xd xs imm : Nat} (hop : op < 64) (hsub : sub < 16) (hxd : xd < 16)
    (hxs : xs < 16) (himm : imm < 16384) :
    bits (wordXaluMov op sub xd xs imm) 26 6 = op ∧
    bits (wordXaluMov op sub xd xs imm) 14 4 = sub ∧
    bits (wordXaluMov op sub xd xs imm) 22 4 = xd ∧
    bits (wordXaluMov op sub xd xs imm) 18 4 = xs ∧
    bits (wordXaluMov op sub xd xs imm) 0 14 = imm := by
  simp only [bits_eq, wordXaluMov]
  omega

/-- The fields of the format of CHR and CHW. -/
theorem wordChr_fields {op xi ty rsv chan : Nat} {i all : Bool} (hop : op < 64) (hxi : xi < 16) (hty : ty < 8)
    (hrsv : rsv < 8) (hchan : chan < 16384) :
    bits (wordChr op i xi ty all rsv chan) 26 6 = op ∧
    bitOf (wordChr op i xi ty all rsv chan) 25 = i ∧
    bits (wordChr op i xi ty all rsv chan) 21 4 = xi ∧
    bits (wordChr op i xi ty all rsv chan) 18 3 = ty ∧
    bitOf (wordChr op i xi ty all rsv chan) 17 = all ∧
    bits (wordChr op i xi ty all rsv chan) 14 3 = rsv ∧
    bits (wordChr op i xi ty all rsv chan) 0 14 = chan := by
  have hi := b2n_lt i
  have hall := b2n_lt all
  simp only [bitOf_eq_iff, bits_eq, wordChr]
  omega

/-- The fields of the format of CHINV. -/
theorem wordChinv_fields {op xi rsv chan : Nat} {i all : Bool} (hop : op < 64) (hxi : xi < 16) (hrsv : rsv < 8)
    (hchan : chan < 16384) :
    bits (wordChinv op i xi all rsv chan) 26 6 = op ∧
    bitOf (wordChinv op i xi all rsv chan) 25 = i ∧
    bits (wordChinv op i xi all rsv chan) 21 4 = xi ∧
    bitOf (wordChinv op i xi all rsv chan) 17 = all ∧
    bits (wordChinv op i xi all rsv chan) 14 3 = rsv ∧
    bits (wordChinv op i xi all rsv chan) 0 14 = chan := by
  have hi := b2n_lt i
  have hall := b2n_lt all
  simp only [bitOf_eq_iff, bits_eq, wordChinv]
  omega

/-- The fields of the format of MOVB. -/
theorem wordMovb_fields {op xd xs rsv cnt : Nat} (hop : op < 64) (hxd : xd < 16) (hxs : xs < 16) (hrsv : rsv < 64)
    (hcnt : cnt < 4096) :
    bits (wordMovb op xd xs rsv cnt) 26 6 = op ∧
    bits (wordMovb op xd xs rsv cnt) 22 4 = xd ∧
    bits (wordMovb op xd xs rsv cnt) 18 4 = xs ∧
    bits (wordMovb op xd xs rsv cnt) 12 6 = rsv ∧
    bits (wordMovb op xd xs rsv cnt) 0 12 = cnt := by
  simp only [bits_eq, wordMovb]
  omega

/-- The fields of the format of TBL. -/
theorem wordTbl_fields {op xb xi ty lim : Nat} {ac : Bool} (hop : op < 64) (hxb : xb < 16) (hxi : xi < 16)
    (hty : ty < 8) (hlim : lim < 16384) :
    bits (wordTbl op xb xi ty ac lim) 26 6 = op ∧
    bits (wordTbl op xb xi ty ac lim) 22 4 = xb ∧
    bits (wordTbl op xb xi ty ac lim) 18 4 = xi ∧
    bits (wordTbl op xb xi ty ac lim) 15 3 = ty ∧
    bitOf (wordTbl op xb xi ty ac lim) 14 = ac ∧
    bits (wordTbl op xb xi ty ac lim) 0 14 = lim := by
  have hac := b2n_lt ac
  simp only [bitOf_eq_iff, bits_eq, wordTbl]
  omega

/-- The fields of the format of JMP, JLB, JLBN and CALL. -/
theorem wordJmp_fields {op ofs : Nat} (hop : op < 64) (hofs : ofs < 67108864) :
    bits (wordJmp op ofs) 26 6 = op ∧
    bits (wordJmp op ofs) 0 26 = ofs := by
  simp only [bits_eq, wordJmp]
  omega

/-- The fields of the format of JF. -/
theorem wordJf_fields {op fc ofs : Nat} (hop : op < 64) (hfc : fc < 16) (hofs : ofs < 4194304) :
    bits (wordJf op fc ofs) 26 6 = op ∧
    bits (wordJf op fc ofs) 22 4 = fc ∧
    bits (wordJf op fc ofs) 0 22 = ofs := by
  simp only [bits_eq, wordJf]
  omega

/-- The fields of the format of RET. -/
theorem wordRet_fields {op rsv : Nat} (hop : op < 64) (hrsv : rsv < 67108864) :
    bits (wordRet op rsv) 26 6 = op ∧
    bits (wordRet op rsv) 0 26 = rsv := by
  simp only [bits_eq, wordRet]
  omega

/-- The fields of the format of DJNZ. -/
theorem wordDjnz_fields {op xd ofs : Nat} (hop : op < 64) (hxd : xd < 16) (hofs : ofs < 4194304) :
    bits (wordDjnz op xd ofs) 26 6 = op ∧
    bits (wordDjnz op xd ofs) 22 4 = xd ∧
    bits (wordDjnz op xd ofs) 0 22 = ofs := by
  simp only [bits_eq, wordDjnz]
  omega

/-- The fields of the format of CALLX. -/
theorem wordCallx_fields {op xi rsv : Nat} (hop : op < 64) (hxi : xi < 16) (hrsv : rsv < 4194304) :
    bits (wordCallx op xi rsv) 26 6 = op ∧
    bits (wordCallx op xi rsv) 22 4 = xi ∧
    bits (wordCallx op xi rsv) 0 22 = rsv := by
  simp only [bits_eq, wordCallx]
  omega

/-- The fields of the format of ECALL. -/
theorem wordEcall_fields {op unit fn xp rsv inst : Nat} {sync : Bool} (hop : op < 64) (hunit : unit < 16)
    (hfn : fn < 64) (hxp : xp < 16) (hrsv : rsv < 4) (hinst : inst < 512) :
    bits (wordEcall op unit fn sync xp rsv inst) 26 6 = op ∧
    bits (wordEcall op unit fn sync xp rsv inst) 22 4 = unit ∧
    bits (wordEcall op unit fn sync xp rsv inst) 16 6 = fn ∧
    bitOf (wordEcall op unit fn sync xp rsv inst) 15 = sync ∧
    bits (wordEcall op unit fn sync xp rsv inst) 11 4 = xp ∧
    bits (wordEcall op unit fn sync xp rsv inst) 9 2 = rsv ∧
    bits (wordEcall op unit fn sync xp rsv inst) 0 9 = inst := by
  have hsync := b2n_lt sync
  simp only [bitOf_eq_iff, bits_eq, wordEcall]
  omega

/-- The fields of the format of FENCE. -/
theorem wordFenceM_fields {op sub rsv : Nat} (hop : op < 64) (hsub : sub < 4) (hrsv : rsv < 16777216) :
    bits (wordFenceM op sub rsv) 26 6 = op ∧
    bits (wordFenceM op sub rsv) 24 2 = sub ∧
    bits (wordFenceM op sub rsv) 0 24 = rsv := by
  simp only [bits_eq, wordFenceM]
  omega

/-- The fields of the format of TASK without operands. -/
theorem wordTaskEnd_fields {op sub rsv : Nat} (hop : op < 64) (hsub : sub < 16) (hrsv : rsv < 8) :
    bits (wordTaskEnd op sub rsv) 26 6 = op ∧
    bits (wordTaskEnd op sub rsv) 22 4 = sub ∧
    bits (wordTaskEnd op sub rsv) 19 3 = rsv := by
  simp only [bits_eq, wordTaskEnd]
  omega

/-- The fields of the format of TASK with operands. -/
theorem wordRaise_fields {op sub rsv evt tag : Nat} (hop : op < 64) (hsub : sub < 16) (hrsv : rsv < 8)
    (hevt : evt < 8) (htag : tag < 65536) :
    bits (wordRaise op sub rsv evt tag) 26 6 = op ∧
    bits (wordRaise op sub rsv evt tag) 22 4 = sub ∧
    bits (wordRaise op sub rsv evt tag) 19 3 = rsv ∧
    bits (wordRaise op sub rsv evt tag) 16 3 = evt ∧
    bits (wordRaise op sub rsv evt tag) 0 16 = tag := by
  simp only [bits_eq, wordRaise]
  omega

/-- The fields of the format of MFS and MTS. -/
theorem wordMfs_fields {op xr rsv sr : Nat} {t : Bool} (hop : op < 64) (hxr : xr < 16) (hrsv : rsv < 8192)
    (hsr : sr < 256) :
    bits (wordMfs op xr t rsv sr) 26 6 = op ∧
    bits (wordMfs op xr t rsv sr) 22 4 = xr ∧
    bitOf (wordMfs op xr t rsv sr) 21 = t ∧
    bits (wordMfs op xr t rsv sr) 8 13 = rsv ∧
    bits (wordMfs op xr t rsv sr) 0 8 = sr := by
  have ht := b2n_lt t
  simp only [bitOf_eq_iff, bits_eq, wordMfs]
  omega

/-! ## Decoding -/

/-- The functions of ALU in the order of their codes (Table HXI-12). -/
def aluForms : List (Nat → Nat → Bool → Nat → Nat → Instr) :=
  [.aluAdd, .aluSub, .aluMul, .aluDiv, .aluMod, .aluNeg, .aluAbs, .aluMin, .aluMax, .aluSqrt, .aluAnd, .aluOr, .aluXor,
   .aluNot, .aluShl, .aluShr, .aluSar, .aluRol, .aluCvt, .aluTrunc, .aluMov, .aluSwp, .aluClrw, .aluSextb, .aluSexth]

/-- A word of ALU with a function code of the table decodes to that function. -/
theorem decodeHxi_wordAluAdd {c sub ty ty2 rsv : Nat} {d : Bool} (hsub : sub < 25) (hty : ty < 8) (hty2 : ty2 < 8)
    (hrsv : rsv < 16384) :
    decodeHxi c (wordAluAdd 28 sub ty d ty2 rsv) = aluForms.getD sub .aluAdd c ty d ty2 rsv := by
  have hsub32 : sub < 32 := by omega
  simp only [decodeHxi, decodeAlu, wordAluAdd_fields, hsub32, hty, hty2, hrsv, Nat.reduceLT]
  interval_cases sub <;> rfl

/-- A word of an illegal major opcode is ILLEGAL_OPCODE with the word. -/
theorem decodeHxi_of_opIllegal {c v : Nat} (hw : wellFormed (.illegalOpcode c v) = true)
    (h : opIllegal (v / 2 ^ 26 % 64) = true) : decodeHxi c v = .illegalOpcode c v := by
  simp only [wellFormed, fits, Bool.and_eq_true, decide_eq_true_eq] at hw
  obtain ⟨-, hv⟩ := hw
  simp only [opIllegal, List.contains_eq_mem, List.mem_cons, List.not_mem_nil, or_false, decide_eq_true_eq] at h
  have hop : bits v 26 6 = v / 2 ^ 26 % 64 := bits_eq v 26 6
  rcases h with h | h | h | h | h | h | h | h | h | h | h | h | h | h | h | h
  all_goals rw [h] at hop; simp only [decodeHxi, hop, Nat.mod_eq_of_lt hv]

/-- Settles O3, by format: the fields of a word read back what it was written from. -/
theorem hxiWordsRoundTrip : Obligations.HxiWordsRoundTrip := by
  intro i w hw hill henc
  cases i
  all_goals cases henc
  case illegalOpcode c => exact ⟨c, decodeHxi_of_opIllegal hw (hill c _ rfl)⟩
  all_goals simp only [wellFormed, fits, Bool.and_eq_true, decide_eq_true_eq, Nat.reducePow] at hw
  case ld c mode xi ofs bit | ldn c mode xi ofs bit | and c mode xi ofs bit | andn c mode xi ofs bit |
      or c mode xi ofs bit | orn c mode xi ofs bit | xor c mode xi ofs bit | xorn c mode xi ofs bit |
      st c mode xi ofs bit | stn c mode xi ofs bit | set c mode xi ofs bit | clr c mode xi ofs bit |
      edr c mode xi ofs bit | edf c mode xi ofs bit =>
    exact ⟨c, by simp only [decodeHxi, wordLd_fields, hw, Nat.reduceLT]⟩
  case lbopNot c rsv | lbopLb0 c rsv | lbopLb1 c rsv | bop c rsv | bnx c rsv | bcl c rsv | lbw c rsv | wlb c rsv =>
    exact ⟨c, by simp only [decodeHxi, decodeLbop, wordLbopNot_fields, hw, Nat.reduceLT]⟩
  case tmrTon c i xi unit rsv cell | tmrTof c i xi unit rsv cell | tmrTp c i xi unit rsv cell |
      tmrTrst c i xi unit rsv cell | tmrxPreset c i xi unit rsv cell | tmrxElapsed c i xi unit rsv cell |
      tmrxLoadq c i xi unit rsv cell =>
    exact ⟨c, by simp only [decodeHxi, decodeTmr, decodeTmrx, wordTmrTon_fields, hw, Nat.reduceLT]⟩
  case ctu c mode xi ac ofs | ctd c mode xi ac ofs | ctrReset c mode xi ac ofs | ctl c mode xi ac ofs =>
    exact ⟨c, by simp only [decodeHxi, decodeCtr, wordCtu_fields, hw, Nat.reduceLT]⟩
  case lw c mode xi ty ac ofs | sw c mode xi ty ac ofs | addm c mode xi ty ac ofs | subm c mode xi ty ac ofs |
      mulm c mode xi ty ac ofs | divm c mode xi ty ac ofs =>
    exact ⟨c, by simp only [decodeHxi, wordLw_fields, hw, Nat.reduceLT]⟩
  case aluAdd c ty d ty2 rsv | aluSub c ty d ty2 rsv | aluMul c ty d ty2 rsv | aluDiv c ty d ty2 rsv |
      aluMod c ty d ty2 rsv | aluNeg c ty d ty2 rsv | aluAbs c ty d ty2 rsv | aluMin c ty d ty2 rsv |
      aluMax c ty d ty2 rsv | aluSqrt c ty d ty2 rsv | aluAnd c ty d ty2 rsv | aluOr c ty d ty2 rsv |
      aluXor c ty d ty2 rsv | aluNot c ty d ty2 rsv | aluShl c ty d ty2 rsv | aluShr c ty d ty2 rsv |
      aluSar c ty d ty2 rsv | aluRol c ty d ty2 rsv | aluCvt c ty d ty2 rsv | aluTrunc c ty d ty2 rsv |
      aluMov c ty d ty2 rsv | aluSwp c ty d ty2 rsv | aluClrw c ty d ty2 rsv | aluSextb c ty d ty2 rsv |
      aluSexth c ty d ty2 rsv =>
    obtain ⟨⟨⟨-, hty⟩, hty2⟩, hrsv⟩ := hw
    exact ⟨c, decodeHxi_wordAluAdd (by decide) hty hty2 hrsv⟩
  case ldi c ac pos keep rsv imm =>
    exact ⟨c, by simp only [decodeHxi, wordLdi_fields, hw, Nat.reduceLT]⟩
  case addi c ac w rsv imm =>
    exact ⟨c, by simp only [decodeHxi, wordAddi_fields, hw, Nat.reduceLT]⟩
  case cmp c cond ty comb rsv =>
    exact ⟨c, by simp only [decodeHxi, wordCmp_fields, hw, Nat.reduceLT]⟩
  case lxi c xd hi keep rsv imm =>
    exact ⟨c, by simp only [decodeHxi, wordLxi_fields, hw, Nat.reduceLT]⟩
  case xaluMov c xd xs imm | xaluAdd c xd xs imm | xaluSub c xd xs imm | xaluAnd c xd xs imm | xaluOr c xd xs imm |
      xaluShl c xd xs imm | xaluShr c xd xs imm | xaluAddi c xd xs imm | xaluFromwa c xd xs imm |
      xaluTowa c xd xs imm =>
    exact ⟨c, by simp only [decodeHxi, decodeXalu, wordXaluMov_fields, hw, Nat.reduceLT]⟩
  case chr c i xi ty all rsv chan | chw c i xi ty all rsv chan =>
    exact ⟨c, by simp only [decodeHxi, wordChr_fields, hw, Nat.reduceLT]⟩
  case chinv c i xi all rsv chan =>
    exact ⟨c, by simp only [decodeHxi, wordChinv_fields, hw, Nat.reduceLT]⟩
  case movb c xd xs rsv cnt =>
    exact ⟨c, by simp only [decodeHxi, wordMovb_fields, hw, Nat.reduceLT]⟩
  case tbl c xb xi ty ac lim =>
    exact ⟨c, by simp only [decodeHxi, wordTbl_fields, hw, Nat.reduceLT]⟩
  case jmp c ofs | jlb c ofs | jlbn c ofs | call c ofs =>
    exact ⟨c, by simp only [decodeHxi, wordJmp_fields, hw, Nat.reduceLT]⟩
  case jf c fc ofs =>
    exact ⟨c, by simp only [decodeHxi, wordJf_fields, hw, Nat.reduceLT]⟩
  case ret c rsv =>
    exact ⟨c, by simp only [decodeHxi, wordRet_fields, hw, Nat.reduceLT]⟩
  case djnz c xd ofs =>
    exact ⟨c, by simp only [decodeHxi, wordDjnz_fields, hw, Nat.reduceLT]⟩
  case callx c xi rsv =>
    exact ⟨c, by simp only [decodeHxi, wordCallx_fields, hw, Nat.reduceLT]⟩
  case ecall c unit fn sync xp rsv inst =>
    exact ⟨c, by simp only [decodeHxi, wordEcall_fields, hw, Nat.reduceLT]⟩
  case fenceM c rsv | fenceU c rsv | fenceIo c rsv | fenceX c rsv =>
    exact ⟨c, by simp only [decodeHxi, decodeFence, wordFenceM_fields, hw, Nat.reduceLT]⟩
  case taskEnd c rsv | yield c rsv | taskNop c rsv =>
    exact ⟨c, by simp only [decodeHxi, decodeTask, wordTaskEnd_fields, hw, Nat.reduceLT]⟩
  case raise c rsv evt tag | bar c rsv evt tag =>
    exact ⟨c, by simp only [decodeHxi, decodeTask, wordRaise_fields, hw, Nat.reduceLT]⟩
  case mfs c xr t rsv sr | mts c xr t rsv sr =>
    exact ⟨c, by simp only [decodeHxi, wordMfs_fields, hw, Nat.reduceLT]⟩

end Sys2Proof.Machine
end

section
/-!
PROOFS. Parallel branches, timers over time, calls with their returns, and fences (R54, R56, R68, R71): instructions run
one after the other on one core.
-/

namespace Sys2Proof.Machine

/-! ## A parallel branch (R54) -/

/-- What a path leaves: the state after an instruction that landed, with LB replaced. -/
def pathLeft (s : State) (c : Nat) (k : Ctx) (b : Bool) : State :=
  setCtx (landed s c k 1) c { (getCore (landed s c k 1) c).ctx with lb := b }

/-- The context in which the instruction after a path starts. -/
theorem stepCtx_pathLeft (s : State) (c : Nat) (k : Ctx) (b : Bool) :
    stepCtx (pathLeft s c k b) c = { withCyc k c 1 with lb := b, pc := (k.pc + 4) % 2 ^ 32 } := by
  simp [pathLeft, withCyc]

/-- A core goes on executing after a path. -/
theorem runs_pathLeft (s : State) (c : Nat) (k : Ctx) (b : Bool) : runs (pathLeft s c k b) c = runs s c := by
  simp [pathLeft, landed]

/-- An instruction that lands leaves memory as it is. -/
@[simp] theorem landed_mem (s : State) (c : Nat) (k : Ctx) (n : Nat) : (landed s c k n).mem = s.mem := setCtx_mem ..
/-- An instruction that lands leaves the unit registers as they are. -/
@[simp] theorem landed_regs (s : State) (c : Nat) (k : Ctx) (n : Nat) : (landed s c k n).regs = s.regs := setCtx_regs ..

/-- A path of these leaves memory as it is. -/
theorem pathLeft_mem (s : State) (c : Nat) (k : Ctx) (b : Bool) : (pathLeft s c k b).mem = s.mem := by simp [pathLeft]
/-- A path of these leaves the unit registers as they are. -/
theorem pathLeft_regs (s : State) (c : Nat) (k : Ctx) (b : Bool) : (pathLeft s c k b).regs = s.regs := by simp [pathLeft]

/-- Settles O6: BOP, BNX and BCL in turn, each found with the branch stack that the one before left. -/
theorem branchDeliversOrOfPaths : Obligations.BranchDeliversOrOfPaths := by
  intro s c p q hr hroom
  let k := stepCtx s c
  let k1 : Ctx := { k with br := (k.lb, false) :: k.br }
  have hbop : exec (.bop c 0) s = .next (landed s c k1 1) := execBop_of_room hr hroom
  let s1 := pathLeft s c k1 p
  have hr1 : runs s1 c = true := (runs_pathLeft s c k1 p).trans hr
  have hk1 : stepCtx s1 c = { withCyc k1 c 1 with lb := p, pc := (k1.pc + 4) % 2 ^ 32 } := stepCtx_pathLeft s c k1 p
  let k2 : Ctx := { stepCtx s1 c with lb := k.lb, br := (k.lb, p) :: k.br }
  have hbnx : exec (.bnx c 0) s1 = .next (landed s1 c k2 1) := by
    have h := execBnx_of_top (l := k.lb) (po := false) (t := k.br) hr1 (by rw [hk1]; rfl)
    rwa [show (stepCtx s1 c).lb = p by rw [hk1]] at h
  let s2 := pathLeft s1 c k2 q
  have hr2 : runs s2 c = true := (runs_pathLeft s1 c k2 q).trans hr1
  have hk2 : stepCtx s2 c = { withCyc k2 c 1 with lb := q, pc := (k2.pc + 4) % 2 ^ 32 } := stepCtx_pathLeft s1 c k2 q
  let k3 : Ctx := { stepCtx s2 c with lb := p || q, br := k.br }
  have hbcl : exec (.bcl c 0) s2 = .next (landed s2 c k3 1) := by
    have h := execBcl_of_top (l := k.lb) (po := p) (t := k.br) hr2 (by rw [hk2]; rfl)
    rwa [show (stepCtx s2 c).lb = q by rw [hk2]] at h
  refine ⟨_, _, _, hbop, ?lb1, hbnx, ?lb2, hbcl, ?lb, ?br, ?mem, ?regs⟩
  case lb1 => simp [k1, k, withCyc, stepCtx]
  case lb2 => simp [k2, k, withCyc, stepCtx]
  case lb => simp [k3, withCyc]
  case br => simp [k3, k, withCyc, stepCtx]
  case mem => exact ((landed_mem ..).trans (pathLeft_mem ..)).trans (pathLeft_mem ..)
  case regs => exact ((landed_regs ..).trans (pathLeft_regs ..)).trans (pathLeft_regs ..)

end Sys2Proof.Machine
end

section
/-!
PROOFS. Timer cells and counter blocks (R56 to R58).
-/

namespace Sys2Proof.Machine

/-- A saturating counter keeps the smaller of its value and its limit. -/
theorem sat_eq_min (lim a : Nat) : sat lim a = min lim a := by
  unfold sat
  split <;> omega

/-! ## Timer cells (R56, R57) -/

/-- A timer cell written leaves the cores as they are. -/
@[simp] theorem getCore_setTimer (s : State) (j : Nat) (v : TCell) (c : Nat) : getCore (setTimer s j v) c = getCore s c := by
  unfold setTimer
  split <;> rfl

/-- The preset of a cell does not depend on its state. -/
@[simp] theorem presetNs_mk (v : TCell) (inp q : Bool) (st : Int) :
    presetNs { inp := inp, q := q, st := st, pt := v.pt, unit := v.unit } = presetNs v := rfl

/-- A cell whose time is over shows Q = 0. -/
theorem endQ_eq (v : TCell) (b : Bool) : (if v.q && b then { v with q := false } else v) = { v with q := v.q && !b } := by
  cases v with
  | mk inp q st pt unit => cases q <;> cases b <;> rfl

/-- An instruction that left what runs on its core as it was lands on the state it left. -/
theorem landedOn_of_run {s s1 : State} {c : Nat} (h : (getCore s1 c).run = (getCore s c).run) (k : Ctx) (n : Nat) :
    landedOn s s1 c k n = landed s1 c k n := putCtx_same s s1 c _ id h

section
variable {s : State} {c : Nat} {k : Ctx} {i : Bool} {xi cell : Nat} {f : Nat → TCell → Out}

/-- An instruction on a cell of the core acts on that cell. -/
theorem onCell_of_lt (hn : cellNo k i xi cell < cellCount c) :
    onCell s c k i xi 0 cell true f =
      f (cellKey c (cellNo k i xi cell)) (getTimer s (cellKey c (cellNo k i xi cell))) := by
  simp [onCell, hn]

/-- A cell number beyond the last faults with TIMER_RANGE. -/
theorem onCell_of_ge (hn : cellCount c ≤ cellNo k i xi cell) : onCell s c k i xi 0 cell true f = .fault s 0x0432 0 := by
  simp [onCell, Nat.not_lt.2 hn]

/-- A UNIT field that is not permitted is refused. -/
theorem onCell_refused (rsv : Nat) : onCell s c k i xi rsv cell false f = .fault s 0x0411 0 := rfl

end

section
variable {s : State} {c xi cell : Nat} {i : Bool}

/-- TON, TOF and TP land with the evaluated cell and its Q in LB. -/
theorem evalCell_landed (f : Nat → Bool → TCell → TCell) (hr : runs s c = true)
    (hn : cellNo (stepCtx s c) i xi cell < cellCount c) {w : TCell}
    (hw : { f (cellNs s c) (stepCtx s c).lb (getTimer s (cellKey c (cellNo (stepCtx s c) i xi cell))) with
      inp := (stepCtx s c).lb } = w) :
    evalCell c i xi 0 0 cell f s =
      .next (landed (setTimer s (cellKey c (cellNo (stepCtx s c) i xi cell)) w) c { stepCtx s c with lb := w.q } 6) := by
  subst hw
  rw [evalCell, runOn_landedOn hr (onCell_of_lt hn), landedOn_of_run (by rw [getCore_setTimer])]

/-- TON, TOF and TP of a cell beyond the last fault. -/
theorem evalCell_of_ge (f : Nat → Bool → TCell → TCell) (hr : runs s c = true)
    (hn : cellCount c ≤ cellNo (stepCtx s c) i xi cell) :
    evalCell c i xi 0 0 cell f s = .next (coreFault s c 0x0432 0) :=
  runOn_fault s s c _ _ _ hr (onCell_of_ge hn)

end

/-- The on-delay: ST at the rising edge of LB, Q from ST and PT. -/
theorem tonCell_eq (t : Nat) (lb : Bool) (v : TCell) :
    { tonCell t lb v with inp := lb } =
      { v with st := if lb && !v.inp then (t : Int) else v.st, inp := lb,
               q := lb && decide ((t : Int) - (if lb && !v.inp then (t : Int) else v.st) ≥ presetNs v) } := by
  cases h : lb && !v.inp <;> simp [tonCell, h, since]

/-- The off-delay: ST at the falling edge of LB, Q until ST and PT. -/
theorem tofCell_eq (t : Nat) (lb : Bool) (v : TCell) :
    { tofCell t lb v with inp := lb } =
      { v with st := if !lb && v.inp then (t : Int) else v.st, inp := lb,
               q := lb || (v.q && !decide ((t : Int) - (if !lb && v.inp then (t : Int) else v.st) ≥ presetNs v)) } := by
  cases lb with
  | true => simp [tofCell]
  | false =>
    cases hi : v.inp
    all_goals simp only [tofCell, hi, Bool.not_false, Bool.true_and, endQ_eq]; simp [since]

/-- The pulse: ST at a rising edge of LB with no pulse running, Q until ST and PT. -/
theorem tpCell_eq (t : Nat) (lb : Bool) (v : TCell) :
    { tpCell t lb v with inp := lb } =
      { v with st := if lb && !v.inp && !v.q then (t : Int) else v.st, inp := lb,
               q := (v.q || (lb && !v.inp)) &&
                 !decide ((t : Int) - (if lb && !v.inp && !v.q then (t : Int) else v.st) ≥ presetNs v) } := by
  simp only [tpCell, endQ_eq]
  cases h : lb && !v.inp <;> cases hq : v.q <;> simp [hq, since]
section
variable {s : State} {c xi cell : Nat} {i : Bool}

/-- TRST lands with the cell cleared where LB is 1. -/
theorem execTmrTrst_landed (hr : runs s c = true) (hn : cellNo (stepCtx s c) i xi cell < cellCount c) :
    execTmrTrst c i xi 0 0 cell s =
      .next (landed (if (stepCtx s c).lb then
          setTimer s (cellKey c (cellNo (stepCtx s c) i xi cell))
            { getTimer s (cellKey c (cellNo (stepCtx s c) i xi cell)) with q := false, inp := false }
        else s) c (stepCtx s c) 6) := by
  rw [execTmrTrst, runOn_landedOn hr (onCell_of_lt hn), landedOn_of_run]
  split <;> simp

/-- TRST of a cell beyond the last faults. -/
theorem execTmrTrst_of_ge (hr : runs s c = true) (hn : cellCount c ≤ cellNo (stepCtx s c) i xi cell) :
    execTmrTrst c i xi 0 0 cell s = .next (coreFault s c 0x0432 0) :=
  runOn_fault s s c _ _ _ hr (onCell_of_ge hn)

variable {unit : Nat}

/-- PRESET lands with the preset of the cell and its unit. -/
theorem execTmrxPreset_landed (hr : runs s c = true) (hn : cellNo (stepCtx s c) i xi cell < cellCount c) (hu : unit < 3) :
    execTmrxPreset c i xi unit 0 cell s =
      .next (landed (setTimer s (cellKey c (cellNo (stepCtx s c) i xi cell))
        { getTimer s (cellKey c (cellNo (stepCtx s c) i xi cell)) with
          pt := (stepCtx s c).wa.toNat % 2 ^ 32, unit := unit }) c (stepCtx s c) 4) := by
  rw [execTmrxPreset, decide_eq_true hu, runOn_landedOn hr (onCell_of_lt hn), landedOn_of_run (by rw [getCore_setTimer])]
  rfl

/-- ELAPSED lands with the whole units since ST, saturated. -/
theorem execTmrxElapsed_landed (hr : runs s c = true) (hn : cellNo (stepCtx s c) i xi cell < cellCount c) (hu : unit < 3) :
    execTmrxElapsed c i xi unit 0 cell s =
      .next (landed s c { stepCtx s c with wa := BitVec.ofNat 64 (min
        (((cellNs s c : Int) - (getTimer s (cellKey c (cellNo (stepCtx s c) i xi cell))).st).toNat / unitNs unit)
        (2 ^ 32 - 1)) } 4) := by
  rw [execTmrxElapsed, decide_eq_true hu, runOn_landed hr (onCell_of_lt hn), min_comm, ← sat_eq_min]
  rfl

/-- LOADQ lands with the Q of the cell in LB. -/
theorem execTmrxLoadq_landed (hr : runs s c = true) (hn : cellNo (stepCtx s c) i xi cell < cellCount c) (hu : unit < 3) :
    execTmrxLoadq c i xi unit 0 cell s =
      .next (landed s c { stepCtx s c with lb := (getTimer s (cellKey c (cellNo (stepCtx s c) i xi cell))).q } 4) := by
  rw [execTmrxLoadq, decide_eq_true hu, runOn_landed hr (onCell_of_lt hn)]

/-- PRESET refuses UNIT 11. -/
theorem execTmrxPreset_refused (hr : runs s c = true) :
    execTmrxPreset c i xi 3 0 cell s = .next (coreFault s c 0x0411 0) := runOn_fault s s c _ _ _ hr rfl
/-- ELAPSED refuses UNIT 11. -/
theorem execTmrxElapsed_refused (hr : runs s c = true) :
    execTmrxElapsed c i xi 3 0 cell s = .next (coreFault s c 0x0411 0) := runOn_fault s s c _ _ _ hr rfl
/-- LOADQ refuses UNIT 11. -/
theorem execTmrxLoadq_refused (hr : runs s c = true) :
    execTmrxLoadq c i xi 3 0 cell s = .next (coreFault s c 0x0411 0) := runOn_fault s s c _ _ _ hr rfl

end

/-! ## Counter blocks (R58) -/

/-- The state after a counter operation has written CV and its edge memory bit. -/
def ctrWritten (s : State) (c a : Nat) (e : Byte) (r : CtrOut) : State :=
  let s2 := match r.cv with | some v => memWr s c a (leBytes 4 (pat 32 v)) | none => s
  match r.edge with | some (b, v) => ctrEdge s2 c a b v e | none => s2

/-- A counter operation whose checks pass lands with what it wrote and its LB. -/
theorem counterOp_landedOn {s s1 : State} {c mode xi ofs a : Nat} {bs : List Byte} {r : CtrOut}
    (f : Int → Int → Nat → Bool → CtrOut) (hr : runs s c = true) (hm : modeOk mode xi = true)
    (hadr : effAddr (stepCtx s c) mode xi (ofs * 16) = a) (ha : accessFault c a 16 16 .store false = none)
    (hu : uncorr (if c < 6 then rmwDrain s c a 16 else s) c a 16 = false)
    (hrd : memRd (if c < 6 then rmwDrain s c a 16 else s) c a 16 = (bs, s1))
    (hf : f (sint 32 (leNat (bs.take 4))) (sint 32 (leNat ((bs.drop 4).take 4))) (bs.getD 8 0).toNat (stepCtx s c).lb = r) :
    counterOp c mode xi 0 ofs f s =
      .next (landedOn s (ctrWritten s1 c a (bs.getD 8 0) r) c { stepCtx s c with lb := r.lb } 6) := by
  subst hadr hf
  apply runOn_landedOn hr
  rw [beq_self_eq_true, need_true, wordChecked_of_ok hm ha, loading_of_corr hu hrd]
  rfl

/-- Settles O9, by the cell and its edges, and by the counter's branch. -/
theorem timersAndCounters : Obligations.TimersAndCounters := by
  refine ⟨?timers, ?tmrx, ?counters⟩
  case timers =>
    intro s c xi cell i hr k n v now put done
    refine ⟨fun hn => ⟨evalCell_landed tonCell hr hn (tonCell_eq _ _ _), evalCell_landed tofCell hr hn (tofCell_eq _ _ _),
      evalCell_landed tpCell hr hn (tpCell_eq _ _ _), ?_⟩,
      fun hn => ⟨evalCell_of_ge tonCell hr hn, evalCell_of_ge tofCell hr hn, evalCell_of_ge tpCell hr hn,
        execTmrTrst_of_ge hr hn⟩⟩
    exact (execTmrTrst_landed hr hn).trans (congrArg _ (apply_ite (landed · c k 6) _ _ _))
  case tmrx =>
    intro s c xi cell unit i hr k n v el
    exact ⟨fun hn hu => ⟨execTmrxPreset_landed hr hn hu, execTmrxElapsed_landed hr hn hu, execTmrxLoadq_landed hr hn hu⟩,
      execTmrxPreset_refused hr, execTmrxElapsed_refused hr, execTmrxLoadq_refused hr⟩
  case counters =>
    intro s s1 c mode xi ofs bs hr hm k a ha hu hrd cv pv e wr
    have hop (f : Int → Int → Nat → Bool → CtrOut) {r : CtrOut} (hf : f cv pv e.toNat k.lb = r) :
        counterOp c mode xi 0 ofs f s = .next (landedOn s (ctrWritten s1 c a e r) c { k with lb := r.lb } 6) :=
      counterOp_landedOn f hr hm rfl ha hu hrd hf
    refine ⟨(hop _ rfl : execCtu c mode xi 0 ofs s = _).trans ?ctu, (hop _ rfl : execCtd c mode xi 0 ofs s = _).trans ?ctd,
      (hop _ rfl : execCtrReset c mode xi 0 ofs s = _).trans ?reset, (hop _ rfl : execCtl c mode xi 0 ofs s = _).trans ?ctl⟩
    case ctu => cases h : k.lb && !bitOf e.toNat 0 <;> simp [ctrWritten, wr]
    case ctd => cases h : k.lb && !bitOf e.toNat 1 <;> simp [ctrWritten, wr]
    case reset =>
      refine congrArg (fun x => Host.Outcome.next (landedOn s x c k 6)) ?_
      cases h : k.lb <;> rfl
    case ctl =>
      refine congrArg (fun x => Host.Outcome.next (landedOn s x c k 6)) ?_
      cases h : k.lb <;> rfl

end Sys2Proof.Machine
end

section
/-!
PROOFS. A timer over time (R56): a TON evaluated twice, TICK or SAFE periods apart.
-/

namespace Sys2Proof.Machine

/-- A timer cell written is read back. -/
theorem getTimer_setTimer_same (s : State) (j : Nat) (v : TCell) : getTimer (setTimer s j v) j = v := by
  unfold setTimer
  split <;> exact mget_mput_same (timerDef s j) s.tsk.timers j v

/-- Whether a core executes does not depend on the timer cells. -/
@[simp] theorem runs_setTimer (s : State) (j : Nat) (v : TCell) (c : Nat) : runs (setTimer s j v) c = runs s c := by
  unfold setTimer
  split <;> rfl

/-- The count of a core's cells does not depend on the timer cells. -/
@[simp] theorem cellNs_setTimer (s : State) (j : Nat) (v : TCell) (c : Nat) : cellNs (setTimer s j v) c = cellNs s c := by
  unfold setTimer
  split <;> rfl

/-- The same state after `d` periods of every clock that timer cells count. -/
def periodsLater (s : State) (d : Nat) : State :=
  { s with ticks := s.ticks + d, safeA := s.safeA + d, safeB := s.safeB + d }

/-- A TICK period is 4 ns on the count of a logic core. -/
theorem cellNs_periodsLater {c : Nat} (hc : c < 6) (s : State) (d : Nat) :
    cellNs (periodsLater s d) c = cellNs s c + 4 * d := by
  simp only [cellNs, periodsLater, hc, if_true, tickNs]
  omega

/-- Whether a core executes does not depend on the clocks. -/
@[simp] theorem runs_periodsLater (s : State) (d c : Nat) : runs (periodsLater s d) c = runs s c := rfl

/-- Whether a core executes does not depend on the context in which it landed. -/
@[simp] theorem runs_landed (s : State) (c : Nat) (k : Ctx) (n : Nat) : runs (landed s c k n) c = runs s c := runs_setCtx ..

/-- The count of a core's cells does not depend on contexts. -/
@[simp] theorem cellNs_landed (s : State) (c : Nat) (k : Ctx) (n d : Nat) : cellNs (landed s c k n) d = cellNs s d := rfl

section
variable {s : State} {c xi cell : Nat} {i : Bool} {v : TCell}

/-- A TON evaluated at a rising edge of LB starts its time and shows Q at once only for a preset of 0. -/
theorem execTmrTon_rising (hr : runs s c = true) (hn : cellNo (stepCtx s c) i xi cell < cellCount c)
    (hv : getTimer s (cellKey c (cellNo (stepCtx s c) i xi cell)) = v) (hlb : (stepCtx s c).lb = true) (hinp : v.inp = false) :
    execTmrTon c i xi 0 0 cell s =
      .next (landed (setTimer s (cellKey c (cellNo (stepCtx s c) i xi cell))
        { v with st := cellNs s c, q := decide (presetNs v ≤ 0), inp := true }) c
        { stepCtx s c with lb := decide (presetNs v ≤ 0) } 6) := by
  apply evalCell_landed tonCell hr hn
  rw [hv, tonCell_eq]
  simp [hlb, hinp]

/-- A TON evaluated with LB still 1 keeps its start and shows Q from its preset on. -/
theorem execTmrTon_held (hr : runs s c = true) (hn : cellNo (stepCtx s c) i xi cell < cellCount c)
    (hv : getTimer s (cellKey c (cellNo (stepCtx s c) i xi cell)) = v) (hlb : (stepCtx s c).lb = true) (hinp : v.inp = true) :
    execTmrTon c i xi 0 0 cell s =
      .next (landed (setTimer s (cellKey c (cellNo (stepCtx s c) i xi cell))
        { v with q := decide ((presetNs v : Int) ≤ cellNs s c - v.st), inp := true }) c
        { stepCtx s c with lb := decide ((presetNs v : Int) ≤ cellNs s c - v.st) } 6) := by
  apply evalCell_landed tonCell hr hn
  rw [hv, tonCell_eq]
  simp [hlb, hinp]

end

/-- Settles O10: the rising evaluation starts the time, and the later one compares the time since with the preset. -/
theorem tonShowsQAfterPreset : Obligations.TonShowsQAfterPreset := by
  intro s c xi cell d i hr hlb hn hinp
  let k := stepCtx s c
  let j := cellKey c (cellNo k i xi cell)
  let v := getTimer s j
  let w : TCell := { v with st := cellNs s c, q := decide (presetNs v ≤ 0), inp := true }
  let t := landed (setTimer s j w) c { k with lb := decide (presetNs v ≤ 0) } 6
  have ht : exec (.tmrTon c i xi 0 0 cell) s = .next t := execTmrTon_rising hr hn rfl hlb hinp
  let x := setCtx (periodsLater t d) c { (getCore t c).ctx with lb := true }
  have hk : (getCore t c).ctx = withCyc { k with lb := decide (presetNs v ≤ 0) } c 6 := landed_ctx ..
  have hx : stepCtx x c = { withCyc k c 6 with lb := true, pc := (k.pc + 4) % 2 ^ 32 } := by
    simp [x, hk, withCyc]
  have hrx : runs x c = true := by
    rw [runs_setCtx, runs_periodsLater, runs_landed, runs_setTimer, hr]
  have hnx : cellNo (stepCtx x c) i xi cell = cellNo k i xi cell := by rw [hx]; rfl
  have hvx : getTimer x (cellKey c (cellNo (stepCtx x c) i xi cell)) = w := by
    rw [hnx]
    exact getTimer_setTimer_same s j w
  have hu := execTmrTon_held (v := w) hrx (by rwa [hnx]) hvx (by rw [hx]) rfl
  refine ⟨t, _, ht, hu, fun hc => ?count, ?rising, ?held⟩
  case count => exact (cellNs_periodsLater hc t d).trans (by rw [cellNs_landed, cellNs_setTimer])
  case rising =>
    rw [hk]
    exact decide_eq_true_iff
  case held =>
    rw [landed_ctx]
    exact decide_eq_true_iff

end Sys2Proof.Machine
end

section
/-!
PROOFS. Jumps, calls and returns (R68), and a call with its return.
-/

namespace Sys2Proof.Machine

/-! ## Targets -/

/-- A jump starts from its own address. -/
theorem jumpTo_stepCtx (s : State) (c w ofs : Nat) :
    jumpTo (stepCtx s c) w ofs = (((getCore s c).ctx.pc % 2 ^ 32 : Nat) : Int) + 4 * sint w ofs := by
  have h : ((getCore s c).ctx.pc + 4) % 2 ^ 32 + 2 ^ 32 - 4 ≡ (getCore s c).ctx.pc [MOD 2 ^ 32] := by
    unfold Nat.ModEq
    omega
  simp only [jumpTo, stepCtx]
  rw [h]

/-- A target from 0 to the end of the code lies in the code. -/
theorem inCode_eq_true {s : State} {c : Nat} {t : Int} (h : 0 ≤ t ∧ t < codeLen s c) : inCode s c t = true := by
  simp [inCode, h]

/-- Any other target lies outside. -/
theorem inCode_eq_false {s : State} {c : Nat} {t : Int} (h : ¬ (0 ≤ t ∧ t < codeLen s c)) : inCode s c t = false := by
  simpa [inCode] using h

/-- An index register as a target. -/
theorem inCode_getX {s : State} {c xi : Nat} {k : Ctx} (h : getX k xi < codeLen s c) : inCode s c (getX k xi) = true :=
  inCode_eq_true ⟨Int.natCast_nonneg _, Int.ofNat_lt.2 h⟩

/-! ## Jumps -/

section
variable {s : State} {c ofs : Nat} {k : Ctx} {t : Int} {n : Nat}

/-- A jump into the code goes to its target. -/
theorem jumping_of_inCode (h : 0 ≤ t ∧ t < codeLen s c) : jumping s c k t n = .done s { k with pc := t.toNat } n := by
  simp [jumping, inCode_eq_true h]

/-- A jump out of the code faults at its target. -/
theorem jumping_of_not_inCode (h : ¬ (0 ≤ t ∧ t < codeLen s c)) : jumping s c k t n = .fault s 0x0412 (pat 32 t) := by
  simp [jumping, inCode_eq_false h]

/-- A conditional jump into the code lands at its target, or at the next instruction. -/
theorem runOn_jumpIf {f : State → Ctx → Out} {w : Nat} {b : Bool} (hr : runs s c = true)
    (hf : f s (stepCtx s c) = jumpIf s c k w ofs b) (ht : jumpTo k w ofs = t) (h : 0 ≤ t ∧ t < codeLen s c) :
    runOn s c f = if b then .next (landed s c { k with pc := t.toNat } 2) else .next (landed s c k 1) := by
  subst ht
  cases b with
  | true => exact runOn_landed hr (hf.trans (jumping_of_inCode h))
  | false => exact runOn_landed hr hf

/-- JMP into the code lands at its target. -/
theorem execJmp_landed (hr : runs s c = true) (ht : jumpTo (stepCtx s c) 26 ofs = t) (h : 0 ≤ t ∧ t < codeLen s c) :
    execJmp c ofs s = .next (landed s c { stepCtx s c with pc := t.toNat } 2) :=
  runOn_landed hr (by rw [ht, jumping_of_inCode h])

/-- JMP out of the code faults at its target. -/
theorem execJmp_of_not_inCode (hr : runs s c = true) (ht : jumpTo (stepCtx s c) 26 ofs = t)
    (h : ¬ (0 ≤ t ∧ t < codeLen s c)) : execJmp c ofs s = .next (coreFault s c 0x0412 (pat 32 t)) :=
  runOn_fault s s c _ _ _ hr (by rw [ht, jumping_of_not_inCode h])

/-- JLB into the code jumps where LB is 1. -/
theorem execJlb_landed (hr : runs s c = true) (ht : jumpTo (stepCtx s c) 26 ofs = t) (h : 0 ≤ t ∧ t < codeLen s c) :
    execJlb c ofs s = if (stepCtx s c).lb then .next (landed s c { stepCtx s c with pc := t.toNat } 2)
      else .next (landed s c (stepCtx s c) 1) := runOn_jumpIf (f := fun s k => jumpIf s c k 26 ofs k.lb) hr rfl ht h

/-- JLBN into the code jumps where LB is 0. -/
theorem execJlbn_landed (hr : runs s c = true) (ht : jumpTo (stepCtx s c) 26 ofs = t) (h : 0 ≤ t ∧ t < codeLen s c) :
    execJlbn c ofs s = if (stepCtx s c).lb then .next (landed s c (stepCtx s c) 1)
      else .next (landed s c { stepCtx s c with pc := t.toNat } 2) := by
  refine (runOn_jumpIf (f := fun s k => jumpIf s c k 26 ofs (!k.lb)) hr rfl ht h).trans ?_
  cases hlb : (stepCtx s c).lb <;> simp [hlb]

/-- JF with a condition of the table jumps into the code where that holds. -/
theorem execJf_landed {fc : Nat} (hr : runs s c = true) (hfc : fc < 12) (ht : jumpTo (stepCtx s c) 22 ofs = t)
    (h : 0 ≤ t ∧ t < codeLen s c) :
    execJf c fc ofs s = if jfHolds fc (stepCtx s c) then .next (landed s c { stepCtx s c with pc := t.toNat } 2)
      else .next (landed s c (stepCtx s c) 1) :=
  runOn_jumpIf hr (by simp only [hfc, decide_true, need_true]) ht h

/-- JF with a condition outside the table is refused. -/
theorem execJf_refused {fc : Nat} (hr : runs s c = true) (hfc : 12 ≤ fc) :
    execJf c fc ofs s = .next (coreFault s c 0x0411 0) :=
  runOn_fault s s c _ _ _ hr (by simp [Nat.not_lt.2 hfc])

/-- DJNZ into the code jumps where the decremented register is not 0. -/
theorem execDjnz_landed {xd x : Nat} (hr : runs s c = true) (hx : (getX (stepCtx s c) xd + 2 ^ 32 - 1) % 2 ^ 32 = x)
    (ht : jumpTo (stepCtx s c) 22 ofs = t) (h : 0 ≤ t ∧ t < codeLen s c) :
    execDjnz c xd ofs s = if x ≠ 0 then .next (landed s c { setX (stepCtx s c) xd x with pc := t.toNat } 2)
      else .next (landed s c (setX (stepCtx s c) xd x) 1) := by
  have hj : execDjnz c xd ofs s = _ :=
    runOn_jumpIf (k := setX (stepCtx s c) xd x) (b := decide (x ≠ 0)) hr (by rw [← hx]) ht h
  rw [hj]
  simp only [decide_eq_true_eq]

end

/-- The conditions of JF in the order of their codes. -/
theorem jfHolds_eq_getD {fc : Nat} (h : fc < 12) (k : Ctx) :
    jfHolds fc k = [k.z, !k.z, k.n, !k.n && !k.u, k.c, !k.c, k.v, !k.v, k.u, !k.u, !k.z && !k.n && !k.u,
      k.z || k.n].getD fc false := by
  interval_cases fc <;> rfl

/-! ## Calls and returns -/

section
variable {s : State} {c ofs xi : Nat} {t : Int}

/-- CALL into the code with room on the call stack lands at its target. -/
theorem execCall_landed (hr : runs s c = true) (ht : jumpTo (stepCtx s c) 26 ofs = t) (h : 0 ≤ t ∧ t < codeLen s c)
    (hl : (stepCtx s c).calls.length < 32) :
    execCall c ofs s =
      .next (landed s c { stepCtx s c with pc := t.toNat, calls := (stepCtx s c).pc :: (stepCtx s c).calls } 2) :=
  runOn_landed hr (by simp [ht, inCode_eq_true h, calling, hl])

/-- CALL with a full call stack overflows. -/
theorem execCall_of_full (hr : runs s c = true) (ht : jumpTo (stepCtx s c) 26 ofs = t) (h : 0 ≤ t ∧ t < codeLen s c)
    (hl : 32 ≤ (stepCtx s c).calls.length) : execCall c ofs s = .next (coreFault s c 0x0423 0) :=
  runOn_fault s s c _ _ _ hr (by simp [ht, inCode_eq_true h, calling, Nat.not_lt.2 hl])

/-- CALLX to a multiple of 4 in the code with room on the call stack lands there. -/
theorem execCallx_landed (hr : runs s c = true) (hc : c < 6) (h : getX (stepCtx s c) xi < codeLen s c)
    (h4 : getX (stepCtx s c) xi % 4 = 0) (hl : (stepCtx s c).calls.length < 32) :
    execCallx c xi 0 s =
      .next (landed s c { stepCtx s c with
        pc := getX (stepCtx s c) xi, calls := (stepCtx s c).pc :: (stepCtx s c).calls } 3) :=
  runOn_landed hr (by simp [hc, inCode_getX h, h4, calling, hl])

/-- CALLX to another address in the code faults. -/
theorem execCallx_of_unaligned (hr : runs s c = true) (hc : c < 6) (h : getX (stepCtx s c) xi < codeLen s c)
    (h4 : getX (stepCtx s c) xi % 4 ≠ 0) :
    execCallx c xi 0 s = .next (coreFault s c 0x0413 (getX (stepCtx s c) xi)) :=
  runOn_fault s s c _ _ _ hr (by simp [hc, inCode_getX h, h4])

/-- RET lands at the top of the call stack. -/
theorem execRet_landed {a : Nat} {l : List Nat} (hr : runs s c = true) (hl : (stepCtx s c).calls = a :: l) :
    execRet c 0 s = .next (landed s c { stepCtx s c with pc := a, calls := l } 2) :=
  runOn_landed hr (by simp [hl])

/-- RET with an empty call stack underflows. -/
theorem execRet_of_empty (hr : runs s c = true) (hl : (stepCtx s c).calls = []) :
    execRet c 0 s = .next (coreFault s c 0x0424 0) :=
  runOn_fault s s c _ _ _ hr (by simp [hl])

end

/-- Settles O23, by whether the target lies in the code and by the call stack. -/
theorem jumpsAndCalls : Obligations.JumpsAndCalls := by
  refine ⟨?jumps, ?calls⟩
  case jumps =>
    intro s c ofs fc xd hr k T G at_ x
    have hT : jumpTo k 26 ofs = T := jumpTo_stepCtx s c 26 ofs
    have hG : jumpTo k 22 ofs = G := jumpTo_stepCtx s c 22 ofs
    refine ⟨fun h => ⟨execJmp_landed hr hT h, execJlb_landed hr hT h, execJlbn_landed hr hT h⟩,
      execJmp_of_not_inCode hr hT, fun h hfc => ?_, execDjnz_landed hr rfl hG, execJf_refused hr⟩
    rw [← jfHolds_eq_getD hfc]
    exact execJf_landed hr hfc hG h
  case calls =>
    intro s c ofs xi hr k T
    have hT : jumpTo k 26 ofs = T := jumpTo_stepCtx s c 26 ofs
    exact ⟨fun h hl => execCall_landed hr hT h hl, fun h hl => execCall_of_full hr hT h hl,
      fun hc h h4 hl => execCallx_landed hr hc h h4 hl, fun hc h h4 => execCallx_of_unaligned hr hc h h4,
      fun a l hl => execRet_landed hr hl, fun hl => execRet_of_empty hr hl⟩

/-- Settles O24: the RET finds the call stack that the CALL left. -/
theorem callThenReturn : Obligations.CallThenReturn := by
  intro s c ofs hr hl h0 h1
  let k := stepCtx s c
  let kc : Ctx := { k with pc := (jumpTo k 26 ofs).toNat, calls := k.pc :: k.calls }
  have hcall : exec (.call c ofs) s = .next (landed s c kc 2) :=
    execCall_landed hr rfl (by rw [jumpTo_stepCtx]; exact ⟨h0, h1⟩) hl
  have hrt : runs (landed s c kc 2) c = true := (runs_landed s c kc 2).trans hr
  have hkt : stepCtx (landed s c kc 2) c = { withCyc kc c 2 with pc := (kc.pc + 4) % 2 ^ 32 } := stepCtx_setCtx ..
  have hret := execRet_landed (a := k.pc) (l := k.calls) hrt (by rw [hkt]; rfl)
  refine ⟨_, _, hcall, hret, ?depth, ?ctx, ?mem, ?regs, ?others⟩
  case depth => simp [kc, k, withCyc, stepCtx]
  case ctx =>
    rw [landed_ctx, hkt]
    by_cases hc : c = 7 <;> simp [withCyc, kc, k, stepCtx, hc]
  case mem => exact (landed_mem ..).trans (landed_mem ..)
  case regs => exact (landed_regs ..).trans (landed_regs ..)
  case others =>
    intro d hd
    exact (getCore_setCtx_other _ c d _ hd).trans (getCore_setCtx_other s c d _ hd)

end Sys2Proof.Machine
end

section
/-!
PROOFS. Fences and calls to the engines (R71, R83, R84, R94): the store buffer drains, what a fence leaves waiting, and the
issue of a call.
-/

namespace Sys2Proof.Machine

/-! ## An instruction with a step behind it -/

/-- An instruction that is done goes on with what follows it. -/
theorem runThen_done {s s1 : State} {c : Nat} {f : State → Ctx → Out} {post : State → State} {k : Ctx} {n : Nat}
    (hr : runs s c = true) (hf : f s (stepCtx s c) = .done s1 k n) :
    runThen s c f post = .next (putCtx s s1 c (withCyc k c n) post) := by
  simp [runThen, hr, hf]

/-- An instruction that faults stops there. -/
theorem runThen_fault {s s1 : State} {c : Nat} {f : State → Ctx → Out} {post : State → State} {code a : Nat}
    (hr : runs s c = true) (hf : f s (stepCtx s c) = .fault s1 code a) :
    runThen s c f post = .next (coreFault s1 c code a) := by
  simp [runThen, hr, hf]

/-! ## Fences -/

section
variable {s : State} {c : Nat} {f : State → Nat → State}

/-- A fence of a logic core lands on the state in which its writes have completed. -/
theorem fence_landedOn (hr : runs s c = true) (hc : c < 6) :
    fence c 0 f s = .next (landedOn s (f s c) c (stepCtx s c) 0) := runOn_landedOn hr (by simp [hc])

/-- A safety core has no fence. -/
theorem fence_of_safety (hr : runs s c = true) (hc : 6 ≤ c) (rsv : Nat) :
    fence c rsv f s = .next (coreFault s c 0x0410 0) := runOn_fault s s c _ _ _ hr (by simp [Nat.not_lt.2 hc])

end

/-! ## The store buffer drains -/

/-- What holds of a state and is kept by every step of a list holds at its end. -/
theorem forEach_keeps {α : Type} {P : State → Prop} {f : State → α → State} {l : List α}
    (hf : ∀ s, ∀ x ∈ l, P s → P (f s x)) {s : State} (h : P s) : P (forEach l s f) := by
  induction l generalizing s with
  | nil => exact h
  | cons x t ih =>
    exact ih (fun s y hy => hf s y (List.mem_cons_of_mem x hy)) (hf s x List.mem_cons_self h)

/-- A write to DATA or RETAIN that reaches memory leaves the cores as they are. -/
theorem sbApply_cores {e : SbEntry} (he : isOutSlot e.word = false) (s : State) : (sbApply s e).cores = s.cores := by
  have hclean (x : State) : (cleanWord x e).cores = x.cores := by unfold cleanWord; split <;> rfl
  have hpre : (preImage s e).cores = s.cores := by unfold preImage; dsimp only; split <;> rfl
  unfold sbApply
  rw [if_neg (by simp [he])]
  apply forEach_keeps (P := fun x => x.cores = s.cores)
  · intro x i _ hx
    dsimp only
    split
    · exact hx
    · rw [wrB_cores, hx]
  · rw [hclean, hpre]

/-- An entry for a word of DATA or RETAIN leaves the store buffer, and nothing else of its core changes. -/
theorem getCore_sbTake_same {w : Nat} (hw : isOutSlot w = false) (s : State) (c : Nat) :
    getCore (sbTake s c w) c = { getCore s c with sb := (getCore s c).sb.filter (fun e => e.word != w) } := by
  unfold sbTake
  dsimp only
  split
  case h_1 hnone =>
    have hall : ∀ e ∈ (getCore s c).sb, (e.word != w) = true := by
      simpa using List.find?_eq_none.1 hnone
    rw [List.filter_eq_self.2 hall]
  case h_2 e hsome =>
    have he : e.word = w := by simpa using List.find?_some hsome
    rw [getCore, sbApply_cores (by rw [he, hw])]
    exact getCore_setCore_same s c _

/-- An entry for a word of DATA or RETAIN that leaves the store buffer changes no other core. -/
theorem getCore_sbTake_other {w : Nat} (hw : isOutSlot w = false) {s : State} {c d : Nat} (hd : d ≠ c) :
    getCore (sbTake s c w) d = getCore s d := by
  unfold sbTake
  dsimp only
  split
  case h_1 => rfl
  case h_2 e hsome =>
    have he : e.word = w := by simpa using List.find?_some hsome
    rw [getCore, sbApply_cores (by rw [he, hw])]
    exact getCore_setCore_other s c d _ hd

/-- Words of DATA and RETAIN leave the store buffer one after the other. -/
theorem getCore_forEach_sbTake {ws : List Nat} (hws : ∀ w ∈ ws, isOutSlot w = false) (s : State) (c d : Nat) :
    getCore (forEach ws s (fun s w => sbTake s c w)) d =
      if d = c then { getCore s c with sb := (getCore s c).sb.filter (fun e => !ws.contains e.word) } else getCore s d := by
  induction ws generalizing s with
  | nil => by_cases hd : d = c <;> simp [forEach, hd]
  | cons w t ih =>
    obtain ⟨hw, ht⟩ := List.forall_mem_cons.1 hws
    have hstep := ih ht (sbTake s c w)
    rw [forEach, List.foldl_cons, ← forEach, hstep]
    split
    · rw [getCore_sbTake_same hw, List.filter_filter]
      refine congrArg (fun l => { getCore s c with sb := l }) (List.filter_congr fun e _ => ?_)
      simp [Bool.and_comm, bne, beq_eq_decide]
    · next hd => exact getCore_sbTake_other hw hd

/-- After the writes to DATA and RETAIN have drained, only those to OUT slots wait. -/
theorem getCore_fenceData (s : State) (c d : Nat) :
    getCore (fenceData s c) d =
      if d = c then { getCore s c with sb := (getCore s c).sb.filter (fun e => isOutSlot e.word) } else getCore s d := by
  have hws : ∀ w ∈ ((getCore s c).sb.map SbEntry.word).filter (fun w => !isOutSlot w), isOutSlot w = false := by
    simp +contextual
  rw [fenceData, sbDrain, getCore_forEach_sbTake hws]
  split
  · refine congrArg (fun l => { getCore s c with sb := l }) (List.filter_congr fun e he => ?_)
    cases ho : isOutSlot e.word
    · simpa [ho] using ⟨e, he, rfl⟩
    · simp [ho]
  · rfl

/-- Settles O26: FENCE.M drains the entries that are for no OUT slot. -/
theorem fenceMDrainsStores : Obligations.FenceMDrainsStores := by
  intro s c hc hr
  have hrun : (getCore (fenceData s c) c).run = (getCore s c).run := by rw [getCore_fenceData, if_pos rfl]
  have hfence : exec (.fenceM c 0) s = .next (landed (fenceData s c) c (stepCtx s c) 0) :=
    (fence_landedOn (f := fenceData) hr hc).trans (by rw [landedOn_of_run hrun])
  have hcore : getCore (landed (fenceData s c) c (stepCtx s c) 0) c =
      { getCore s c with sb := (getCore s c).sb.filter (fun e => isOutSlot e.word), ctx := withCyc (stepCtx s c) c 0 } := by
    rw [landed, getCore_setCtx_same, getCore_fenceData, if_pos rfl]
  refine ⟨_, hfence, ?drained, ?posted, ?slots, ?others⟩
  case drained =>
    rw [hcore]
    exact fun e he => (List.mem_filter.1 he).2
  case posted => rw [hcore]
  case slots =>
    rw [hcore]
    exact fun e he ho => List.mem_filter.2 ⟨he, ho⟩
  case others =>
    intro d hd
    rw [landed, getCore_setCtx_other _ c d _ hd, getCore_fenceData, if_neg hd]

/-! ## Calls to the engines (R94) -/

/-- The completion word of a refused call, in WA. -/
theorem cmplWord_refused (code : Nat) : cmplWord 0 code 0 = 2 ^ 63 + code % 2 ^ 16 * 2 ^ 32 := by
  simp [cmplWord, Nat.add_comm]

/-- A refused call shows DONE. -/
theorem refused_done (code : Nat) : (BitVec.ofNat 64 (2 ^ 63 + code % 2 ^ 16 * 2 ^ 32)).toNat / 2 ^ 63 = 1 := by
  rw [BitVec.toNat_ofNat]
  omega

section
variable {s s1 : State} {k : Ctx} {unit fn inst addr sel len : Nat} {bad : Bool}
  (hd : descBad s unit fn inst addr = (bad, sel, len, s1))
include hd

/-- A call whose descriptor breaks a rule is DESC_INVALID. -/
theorem callIssue_of_bad (hb : bad = true) :
    callIssue s k unit fn inst addr =
      .done s1 { k with wa := BitVec.ofNat 64 (2 ^ 63 + (engCode unit + 2) % 2 ^ 16 * 2 ^ 32) } 4 := by
  simp [callIssue, hd, hb, cmplWord_refused, setAcc]

/-- A call to an engine number that SEL names and that does not exist faults. -/
theorem callIssue_of_absent (hb : bad = false) (hi : instExists s1 unit fn (callInst sel inst) = false) :
    callIssue s k unit fn inst addr = .fault s1 0x0440 0 := by
  simp [callIssue, hd, hb, hi]

/-- A call that its engine refuses shows the reason. -/
theorem callIssue_of_refused {code : Nat} (hb : bad = false) (hi : instExists s1 unit fn (callInst sel inst) = true)
    (hr : callRefused s1 unit fn (callInst sel inst) = some code) :
    callIssue s k unit fn inst addr =
      .done s1 { k with wa := BitVec.ofNat 64 (2 ^ 63 + (engCode unit + code) % 2 ^ 16 * 2 ^ 32) } 4 := by
  simp [callIssue, hd, hb, hi, hr, cmplWord_refused, setAcc]

/-- A call that its engine accepts enters the queue and shows its ticket. -/
theorem callIssue_of_accepted (hb : bad = false) (hi : instExists s1 unit fn (callInst sel inst) = true)
    (hr : callRefused s1 unit fn (callInst sel inst) = none) :
    callIssue s k unit fn inst addr =
      .done (callAccept s1 unit fn (callInst sel inst) addr len).2
        { k with wa := BitVec.ofNat 64 (nextTicket (mget s1.tsk.tickets unit 0) + engCode unit * 2 ^ 32) } 4 := by
  simp [callIssue, hd, hb, hi, hr, callAccept, setAcc]

end

/-- The engine number of a call is SEL, or INST names one that exists. -/
theorem instGiven_eq_true {s : State} {unit fn inst : Nat} (h : inst = 0x1FF ∨ instExists s unit fn inst = true) :
    (inst == 0x1FF || instExists s unit fn inst) = true := by simpa using h

section
variable {s s1 : State} {c unit fn xp inst : Nat} (hr : runs s c = true) (hc : c < 6) (hf : fnAssigned unit fn = true)
include hr hc hf

/-- An asynchronous call on a logic core lands where its issue is done. -/
theorem execEcall_landedOn {k : Ctx} {n : Nat} (hx : inst = 0x1FF ∨ instExists s unit fn inst = true)
    (hi : callIssue s (stepCtx s c) unit fn inst (getX (stepCtx s c) xp) = .done s1 k n) :
    execEcall c unit fn false xp 0 inst s = .next (landedOn s s1 c k n) :=
  runThen_done hr (by simp only [hc, hf, instGiven_eq_true hx, hi, decide_true, beq_self_eq_true, Bool.true_and,
    Bool.false_eq_true, ↓reduceIte, need_true])

/-- An asynchronous call on a logic core faults where its issue does. -/
theorem execEcall_fault {code a : Nat} (hx : inst = 0x1FF ∨ instExists s unit fn inst = true)
    (hi : callIssue s (stepCtx s c) unit fn inst (getX (stepCtx s c) xp) = .fault s1 code a) :
    execEcall c unit fn false xp 0 inst s = .next (coreFault s1 c code a) :=
  runThen_fault hr (by simp only [hc, hf, instGiven_eq_true hx, hi, decide_true, beq_self_eq_true, Bool.true_and,
    Bool.false_eq_true, ↓reduceIte, need_true])

/-- A synchronous call that was refused after FENCE.X lands without a wait. -/
theorem execEcall_sync_refused {code : Nat} (hx : inst = 0x1FF ∨ instExists (fenceX s c) unit fn inst = true)
    (hrun : (getCore s1 c).run = (getCore s c).run)
    (hi : callIssue (fenceX s c) (stepCtx s c) unit fn inst (getX (stepCtx s c) xp) =
      .done s1 { stepCtx s c with wa := BitVec.ofNat 64 (2 ^ 63 + code % 2 ^ 16 * 2 ^ 32) } 4) :
    execEcall c unit fn true xp 0 inst s = .next (landedOn s s1 c
      { stepCtx s c with wa := BitVec.ofNat 64 (2 ^ 63 + code % 2 ^ 16 * 2 ^ 32) } 4) := by
  have hdone : execEcall c unit fn true xp 0 inst s = .next (putCtx s s1 c
      (withCyc { stepCtx s c with wa := BitVec.ofNat 64 (2 ^ 63 + code % 2 ^ 16 * 2 ^ 32) } c 4)
      (fun s => if true then ecallWait s c unit fn inst (getX (getCore s c).ctx xp) else s)) :=
    runThen_done hr (by simp only [hc, hf, instGiven_eq_true hx, hi, decide_true, beq_self_eq_true, Bool.true_and,
      ↓reduceIte, need_true])
  rw [hdone, putCtx_same s s1 c _ _ hrun, landedOn_of_run hrun, if_pos rfl, ecallWait, if_pos]
  · rfl
  · rw [getCore_setCtx_same]
    exact refused_done code

end

/-- Settles O25, by the outcome of the issue and by the kind of fence. -/
theorem callsToEnginesAndFences : Obligations.CallsToEnginesAndFences := by
  refine ⟨?calls, ?fences⟩
  case calls =>
    intro s s1 c unit fn xp inst sel len bad hc hr hf k i word hx hd
    refine ⟨fun hb => execEcall_landedOn hr hc hf hx (callIssue_of_bad hd hb), ?sync,
      fun hb hi => execEcall_fault hr hc hf hx (callIssue_of_absent hd hb hi),
      fun hb hi code hcode => execEcall_landedOn hr hc hf hx (callIssue_of_refused hd hb hi hcode),
      fun hb hi hacc => execEcall_landedOn hr hc hf hx (callIssue_of_accepted hd hb hi hacc)⟩
    case sync =>
      rintro _ sel' len' s1' rfl - hx' hd' hrun
      exact execEcall_sync_refused hr hc hf hx' hrun (callIssue_of_bad hd' rfl)
  case fences =>
    intro s c hr
    exact ⟨fun hc => ⟨fence_landedOn hr hc, fence_landedOn hr hc, fence_landedOn hr hc, fence_landedOn hr hc⟩,
      fun hc => fence_of_safety hr hc 0⟩

end Sys2Proof.Machine
end

section
/-!
PROOFS. Operands in memory and in channels: bit instructions, loads, stores and block moves, CHR, CHW and CHINV (R50, R52,
R53, R65, R66).
-/

namespace Sys2Proof.Machine

/-! ## Operands that pass their checks -/

/-- Cycles of a bit instruction in memory modes. -/
theorem bitCyc_mem {mode : Nat} (h : mode < 3) (c : Nat) : bitCyc c mode = 2 := by simp [bitCyc, h]

/-- Cycles of a bit instruction in channel modes. -/
theorem bitCyc_chan {mode : Nat} (h : mode = 3 ∨ mode = 4) (c : Nat) : bitCyc c mode = if c < 6 then 4 else 3 := by
  rcases h with rfl | rfl <;> rfl

/-- The fields of a memory operand are permitted with the mode. -/
theorem bitFieldsOk_mem {mode xi : Nat} (h : modeOk mode xi = true) (ofs bit : Nat) (chan : Bool) :
    bitFieldsOk mode xi ofs bit chan = true := by simp [bitFieldsOk, h]

/-- The fields of a channel operand are permitted with a short offset and bit 0. -/
theorem bitFieldsOk_chan {mode ofs : Nat} (h : mode = 3 ∨ mode = 4) (ho : ofs < 2 ^ 14) (xi : Nat) :
    bitFieldsOk mode xi ofs 0 true = true := by
  rcases h with rfl | rfl <;> simp [bitFieldsOk] <;> exact .inr ho

/-- Channel modes are no memory modes. -/
theorem modeOk_chan {mode : Nat} (h : mode = 3 ∨ mode = 4) (xi : Nat) : modeOk mode xi = false := by
  rcases h with rfl | rfl <;> rfl

/-- A channel operand that passes the checks of a read. -/
theorem chChecked_read {s : State} {c n ty : Nat} {f : State → Out} (hr : chRange s c n = false)
    (ht : chTypeBad (chEntry s c n).2 c n ty = false) : chChecked s c n ty false f = f (chEntry s c n).2 := by
  simp [chChecked, hr, ht]

/-- A channel operand that passes the checks of a write. -/
theorem chChecked_write {s : State} {c n ty : Nat} {f : State → Out} (hr : chRange s c n = false)
    (ht : chTypeBad (chEntry s c n).2 c n ty = false) (ho : chRefused (chEntry s c n).2 c n = none) :
    chChecked s c n ty true f = f (chEntry s c n).2 := by
  simp [chChecked, hr, ht, ho]

/-- A number without a channel faults with CH_RANGE. -/
theorem chChecked_of_range {s : State} {c n : Nat} (hr : chRange s c n = true) (ty : Nat) (wr : Bool) (f : State → Out) :
    chChecked s c n ty wr f = .fault s 0x0433 n := by simp [chChecked, hr]

/-- A TYPE that is not that of the channel faults with CH_TYPE. -/
theorem chChecked_of_type {s : State} {c n ty : Nat} (hr : chRange s c n = false)
    (ht : chTypeBad (chEntry s c n).2 c n ty = true) (wr : Bool) (f : State → Out) :
    chChecked s c n ty wr f = .fault (chEntry s c n).2 0x0434 n := by simp [chChecked, hr, ht]

/-- A write that the channel refuses faults with the code of the refusal. -/
theorem chChecked_of_refused {s : State} {c n ty code : Nat} (hr : chRange s c n = false)
    (ht : chTypeBad (chEntry s c n).2 c n ty = false) (ho : chRefused (chEntry s c n).2 c n = some code) (f : State → Out) :
    chChecked s c n ty true f =
      .fault (if code = 0x0435 then ownRefused (chEntry s c n).2 n else (chEntry s c n).2) code n := by
  simp [chChecked, hr, ht, ho]

/-- A write to a channel of another owner is counted. -/
theorem chChecked_of_owner {s : State} {c n ty : Nat} (hr : chRange s c n = false)
    (ht : chTypeBad (chEntry s c n).2 c n ty = false) (ho : chRefused (chEntry s c n).2 c n = some 0x0435) (f : State → Out) :
    chChecked s c n ty true f = .fault (ownRefused (chEntry s c n).2 n) 0x0435 n := by
  rw [chChecked_of_refused hr ht ho, if_pos rfl]

/-! ## Bit instructions (R53) -/

section
variable {s s1 : State} {c mode xi ofs bit : Nat} (hr : runs s c = true)
include hr

/-- A bit instruction on memory reads its bit. -/
theorem bitRead_mem {bs : List Byte} (f : Bool → Bool → Bool) (h3 : mode < 3) (hm : modeOk mode xi = true)
    (ha : accessFault c (effAddr (stepCtx s c) mode xi ofs) 1 1 .bitRd false = none)
    (hu : uncorr s c (effAddr (stepCtx s c) mode xi ofs) 1 = false)
    (hrd : memRd s c (effAddr (stepCtx s c) mode xi ofs) 1 = (bs, s1)) :
    bitRead c mode xi ofs bit f s =
      .next (landedOn s s1 c { stepCtx s c with lb := f (stepCtx s c).lb (bitOf (leNat bs) bit) } 2) := by
  rw [← bitCyc_mem h3 c]
  apply runOn_landedOn hr
  rw [bitLoad, bitFieldsOk_mem hm, need_true, if_pos h3]
  simp only [ha, loading_of_corr hu hrd]

/-- A bit instruction on a channel reads the channel's value. -/
theorem bitRead_chan {n : Nat} {v : Nat × Nat} {s2 : State} (f : Bool → Bool → Bool) (h : mode = 3 ∨ mode = 4)
    (ho : ofs < 2 ^ 14) (hn : bitChan (stepCtx s c) mode xi ofs = n) (hrg : chRange s c n = false)
    (he : (chEntry s c n).2 = s1) (ht : chTypeBad s1 c n 0 = false) (hrd : chRead s1 c n = (v, s2)) :
    bitRead c mode xi ofs 0 f s = .next (landedOn s s2 c { stepCtx s c with lb := f (stepCtx s c).lb (bitOf v.1 0) }
      (if c < 6 then 4 else 3)) := by
  subst he hn
  rw [← bitCyc_chan h c]
  apply runOn_landedOn hr
  rw [bitLoad, bitFieldsOk_chan h ho, need_true, if_neg (by omega)]
  simp only [chChecked_read hrg ht, hrd]

/-- A bit instruction on memory writes its bit, or only checks its operand. -/
theorem bitWrite_mem (f : Bool → Option Bool) (h3 : mode < 3) (hm : modeOk mode xi = true)
    (ha : accessFault c (effAddr (stepCtx s c) mode xi ofs) 1 1 .bitWr false = none)
    (hu : uncorr s c (effAddr (stepCtx s c) mode xi ofs) 1 = false)
    (hw : (match f (stepCtx s c).lb with
      | some b => bitPut s c (effAddr (stepCtx s c) mode xi ofs) bit b
      | none => s) = s1) :
    bitWrite c mode xi ofs bit f s = .next (landedOn s s1 c (stepCtx s c) 2) := by
  subst hw
  rw [← bitCyc_mem h3 c]
  apply runOn_landedOn hr
  rw [bitStore, bitFieldsOk_mem hm, need_true, if_pos h3]
  simp only [ha, hu, Bool.false_eq_true, if_false] <;> rfl

/-- A bit instruction on a channel writes the channel, or only checks its operand. -/
theorem bitWrite_chan {n : Nat} {s2 : State} (f : Bool → Option Bool) (h : mode = 3 ∨ mode = 4) (ho : ofs < 2 ^ 14)
    (hn : bitChan (stepCtx s c) mode xi ofs = n) (hrg : chRange s c n = false) (he : (chEntry s c n).2 = s1)
    (ht : chTypeBad s1 c n 0 = false) (hown : chRefused s1 c n = none)
    (hw : (match f (stepCtx s c).lb with | some b => chWrite s1 c n (b2n b) | none => s1) = s2) :
    bitWrite c mode xi ofs 0 f s = .next (landedOn s s2 c (stepCtx s c) (if c < 6 then 4 else 3)) := by
  subst he hn hw
  rw [← bitCyc_chan h c]
  apply runOn_landedOn hr
  rw [bitStore, bitFieldsOk_chan h ho, need_true, if_neg (by omega)]
  simp only [chChecked_write hrg ht hown] <;> rfl

/-- An edge instruction replaces its edge memory bit with LB and compares the two. -/
theorem bitEdge_mem {a : Nat} {bs : List Byte} (f : Bool → Bool → Bool) (hm : modeOk mode xi = true)
    (hadr : effAddr (stepCtx s c) mode xi ofs = a) (ha : accessFault c a 1 1 .bitWr false = none)
    (hu : uncorr (if c < 6 then rmwDrain s c a 1 else s) c a 1 = false)
    (hrd : memRd (if c < 6 then rmwDrain s c a 1 else s) c a 1 = (bs, s1)) :
    bitEdge c mode xi ofs bit f s = .next (landedOn s (bitPut s1 c a bit (stepCtx s c).lb) c
      { stepCtx s c with lb := f (stepCtx s c).lb (bitOf (leNat bs) bit) } 3) := by
  subst hadr
  apply runOn_landedOn hr
  rw [bitFieldsOk_mem hm, need_true]
  simp only [ha, loading_of_corr hu hrd]

/-- An edge instruction refuses the channel modes. -/
theorem bitEdge_refused (f : Bool → Bool → Bool) (h : mode = 3 ∨ mode = 4) :
    bitEdge c mode xi ofs bit f s = .next (coreFault s c 0x0411 0) :=
  runOn_fault s s c _ _ _ hr (by simp [bitFieldsOk, modeOk_chan h])

end

/-- Settles O7: the reading, the writing and the edge forms are `bitRead`, `bitWrite` and `bitEdge` of their functions. -/
theorem bitOperands : Obligations.BitOperands := by
  refine ⟨?reads, ?writes, ?edges⟩
  case reads =>
    intro p hp s c mode xi ofs bit hr k
    have hxorn : (fun lb op : Bool => lb != !op) = fun lb op => lb == op := by decide
    have hexec : exec (p.1 c mode xi ofs bit) s = bitRead c mode xi ofs bit p.2 s := by
      simp only [List.mem_cons, List.not_mem_nil, or_false] at hp
      rcases hp with rfl | rfl | rfl | rfl | rfl | rfl | rfl | rfl
      on_goal 8 => rw [hxorn]
      all_goals rfl
    rw [hexec]
    refine ⟨fun bs s1 h3 hm ha hu hrd => bitRead_mem hr p.2 h3 hm ha hu hrd, ?_⟩
    rintro v s1 s2 h ho rfl hrg he ht hrd
    exact bitRead_chan hr p.2 h ho rfl hrg he ht hrd
  case writes =>
    intro p hp s c mode xi ofs bit hr k
    have hexec : exec (p.1 c mode xi ofs bit) s = bitWrite c mode xi ofs bit p.2 s := by
      simp only [List.mem_cons, List.not_mem_nil, or_false] at hp
      rcases hp with rfl | rfl | rfl | rfl
      all_goals rfl
    rw [hexec]
    constructor
    · intro h3 hm ha hu
      rw [bitWrite_mem hr p.2 h3 hm ha hu rfl]
      cases p.2 k.lb with
      | none => rw [landedOn_self]
      | some b => rfl
    · rintro s1 h ho rfl hrg he ht hown
      exact bitWrite_chan hr p.2 h ho rfl hrg he ht hown rfl
  case edges =>
    intro p hp s c mode xi ofs bit hr k
    have hexec : exec (p.1 c mode xi ofs bit) s = bitEdge c mode xi ofs bit p.2 s := by
      simp only [List.mem_cons, List.not_mem_nil, or_false] at hp
      rcases hp with rfl | rfl
      all_goals rfl
    rw [hexec]
    exact ⟨fun bs s1 hm ha hu hrd => bitEdge_mem hr p.2 hm rfl ha hu hrd, bitEdge_refused hr p.2⟩

/-! ## Loads, stores and block moves (R52, R66) -/

section
variable {s s1 : State} {c mode xi ty ofs a : Nat} {ac : Bool} {bs : List Byte} (hr : runs s c = true)
include hr

/-- LW lands with the extended value and its flags. -/
theorem execLw_landedOn (hm : modeOk mode xi = true) (hadr : effAddr (stepCtx s c) mode xi (ofs * tySize ty) = a)
    (ha : accessFault c a (tySize ty) (tySize ty) .load (ty == 4) = none) (hu : uncorr s c a (tySize ty) = false)
    (hrd : memRd s c a (tySize ty) = (bs, s1)) :
    execLw c mode xi ty ac ofs s = .next (landedOn s s1 c
      (loadFlags (setAcc (stepCtx s c) ac (tyExt ty (leNat bs))) ty (leNat bs)) 2) := by
  subst hadr
  exact runOn_landedOn hr (by rw [wordChecked_of_ok hm ha, loading_of_corr hu hrd])

/-- SW lands with the low bytes of the accumulator written. -/
theorem execSw_landedOn (hm : modeOk mode xi = true) (hadr : effAddr (stepCtx s c) mode xi (ofs * tySize ty) = a)
    (ha : accessFault c a (tySize ty) (tySize ty) .store (ty == 4) = none) :
    execSw c mode xi ty ac ofs s = .next (landedOn s
      (memWr s c a (leBytes (tySize ty) (acc (stepCtx s c) ac))) c (stepCtx s c) 2) := by
  subst hadr
  exact runOn_landedOn hr (by rw [wordChecked_of_ok hm ha])

/-- MOVB lands with the source's bytes at the destination. -/
theorem execMovb_landedOn {xd xs cnt : Nat}
    (hm : moveFault c (getX (stepCtx s c) xs) (getX (stepCtx s c) xd) (cnt + 1) = none)
    (hu : uncorr s c (getX (stepCtx s c) xs) (cnt + 1) = false)
    (hrd : memRd s c (getX (stepCtx s c) xs) (cnt + 1) = (bs, s1)) :
    execMovb c xd xs 0 cnt s =
      .next (landedOn s (memWr s1 c (getX (stepCtx s c) xd) bs) c (stepCtx s c) (6 + (cnt + 32) / 32)) :=
  runOn_landedOn hr (by simp [hm, hu, hrd, ceilDiv])

end

/-- Settles O11, by the instruction. -/
theorem wordsAndBlocks : Obligations.WordsAndBlocks := by
  refine ⟨?words, ?blocks⟩
  case words =>
    intro s c mode xi ty ofs ac hr hm k n a
    exact ⟨fun bs s1 ha hu hrd => execLw_landedOn hr hm rfl ha hu hrd, fun ha => execSw_landedOn hr hm rfl ha⟩
  case blocks =>
    intro s s1 c xd xs cnt bs hr k hm hu hrd
    exact execMovb_landedOn hr hm hu hrd

/-! ## CHR, CHW and CHINV (R65) -/

section
variable {s : State} {c xi ty chan n : Nat} {i : Bool} (hr : runs s c = true) (hn : chanNo (stepCtx s c) i xi chan = n)
include hr hn

/-- CHR lands with the value and the status of its channel. -/
theorem execChr_landedOn (hrg : chRange s c n = false) (ht : chTypeBad (chEntry s c n).2 c n ty = false) {v : Nat × Nat}
    {s2 : State} (hrd : chRead (chEntry s c n).2 c n = (v, s2)) :
    execChr c i xi ty false 0 chan s = .next (landedOn s s2 c
      { stepCtx s c with wa := BitVec.ofNat 64 (tyExt ty v.1), wb := BitVec.ofNat 64 v.2 } (if c < 6 then 4 else 3)) := by
  subst hn
  apply runOn_landedOn hr
  simp only [Bool.not_false, beq_self_eq_true, Bool.and_true, need_true, chChecked_read hrg ht, hrd]
  rfl

/-- CHW lands with WA, by TYPE, written to its channel. -/
theorem execChw_landedOn (hrg : chRange s c n = false) (ht : chTypeBad (chEntry s c n).2 c n ty = false)
    (ho : chRefused (chEntry s c n).2 c n = none) :
    execChw c i xi ty false 0 chan s = .next (landedOn s
      (chWrite (chEntry s c n).2 c n ((stepCtx s c).wa.toNat % 2 ^ tyBits ty)) c (stepCtx s c) 3) := by
  subst hn
  apply runOn_landedOn hr
  simp only [Bool.not_false, beq_self_eq_true, Bool.and_true, need_true, chChecked_write hrg ht ho]
  rfl

/-- CHR faults where the checks of its channel do. -/
theorem execChr_fault {s1 : State} {code : Nat}
    (h : ∀ f, chChecked s c n ty false f = .fault s1 code n) :
    execChr c i xi ty false 0 chan s = .next (coreFault s1 c code n) := by
  subst hn
  exact runOn_fault s s1 c _ _ _ hr (by simp only [Bool.not_false, beq_self_eq_true, Bool.and_true, need_true, h])

/-- CHW faults where the checks of its channel do. -/
theorem execChw_fault {s1 : State} {code : Nat}
    (h : ∀ f, chChecked s c n ty true f = .fault s1 code n) :
    execChw c i xi ty false 0 chan s = .next (coreFault s1 c code n) := by
  subst hn
  exact runOn_fault s s1 c _ _ _ hr (by simp only [Bool.not_false, beq_self_eq_true, Bool.and_true, need_true, h])

/-- CHINV of one channel lands with its cached entry invalid. -/
theorem execChinv_landedOn (hc : c < 6) (h : n < nChan s) :
    execChinv c i xi false 0 chan s = .next (landedOn s (invalidate (ddrDrain s c) n) c (stepCtx s c) 8) := by
  subst hn
  exact runOn_landedOn hr (by simp [hc, h])

/-- CHINV of a number beyond the variant faults with CH_RANGE. -/
theorem execChinv_of_range (hc : c < 6) (h : nChan s ≤ n) :
    execChinv c i xi false 0 chan s = .next (coreFault s c 0x0433 n) := by
  subst hn
  exact runOn_fault s s c _ _ _ hr (by simp [hc, Nat.not_lt.2 h])

end

/-- CHINV of all channels lands with every cached entry invalid. -/
theorem execChinv_all_landedOn {s : State} {c : Nat} (hr : runs s c = true) (hc : c < 6) :
    execChinv c false 0 true 0 0 s = .next (landedOn s (invalidateAll (ddrDrain s c)) c (stepCtx s c) 32) :=
  runOn_landedOn hr (by simp [hc])

/-- A safety core has no CHINV. -/
theorem execChinv_of_safety {s : State} {c : Nat} (hr : runs s c = true) (hc : 6 ≤ c) (i : Bool) (xi chan : Nat) :
    execChinv c i xi false 0 chan s = .next (coreFault s c 0x0410 0) :=
  runOn_fault s s c _ _ _ hr (by simp [Nat.not_lt.2 hc])

/-- TYPE is not judged for an unused channel of a logic core. -/
theorem chTypeBad_of_unused {s : State} {c n : Nat} (hc : c < 6) (hu : (getChan s n).cached.used = false) (ty : Nat) :
    chTypeBad s c n ty = false := by simp [chTypeBad, hc, hu]

/-- An unused channel of a logic core reads 0 with status 0. -/
theorem chRead_of_unused {s : State} {c n : Nat} (hc : c < 6) (hu : (getChan s n).cached.used = false) :
    chRead s c n = ((0, 0), s) := by simp [chRead, hc, hu]

/-- A logic core is refused a write to a channel that its task does not own. -/
theorem chRefused_of_not_owned {s : State} {c n : Nat} (hc : c < 6)
    (ho : coreOwns (getChan s n).cached (taskOn s c) = false) : chRefused s c n = some 0x0435 := by
  simp [chRefused, hc, ho]

/-- A safety core is refused a write to an input of the safety map. -/
theorem chRefused_of_input {s : State} {c n : Nat} {m : SMap} (hc : 6 ≤ c) (hm : mapAt s n = some m) (h1 : m.kind ≠ 1)
    (h5 : m.kind ≠ 5) : chRefused s c n = some 0x0434 := by
  simp [chRefused, Nat.not_lt.2 hc, hm, h1, h5]

/-- A safety core re-reads no entry. -/
theorem chEntry_of_safety {c : Nat} (hc : 6 ≤ c) (s : State) (n : Nat) : (chEntry s c n).2 = s := by
  simp [chEntry, Nat.not_lt.2 hc]

/-- The extension of 0 is 0 in every type. -/
theorem tyExt_zero (ty : Nat) : tyExt ty 0 = 0 := by
  have hint : tyInt ty 0 = 0 := by simp [tyInt, sint]
  unfold tyExt
  split
  · exact Nat.zero_mod _
  · rw [hint]
    rfl

/-- Settles O22, by the checks of the channel. -/
theorem channelInstructions : Obligations.ChannelInstructions := by
  refine ⟨?readWrite, ?invalidate⟩
  case readWrite =>
    intro s c xi ty chan i hr k n
    refine ⟨fun hrg => ⟨execChr_fault hr rfl (chChecked_of_range hrg ty false),
      execChw_fault hr rfl (chChecked_of_range hrg ty true)⟩, fun hrg => ?_⟩
    refine ⟨fun ht => execChr_landedOn hr rfl hrg ht Prod.mk.eta.symm, fun ht ho => execChw_landedOn hr rfl hrg ht ho, ?unused,
      fun ht => ⟨execChr_fault hr rfl (chChecked_of_type hrg ht false), execChw_fault hr rfl (chChecked_of_type hrg ht true)⟩,
      fun hc ht ho => execChw_fault hr rfl (chChecked_of_owner hrg ht (chRefused_of_not_owned hc ho)),
      fun m hc hm h1 h5 ht => execChw_fault hr rfl (chChecked_of_refused hrg ht (chRefused_of_input hc ?map h1 h5))⟩
    case unused =>
      intro hc hu
      refine (execChr_landedOn hr rfl hrg (chTypeBad_of_unused hc hu ty) (chRead_of_unused hc hu)).trans ?_
      rw [tyExt_zero, if_pos hc]
      rfl
    case map => rw [chEntry_of_safety hc, hm]
  case invalidate =>
    intro s c xi chan i hr k n
    exact ⟨fun hc h => execChinv_landedOn hr rfl hc h, fun hc => execChinv_all_landedOn hr hc,
      fun hc h => execChinv_of_range hr rfl hc h, fun hc => execChinv_of_safety hr hc i xi chan⟩

end Sys2Proof.Machine
end

section
/-!
PROOFS. Stores (R43, R52, R77, R229): what a storing form changes on a safety core, and where the store of a logic core
waits.
-/

namespace Sys2Proof.Machine

/-! ## Bytes written and nothing else -/

/-- From `s` to `t` only bytes of `n` from `x` changed, and what goes with a write to memory: no unit register, no core. -/
structure BytesOnly (s t : State) (x n : Nat) : Prop where
  regs : t.regs = s.regs
  cores : t.cores = s.cores
  bad : t.bad = s.bad
  bytes : ∀ y, y < x ∨ x + n ≤ y → rdB t y = rdB s y
  wf : Memory.wf s.mem = true → Memory.wf t.mem = true

namespace BytesOnly

/-- No write at all. -/
theorem refl (s : State) (x n : Nat) : BytesOnly s s x n := ⟨rfl, rfl, rfl, fun _ _ => rfl, id⟩

/-- Two writes within one range. -/
theorem trans {s t u : State} {x n : Nat} (h1 : BytesOnly s t x n) (h2 : BytesOnly t u x n) : BytesOnly s u x n :=
  ⟨h2.regs.trans h1.regs, h2.cores.trans h1.cores, h2.bad.trans h1.bad, fun y hy => (h2.bytes y hy).trans (h1.bytes y hy),
    fun h => h2.wf (h1.wf h)⟩

/-- A write within a part of a range. -/
theorem mono {s t : State} {x n x' n' : Nat} (h : BytesOnly s t x n) (hlo : x' ≤ x) (hhi : x + n ≤ x' + n') :
    BytesOnly s t x' n' :=
  ⟨h.regs, h.cores, h.bad, fun y hy => h.bytes y (by omega), h.wf⟩

/-- A byte written. -/
theorem wrB (s : State) (x : Nat) (b : Byte) : BytesOnly s (wrB s x b) x 1 :=
  ⟨wrB_regs s x b, wrB_cores s x b, wrB_bad s x b, fun y hy => rdB_wrB_other s x y b (by omega), wrB_wf s x b⟩

/-- Bytes written. -/
theorem wrBs (bs : List Byte) (s : State) (x : Nat) : BytesOnly s (wrBs s x bs) x bs.length := by
  induction bs generalizing s x with
  | nil => exact refl s x 0
  | cons b t ih =>
    have hhead := (BytesOnly.wrB s x b).mono (x' := x) (n' := (b :: t).length) le_rfl (by simp)
    have htail := (ih (Machine.wrB s x b) (x + 1)).mono (x' := x) (n' := (b :: t).length) (by omega)
      (by simp only [List.length_cons]; omega)
    exact hhead.trans htail

end BytesOnly

/-! ## A safety core's own store (R229) -/

/-- A safety core's accesses are judged alike, whatever their use. -/
theorem accessFault_safety {c : Nat} (hc : 6 ≤ c) (a n al : Nat) (u u' : Use) (b b' : Bool) :
    accessFault c a n al u b = accessFault c a n al u' b' := by simp [accessFault, Nat.not_lt.2 hc]

/-- An access of a safety core that passes its checks lies in one region of its map. -/
theorem safIn_of_accessFault {c a n al : Nat} {u : Use} {b : Bool} (hc : 6 ≤ c) (h : accessFault c a n al u b = none) :
    safIn c a n = true := by
  by_contra hin
  rw [Bool.not_eq_true] at hin
  simp [accessFault, Nat.not_lt.2 hc, hin] at h

/-- The regions of a safety core's map, and where the state keeps them. -/
theorem safAddr_eq_some_iff {c a x : Nat} : safAddr c a = some x ↔
    a < 0x1F000 ∧ x = 0x100000000 + (c - 6) * 0x20000 + a ∨
    (0x00800000 ≤ a ∧ a < 0x00801000) ∧ x = 0x100000000 + (c - 6) * 0x20000 + 0x1F000 + (a - 0x00800000) ∨
    (0x01000000 ≤ a ∧ a < 0x01000100) ∧ x = 0x100040000 + (c - 6) * 0x100 + (a - 0x01000000) := by
  unfold safAddr
  dsimp only
  split_ifs
  · rw [Option.some.injEq]; omega
  · rw [Option.some.injEq]; omega
  · rw [Option.some.injEq]; omega
  · exact iff_of_false nofun (by omega)

/-- The bytes of one region follow each other in the store. -/
theorem safAddr_add {c a n j : Nat} (h : safIn c a n = true) (hj : j < n) :
    (safAddr c (a + j)).getD 0 = (safAddr c a).getD 0 + j := by
  unfold safIn at h
  split at h
  case h_1 x y hx hy =>
    have hadd : safAddr c (a + j) = some (x + j) := by
      rw [beq_iff_eq] at h
      rw [safAddr_eq_some_iff] at hx hy ⊢
      omega
    rw [hadd, hx, Option.getD_some, Option.getD_some]
  case h_2 => cases h

section
variable {s : State} {c : Nat} (hc : 6 ≤ c)
include hc

/-- A safety core's write goes to its own store. -/
theorem memWr_safety (a : Nat) (bs : List Byte) : memWr s c a bs = wrBs s ((safAddr c a).getD 0) bs := by
  simp [memWr, Nat.not_lt.2 hc]

/-- A safety core's bit write changes one byte of its own store. -/
theorem bitPut_safety (a bit : Nat) (v : Bool) : BytesOnly s (bitPut s c a bit v) ((safAddr c a).getD 0) 1 := by
  rw [bitPut, if_neg (Nat.not_lt.2 hc)]
  exact BytesOnly.wrB s _ _

/-- A safety core's word with an uncorrectable error is looked for in its own store. -/
theorem uncorr_safety (a n : Nat) : uncorr s c a n = badIn s ((safAddr c a).getD 0) n := by
  simp [uncorr, Nat.not_lt.2 hc]

/-- A safety core reads its own store. -/
theorem memRd_safety (a n : Nat) : memRd s c a n = (rdBs s ((safAddr c a).getD 0) n, s) := by
  simp [memRd, Nat.not_lt.2 hc]

/-- The edge memory bit of a counter block on a safety core. -/
theorem ctrEdge_safety (a bit : Nat) (v : Bool) (old : Byte) :
    BytesOnly s (ctrEdge s c a bit v old) ((safAddr c (a + 8)).getD 0) 1 := by
  rw [ctrEdge, if_neg (by omega)]
  exact bitPut_safety hc _ _ _

end

/-- Bytes written change nothing that runs on a core. -/
theorem BytesOnly.getCore_eq {s t : State} {x n : Nat} (h : BytesOnly s t x n) (d : Nat) : getCore t d = getCore s d := by
  rw [getCore, h.cores, getCore]

/-- An instruction that changed only bytes lands on the state with these bytes. -/
theorem BytesOnly.landedOn_eq {s t : State} {x n : Nat} (h : BytesOnly s t x n) (c : Nat) (k : Ctx) (m : Nat) :
    landedOn s t c k m = landed t c k m := landedOn_of_run (by rw [h.getCore_eq]) k m

/-- An instruction of core `c` that lands with only bytes of `n` from `x` changed. -/
def ChangesBytes (r : Res) (s : State) (c x n : Nat) : Prop :=
  ∃ t k m, r = .next (landedOn s t c k m) ∧ BytesOnly s t x n

/-- The frame of an instruction that changes only bytes and its own context. -/
theorem ChangesBytes.frame {r : Res} {s : State} {c x n : Nat} (h : ChangesBytes r s c x n) :
    ∃ u, r = .next u ∧ u.regs = s.regs ∧ (∀ d, d ≠ c → getCore u d = getCore s d) ∧
      (∀ y, y < x ∨ x + n ≤ y → rdB u y = rdB s y) ∧ (Memory.wf s.mem = true → Memory.wf u.mem = true) := by
  obtain ⟨t, k, m, hr, hb⟩ := h
  rw [hb.landedOn_eq] at hr
  refine ⟨_, hr, ?_, fun d hd => ?_, hb.bytes, hb.wf⟩
  · exact (landed_regs ..).trans hb.regs
  · exact (getCore_setCtx_other t c d _ hd).trans (hb.getCore_eq d)

section
variable {s : State} {c : Nat} (hc : 6 ≤ c)
include hc

/-- A bit written or left, on a safety core. -/
theorem bitWritten_safety (a bit : Nat) (v : Option Bool) :
    BytesOnly s (match v with | some b => bitPut s c a bit b | none => s) ((safAddr c a).getD 0) 1 := by
  cases v with
  | none => exact BytesOnly.refl s _ 1
  | some b => exact bitPut_safety hc a bit b

/-- A counter operation without an edge bit writes at most CV. -/
theorem ctrWritten_cv_safety (a : Nat) (e : Byte) (cv : Option Int) (lb : Bool) :
    BytesOnly s (ctrWritten s c a e { cv := cv, lb := lb }) ((safAddr c a).getD 0) 4 := by
  cases cv with
  | none => exact BytesOnly.refl s _ 4
  | some v =>
    have h := BytesOnly.wrBs (leBytes 4 (pat 32 v)) s ((safAddr c a).getD 0)
    rw [leBytes_length, ← memWr_safety hc] at h
    exact h

/-- A counter operation with an edge bit writes at most CV and the byte of the edge memory. -/
theorem ctrWritten_safety {a : Nat} (ha : safIn c a 16 = true) (e : Byte) (cv : Option Int) (bit : Nat) (v lb : Bool) :
    BytesOnly s (ctrWritten s c a e { cv := cv, edge := some (bit, v), lb := lb }) ((safAddr c a).getD 0) 9 := by
  have hcv := (ctrWritten_cv_safety (s := s) hc a e cv lb).mono (x' := (safAddr c a).getD 0) (n' := 9) le_rfl (by omega)
  have hedge := ctrEdge_safety (s := ctrWritten s c a e { cv := cv, lb := lb }) hc a bit v e
  rw [safAddr_add ha (by decide)] at hedge
  exact hcv.trans (hedge.mono (by omega) (by omega))

end

/-- Modes of memory operands lie below those of channels. -/
theorem mode_lt_three {mode xi : Nat} (h : modeOk mode xi = true) : mode < 3 := by
  simp only [modeOk, Bool.or_eq_true, beq_iff_eq, Bool.and_eq_true, decide_eq_true_eq] at h
  omega

section
variable {s : State} {c mode xi ofs : Nat} (hc : 6 ≤ c) (hr : runs s c = true) (hm : modeOk mode xi = true)
include hc hr hm

/-- A bit instruction on a safety core writes at most the byte of its bit. -/
theorem bitWrite_safety {a : Nat} (f : Bool → Option Bool) (bit : Nat) (hadr : effAddr (stepCtx s c) mode xi ofs = a)
    (ha : accessFault c a 1 1 .bitWr false = none) (hu : uncorr s c a 1 = false) :
    ChangesBytes (bitWrite c mode xi ofs bit f s) s c ((safAddr c a).getD 0) 1 := by
  subst hadr
  exact ⟨_, _, _, bitWrite_mem hr f (mode_lt_three hm) hm ha hu rfl, bitWritten_safety hc _ bit _⟩

/-- An edge instruction on a safety core changes the byte of its edge memory bit. -/
theorem bitEdge_safety {a : Nat} (f : Bool → Bool → Bool) (bit : Nat) (hadr : effAddr (stepCtx s c) mode xi ofs = a)
    (ha : accessFault c a 1 1 .bitWr false = none) (hu : uncorr s c a 1 = false) :
    ChangesBytes (bitEdge c mode xi ofs bit f s) s c ((safAddr c a).getD 0) 1 := by
  have hnot := Nat.not_lt.2 hc
  exact ⟨_, _, _, bitEdge_mem hr f hm hadr ha (by rwa [if_neg hnot]) (by rw [if_neg hnot, memRd_safety hc]),
    bitPut_safety hc a bit _⟩

/-- A store on a safety core changes the bytes of its word. -/
theorem execSw_safety {a ty : Nat} (ac : Bool) (hadr : effAddr (stepCtx s c) mode xi (ofs * tySize ty) = a)
    (ha : accessFault c a (tySize ty) (tySize ty) .store false = none) :
    ChangesBytes (execSw c mode xi ty ac ofs s) s c ((safAddr c a).getD 0) (tySize ty) := by
  have hb := BytesOnly.wrBs (leBytes (tySize ty) (acc (stepCtx s c) ac)) s ((safAddr c a).getD 0)
  rw [leBytes_length, ← memWr_safety hc] at hb
  exact ⟨_, _, _, execSw_landedOn hr hm hadr (by rwa [accessFault_safety hc _ _ _ _ .store _ false]), hb⟩

/-- A counter operation on a safety core changes what it writes of its block. -/
theorem counterOp_safety {a n : Nat} (f : Int → Int → Nat → Bool → CtrOut)
    (hadr : effAddr (stepCtx s c) mode xi (ofs * 16) = a) (ha : accessFault c a 16 16 .store false = none)
    (hu : uncorr s c a 16 = false)
    (hf : ∀ cv pv e lb old, BytesOnly s (ctrWritten s c a old (f cv pv e lb)) ((safAddr c a).getD 0) n) :
    ChangesBytes (counterOp c mode xi 0 ofs f s) s c ((safAddr c a).getD 0) n := by
  have hnot := Nat.not_lt.2 hc
  exact ⟨_, _, _, counterOp_landedOn f hr hm hadr ha (by rwa [if_neg hnot]) (by rw [if_neg hnot, memRd_safety hc]) rfl,
    hf _ _ _ _ _⟩

end

/-- Settles O15, by what each form writes. -/
theorem safetyCoreStoresFrame : Obligations.SafetyCoreStoresFrame := by
  intro s c mode xi ofs bit ty ac hsafe hr hm k frame
  have hc : 6 ≤ c := by omega
  refine ⟨fun ha hu => ?bits, fun ha => (execSw_safety hc hr hm ac rfl ha).frame, fun ha hu => ?counters⟩
  case bits =>
    have hwrite (f : Bool → Option Bool) := (bitWrite_safety hc hr hm f bit rfl ha hu).frame
    have hedge (f : Bool → Bool → Bool) := (bitEdge_safety hc hr hm f bit rfl ha hu).frame
    exact ⟨hwrite fun lb => some lb, hwrite fun lb => some (!lb), hwrite fun lb => if lb then some true else none,
      hwrite fun lb => if lb then some false else none, hedge fun lb op => lb && !op, hedge fun lb op => !lb && op⟩
  case counters =>
    have hin := safIn_of_accessFault hc ha
    have hup : ChangesBytes (execCtu c mode xi 0 ofs s) s c _ 9 :=
      counterOp_safety hc hr hm _ rfl ha hu fun _ _ _ _ _ => ctrWritten_safety hc hin _ _ _ _ _
    have hdown : ChangesBytes (execCtd c mode xi 0 ofs s) s c _ 9 :=
      counterOp_safety hc hr hm _ rfl ha hu fun _ _ _ _ _ => ctrWritten_safety hc hin _ _ _ _ _
    have hreset : ChangesBytes (execCtrReset c mode xi 0 ofs s) s c _ 4 :=
      counterOp_safety hc hr hm _ rfl ha hu fun _ _ _ _ _ => ctrWritten_cv_safety hc _ _ _ _
    have hload : ChangesBytes (execCtl c mode xi 0 ofs s) s c _ 4 :=
      counterOp_safety hc hr hm _ rfl ha hu fun _ _ _ _ _ => ctrWritten_cv_safety hc _ _ _ _
    exact ⟨hup.frame, hdown.frame, hreset.frame, hload.frame⟩

/-! ## A load after a store (R52, R229) -/

/-- The bytes of a type hold its width. -/
theorem tySize_mul_eight (ty : Nat) : 8 * tySize ty = tyBits ty := by
  unfold tySize tyBits
  split <;> rfl

/-- The low bytes of a value, as many as a type has, keep the value of the type. -/
theorem leNat_leBytes_tySize (ty v : Nat) : leNat (leBytes (tySize ty) v) = v % 2 ^ tyBits ty := by
  rw [leNat_leBytes, ← tySize_mul_eight, pow_mul]; rfl

/-- A value extended by its type fits an accumulator. -/
theorem tyExt_lt (ty x : Nat) : tyExt ty x < 2 ^ 64 := by
  unfold tyExt
  split
  · exact (Nat.mod_lt _ (Nat.two_pow_pos _)).trans_le
      (Nat.pow_le_pow_right (by decide) (by unfold tyBits; split <;> decide))
  · unfold pat; omega

/-- An accumulator after a write to it. -/
theorem acc_setAcc {k : Ctx} {b : Bool} {v : Nat} (hv : v < 2 ^ 64) : acc (setAcc k b v) b = v := by
  cases b
  all_goals simpa [acc, setAcc] using hv

/-- What a load leaves in its accumulator. -/
theorem acc_loaded {k : Ctx} {b : Bool} {v : Nat} (hv : v < 2 ^ 64) (ty w c n : Nat) :
    acc (withCyc (loadFlags (setAcc k b v) ty w) c n) b = v :=
  acc_setAcc (k := k) (b := b) hv

/-- An instruction that lands with its registers as they were gives the next one the same address. -/
theorem effAddr_landed (s : State) (t : State) (c n mode xi ofs : Nat) :
    effAddr (stepCtx (landed t c (stepCtx s c) n) c) mode xi ofs = effAddr (stepCtx s c) mode xi ofs := by
  rw [landed, stepCtx_setCtx]
  rfl

/-- A core goes on executing after bytes are written. -/
theorem runs_wrBs (s : State) (a : Nat) (bs : List Byte) (c : Nat) : runs (wrBs s a bs) c = runs s c := by
  induction bs generalizing s a with
  | nil => rfl
  | cons b t ih => rw [wrBs, ih, runs, runs, (BytesOnly.wrB s a b).getCore_eq, wrB_saf]

/-- An instruction that lands marks no word. -/
@[simp] theorem landed_bad (s : State) (c : Nat) (k : Ctx) (n : Nat) : (landed s c k n).bad = s.bad := setCtx_bad ..

/-- What an instruction that lands leaves to be read of a safety core's own store. -/
@[simp] theorem rdBs_landed (s : State) (c : Nat) (k : Ctx) (n a m : Nat) : rdBs (landed s c k n) a m = rdBs s a m := by
  induction m generalizing a with
  | zero => rfl
  | succ m ih => rw [rdBs, rdBs, ih, rdB, rdB, landed_mem]

/-- Settles O13: the word stored stands in the core's own store, where the load finds it. -/
theorem safetyCoreLoadsWhatItStored : Obligations.SafetyCoreLoadsWhatItStored := by
  intro s c mode xi ty ofs ac hsafe hr hm hty n a ha hu
  have hc : 6 ≤ c := by omega
  let bs := leBytes n (acc (stepCtx s c) ac)
  let w := wrBs s ((safAddr c a).getD 0) bs
  have hw : BytesOnly s w ((safAddr c a).getD 0) n := by
    have h := BytesOnly.wrBs bs s ((safAddr c a).getD 0)
    rwa [leBytes_length] at h
  let t := landed w c (stepCtx s c) 2
  have hstore : exec (.sw c mode xi ty ac ofs) s = .next t :=
    (execSw_landedOn hr hm rfl (by rwa [accessFault_safety hc _ _ _ _ .store _ false])).trans
      (by rw [memWr_safety hc]; exact congrArg _ (hw.landedOn_eq ..))
  have hcorr : uncorr t c a n = false := by
    rw [uncorr_safety hc] at hu ⊢
    rwa [badIn, landed_bad, hw.bad]
  have hread : memRd t c a n = (bs, t) := by
    rw [memRd_safety hc, rdBs_landed]
    have h := rdBs_wrBs_same bs s ((safAddr c a).getD 0)
    rw [leBytes_length] at h
    rw [h]
  have hload := execLw_landedOn (s := t) (ac := ac) ((runs_landed ..).trans ((runs_wrBs ..).trans hr)) hm
    (effAddr_landed ..) (by rwa [accessFault_safety hc _ _ _ _ .store _ false]) hcorr hread
  rw [landedOn_self] at hload
  refine ⟨t, _, hstore, hload, ?_, hw.bytes, ?_, landed_mem .., ?_⟩
  · rw [landed_ctx, acc_loaded (tyExt_lt ..), leNat_leBytes_tySize]
  · exact (landed_regs ..).trans hw.regs
  · exact (landed_regs ..).trans ((landed_regs ..).trans hw.regs)

end Sys2Proof.Machine
end

section
/-!
PROOFS. Where the store of a logic core waits (R77, R78, R494): the store buffer and the posted path.
-/

namespace Sys2Proof.Machine

/-! ## The bits of an entry -/

/-- A bit of a value is Mathlib's. -/
theorem bitOf_eq_testBit (v n : Nat) : bitOf v n = v.testBit n := by
  rw [bitOf, Nat.testBit_eq_decide_div_mod_eq, Nat.shiftRight_eq_div_pow, Bool.beq_eq_decide_eq]

/-- The bits of a mask of `m` bits from bit `r`. -/
theorem bitOf_mask {m r j : Nat} (hj : j < m) : bitOf ((2 ^ m - 1) * 2 ^ r) (r + j) = true := by
  simp [bitOf_eq_testBit, Nat.testBit_mul_two_pow, hj]

/-- The bits of a value cut to `m` bits and put at bit `r`. -/
theorem bitOf_placed {m r j : Nat} (hj : j < m) (v : Nat) : bitOf (v % 2 ^ m * 2 ^ r) (r + j) = bitOf v j := by
  simp [bitOf_eq_testBit, Nat.testBit_mul_two_pow, Nat.testBit_mod_two_pow, hj]

/-- A bit that the mask has is the new one. -/
theorem bitOf_mixBits {mask i : Nat} (h : bitOf mask i = true) (old val : Nat) :
    bitOf (mixBits old mask val) i = bitOf val i := by
  rw [bitOf_eq_testBit] at h
  simp [mixBits, bitOf_eq_testBit, h]

/-- The bits that an entry holds of a store of `m` bits of `v` at bit `r`. -/
def Holds (e : SbEntry) (m r v : Nat) : Prop :=
  ∀ j, j < m → bitOf e.mask (r + j) = true ∧ bitOf e.val (r + j) = bitOf v j

/-! ## The store buffer -/

/-- A store to a word of the store buffer leaves an entry of the word that holds it, and changes nothing else. -/
theorem sbWrite_of_room {s : State} {c : Nat} (h : (getCore s c).sb.length < 16) (w m r v : Nat) (init : Bool) :
    ∃ l, sbWrite s c w ((2 ^ m - 1) * 2 ^ r) (v % 2 ^ m * 2 ^ r) init = setCore s c { getCore s c with sb := l } ∧
      ∃ e ∈ l, e.word = w ∧ Holds e m r v := by
  unfold sbWrite
  dsimp only
  split
  case isTrue hany =>
    obtain ⟨e, he, hw⟩ := List.any_eq_true.1 hany
    rw [beq_iff_eq] at hw
    refine ⟨_, rfl, _, List.mem_map.2 ⟨e, he, rfl⟩, ?_, fun j hj => ?_⟩
    · rw [if_pos hw]; exact hw
    · rw [if_pos hw]
      refine ⟨?_, (bitOf_mixBits (bitOf_mask hj) _ _).trans (bitOf_placed hj v)⟩
      have hbit := bitOf_mask (r := r) hj
      rw [bitOf_eq_testBit] at hbit
      simp [bitOf_eq_testBit, hbit]
  case isFalse =>
    refine ⟨_, rfl, _, List.mem_append_right _ (List.mem_singleton_self _), rfl, fun j hj => ⟨bitOf_mask hj, ?_⟩⟩
    rw [← bitOf_placed (r := r) hj v]
    have hbit := bitOf_mask (r := r) hj
    rw [bitOf_eq_testBit] at hbit
    simp [bitOf_eq_testBit, hbit]

/-- Bytes that lie in one word enter the store buffer with one entry. -/
theorem sbBytes_one {a : Nat} {bs : List Byte} (h0 : bs ≠ []) (h8 : a % 8 + bs.length ≤ 8) (s : State) (c n : Nat) :
    sbBytes (n + 2) s c a bs = sbWrite s c (a - a % 8) ((2 ^ (8 * bs.length) - 1) * 2 ^ (8 * (a % 8)))
      (leNat bs * 2 ^ (8 * (a % 8))) false := by
  rw [sbBytes, if_neg h0]
  dsimp only
  rw [List.take_of_length_le (by omega), List.drop_of_length_le (by omega), sbBytes, if_pos rfl]

/-- Bytes that lie in one word of a unit, or in 64 bytes of DDR4, enter the posted path with one entry. -/
theorem postBytes_one {a : Nat} {bs : List Byte} (h0 : bs ≠ []) (h8 : a % 8 + bs.length ≤ 8) (s : State) (c n : Nat) :
    postBytes (n + 2) s c a bs = postWrite s c a bs 0 := by
  rw [postBytes, if_neg (by simpa using h0)]
  dsimp only
  have hroom : bs.length ≤ if a < 0x03000000 then 64 - a % 64 else 8 - a % 8 := by split <;> omega
  rw [List.take_of_length_le hroom, List.drop_of_length_le hroom, postBytes, if_pos List.isEmpty_nil]

/-! ## SW on a logic core -/

/-- The bytes of a type are 1, 2, 4 or 8. -/
theorem tySize_cases (ty : Nat) : tySize ty = 1 ∨ tySize ty = 2 ∨ tySize ty = 4 ∨ tySize ty = 8 := by
  unfold tySize tyBits
  split <;> simp

/-- An access of a logic core that passes its checks is aligned. -/
theorem aligned_of_accessFault {c a n al : Nat} {u : Use} {b : Bool} (hc : c < 6) (h : accessFault c a n al u b = none) :
    a % al = 0 := by
  by_contra hal
  rw [accessFault, if_pos hc] at h
  split at h
  · cases h
  · rw [if_pos hal] at h; cases h

/-- The bytes of an aligned word of a type lie in one word of 8 bytes. -/
theorem tySize_fits {a ty : Nat} (h : a % tySize ty = 0) : a % 8 + tySize ty ≤ 8 := by
  obtain hs | hs | hs | hs := tySize_cases ty
  all_goals rw [hs] at h ⊢; omega

section
variable {s : State} {c mode xi ty ofs a : Nat} (hc : c < 6) (hr : runs s c = true) (hm : modeOk mode xi = true)
  (hadr : effAddr (stepCtx s c) mode xi (ofs * tySize ty) = a)
  (ha : accessFault c a (tySize ty) (tySize ty) .store (ty == 4) = none)
include hc hr hm hadr ha

omit hr hm hadr in
/-- The bytes of a store lie in one word. -/
theorem stored_fits (v : Nat) :
    leBytes (tySize ty) v ≠ [] ∧ a % 8 + (leBytes (tySize ty) v).length ≤ 8 ∧
      ∃ n, (leBytes (tySize ty) v).length + 1 = n + 2 := by
  have hfit := tySize_fits (aligned_of_accessFault hc ha)
  have hpos : 0 < (leBytes (tySize ty) v).length := by
    rw [leBytes_length]
    have := tySize_cases ty
    omega
  exact ⟨List.ne_nil_of_length_pos hpos, by rwa [leBytes_length], (leBytes (tySize ty) v).length - 1, by omega⟩

omit hr hm hadr in
/-- A store to DATA or RETAIN is one write to the store buffer. -/
theorem memWr_sb (v : Nat) (hlow : a < 0x01000000) :
    memWr s c a (leBytes (tySize ty) v) = sbWrite s c (a - a % 8) ((2 ^ (8 * tySize ty) - 1) * 2 ^ (8 * (a % 8)))
      (v % 2 ^ (8 * tySize ty) * 2 ^ (8 * (a % 8))) false := by
  obtain ⟨hne, hfit, n, hn⟩ := stored_fits hc ha v
  rw [memWr, if_pos hc, if_pos hlow, hn, sbBytes_one hne hfit, leNat_leBytes_tySize, leBytes_length, tySize_mul_eight]

omit hr hm hadr in
/-- A store to DDR4 or to a unit register is one posted write. -/
theorem memWr_posted (v : Nat) (hhigh : 0x01000000 ≤ a) :
    memWr s c a (leBytes (tySize ty) v) = postWrite s c a (leBytes (tySize ty) v) 0 := by
  obtain ⟨hne, hfit, n, hn⟩ := stored_fits hc ha v
  rw [memWr, if_pos hc, if_neg (Nat.not_lt.2 hhigh), hn, postBytes_one hne hfit]

/-- A store to DATA or RETAIN lands with its entry in the store buffer. -/
theorem execSw_sb (ac : Bool) (hlow : a < 0x01000000) (hroom : (getCore s c).sb.length < 16) :
    ∃ l, execSw c mode xi ty ac ofs s = .next (landed (setCore s c { getCore s c with sb := l }) c (stepCtx s c) 2) ∧
      ∃ e ∈ l, e.word = a - a % 8 ∧ Holds e (8 * tySize ty) (8 * (a % 8)) (acc (stepCtx s c) ac) := by
  obtain ⟨l, hl, he⟩ := sbWrite_of_room hroom (a - a % 8) (8 * tySize ty) (8 * (a % 8)) (acc (stepCtx s c) ac) false
  refine ⟨l, ?_, he⟩
  rw [execSw_landedOn hr hm hadr ha, memWr_sb hc ha _ hlow, hl]
  exact congrArg _ (landedOn_of_run (by rw [getCore_setCore_same]) _ _)

/-- A store to DDR4 or to a unit register lands with its posted write behind the others. -/
theorem execSw_posted (ac : Bool) (hhigh : 0x01000000 ≤ a) (hroom : (getCore s c).posted.length < 32) :
    execSw c mode xi ty ac ofs s = .next (landed (setCore s c { getCore s c with
      posted := (getCore s c).posted ++ [⟨a, leBytes (tySize ty) (acc (stepCtx s c) ac), s.ticks, 0⟩] })
        c (stepCtx s c) 2) := by
  rw [execSw_landedOn hr hm hadr ha, memWr_posted hc ha _ hhigh, postWrite]
  dsimp only
  rw [if_pos hroom]
  exact congrArg _ (landedOn_of_run (by rw [getCore_setCore_same]) _ _)

end

/-- An instruction of core `c` that lands on another content of its core leaves the rest of the state. -/
theorem landed_setCore_frame (s : State) (c : Nat) (v : Core) (k : Ctx) (n : Nat) :
    (landed (setCore s c v) c k n).mem = s.mem ∧ (landed (setCore s c v) c k n).regs = s.regs ∧
      (landed (setCore s c v) c k n).tsk = s.tsk ∧ (landed (setCore s c v) c k n).chn = s.chn ∧
      (∀ d, d ≠ c → getCore (landed (setCore s c v) c k n) d = getCore s d) ∧
      getCore (landed (setCore s c v) c k n) c = { v with ctx := withCyc k c n } := by
  refine ⟨by simp [landed], by simp [landed], by simp [landed], by simp [landed], fun d hd => ?_, ?_⟩
  · rw [landed, getCore_setCtx_other _ _ _ _ hd, getCore_setCore_other _ _ _ _ hd]
  · rw [landed, getCore_setCtx_same, getCore_setCore_same]

/-- Settles O14: the store is one entry, of the store buffer or of the posted path. -/
theorem storesWaitInOrder : Obligations.StoresWaitInOrder := by
  refine ⟨?buffered, ?posted⟩
  case buffered =>
    intro s c mode xi ty ofs ac hc hr hm _ n a hlow ha hroom
    obtain ⟨l, hexec, e, he, hw, hbits⟩ := execSw_sb hc hr hm rfl ha ac hlow hroom
    obtain ⟨hmem, hregs, htsk, hchn, hother, hsame⟩ :=
      landed_setCore_frame s c { getCore s c with sb := l } (stepCtx s c) 2
    refine ⟨_, hexec, hmem, hregs, htsk, hchn, hother, ?_, ?_, e, ?_, hw, hbits⟩
    all_goals rw [hsame]
    exact he
  case posted =>
    intro s c mode xi ty ofs ac hc hr hm _ n a hhigh ha hroom
    obtain ⟨hmem, hregs, htsk, hchn, hother, hsame⟩ := landed_setCore_frame s c { getCore s c with
      posted := (getCore s c).posted ++ [⟨a, leBytes n (acc (stepCtx s c) ac), s.ticks, 0⟩] } (stepCtx s c) 2
    refine ⟨_, execSw_posted hc hr hm rfl ha ac hhigh hroom, hmem, hregs, htsk, hchn, hother, ?_, ?_, ?_⟩
    all_goals rw [hsame]

end Sys2Proof.Machine
end

section
/-!
PROOFS. Integer arithmetic on patterns (R60): a pattern stands for its value modulo 2 to the power of the width, and V tells
whether the pattern of a result stands for the result.
-/

namespace Sys2Proof.Machine

/-! ## Patterns and what they stand for -/

/-- Twice the sign bit's weight is 2 to the power of the width. -/
theorem two_pow_eq_double {w : Nat} (hw : 0 < w) : 2 ^ w = 2 * 2 ^ (w - 1) := by
  rw [← pow_succ', Nat.sub_add_cancel hw]

/-- A signed reading and the pattern agree modulo 2 to the power of the width. -/
theorem sint_emod (w v : Nat) : sint w v % ((2 ^ w : Nat) : Int) = (v : Int) % ((2 ^ w : Nat) : Int) := by
  unfold sint
  split
  · rw [Int.sub_emod_right, Int.natCast_mod, Int.emod_emod]
  · rw [Int.natCast_mod, Int.emod_emod]

/-- A value of a type and the pattern agree modulo 2 to the power of the width. -/
theorem tyInt_emod (t v : Nat) :
    tyInt t v % ((2 ^ tyBits t : Nat) : Int) = (v : Int) % ((2 ^ tyBits t : Nat) : Int) := by
  unfold tyInt
  split
  · exact sint_emod ..
  · rw [Int.natCast_mod, Int.emod_emod]

/-- The pattern of what agrees with a natural number modulo 2 to the power of the width. -/
theorem pat_of_emod {w v : Nat} {i : Int} (h : i % ((2 ^ w : Nat) : Int) = (v : Int) % ((2 ^ w : Nat) : Int)) :
    pat w i = v % 2 ^ w := by
  rw [pat, h, ← Int.natCast_mod, Int.toNat_natCast]

/-- The pattern of an integer, as an integer. -/
theorem natCast_pat (w : Nat) (i : Int) : ((pat w i : Nat) : Int) = i % ((2 ^ w : Nat) : Int) :=
  Int.toNat_of_nonneg (Int.emod_nonneg _ (by positivity))

/-- A pattern lies below 2 to the power of its width. -/
theorem pat_lt (w : Nat) (i : Int) : pat w i < 2 ^ w := by
  have h := Int.emod_lt_of_pos i (Int.natCast_pos.2 (Nat.two_pow_pos w))
  rw [← natCast_pat] at h
  exact Int.ofNat_lt.1 h

/-- The range of a signed reading. -/
theorem sint_range {w : Nat} (hw : 0 < w) (v : Nat) :
    -((2 ^ (w - 1) : Nat) : Int) ≤ sint w v ∧ sint w v < ((2 ^ (w - 1) : Nat) : Int) := by
  have hm := Nat.mod_lt v (Nat.two_pow_pos w)
  have h2 := two_pow_eq_double hw
  unfold sint
  split <;> omega

/-- The pattern of an integer stands for the integer where it lies in the range of the width, and only there. -/
theorem sint_pat_iff {w : Nat} (hw : 0 < w) (i : Int) :
    sint w (pat w i) = i ↔ -((2 ^ (w - 1) : Nat) : Int) ≤ i ∧ i < ((2 ^ (w - 1) : Nat) : Int) := by
  constructor
  · intro h
    rw [← h]
    exact sint_range hw _
  · rintro ⟨hlo, hhi⟩
    have hdouble : ((2 ^ w : Nat) : Int) = 2 * ((2 ^ (w - 1) : Nat) : Int) := by exact_mod_cast two_pow_eq_double hw
    unfold sint
    rw [Nat.mod_eq_of_lt (pat_lt w i), natCast_pat]
    have hpat := natCast_pat w i
    obtain hneg | hpos := lt_or_ge i 0
    · have hmod : i % ((2 ^ w : Nat) : Int) = i + ((2 ^ w : Nat) : Int) := by
        rw [← Int.add_emod_right, Int.emod_eq_of_lt (by omega) (by omega)]
      split <;> omega
    · have hmod : i % ((2 ^ w : Nat) : Int) = i := Int.emod_eq_of_lt hpos (by omega)
      split <;> omega

/-- No signed overflow: the pattern stands for the result. -/
theorem sOvf_eq_false_iff {w : Nat} (hw : 0 < w) (i : Int) : sOvf w i = false ↔ sint w (pat w i) = i := by
  rw [sint_pat_iff hw]
  simp [sOvf]

/-- No loss in a type: the pattern stands for the result. -/
theorem noFit_eq_false_iff (t : Nat) (i : Int) : noFit t i = false ↔ tyInt t (pat (tyBits t) i) = i := by
  have hw : 0 < tyBits t := by unfold tyBits; split <;> decide
  cases ht : tySigned t with
  | true =>
    simp only [noFit, tyLo, tyHi, tyInt, ht, if_true, sint_pat_iff hw, Bool.or_eq_false_iff, decide_eq_false_iff_not]
    omega
  | false =>
    have hpos := Int.natCast_pos.2 (Nat.two_pow_pos (tyBits t))
    simp only [noFit, tyLo, tyHi, tyInt, ht, Bool.or_eq_false_iff, decide_eq_false_iff_not, Bool.false_eq_true, if_false]
    rw [Nat.mod_eq_of_lt (pat_lt _ i), natCast_pat, Int.emod_eq_iff hpos.ne']
    simp only [sub_self, dvd_zero, and_true, Int.natAbs_natCast]
    omega

/-! ## The operations of ALU -/

/-- The integer types of the ALU. -/
def IntType (t : Nat) : Prop := t = 3 ∨ t = 4 ∨ t = 5

section
variable {t : Nat} (ht : IntType t)
include ht

/-- The integer types take the integer functions. -/
theorem IntType.not_isFlt : isFlt t = false := by
  obtain rfl | rfl | rfl := ht <;> rfl

/-- The integer types have a width. -/
theorem IntType.tyBits_pos : 0 < tyBits t := by
  obtain rfl | rfl | rfl := ht <;> decide

/-- The signed types among them. -/
theorem IntType.signed (h4 : t ≠ 4) : tySigned t = true := by
  obtain rfl | rfl | rfl := ht
  · rfl
  · exact absurd rfl h4
  · rfl

/-- ADD of an integer type. -/
theorem aluAdd_int (a b : Nat) : aluAdd t a b = iAdd t a b := if_neg (by simp [ht.not_isFlt])
/-- SUB of an integer type. -/
theorem aluSub_int (a b : Nat) : aluSub t a b = iSub t a b := if_neg (by simp [ht.not_isFlt])
/-- MUL of an integer type. -/
theorem aluMul_int (a b : Nat) : aluMul t a b = iMul t a b := if_neg (by simp [ht.not_isFlt])
/-- DIV of an integer type. -/
theorem aluDiv_int (a b : Nat) : aluDiv t a b = iDiv t a b := if_neg (by simp [ht.not_isFlt])

end

/-- The sum is the pattern of the signed sum. -/
theorem iAdd_eq_pat (t a b : Nat) : (iAdd t a b).1 = pat (tyBits t) (sint (tyBits t) a + sint (tyBits t) b) := by
  rw [pat_of_emod (v := a + b), iAdd, ← Nat.add_mod]
  rw [Int.add_emod, sint_emod, sint_emod, ← Int.add_emod, Nat.cast_add]

/-- The difference of patterns wraps. -/
theorem iSub_eq_mod (t a : Nat) {b : Nat} (hb : b < 2 ^ tyBits t) :
    (iSub t a b).1 = (a + 2 ^ tyBits t - b) % 2 ^ tyBits t := by
  refine pat_of_emod ?_
  rw [Int.sub_emod, sint_emod, sint_emod, ← Int.sub_emod, Nat.cast_sub (by omega), Nat.cast_add, add_sub_right_comm,
    Int.add_emod_right]

/-- The product of patterns wraps. -/
theorem iMul_eq_mod (t a b : Nat) : (iMul t a b).1 = a * b % 2 ^ tyBits t := by
  refine pat_of_emod ?_
  rw [Int.mul_emod, tyInt_emod, tyInt_emod, ← Int.mul_emod, Nat.cast_mul]

/-- A value of a type stands for itself. -/
theorem noFit_tyInt (t v : Nat) : noFit t (tyInt t v) = false := by
  rw [noFit_eq_false_iff, tyInt_eq_tyInt_iff, pat_of_emod (tyInt_emod t v), Nat.mod_mod]

/-- 0 is a value of every type. -/
theorem tyLo_nonpos (t : Nat) : tyLo t ≤ 0 := by
  unfold tyLo
  split
  · exact Int.neg_nonpos_of_nonneg (Int.natCast_nonneg _)
  · exact le_rfl

/-- 0 is a value of every type. -/
theorem tyHi_nonneg (t : Nat) : 0 ≤ tyHi t := by
  unfold tyHi
  split <;> exact sub_nonneg.2 (mod_cast Nat.one_le_two_pow)

/-- The remainder toward zero lies between 0 and the dividend. -/
theorem tmod_between (a b : Int) : 0 ≤ a.tmod b ∧ a.tmod b ≤ a ∨ a ≤ a.tmod b ∧ a.tmod b ≤ 0 := by
  have habs := (Int.natAbs_tmod a b).trans_le (Nat.mod_le _ _)
  obtain h | h := le_total 0 a
  · have hpos := Int.tmod_nonneg b h
    omega
  · have hneg := Int.tmod_nonneg b (Int.neg_nonneg_of_nonpos h)
    rw [Int.neg_tmod] at hneg
    omega

/-- The remainder is a value of the type, so that its pattern stands for it. -/
theorem tyInt_iMod (t a b : Nat) : tyInt t (iMod t a b).1 = (tyInt t a).tmod (tyInt t b) := by
  refine (noFit_eq_false_iff t _).1 ?_
  have ha := noFit_tyInt t a
  have hlo := tyLo_nonpos t
  have hhi := tyHi_nonneg t
  have hbetween := tmod_between (tyInt t a) (tyInt t b)
  simp only [noFit, Bool.or_eq_false_iff, decide_eq_false_iff_not, not_lt] at ha ⊢
  omega

/-- Quotient and remainder toward zero make the dividend where the quotient fits. -/
theorem iDiv_mul_add_iMod {t a b : Nat} (hv : (iDiv t a b).2.v = false) :
    tyInt t (iDiv t a b).1 * tyInt t b + tyInt t (iMod t a b).1 = tyInt t a := by
  rw [tyInt_iMod, show tyInt t (iDiv t a b).1 = _ from (noFit_eq_false_iff t _).1 hv, Int.tdiv_mul_add_tmod]

/-- The least value of a width. -/
theorem sint_min {w : Nat} (hw : 0 < w) : sint w (2 ^ (w - 1)) = -((2 ^ (w - 1) : Nat) : Int) := by
  have h2 := two_pow_eq_double hw
  have hpos := Nat.two_pow_pos (w - 1)
  rw [sint, Nat.mod_eq_of_lt (by omega), if_pos (by omega), h2]
  push_cast
  ring

/-- The pattern of ones is −1. -/
theorem sint_ones {w : Nat} (hw : 0 < w) : sint w (2 ^ w - 1) = -1 := by
  have h2 := two_pow_eq_double hw
  have hpos := Nat.two_pow_pos (w - 1)
  rw [sint, Nat.mod_eq_of_lt (by omega), if_pos (by omega), Nat.cast_sub (by omega)]
  push_cast
  ring

/-- The minimum divided by −1 is the minimum, with V and no remainder. -/
theorem min_div_neg_one {t : Nat} (hw : 0 < tyBits t) (hs : tySigned t = true) :
    let q := iDiv t (2 ^ (tyBits t - 1)) (2 ^ tyBits t - 1)
    q.1 = 2 ^ (tyBits t - 1) ∧ q.2.v = true ∧ (iMod t (2 ^ (tyBits t - 1)) (2 ^ tyBits t - 1)).1 = 0 := by
  have hmin : tyInt t (2 ^ (tyBits t - 1)) = -((2 ^ (tyBits t - 1) : Nat) : Int) := by
    rw [tyInt, if_pos hs, sint_min hw]
  have hone : tyInt t (2 ^ tyBits t - 1) = -1 := by rw [tyInt, if_pos hs, sint_ones hw]
  have h2 := two_pow_eq_double hw
  have hpos := Nat.two_pow_pos (tyBits t - 1)
  simp only [iDiv, iMod, intFlags, hmin, hone, Int.tdiv_neg, Int.tdiv_one, Int.tmod_neg, Int.tmod_one, neg_neg]
  refine ⟨?_, ?_, by simp [pat]⟩
  · rw [pat_of_emod rfl, Nat.mod_eq_of_lt (by omega)]
  · simp [noFit, tyHi, hs]

/-! ## Shifts by the whole width -/

/-- A pattern divided by at least 2 to the power of its width is 0. -/
theorem mod_two_pow_div_of_le {w n : Nat} (h : w ≤ n) (a : Nat) : a % 2 ^ w / 2 ^ n = 0 :=
  Nat.div_eq_of_lt ((Nat.mod_lt _ (Nat.two_pow_pos w)).trans_le (Nat.pow_le_pow_right (by decide) h))

/-- Shifts by the width or more leave nothing, or the sign. -/
theorem shifts_of_le {t a n : Nat} (hw : 0 < tyBits t) (ha : a < 2 ^ tyBits t) (h : tyBits t ≤ n) :
    (iShl t a n).1 = 0 ∧ (iShr t a n).1 = 0 ∧
      (iSar t a n).1 = if 2 ^ (tyBits t - 1) ≤ a then 2 ^ tyBits t - 1 else 0 := by
  refine ⟨?_, mod_two_pow_div_of_le h a, ?_⟩
  · exact Nat.mod_eq_zero_of_dvd (Dvd.dvd.mul_left (Nat.pow_dvd_pow 2 h) _)
  · have hn : 2 ^ tyBits t ≤ 2 ^ n := Nat.pow_le_pow_right (by decide) h
    have h2 := two_pow_eq_double hw
    have hrange := sint_range hw a
    by_cases hneg : 2 ^ (tyBits t - 1) ≤ a
    · have hlt : sint (tyBits t) a < 0 := by
        rw [sint, Nat.mod_eq_of_lt ha, if_pos (by omega)]
        omega
      rw [if_pos hneg, iSar, Int.ediv_eq_neg_one_of_neg_of_le hlt (by omega), ← sint_ones hw,
        pat_of_emod (sint_emod ..), Nat.mod_eq_of_lt (by omega)]
    · have hge : 0 ≤ sint (tyBits t) a := by
        rw [sint, Nat.mod_eq_of_lt ha, if_neg (by omega)]
        omega
      rw [if_neg hneg, iSar, Int.ediv_eq_zero_of_lt hge (by omega)]
      simp [pat]

/-- A rotation by the width leaves the pattern. -/
theorem iRol_width {t a : Nat} (ha : a < 2 ^ tyBits t) : (iRol t a (tyBits t)).1 = a := by
  simp [iRol, Nat.mod_self, Nat.mod_eq_of_lt ha, Nat.div_eq_of_lt ha]

/-- Settles O18, operation by operation. -/
theorem integerResultsWrap : Obligations.IntegerResultsWrap := by
  intro t ht a b ha hb w
  have hw := IntType.tyBits_pos ht
  simp only [aluAdd_int ht, aluSub_int ht, aluMul_int ht, aluDiv_int ht]
  refine ⟨(Nat.add_mod ..).symm, iSub_eq_mod t a hb, iMul_eq_mod t a b, ?_, sOvf_eq_false_iff hw _,
    noFit_eq_false_iff t _, ?_, ?_, rfl, fun _ => iDiv_mul_add_iMod, fun h4 => min_div_neg_one hw (IntType.signed ht h4),
    fun n => shifts_of_le hw ha, iRol_width ha, rfl, rfl, rfl, rfl⟩
  · rw [iAdd_eq_pat]; exact sOvf_eq_false_iff hw _
  · simp only [iAdd, intFlags]; rw [Nat.mod_eq_of_lt ha, Nat.mod_eq_of_lt hb]
  · simp only [iSub, intFlags]; rw [Nat.mod_eq_of_lt ha, Nat.mod_eq_of_lt hb]

end Sys2Proof.Machine
end

section
/-!
PROOFS. The instructions that work on the registers of their core: each is done on the state it found, or faults.
-/

namespace Sys2Proof.Machine

/-- An instruction's outcome leaves the state it found: it changes its context, or faults. -/
def Out.Keeps (s : State) : Out → Prop
  | .done s1 _ _ => s1 = s
  | .fault s1 _ _ => s1 = s

/-- An answer on state `s` changes at most the context of core `c`, or is the state after a fault of that core. -/
def OwnContext (s : State) (c : Nat) (r : Res) : Prop :=
  ∀ t, r = .next t → t = s ∨ (∃ k, t = setCtx s c k) ∨ ∃ code addr, t = coreFault s c code addr

/-- An instruction whose outcome leaves the state changes its own context alone. -/
theorem runOn_ownContext {s : State} {c : Nat} {f : State → Ctx → Out} (h : (f s (stepCtx s c)).Keeps s) :
    OwnContext s c (runOn s c f) := by
  intro t ht
  cases hr : runs s c with
  | false =>
    rw [runOn_idle s c f hr, Host.Outcome.next.injEq] at ht
    exact .inl ht.symm
  | true =>
    cases hf : f s (stepCtx s c) with
    | done s1 k n =>
      obtain rfl : s1 = s := by rwa [hf] at h
      rw [runOn_landed hr hf, Host.Outcome.next.injEq] at ht
      exact .inr (.inl ⟨_, ht.symm⟩)
    | fault s1 code addr =>
      obtain rfl : s1 = s := by rwa [hf] at h
      rw [runOn_fault s1 s1 c f code addr hr hf, Host.Outcome.next.injEq] at ht
      exact .inr (.inr ⟨code, addr, ht.symm⟩)

section
variable {s : State} {c : Nat}

/-! ## Outcomes that leave the state -/

/-- A check that fails, and what follows one that holds. -/
theorem need_keeps {ok : Bool} {code addr : Nat} {f : Unit → Out} (h : (f ()).Keeps s) :
    (need ok s code addr f).Keeps s := by
  cases ok
  · rfl
  · exact h

/-- A jump. -/
theorem jumping_keeps {k : Ctx} {x : Int} {n : Nat} : (jumping s c k x n).Keeps s := need_keeps rfl

/-- A conditional jump. -/
theorem jumpIf_keeps {k : Ctx} {w ofs : Nat} {b : Bool} : (jumpIf s c k w ofs b).Keeps s := by
  cases b
  · exact rfl
  · exact jumping_keeps

/-- A call. -/
theorem calling_keeps {k : Ctx} {x : Int} {n : Nat} : (calling s k x n).Keeps s := need_keeps rfl

/-- The use of a timer cell. -/
theorem onCell_keeps {k : Ctx} {i ok : Bool} {xi rsv cell : Nat} {f : Nat → TCell → Out} (h : ∀ n v, (f n v).Keeps s) :
    (onCell s c k i xi rsv cell ok f).Keeps s := by
  unfold onCell
  exact need_keeps (need_keeps (h _ _))

/-! ## The shared forms -/

/-- A sub-operation of LBOP. -/
theorem lbop_ownContext (rsv : Nat) (f : Ctx → Ctx) : OwnContext s c (lbop c rsv f s) := runOn_ownContext (need_keeps rfl)

/-- A function of ALU. -/
theorem aluOp_ownContext (ty : Nat) (d : Bool) (ty2 rsv : Nat) (ok : Nat → Bool) (f : Nat → Nat → Nat → AluRes) (dz : Bool)
    (n : Nat) : OwnContext s c (aluOp c ty d ty2 rsv ok f dz n s) := runOn_ownContext (need_keeps (need_keeps rfl))

/-- A conversion. -/
theorem cvtOp_ownContext (ty : Nat) (d : Bool) (ty2 rsv : Nat) (ok rnd : Bool) :
    OwnContext s c (cvtOp c ty d ty2 rsv ok rnd s) := runOn_ownContext (need_keeps rfl)

/-- A function of XALU. -/
theorem xalu_ownContext (xd : Nat) (ok : Bool) (f : Ctx → Nat) : OwnContext s c (xalu c xd ok f s) :=
  runOn_ownContext (need_keeps rfl)

/-! ## Instructions with a body of their own -/

/-- BNX. -/
theorem execBnx_ownContext (rsv : Nat) : OwnContext s c (execBnx c rsv s) := by
  refine runOn_ownContext (need_keeps ?_)
  cases (stepCtx s c).br <;> rfl

/-- BCL. -/
theorem execBcl_ownContext (rsv : Nat) : OwnContext s c (execBcl c rsv s) := by
  refine runOn_ownContext (need_keeps ?_)
  cases (stepCtx s c).br <;> rfl

/-- RET. -/
theorem execRet_ownContext (rsv : Nat) : OwnContext s c (execRet c rsv s) := by
  refine runOn_ownContext (need_keeps ?_)
  cases (stepCtx s c).calls <;> rfl

/-! ## The families -/

/-- The sub-operations of LBOP without a branch stack. -/
theorem lbop_family (rsv : Nat) :
    ∀ m ∈ [execLbopNot, execLbopLb0, execLbopLb1, execLbw, execWlb], OwnContext s c (m c rsv s) := by
  simp only [List.forall_mem_cons, execLbopNot, execLbopLb0, execLbopLb1, execLbw, execWlb, lbop_ownContext, true_and]
  exact List.forall_mem_nil _

/-- The functions of ALU that have one shared form. -/
theorem alu_family (ty : Nat) (d : Bool) (ty2 rsv : Nat) :
    ∀ m ∈ [execAluAdd, execAluSub, execAluMul, execAluDiv, execAluMod, execAluNeg, execAluAbs, execAluMin, execAluMax,
      execAluSqrt, execAluAnd, execAluOr, execAluXor, execAluNot, execAluShl, execAluShr, execAluSar, execAluRol, execAluCvt,
      execAluTrunc, execAluMov, execAluClrw, execAluSextb, execAluSexth], OwnContext s c (m c ty d ty2 rsv s) := by
  simp only [List.forall_mem_cons, execAluAdd, execAluSub, execAluMul, execAluDiv, execAluMod, execAluNeg, execAluAbs,
    execAluMin, execAluMax, execAluSqrt, execAluAnd, execAluOr, execAluXor, execAluNot, execAluShl, execAluShr, execAluSar,
    execAluRol, execAluMov, execAluClrw, execAluSextb, execAluSexth, aluOp_ownContext, execAluCvt, execAluTrunc,
    cvtOp_ownContext, true_and]
  exact List.forall_mem_nil _

/-- The functions of XALU that write an index register. -/
theorem xalu_family (xd xs imm : Nat) :
    ∀ m ∈ [execXaluMov, execXaluAdd, execXaluSub, execXaluAnd, execXaluOr, execXaluShl, execXaluShr, execXaluAddi,
      execXaluFromwa], OwnContext s c (m c xd xs imm s) := by
  simp only [List.forall_mem_cons, execXaluMov, execXaluAdd, execXaluSub, execXaluAnd, execXaluOr, execXaluShl, execXaluShr,
    execXaluAddi, execXaluFromwa, xalu_ownContext, true_and]
  exact List.forall_mem_nil _

/-- BOP. -/
theorem execBop_ownContext (rsv : Nat) : OwnContext s c (execBop c rsv s) := runOn_ownContext (need_keeps (need_keeps rfl))
/-- TMRX LOADQ. -/
theorem execTmrxLoadq_ownContext (i : Bool) (xi unit rsv cell : Nat) : OwnContext s c (execTmrxLoadq c i xi unit rsv cell s) :=
  runOn_ownContext (onCell_keeps fun _ _ => rfl)
/-- TMRX ELAPSED. -/
theorem execTmrxElapsed_ownContext (i : Bool) (xi unit rsv cell : Nat) :
    OwnContext s c (execTmrxElapsed c i xi unit rsv cell s) := runOn_ownContext (onCell_keeps fun _ _ => rfl)
/-- SWP. -/
theorem execAluSwp_ownContext (ty : Nat) (d : Bool) (ty2 rsv : Nat) : OwnContext s c (execAluSwp c ty d ty2 rsv s) :=
  runOn_ownContext (need_keeps rfl)
/-- LDI. -/
theorem execLdi_ownContext (ac : Bool) (pos : Nat) (keep : Bool) (rsv imm : Nat) :
    OwnContext s c (execLdi c ac pos keep rsv imm s) := runOn_ownContext (need_keeps rfl)
/-- ADDI. -/
theorem execAddi_ownContext (ac w : Bool) (rsv imm : Nat) : OwnContext s c (execAddi c ac w rsv imm s) :=
  runOn_ownContext (need_keeps rfl)
/-- CMP. -/
theorem execCmp_ownContext (cond ty comb rsv : Nat) : OwnContext s c (execCmp c cond ty comb rsv s) :=
  runOn_ownContext (need_keeps rfl)
/-- LXI. -/
theorem execLxi_ownContext (xd : Nat) (hi keep : Bool) (rsv imm : Nat) : OwnContext s c (execLxi c xd hi keep rsv imm s) :=
  runOn_ownContext (need_keeps rfl)
/-- XALU TOWA. -/
theorem execXaluTowa_ownContext (xd xs imm : Nat) : OwnContext s c (execXaluTowa c xd xs imm s) :=
  runOn_ownContext (need_keeps rfl)
/-- JMP. -/
theorem execJmp_ownContext (ofs : Nat) : OwnContext s c (execJmp c ofs s) := runOn_ownContext jumping_keeps
/-- JLB. -/
theorem execJlb_ownContext (ofs : Nat) : OwnContext s c (execJlb c ofs s) := runOn_ownContext jumpIf_keeps
/-- JLBN. -/
theorem execJlbn_ownContext (ofs : Nat) : OwnContext s c (execJlbn c ofs s) := runOn_ownContext jumpIf_keeps
/-- JF. -/
theorem execJf_ownContext (fc ofs : Nat) : OwnContext s c (execJf c fc ofs s) := runOn_ownContext (need_keeps jumpIf_keeps)
/-- DJNZ. -/
theorem execDjnz_ownContext (xd ofs : Nat) : OwnContext s c (execDjnz c xd ofs s) := by
  unfold execDjnz
  refine runOn_ownContext ?_
  generalize (getX (stepCtx s c) xd + 2 ^ 32 - 1) % 2 ^ 32 = x
  exact jumpIf_keeps
/-- CALL. -/
theorem execCall_ownContext (ofs : Nat) : OwnContext s c (execCall c ofs s) := runOn_ownContext (need_keeps calling_keeps)
/-- CALLX. -/
theorem execCallx_ownContext (xi rsv : Nat) : OwnContext s c (execCallx c xi rsv s) :=
  runOn_ownContext (need_keeps (need_keeps (need_keeps (need_keeps calling_keeps))))
/-- NOP. -/
theorem execTaskNop_ownContext (rsv : Nat) : OwnContext s c (execTaskNop c rsv s) := runOn_ownContext (need_keeps rfl)

end

/-- Settles O21: every instruction of the list has one of the shared forms, or a body that leaves the state. -/
theorem registerInstructionsTouchTheirContext : Obligations.RegisterInstructionsTouchTheirContext := by
  intro s t c a b d e f g
  suffices hall : ∀ i ∈ _, OwnContext s c (exec i s) from fun i hi => hall i hi t
  have hlb := lbop_family (s := s) (c := c) a
  have halu := alu_family (s := s) (c := c) a f b d
  have hx := xalu_family (s := s) (c := c) a b d
  simp only [List.forall_mem_cons] at hlb halu hx ⊢
  obtain ⟨hnot, hlb0, hlb1, hlbw, hwlb, -⟩ := hlb
  obtain ⟨hadd, hsub, hmul, hdiv, hmod, hneg, habs, hmin, hmax, hsqrt, hand, hor, hxor, hinv, hshl, hshr, hsar, hrol, hcvt,
    htrunc, hmov, hclrw, hsextb, hsexth, -⟩ := halu
  obtain ⟨hxmov, hxadd, hxsub, hxand, hxor', hxshl, hxshr, hxaddi, hxfromwa, -⟩ := hx
  exact ⟨hnot, hlb0, hlb1, execBop_ownContext a, execBnx_ownContext a, execBcl_ownContext a, hlbw, hwlb,
    execTmrxLoadq_ownContext f a b d e, execTmrxElapsed_ownContext f a b d e, hadd, hsub, hmul, hdiv, hmod, hneg, habs, hmin,
    hmax, hsqrt, hand, hor, hxor, hinv, hshl, hshr, hsar, hrol, hcvt, htrunc, hmov, execAluSwp_ownContext a f b d, hclrw,
    hsextb, hsexth, execLdi_ownContext f a g b d, execAddi_ownContext f g a b, execCmp_ownContext a b d e,
    execLxi_ownContext a f g b d, hxmov, hxadd, hxsub, hxand, hxor', hxshl, hxshr, hxaddi, hxfromwa,
    execXaluTowa_ownContext a b d, execJmp_ownContext a, execJlb_ownContext a, execJlbn_ownContext a, execJf_ownContext a b,
    execCall_ownContext a, execRet_ownContext a, execDjnz_ownContext a b, execCallx_ownContext a b, execTaskNop_ownContext a,
    List.forall_mem_nil _⟩

end Sys2Proof.Machine
end

section
/-!
PROOFS. The release of a task (R45, R114): what its loop over the segments leaves.
-/

namespace Sys2Proof.Machine

/-! ## A loop that writes one entry per key -/

/-- The entries of a list of keys, written in order. -/
def putAll (g : Nat → Seg) (l : List Nat) (m : NMap Seg) : NMap Seg := l.foldl (fun m k => mput {} m k (g k)) m

/-- Each key written has its entry; another key's is as before. -/
theorem mget_putAll (g : Nat → Seg) (l : List Nat) (m : NMap Seg) (k : Nat) :
    mget (putAll g l m) k {} = if k ∈ l then g k else mget m k {} := by
  induction l generalizing m with
  | nil => simp [putAll]
  | cons a t ih =>
    have hstep : mget (putAll g (a :: t) m) k {} = if k ∈ t then g k else mget (mput {} m a (g a)) k {} := ih _
    rw [hstep]
    by_cases hk : k = a
    · subst hk; simp
    · rw [mget_mput_other ({} : Seg) {} m a k (g a) hk]
      simp only [List.mem_cons, hk, false_or]

/-! ## The segments of a released task -/

/-- A segment of a task at its release. -/
def freshSeg (s : State) (k : Nat) : Seg := { ph := .ready, ctx := entryCtx s k, ord := 1 }

/-- The loop of a release writes the segments and nothing else. -/
theorem forEach_freshSeg (l : List Nat) (s : State) (m : NMap Seg) :
    forEach l { s with tsk := { s.tsk with segs := m } } (fun s k => setSeg s k { ph := .ready, ctx := entryCtx s k, ord := 1 }) =
      { s with tsk := { s.tsk with segs := putAll (freshSeg s) l m } } := by
  induction l generalizing m with
  | nil => rfl
  | cons a t ih => exact ih (mput {} m a (freshSeg s a))

/-- The loop of a release, from the segments as they are. -/
theorem forEach_freshSeg_self (l : List Nat) (s : State) :
    forEach l s (fun s k => setSeg s k { ph := .ready, ctx := entryCtx s k, ord := 1 }) =
      { s with tsk := { s.tsk with segs := putAll (freshSeg s) l s.tsk.segs } } := forEach_freshSeg l s s.tsk.segs

/-- A task's state shown leaves the rest of the machine. -/
theorem taskStat_frame (s : State) (t : Nat) :
    (taskStat s t).tsk = s.tsk ∧ (taskStat s t).mem = s.mem ∧ (taskStat s t).cores = s.cores := by
  unfold taskStat
  split
  · exact ⟨rfl, rfl, rfl⟩
  · exact ⟨setF_tsk .., setF_mem .., setF_cores ..⟩

/-- The segments of a task are those with its number. -/
theorem div_four_of_mem_segsOf {s : State} {t k : Nat} (h : k ∈ segsOf s t) : k / 4 = t := by
  obtain ⟨j, hj, rfl⟩ := List.mem_map.1 h
  have hn : nSeg s t ≤ 4 := bits_lt _ R.TSK_T_CFG_NSEG.lsb 2
  have := List.mem_range.1 hj
  omega

/-- Settles O30, by the loop over the segments. -/
theorem releasedSegmentsAreReady : Obligations.ReleasedSegmentsAreReady := by
  intro s t u
  let s1 := setTask s t { getTask s t with live := true, relAt := now s, faulted := false, exec := 0 }
  have hu : u = taskStat (wrapF { s1 with tsk := { s1.tsk with segs := putAll (freshSeg s1) (segsOf s1 t) s1.tsk.segs } }
      R.TSK_T_RELS_COUNT 0 t) t :=
    congrArg (fun x => taskStat (wrapF x R.TSK_T_RELS_COUNT 0 t) t) (forEach_freshSeg_self (segsOf s1 t) s1)
  obtain ⟨htsk, hmem, hcores⟩ := taskStat_frame (wrapF { s1 with tsk := { s1.tsk with
    segs := putAll (freshSeg s1) (segsOf s1 t) s1.tsk.segs } } R.TSK_T_RELS_COUNT 0 t) t
  rw [← hu] at htsk hmem hcores
  have hseg (k : Nat) : getSeg u k = if k ∈ segsOf s t then freshSeg s k else getSeg s k := by
    rw [getSeg, htsk]
    exact mget_putAll ..
  have htask : getTask u t = { getTask s t with live := true, relAt := now s, faulted := false, exec := 0 } := by
    rw [getTask, htsk, wrapF, setF_tsk]
    exact mget_mput_same ({} : Task) s.tsk.tasks t { getTask s t with live := true, relAt := now s, faulted := false, exec := 0 }
  refine ⟨by rw [htask], by rw [htask], hmem, hcores, fun k hk => ?_, fun k hk => ?_⟩
  · rw [hseg, if_pos hk, freshSeg, entryCtx]
  · rw [hseg, if_neg fun h => hk (div_four_of_mem_segsOf h)]

end Sys2Proof.Machine
end

section
/-!
PROOFS. What the reports of a unit leave as they are (R475 to R480), and the engine trip of the safety engine (R261).
-/

namespace Sys2Proof.Machine

/-! ## Reports: registers, event entries, condition records, the trigger of the trace -/

/-- From `s` to `t` at most registers, the event queues of tasks and the held entries, the write queue of the recorder and
the trace changed: what a unit does where it shows, latches and records. -/
def Reports (s t : State) : Prop :=
  ∃ r k l q d c, t = { s with regs := r, tsk := { s.tsk with tasks := k, held := l }, recQ := q, recDrop := d, trc := c }

namespace Reports

variable {s t u : State}

/-- Nothing reported. -/
theorem refl (s : State) : Reports s s := ⟨s.regs, s.tsk.tasks, s.tsk.held, s.recQ, s.recDrop, s.trc, rfl⟩

/-- One report after another. -/
theorem trans (h1 : Reports s t) (h2 : Reports t u) : Reports s u := by
  obtain ⟨r1, k1, l1, q1, d1, c1, rfl⟩ := h1
  obtain ⟨r, k, l, q, d, c, rfl⟩ := h2
  exact ⟨r, k, l, q, d, c, rfl⟩

/-- Either report. -/
theorem ite {p : Prop} [Decidable p] (h1 : Reports s t) (h2 : Reports s u) : Reports s (if p then t else u) := by
  split
  · exact h1
  · exact h2

/-- A register word. -/
theorem setRegW (f : Fld) (i k v : Nat) : Reports s (setRegW s f i k v) :=
  ⟨_, s.tsk.tasks, s.tsk.held, s.recQ, s.recDrop, s.trc, rfl⟩

/-- A register field. -/
theorem setF (f : Fld) (v i k : Nat) : Reports s (setF s f v i k) := setRegW ..

/-- A task's run. -/
theorem setTask (n : Nat) (v : Task) : Reports s (setTask s n v) :=
  ⟨s.regs, _, s.tsk.held, s.recQ, s.recDrop, s.trc, rfl⟩

/-- A record request. -/
theorem recPush (r : RecReq) : Reports s (recPush s r) :=
  ite ⟨s.regs, s.tsk.tasks, s.tsk.held, _, s.recDrop, s.trc, rfl⟩
    (trans ⟨s.regs, s.tsk.tasks, s.tsk.held, s.recQ, s.recDrop + 1, s.trc, rfl⟩ (setF ..))

/-- A code in UNIT_ERR with its record. -/
theorem unitErrAt (b : Blk) (i code src : Nat) (d : List Byte) : Reports s (unitErrAt s b i code src d) :=
  trans (ite (setF ..) (setF ..)) (recPush _)

/-- A code in UNIT_ERR with its record. -/
theorem unitErr (b : Blk) (i code : Nat) : Reports s (unitErr s b i code) := unitErrAt ..

/-- Bits latched, with their event entry. -/
theorem latchN (n : Nat) (b : Blk) (i m : Nat) : Reports s (latchN n s b i m) := by
  induction n generalizing s b i m with
  | zero => exact setF ..
  | succ n ih =>
    unfold Machine.latchN
    have hlat : Reports s (latBits s b i m) := setF ..
    refine ite hlat (ite (ite (ite ?_ ?_) hlat) (ite hlat ?_))
    · exact (hlat.trans (setTask ..)).trans (setF ..)
    · exact ((hlat.trans (setTask ..)).trans (unitErr ..)).trans (ih ..)
    · exact hlat.trans ⟨_, _, _, _, _, _, rfl⟩

/-- The end of a recording. -/
theorem trcDone : Reports s (trcDone s) := ((setF ..).trans (setF ..)).trans (latchN ..)

/-- The trigger of the trace. -/
theorem trcFire : Reports s (trcFire s) := by
  unfold Machine.trcFire
  refine ite (refl s) (ite (ite (refl s) ?_) (ite (refl s) ?_))
  · have hpost : Reports s (Machine.latchN 2
        { Machine.setF (Machine.setF s R.TRC_TRIGPOS_IDX (getF s R.TRC_WR_IDX)) R.TRC_STAT_STATE 2 with
          trc := { s.trc with post := getF s R.TRC_POST_VAL } } .trc 0 1) :=
      ((setF ..).trans (setF ..)).trans (trans ⟨_, _, _, _, _, _, rfl⟩ (latchN ..))
    exact ite (hpost.trans trcDone) hpost
  · exact trans ⟨_, _, _, _, _, _, rfl⟩ (((setF ..).trans (setF ..)).trans (latchN ..))

/-- Momentary conditions of a block. -/
theorem latch (b : Blk) (i m : Nat) : Reports s (latch s b i m) :=
  ite ((latchN ..).trans (ite trcFire (refl _))) (latchN ..)

/-- A level condition. -/
theorem level (b : Blk) (i n : Nat) (on : Bool) : Reports s (level s b i n on) :=
  ite (refl s) (ite ((setF ..).trans (latch ..)) (setF ..))

/-- What a report leaves as it is. -/
theorem frame (h : Reports s t) :
    t.mem = s.mem ∧ t.cores = s.cores ∧ t.saf = s.saf ∧ t.gens = s.gens ∧ t.chn = s.chn ∧ t.mram = s.mram := by
  obtain ⟨r, k, l, q, d, c, rfl⟩ := h
  exact ⟨rfl, rfl, rfl, rfl, rfl, rfl⟩

end Reports

/-! ## The engine trip (R261) -/

/-- A group that has no decided state and no pending cause. -/
def GrpCleared (s : State) (g : Nat) : Prop := (getGrp s g).next = none ∧ (getGrp s g).ev = 0

/-- What an engine trip does to one group: nothing decided or pending, in STO, with cause 7. -/
def tripGroup (s : State) (g : Nat) : State :=
  addCause (setGState (setGrp s g { getGrp s g with next := none, ev := 0 }) g 2) g 0x80 0

/-- A cause latched. -/
theorem Reports.addCause {s : State} (g m i : Nat) : Reports s (addCause s g m i) :=
  ite (refl s) (ite (setF ..)
    ((((((setF ..).trans (setF ..)).trans (setF ..)).trans (setF ..)).trans (setF ..))))

/-- A group's state shown. -/
theorem Reports.setGState {s : State} (g code : Nat) : Reports s (setGState s g code) :=
  ((setF ..).trans (setF ..)).trans (setF ..)

/-- Beside the group, a trip of it leaves memory, the cores, the image and the profile channels. -/
theorem tripGroup_frame (s : State) (g : Nat) :
    (tripGroup s g).mem = s.mem ∧ (tripGroup s g).cores = s.cores ∧ (tripGroup s g).saf.img = s.saf.img ∧
      GrpCleared (tripGroup s g) g ∧ ∀ h, GrpCleared s h → GrpCleared (tripGroup s g) h := by
  have hrep : Reports (setGrp s g { getGrp s g with next := none, ev := 0 }) (tripGroup s g) :=
    (Reports.setGState g 2).trans (Reports.addCause g 0x80 0)
  obtain ⟨hmem, hcores, hsaf, -⟩ := hrep.frame
  have hsame : getGrp (tripGroup s g) g = { getGrp s g with next := none, ev := 0 } := by
    rw [getGrp, hsaf]
    exact mget_mput_same ..
  refine ⟨hmem, hcores, (congrArg SafSt.img hsaf).trans rfl, ?_, fun h hc => ?_⟩
  · rw [GrpCleared, hsame]; exact ⟨rfl, rfl⟩
  · by_cases hg : h = g
    · rw [hg, GrpCleared, hsame]; exact ⟨rfl, rfl⟩
    · have hother : getGrp (tripGroup s g) h = getGrp s h := by
        rw [getGrp, hsaf]
        exact mget_mput_other ({} : Grp) {} s.saf.groups g h _ hg
      rwa [GrpCleared, hother]

/-- The trip of several groups. -/
theorem forEach_tripGroup (l : List Nat) (s : State) :
    (forEach l s tripGroup).mem = s.mem ∧ (forEach l s tripGroup).cores = s.cores ∧
      (forEach l s tripGroup).saf.img = s.saf.img ∧ ∀ h, h ∈ l ∨ GrpCleared s h → GrpCleared (forEach l s tripGroup) h := by
  induction l generalizing s with
  | nil => exact ⟨rfl, rfl, rfl, fun h hc => by simpa [forEach] using hc⟩
  | cons g t ih =>
    obtain ⟨hmem, hcores, himg, hself, hothers⟩ := tripGroup_frame s g
    obtain ⟨tmem, tcores, timg, tclear⟩ := ih (tripGroup s g)
    have hcons : forEach (g :: t) s tripGroup = forEach t (tripGroup s g) tripGroup := List.foldl_cons ..
    rw [hcons]
    refine ⟨tmem.trans hmem, tcores.trans hcores, timg.trans himg, fun h hc => tclear h ?_⟩
    obtain hin | hc := hc
    · obtain rfl | hin := List.mem_cons.1 hin
      · exact .inr hself
      · exact .inl hin
    · exact .inr (hothers h hc)

/-- Every entry of a map made anew is one that the function gives. -/
theorem mget_mmap {α : Type} [DecidableEq α] {d : α} {f : Nat → α → α} {P : α → Prop} (hd : P d) (hf : ∀ k v, P (f k v))
    (m : NMap α) (k : Nat) : P (mget (mmap d f m) k d) := by
  suffices h : ∀ (l : NMap α) (acc : NMap α), (∀ k, P (mget acc k d)) →
      ∀ k, P (mget (l.foldl (fun acc p => mput d acc p.1 (f p.1 p.2)) acc) k d) from h m [] (fun _ => hd) k
  intro l
  induction l with
  | nil => exact fun _ h => h
  | cons p t ih =>
    refine fun acc h => ih _ fun k => ?_
    by_cases hk : k = p.1
    · rw [hk, mget_mput_same]; exact hf _ _
    · rw [mget_mput_other d d acc p.1 k _ hk]; exact h k

/-- No profile channel is locked after all are unlocked. -/
theorem lock_unlockAll (s : State) (k : Nat) : (mget (unlockAll s).gens k {}).lock = false :=
  mget_mmap (d := ({} : Gen)) (f := fun _ g => { g with lock := false }) (P := fun g => g.lock = false) rfl
    (fun _ _ => rfl) s.gens k

/-- What an engine trip shows before it acts on the groups: the enables dropped, TRIP, SAF in FAULT. -/
def tripShown (s : State) (code info : Nat) : State :=
  let s1 := unitErr (setF (setF s R.SAF_ENG_EN_A 0) R.SAF_ENG_EN_B 0) .saf 0 (0x0800 + code)
  let s2 := setF (setF s1 R.SAF_TRIP_CODE (0x0800 + code)) R.SAF_TRIP_INFO_INFO info
  setF (setF (setSt s2 .saf 0 stFAULT) (hBusy .saf) 0) R.SAF_ENG_ACTIVE 0

/-- What is shown is a report. -/
theorem Reports.tripShown {s : State} (code info : Nat) : Reports s (tripShown s code info) :=
  ((((((setF ..).trans (setF ..)).trans (unitErr ..)).trans ((setF ..).trans (setF ..))).trans (setF ..)).trans
    (setF ..)).trans (setF ..)

/-- The safety task stopped on both cores; `s` is the state in which the trip arose. -/
def safStopped (s x : State) : State :=
  let (av, s4) := pick x
  let s5 := { s4 with saf := { s4.saf with busyA := false, busyB := false, pend := false, tripAt := some (now s), chk := av,
                                           wasTg := getF s R.SAF_GSTATE_TG, wasSs1 := getF s R.SAF_GPHASE_SS1 } }
  setCore (setCore s5 6 { getCore s5 6 with mode := .stopped }) 7 { getCore s5 7 with mode := .stopped }

/-- The stop of the safety task leaves the registers of both cores and the other cores. -/
theorem getCore_safStopped (s x : State) (c : Nat) :
    getCore (safStopped s x) c = if c = 6 ∨ c = 7 then { getCore x c with mode := .stopped } else getCore x c := by
  unfold safStopped
  dsimp only
  by_cases h7 : c = 7
  · subst h7; exact getCore_setCore_same ..
  · rw [getCore_setCore_other _ _ _ _ h7]
    by_cases h6 : c = 6
    · subst h6; exact getCore_setCore_same ..
    · rw [getCore_setCore_other _ _ _ _ h6, if_neg (by omega)]
      rfl

/-- An engine trip in RUN, part by part. -/
theorem engineTrip_eq {s : State} (h : inRun s .saf = true) (code info : Nat) :
    engineTrip s code info = level (tripLevel (unlockAll (safStopped s
      (forEach (grpList (tripShown s code info)) (tripShown s code info) tripGroup)))) .saf 0 1 true := by
  rw [engineTrip, if_neg (by simp [h])]
  unfold safStopped tripShown tripGroup
  dsimp only [pick]

/-- Settles O42, from the parts of the trip. -/
theorem engineTripStopsTheSafetyCores : Obligations.EngineTripStopsTheSafetyCores := by
  intro s code info hcode hrun
  obtain ⟨smem, score, ssaf, -⟩ := (Reports.tripShown (s := s) code (info % 2 ^ 32)).frame
  obtain ⟨gmem, gcore, gimg, gclear⟩ :=
    forEach_tripGroup (grpList (tripShown s code (info % 2 ^ 32))) (tripShown s code (info % 2 ^ 32))
  generalize hx : forEach (grpList (tripShown s code (info % 2 ^ 32))) (tripShown s code (info % 2 ^ 32)) tripGroup = x at *
  have hgrps : grpList (tripShown s code (info % 2 ^ 32)) = grpList s := by rw [grpList, ssaf, grpList]
  have heq := engineTrip_eq hrun code (info % 2 ^ 32)
  rw [hx] at heq
  have hrep : Reports (unlockAll (safStopped s x)) (engineTrip s code (info % 2 ^ 32)) := by
    rw [heq]; exact (Reports.level ..).trans (Reports.level ..)
  obtain ⟨tmem, tcores, tsaf, tgens, -⟩ := hrep.frame
  have hcore (c : Nat) : getCore (engineTrip s code (info % 2 ^ 32)) c =
      if c = 6 ∨ c = 7 then { getCore s c with mode := .stopped } else getCore s c := by
    have hs : getCore x c = getCore s c := by rw [getCore, gcore, score, getCore]
    rw [← hs, ← getCore_safStopped s x c, getCore, tcores]
    rfl
  refine ⟨_, if_pos hcode, tmem.trans (gmem.trans smem), fun c hc => ?_, fun c h6 h7 => ?_, ?_, ?_, ?_, fun g hg => ?_,
    fun k => ?_⟩
  · rw [hcore, if_pos hc]
  · rw [hcore, if_neg (by omega)]
  · rw [tsaf]; rfl
  · rw [tsaf]; rfl
  · rw [tsaf]; rfl
  · have hc : GrpCleared x g := gclear g (.inl (hgrps ▸ hg))
    rwa [getGrp, tsaf]
  · rw [tgens]; exact lock_unlockAll _ k

end Sys2Proof.Machine
end

section
/-!
PROOFS. Event bits (R476 to R480) and UNIT_ERR (R475).
-/

namespace Sys2Proof.Machine

/-! ## Bits latched -/

/-- The bits of a mask that EVT_LAT does not have yet and that are enabled. -/
def firing (s : State) (b : Blk) (i m : Nat) : Nat := (m ^^^ (m &&& getF s (hLat b) i)) &&& getF s (hEn b) i

/-- The event entry of these bits. -/
def firedEntry (s : State) (b : Blk) (i m : Nat) : EvEntry :=
  { source := b.code + 256 * (if b.rep then i else 0x1FF), tag := getF s (hTag b) i, stamp := now s, cond := firing s b i m }

section
variable {s : State} {b : Blk} {i m t : Nat} (n : Nat)

/-- No new bit, or none that is enabled: the bits alone. -/
theorem latchN_of_no_fire (h : firing s b i m = 0) :
    latchN (n + 1) s b i m = latBits s b i m := by
  rw [latchN]
  exact if_pos h

variable (h : firing s b i m ≠ 0)
include h

/-- Cyclic tasks are released, and the event's task is not in the image: the bits alone. -/
theorem latchN_of_no_task (hr : s.tsk.rel = true) (ht : hasTask (latBits s b i m) (8 + getF s (hUser b) i) = false) :
    latchN (n + 1) s b i m = latBits s b i m := by
  rw [latchN]
  exact (if_neg h).trans ((if_pos hr).trans (if_neg (by simp [ht])))

/-- Cyclic tasks are released, and the queue of the event's task has room: the entry is its last. -/
theorem latchN_of_room (ht : 8 + getF s (hUser b) i = t) (hr : s.tsk.rel = true)
    (hh : hasTask (latBits s b i m) t = true) (hq : (getTask s t).evq.length < 16) :
    latchN (n + 1) s b i m = setF (setTask (latBits s b i m) t { getTask s t with
      evq := (getTask s t).evq ++ [{ firedEntry s b i m with dropped := (getTask s t).evDrop }],
      evDrop := 0 }) R.TSK_T_STAT_QLEN ((getTask s t).evq.length + 1) 0 t := by
  subst ht
  rw [latchN]
  exact (if_neg h).trans ((if_pos hr).trans ((if_pos hh).trans (if_pos hq)))

/-- Cyclic tasks are released, and the queue of the event's task is full: the entry is dropped, counted and recorded. -/
theorem latchN_of_full (ht : 8 + getF s (hUser b) i = t) (hr : s.tsk.rel = true)
    (hh : hasTask (latBits s b i m) t = true) (hq : 16 ≤ (getTask s t).evq.length) :
    latchN (n + 1) s b i m = latchN n (unitErr (setTask (latBits s b i m) t { getTask s t with
      evDrop := sat 65535 ((getTask s t).evDrop + 1) }) .tsk 0 0x0316) .tsk 0 4 := by
  subst ht
  rw [latchN]
  exact (if_neg h).trans ((if_pos hr).trans ((if_pos hh).trans (if_neg (Nat.not_lt.2 hq))))

omit h in
/-- The held bits of a latch for which no entry is held. -/
theorem heldBits_of_none {la : Nat} {l : List HeldEv} (hl : ∀ x ∈ l, x.lat ≠ la) :
    l.foldl (fun acc x => if x.lat = la then acc ||| x.entry.cond else acc) 0 = 0 := by
  induction l with
  | nil => rfl
  | cons x t ih =>
    rw [List.foldl_cons, if_neg (hl x List.mem_cons_self)]
    exact ih fun y hy => hl y (List.mem_cons_of_mem _ hy)

/-- No cyclic task is released, and no entry of the register is held: the entry is held. -/
theorem latchN_of_held (hr : s.tsk.rel = false) (hheld : ∀ x ∈ s.tsk.held, x.lat ≠ (hLat b).addr i 0) :
    latchN (n + 1) s b i m = { latBits s b i m with tsk := { (latBits s b i m).tsk with held := (latBits s b i m).tsk.held ++
      [⟨(hLat b).addr i 0, 8 + getF s (hUser b) i, firedEntry s b i m⟩] } } := by
  rw [latchN]
  refine (if_neg h).trans ((if_neg (by simp [hr])).trans ?_)
  dsimp only
  rw [heldBits_of_none hheld, Nat.and_zero, Nat.xor_zero]
  exact if_neg h

end

/-- A latch of a block, in a loop context with the trigger of the trace. -/
theorem exec_eventLatch {s : State} {b : Blk} {i m : Nat} (hi : i < copies s b) (hm : m < 2 ^ 32) {x : State}
    (hx : latchN 2 s b i m = x) : exec (.eventLatch b i m) s =
      .next (if b = .loopCtx then trcEvent x i (m ^^^ (m &&& getF s (hLat b) i)) else x) := by
  subst hx
  refine (congrArg Host.Outcome.next (if_pos hi) : execEventLatch b i m s = _).trans ?_
  rw [Nat.mod_eq_of_lt hm, latch]

/-- A field of 32 bits as its register holds it. -/
theorem getF_hLat_setF (s : State) (b : Blk) (i v : Nat) (hv : v < 2 ^ 32) : getF (setF s (hLat b) v i) (hLat b) i = v :=
  (getF_setF_same s (hLat b) v i 0 (Nat.le_refl 32)).trans (Nat.mod_eq_of_lt hv)

/-- Settles O34, by what the queue of the event's task is. -/
theorem eventsLatchAndClear : Obligations.EventsLatchAndClear := by
  intro s b i m hi hm old s1 fire t post e
  refine ⟨fun h => ?_, fun h hr ht hq => ?_, fun h hr ht hq => ?_, fun h hr ht => ?_, fun h hr hh => ?_, ?_⟩
  · exact exec_eventLatch hi hm (latchN_of_no_fire 1 h)
  · exact exec_eventLatch hi hm (latchN_of_room 1 h rfl hr ht hq)
  · exact exec_eventLatch hi hm (latchN_of_full 1 h rfl hr ht hq)
  · exact exec_eventLatch hi hm (latchN_of_no_task 1 h hr ht)
  · exact exec_eventLatch hi hm (latchN_of_held 1 h hr hh)
  · intro again s2
    have hw : exec (.evtLatWrite b i m) s = .next (if again = 0 then s2 else latch s2 b i again) := by
      refine (congrArg Host.Outcome.next (if_pos hi) : execEvtLatWrite b i m s = _).trans ?_
      rw [evtLatWrite, Nat.mod_eq_of_lt hm]
    refine ⟨fun h => ⟨by rw [hw, if_pos h], getF_hLat_setF s b i _ ?_⟩, fun h => by rw [hw, if_neg h]⟩
    exact Nat.and_le_left.trans_lt (bits_lt _ 0 32)

end Sys2Proof.Machine
end

section
/-!
PROOFS. UNIT_ERR (R475, Table MAP-5): the register of a block copy, its first code, OVR, and the read that clears it.
-/

namespace Sys2Proof.Machine

/-! ## The register of a copy -/

/-- A block has at most the copies of the HX7-P64. -/
theorem copies_le_count (s : State) (b : Blk) : copies s b ≤ b.count := by
  have hport : nPort s ≤ 64 := by unfold nPort; split <;> decide
  have haxis : nAxis s ≤ 64 := by unfold nAxis; split <;> decide
  cases b
  case lnkPort => exact hport
  case vaxAx => exact haxis
  all_goals exact le_rfl

section
variable {s : State} {b : Blk} {i : Nat} (hi : i < copies s b)
include hi

/-- The address of UNIT_ERR of a copy. -/
theorem blkAt_unitErr : blkAt (b.base + i * b.step + 0x0C) = some (b, i, 0x0C) := by
  have hcount := hi.trans_le (copies_le_count s b)
  cases hr : b.rep with
  | true => exact blkAt_copy hr hcount (by cases b <;> simp [Blk.rep, Blk.step] at hr ⊢)
  | false =>
    have hone : b.count = 1 := by cases b <;> simp [Blk.rep, Blk.step] at hr <;> rfl
    obtain rfl : i = 0 := by omega
    have hext : 0x10 ≤ b.extent := by cases b <;> decide
    have hfind := find_block_of_mem_extent (b := b) (a := b.base + 0 * b.step + 0x0C) (by omega) (by omega)
    simp [blkAt] at hfind ⊢
    simp [hfind, hr]

/-- UNIT_ERR lies outside the banks and tables of the loop engine. -/
theorem isLoopMem_unitErr : isLoopMem (b.base + i * b.step + 0x0C) = false := by
  have hcount := hi.trans_le (copies_le_count s b)
  rw [isLoopMem_eq_false_iff]
  cases b <;> simp only [Blk.base, Blk.step, Blk.count] at hcount ⊢ <;> omega

/-- Every copy that the variant has has its UNIT_ERR. -/
theorem absentReg_unitErr : absentReg s b i 0x0C = false := by
  simp [absentReg, hi]

/-- UNIT_ERR by its address. -/
theorem wordAt_unitErr (t : State) : wordAt t (b.base + i * b.step + 0x0C) = regW t (hErr b) i 0 := by
  have hreset : rstWord b 0x0C = (hErr b).reset 0 := by cases b <;> decide
  rw [wordAt, blkAt_unitErr hi, regW, ← hreset]
  rfl

/-- A read of UNIT_ERR returns the register and clears it whole. -/
theorem regRead_unitErr : regRead s (b.base + i * b.step + 0x0C) =
    (regW s (hErr b) i 0, setRegW s (hErr b) i 0 (b.code * 256)) := by
  have hal : (b.base + i * b.step + 0x0C) / 4 * 4 = b.base + i * b.step + 0x0C := by
    cases b <;> simp only [Blk.base, Blk.step] <;> omega
  have hlatch : readLatch s b 0x0C = s := by simp [readLatch]
  have hview (w : Nat) : viewWord s b i 0x0C w = w := by cases b <;> rfl
  rw [regRead, isLoopMem_unitErr hi, blkAt_unitErr hi]
  simp only [Bool.false_eq_true, if_false, Nat.reduceDiv, Nat.reduceMul, absentReg_unitErr hi, hlatch, hal, hview,
    wordAt_unitErr hi]
  rw [if_neg (by decide), Nat.mod_eq_of_lt (regW_lt ..)]
  rfl

end

/-! ## Codes recorded -/

/-- A code recorded while the write queue has room: UNIT_ERR shows it, and one request more waits. -/
theorem unitErr_of_room {s : State} (b : Blk) (i c : Nat) (h : s.recQ.length < 64) :
    (unitErr s b i c).regs = (errShow s b i c).regs ∧ (unitErr s b i c).recQ.length = s.recQ.length + 1 := by
  have hq : (errShow s b i c).recQ = s.recQ := by unfold errShow; split <;> exact setF_recQ ..
  rw [unitErr, unitErrAt, recCond, recPush, hq, if_pos h]
  exact ⟨rfl, List.length_append⟩

/-- A field read where the registers are the same. -/
theorem getF_of_regs_eq {s t : State} (h : t.regs = s.regs) (f : Fld) (i k : Nat) : getF t f i k = getF s f i k := by
  rw [getF, regW, h, getF, regW]

/-- UNIT_ERR.CODE of a register that holds the unit byte alone. -/
theorem getF_hErr_cleared (s : State) (b : Blk) (i : Nat) :
    getF (setRegW s (hErr b) i 0 (b.code * 256)) (hErr b) i % 256 = 0 := by
  rw [getF, regW_setRegW_same, bits]
  cases b <;> decide

/-- The first code stands in UNIT_ERR. -/
theorem getF_errShow_first {s : State} {b : Blk} {i c : Nat} (h : getF s (hErr b) i % 256 = 0) (hc : c < 2 ^ 16) :
    getF (errShow s b i c) (hErr b) i = c := by
  rw [errShow, if_pos h, getF_setF_same _ _ _ _ _ (by simp [hErr])]
  exact Nat.mod_eq_of_lt hc

/-- A further code leaves the first and sets OVR. -/
theorem getF_errShow_further {s : State} {b : Blk} {i : Nat} (h : getF s (hErr b) i % 256 ≠ 0) (c : Nat) :
    getF (errShow s b i c) (hErr b) i = getF s (hErr b) i ∧ getF (errShow s b i c) (hOvr b) i = 1 := by
  rw [errShow, if_neg h]
  exact ⟨getF_setF_disjoint s (hOvr b) (hErr b) 1 i 0 i 0 rfl rfl (by simp [hOvr]) (.inl (by simp [hErr, hOvr])),
    getF_setF_same s (hOvr b) 1 i 0 (by simp [hOvr])⟩

/-- Settles O35, by the read of the register and two codes recorded after it. -/
theorem unitErrorsAreKeptUntilRead : Obligations.UnitErrorsAreKeptUntilRead := by
  intro s b i hi a
  have hread : regRead s a = (regW s (hErr b) i 0, setRegW s (hErr b) i 0 (b.code * 256)) := regRead_unitErr hi
  have hunit : exec (.unitErrRead b i) s = .next (regRead s a).2 := congrArg Host.Outcome.next (if_pos hi)
  have hword : exec (.rcRegisterRead a) s = .next (regRead s a).2 := rfl
  rw [hread] at hunit hword
  refine ⟨hunit, hword, by rw [hread], ?_⟩
  intro c1 c2 hc1 hne hc2 hq t
  let x := setRegW s (hErr b) i 0 (b.code * 256)
  have hx : x.recQ = s.recQ := rfl
  obtain ⟨regs1, q1⟩ := unitErr_of_room (s := x) b i c1 (by rw [hx]; omega)
  obtain ⟨regs2, q2⟩ := unitErr_of_room (s := unitErr x b i c1) b i c2 (by rw [q1, hx]; omega)
  have hfirst : getF (unitErr x b i c1) (hErr b) i = c1 :=
    (getF_of_regs_eq regs1 ..).trans (getF_errShow_first (getF_hErr_cleared s b i) hc1)
  obtain ⟨hcode, hovr⟩ := getF_errShow_further (by rwa [hfirst]) c2
  refine ⟨(getF_of_regs_eq regs2 ..).trans (hcode.trans hfirst), (getF_of_regs_eq regs2 ..).trans hovr, ?_, ?_⟩
  · rw [q2, q1, hx]
  · exact ((Reports.setRegW ..).trans ((Reports.unitErr b i c1).trans (Reports.unitErr b i c2))).frame.1

end Sys2Proof.Machine
end

section
/-!
PROOFS. A step (R30): the command at the front of the queue, or one TICK edge with nothing that waits.
-/

namespace Sys2Proof.Machine

/-! ## A memory error at the edge -/

/-- At most one word of memory is marked. -/
def MarksOne (s t : State) : Prop :=
  ∃ f b, t = { s with free := f, bad := b } ∧ (b = s.bad ∨ ∃ w, b = w :: s.bad.filter (fun y => y != w))

/-- A memory error marks one word, or is counted or shown. -/
theorem eccTick_cases (s : State) : MarksOne s (eccTick s) ∨ ∃ f, Reports { s with free := f } (eccTick s) := by
  have hmark {f w : Nat} : MarksOne s { s with free := f, bad := w :: s.bad.filter (fun y => y != w) } :=
    ⟨f, _, rfl, .inr ⟨w, rfl⟩⟩
  have hnone {f : Nat} : MarksOne s { s with free := f } := ⟨f, s.bad, rfl, .inl rfl⟩
  unfold eccTick pick fresh
  dsimp only
  split
  · exact .inl hnone
  · split
    case h_1 => exact .inr ⟨_, (Reports.setF ..).trans (Reports.latch ..)⟩
    case h_2 => exact .inr ⟨_, Reports.latch ..⟩
    case h_3 => exact .inr ⟨_, Reports.latch ..⟩
    case h_4 => exact .inr ⟨_, Reports.latch ..⟩
    case h_13 => exact .inl hnone
    all_goals exact .inl hmark

/-! ## What drains with time, where nothing waits -/

/-- Every core reads back as before; the rest of the state is the same. -/
def SameCores (s t : State) : Prop := ∃ m, t = { s with cores := m } ∧ ∀ d, getCore t d = getCore s d

/-- A core without stores and posted writes drains nothing. -/
theorem age_idle {s : State} {c : Nat} (hsb : (getCore s c).sb = []) (hp : (getCore s c).posted = []) :
    SameCores s (postAge (sbAge s c) c) := by
  have hs : sbAge s c = s := by rw [sbAge, hsb]; rfl
  have hage : postAge s c = setCore s c { getCore s c with posted := [] } := by rw [postAge, hp]; rfl
  rw [hs, hage]
  refine ⟨_, rfl, fun d => ?_⟩
  by_cases hd : d = c
  · subst hd
    rw [getCore_setCore_same, ← hp]
  · exact getCore_setCore_other s c d _ hd

/-- Cores without stores and posted writes drain nothing. -/
theorem forEach_age_idle (l : List Nat) (s : State) (h : ∀ c, (getCore s c).sb = [] ∧ (getCore s c).posted = []) :
    SameCores s (forEach l s fun s c => postAge (sbAge s c) c) := by
  induction l generalizing s with
  | nil => exact ⟨s.cores, rfl, fun _ => rfl⟩
  | cons c t ih =>
    obtain ⟨m, hm, hsame⟩ := age_idle (h c).1 (h c).2
    obtain ⟨m', hm', hsame'⟩ := ih (postAge (sbAge s c) c) fun d => by rw [hsame]; exact h d
    refine ⟨m', hm'.trans (by rw [hm]), fun d => (hsame' d).trans (hsame d)⟩

/-- A restart that does not wait for units goes no step on. -/
theorem stepW6_idle {s : State} (h : ∀ w, s.tsk.ph ≠ .units w) : stepW6 s = s := by
  unfold stepW6
  split
  · exact absurd ‹_› (h _)
  · rfl

/-- Sessions without waiting requests answer none. -/
theorem mgNext_idle {s : State} (h : ∀ k, (getSess s k).q = []) : forEach (List.range 8) s mgNext = s :=
  forEach_const _ _ _ fun k _ => by rw [mgNext, h k]

/-! ## The time counter (R376) -/

/-- The time counter advances by its increment. -/
theorem counter_countTick {s : State} (hlt : counter s + getInc s < 2 ^ 64 * 1000000000 * 2 ^ 32) :
    counter (countTick s) = counter s + getInc s := by
  have heq : counter (countTick s) = ((counter s + getInc s) / 2 ^ 32 / 1000000000 % 2 ^ 64 * 1000000000 +
    (counter s + getInc s) / 2 ^ 32 % 1000000000) * 2 ^ 32 + (counter s + getInc s) % 2 ^ 32 := rfl
  omega

/-- The count of TICK periods and the time counter after one increment within a second. -/
def Counted (s t : State) : Prop :=
  t.ticks = s.ticks + 1 ∧ counter t = counter s + getInc s ∧ t.ns < 1000000000 ∧ t.sec = s.sec

/-- One increment within a second. -/
theorem counted_countTick {s : State} (hlt : counter s + getInc s < 2 ^ 64 * 1000000000 * 2 ^ 32)
    (hsec : (counter s + getInc s) / 2 ^ 32 / 1000000000 = s.sec) : Counted s (countTick (otherClocks s)) := by
  refine ⟨rfl, counter_countTick (s := otherClocks s) hlt, Nat.mod_lt _ (by decide), ?_⟩
  have heq : (countTick (otherClocks s)).sec = (counter s + getInc s) / 2 ^ 32 / 1000000000 % 2 ^ 64 := rfl
  omega

/-- What an edge leaves of memory, queue and segments. -/
structure EdgeFrame (s t : State) : Prop where
  ticks : t.ticks = s.ticks
  counter : counter t = counter s
  sec : t.sec = s.sec
  ns : t.ns = s.ns
  mem : t.mem = s.mem
  segs : t.tsk.segs = s.tsk.segs
  ph : t.tsk.ph = s.tsk.ph
  pending : t.pending = s.pending
  cores : ∀ c, getCore t c = getCore s c
  sess : ∀ k, getSess t k = getSess s k
  waitS6 : t.pwr.waitS6 = s.pwr.waitS6
  err : (t.regs = s.regs ∧ t.tsk = s.tsk ∧ (t.bad = s.bad ∨ ∃ w, t.bad = w :: s.bad.filter (fun y => y != w)) ∨
    t.bad = s.bad ∧ t.saf = s.saf ∧ t.lio = s.lio ∧ t.chn = s.chn ∧ t.pair = s.pair)

/-- A memory error at the edge. -/
theorem edgeFrame_eccTick (s : State) : EdgeFrame s (eccTick s) := by
  obtain ⟨f, b, h, hb⟩ | ⟨f, r, k, l, q, d, c, h⟩ := eccTick_cases s
  · rw [h]
    exact ⟨rfl, rfl, rfl, rfl, rfl, rfl, rfl, rfl, fun _ => rfl, fun _ => rfl, rfl, .inl ⟨rfl, rfl, hb⟩⟩
  · rw [h]
    exact ⟨rfl, rfl, rfl, rfl, rfl, rfl, rfl, rfl, fun _ => rfl, fun _ => rfl, rfl, .inr ⟨rfl, rfl, rfl, rfl, rfl⟩⟩

/-- Cores that read back as before keep the frame. -/
theorem EdgeFrame.sameCores {s t u : State} (h : EdgeFrame s t) (hc : SameCores t u) : EdgeFrame s u := by
  obtain ⟨m, rfl, hsame⟩ := hc
  exact ⟨h.ticks, h.counter, h.sec, h.ns, h.mem, h.segs, h.ph, h.pending, fun c => (hsame c).trans (h.cores c), h.sess,
    h.waitS6, h.err⟩

/-- An edge with nothing that waits: the error, if any, on the state with the counts advanced. -/
theorem edgeFrame_tick {s : State} (hsec : (countTick (otherClocks s)).sec = s.sec) (hwait : s.pwr.waitS6 = none)
    (hst : ∀ c, (getCore s c).sb = [] ∧ (getCore s c).posted = []) (hph : ∀ w, s.tsk.ph ≠ .units w)
    (hq : ∀ k, (getSess s k).q = []) : EdgeFrame (countTick (otherClocks s)) (tick s) := by
  let s1 := eccTick (countTick (otherClocks s))
  let s2 := forEach (List.range 6) s1 fun s c => postAge (sbAge s c) c
  have h1 : EdgeFrame (countTick (otherClocks s)) s1 := edgeFrame_eccTick _
  have h2 : EdgeFrame (countTick (otherClocks s)) s2 :=
    h1.sameCores (forEach_age_idle _ s1 fun c => by rw [h1.cores]; exact hst c)
  have ht : tick s = s2 := by
    have hbsn : (if s2.sec = s.sec then s2 else bsnSecond s2) = s2 := if_pos (h2.sec.trans hsec)
    have hunits : stepW6 s2 = s2 := stepW6_idle (by rw [h2.ph]; exact hph)
    have hnext : forEach (List.range 8) s2 mgNext = s2 := mgNext_idle fun k => by rw [h2.sess]; exact hq k
    have hboot : s2.pwr.waitS6 = none := h2.waitS6.trans hwait
    unfold tick
    dsimp only
    rw [hbsn, hunits, hnext, if_neg (by simp [hboot])]
  rwa [ht]

/-- Settles O1: what a TICK edge does with nothing that waits. -/
theorem stepRunsFrontOrTicks : Obligations.StepRunsFrontOrTicks := by
  refine ⟨fun s i rest => rfl, fun s hpend hwait hst hph hq hlt hsec => ?_⟩
  obtain ⟨hticks, hcounter, hns, hs⟩ := counted_countTick hlt hsec
  have h := edgeFrame_tick hs hwait hst hph hq
  refine ⟨tick s, by rw [step, hpend], h.ticks.trans hticks, h.counter.trans hcounter, by rw [h.ns]; exact hns, h.mem, h.segs,
    h.pending.trans hpend, h.cores, h.err⟩

end Sys2Proof.Machine
end

section
/-!
PROOFS. The state after a reset: no register word is listed, so that each reads as its reset value.
-/

namespace Sys2Proof.Machine

/-- After a reset every register word is its reset value. -/
theorem regW_reset (f : Fld) (i k : Nat) : regW State.reset f i k = f.reset k % 2 ^ 32 := BitVec.toNat_ofNat ..

/-- After a reset every field is that of the reset value. -/
theorem getF_reset (f : Fld) (i k : Nat) : getF State.reset f i k = bits (f.reset k % 2 ^ 32) f.lsb f.width := by
  rw [getF, regW_reset]

/-- A field whose row resets to a constant is read from it. -/
theorem getF_reset_const {f : Fld} (h : f.rk = .const) (i k : Nat) :
    getF State.reset f i k = bits (f.rst % 2 ^ 32) f.lsb f.width := by
  rw [getF_reset, Fld.reset, h]

/-- The reset value of UNIT_ERR is the unit byte alone (Table MAP-5). -/
theorem unitByte_mod (b : Blk) : bits (b.code * 256 % 2 ^ 32) 0 16 % 256 = 0 := by cases b <;> rfl

/-- Settles O2: no register, byte, core or segment is listed, and the default of each is its value of after a reset. -/
theorem resetLeavesEveryRegister : Obligations.ResetLeavesEveryRegister := by
  refine ⟨regW_reset, fun b i => getF_reset_const rfl i 0, fun b i => ?_,
    fun b i => ⟨getF_reset_const rfl i 0, getF_reset_const rfl i 0⟩, fun _ => rfl, rfl, rfl, fun _ => rfl, fun _ => rfl⟩
  rw [getF_reset_const rfl]
  exact unitByte_mod b

end Sys2Proof.Machine
end

section
/-!
PROOFS. Task control and special registers (R48, R72, R73, R111, R112, R231).
-/

namespace Sys2Proof.Machine

/-! ## The place of a segment behind its band (R112) -/

/-- An entry that is not the default is listed. -/
theorem mem_of_mget_ne {α : Type} {m : NMap α} {k : Nat} {d : α} (h : mget m k d ≠ d) : (k, mget m k d) ∈ m := by
  induction m with
  | nil => exact absurd rfl h
  | cons p t ih =>
    obtain ⟨k', v⟩ := p
    rw [mget] at h ⊢
    by_cases hk : k' = k
    · rw [if_pos hk, hk]; exact List.mem_cons_self
    · rw [if_neg hk] at h ⊢; exact List.mem_cons_of_mem _ (ih h)

/-- A maximum taken over a list is at least each value that it takes. -/
theorem le_foldl_max {α : Type} (p : α → Bool) (f : α → Nat) {l : List α} {x : α} (hx : x ∈ l) (hp : p x = true) (n : Nat) :
    f x ≤ l.foldl (fun m y => if p y then max m (f y) else m) n := by
  have hmono (l : List α) (n : Nat) : n ≤ l.foldl (fun m y => if p y then max m (f y) else m) n := by
    induction l generalizing n with
    | nil => exact le_rfl
    | cons y t ih =>
      refine le_trans ?_ (ih _)
      dsimp only
      split
      · exact le_max_left ..
      · exact le_rfl
  induction l generalizing n with
  | nil => cases hx
  | cons y t ih =>
    obtain rfl | hx := List.mem_cons.1 hx
    · refine le_trans ?_ (hmono t _)
      dsimp only
      rw [if_pos hp]
      exact le_max_right ..
    · exact ih hx _

/-- A segment that resumes goes behind every ready segment of its band on its core. -/
theorem ord_lt_backOrd {s : State} {key j : Nat} (hr : (getSeg s j).ph = .ready) (hc : segCore s j = segCore s key)
    (hk : rank s (j / 4) = rank s (key / 4)) : (getSeg s j).ord < backOrd s key := by
  have hmem : (j, getSeg s j) ∈ s.tsk.segs := mem_of_mget_ne fun h => by
    rw [getSeg, h] at hr
    cases hr
  exact le_foldl_max (fun p => p.2.ph == .ready && segCore s p.1 == segCore s key && rank s (p.1 / 4) == rank s (key / 4))
    (fun p => p.2.ord + 1) hmem (by simp [hr, hc, hk]) 2

/-! ## Task control (Table HXI-15b) -/

section
variable {s : State} {c : Nat} (hr : runs s c = true)
include hr

/-- An instruction that changed its context alone goes on with what follows it. -/
theorem runThen_self {f : State → Ctx → Out} {post : State → State} {k : Ctx} {n : Nat}
    (hf : f s (stepCtx s c) = .done s k n) : runThen s c f post = .next (post (landed s c k n)) :=
  (runThen_done hr hf).trans (congrArg _ (putCtx_same s s c _ post rfl))

/-- TASK END of a logic core: FENCE.X, then the end of the segment. -/
theorem endTask_logic (hc : c < 6) (hb : (stepCtx s c).br = []) : endTask c 0 s =
    .next (putCtx s (fenceX (fresh 32 s).2 c) c (withCyc (stepCtx s c) c (4 + (fresh 32 s).1)) (endAfter c)) :=
  runThen_done hr (by simp [hb, hc])

/-- TASK END of a safety core. -/
theorem endTask_safety (hc : 6 ≤ c) (hb : (stepCtx s c).br = []) :
    endTask c 0 s = .next (safTaskEnd (landed s c (stepCtx s c) 4) c) :=
  (runThen_self (k := stepCtx s c) (n := 4) hr (by simp [hb, Nat.not_lt.2 hc])).trans
    (by rw [endAfter, if_neg (Nat.not_lt.2 hc)])

/-- TASK END with an open branch. -/
theorem endTask_open (hb : (stepCtx s c).br ≠ []) : endTask c 0 s = .next (coreFault s c 0x0422 0) := by
  have hopen : (stepCtx s c).br.isEmpty = false := by simpa using hb
  exact runThen_fault hr (by simp [hopen])

/-- A sub-operation that a logic core permits. -/
theorem taskSub_done {f : State → Ctx → Out} {post : State → State} {s1 : State} {k : Ctx} {n : Nat} {ok : Bool} (hc : c < 6)
    (hok : ok = true) (hf : f s (stepCtx s c) = .done s1 k n) :
    taskSub c 0 ok f post s = .next (putCtx s s1 c (withCyc k c n) post) :=
  runThen_done hr (by simp [hc, hok, hf])

/-- YIELD of a core that runs a segment. -/
theorem execYield_segment {key : Nat} (hc : c < 6) (hk : (getCore s c).run = some key) : execYield c 0 s =
    .next (schedule (takeOff (landed s c (stepCtx s c) 48) c .ready (backOrd (landed s c (stepCtx s c) 48) key)) c) := by
  refine (taskSub_done hr hc rfl rfl).trans ?_
  rw [putCtx_same s s c _ _ rfl, yieldOn, getCore_setCtx_same]
  dsimp only
  rw [hk]
  rfl

/-- YIELD of a core that runs none. -/
theorem execYield_none (hc : c < 6) (hk : (getCore s c).run = none) :
    execYield c 0 s = .next (landed s c (stepCtx s c) 48) := by
  refine (taskSub_done hr hc rfl rfl).trans ?_
  rw [putCtx_same s s c _ _ rfl, yieldOn, getCore_setCtx_same]
  dsimp only
  rw [hk]
  rfl

/-- RAISE for a task that the image does not have. -/
theorem execRaise_absent {evt : Nat} (h : hasTask s (8 + evt) = false) (tag : Nat) :
    execRaise c 0 evt tag s = .next (coreFault s c 0x0411 0) := by
  unfold execRaise taskSub
  exact runThen_fault hr (by simp [h])

/-- RAISE for a task of the image. -/
theorem execRaise_landedOn {evt : Nat} (hc : c < 6) (h : hasTask s (8 + evt) = true) (tag : Nat) :
    execRaise c 0 evt tag s = .next (landedOn s
      (evPush s (8 + evt) { source := 0x03 + 256 * 0x1FF, tag := tag, stamp := now s }) c (stepCtx s c) 4) := by
  unfold execRaise
  exact taskSub_done hr hc h rfl

/-- BAR: FENCE.X, then the wait. -/
theorem execBar_done {n : Nat} (hc : c < 6) (hn : n < 4) : execBar c 0 0 n s =
    .next (putCtx s (fenceX s c) c (withCyc (stepCtx s c) c 4) (atBarrier c n)) := by
  unfold execBar
  exact taskSub_done hr hc (by simp [hn]) rfl

/-- NOP. -/
theorem execTaskNop_landed : execTaskNop c 0 s = .next (landed s c (stepCtx s c) 1) := runOn_landed hr rfl

/-! ## Special registers (Table HXI-3) -/

/-- MFS of a register of the table, in WA. -/
theorem execMfs_wa {sr v : Nat} {k1 : Ctx} {s1 : State} (hc : c < 6) (h : sprRead s c (stepCtx s c) sr = some (v, k1, s1)) :
    execMfs c 0 false 0 sr s = .next (landedOn s s1 c { k1 with wa := BitVec.ofNat 64 v } 2) :=
  runOn_landedOn hr (by simp [hc, h, setAcc])

/-- MFS of a register of the table, in an index register. -/
theorem execMfs_xr {sr v : Nat} {k1 : Ctx} {s1 : State} (xr : Nat) (hc : c < 6)
    (h : sprRead s c (stepCtx s c) sr = some (v, k1, s1)) :
    execMfs c xr true 0 sr s = .next (landedOn s s1 c (setX k1 xr v) 2) :=
  runOn_landedOn hr (by simp [hc, h])

/-- MFS of a number without an entry. -/
theorem execMfs_refused {sr : Nat} (xr : Nat) (hc : c < 6) (h : sprRead s c (stepCtx s c) sr = none) :
    execMfs c xr true 0 sr s = .next (coreFault s c 0x0411 0) :=
  runOn_fault s s c _ _ _ hr (by simp [hc, h])

/-- MFS of CYC, which carries the additions of Table HXI-1 from its reading on. -/
theorem execMfs_cyc (hc : c < 6) : execMfs c 0 false 0 7 s = .next (landedOn s (fresh 32 s).2 c
    { stepCtx s c with cyc := (stepCtx s c).cyc + (fresh 32 s).1,
                       wa := BitVec.ofNat 64 ((stepCtx s c).cyc + (fresh 32 s).1) } 2) :=
  execMfs_wa (k1 := { stepCtx s c with cyc := (stepCtx s c).cyc + (fresh 32 s).1 }) hr hc rfl

/-- MTS of the flags. -/
theorem execMts_flags (xr : Nat) (hc : c < 6) : execMts c xr true 0 0 s =
    .next (landed s c (setFlags (stepCtx s c) (flagsOf (getX (stepCtx s c) xr))) 2) :=
  runOn_landed hr (by simp [hc])

/-- MTS of VALID of LE_FAULT. -/
theorem execMts_valid (xr : Nat) (hc : c < 6) : execMts c xr true 0 2 s = .next (landedOn s
    (if bitOf (getX (stepCtx s c) xr) 31 then
      setCore s c { getCore s c with le := { (getCore s c).le with valid := false, ovr := false } } else s)
    c (stepCtx s c) 2) :=
  runOn_landedOn hr (by simp [hc])

/-- MTS of any other number. -/
theorem execMts_refused {sr : Nat} (xr : Nat) (hc : c < 6) (h0 : sr ≠ 0) (h2 : sr ≠ 2) :
    execMts c xr true 0 sr s = .next (coreFault s c 0x0441 0) :=
  runOn_fault s s c _ _ _ hr (by simp [hc])

end

/-- The numbers of the table end at 10. -/
theorem sprRead_eq_none {sr : Nat} (h : 11 ≤ sr) (s : State) (c : Nat) (k : Ctx) : sprRead s c k sr = none := by
  obtain ⟨n, rfl⟩ := Nat.exists_eq_add_of_le' h
  rfl

/-- The registers of the table that read without an effect. -/
theorem sprRead_of_mem {s : State} {c sr v : Nat} {k : Ctx}
    (h : (sr, v) ∈ [(0, flagsWord k), (1, k.br.length), (2, leWord (getCore s c).le), (3, (getCore s c).le.pc),
      (4, (getCore s c).le.addr), (5, c), (6, match (getCore s c).run with | some key => key / 4 + 16 * (key % 4) | none => 0),
      (8, now s), (9, getF s R.TSK_SLOT_ACTIVE), (10, k.calls.length)]) : sprRead s c k sr = some (v, k, s) := by
  simp only [List.mem_cons, Prod.mk.injEq, List.not_mem_nil, or_false] at h
  obtain ⟨rfl, rfl⟩ | ⟨rfl, rfl⟩ | ⟨rfl, rfl⟩ | ⟨rfl, rfl⟩ | ⟨rfl, rfl⟩ | ⟨rfl, rfl⟩ | ⟨rfl, rfl⟩ | ⟨rfl, rfl⟩ | ⟨rfl, rfl⟩ |
    ⟨rfl, rfl⟩ := h
  all_goals rfl

/-- Settles O27, sub-operation by sub-operation and register by register. -/
theorem taskControlAndSpecialRegisters : Obligations.TaskControlAndSpecialRegisters := by
  refine ⟨?control, ?registers⟩
  case control =>
    intro s c evt tag hr k x kx
    have hend : exec (.taskEnd c 0) s = endTask c 0 x := rfl
    refine ⟨fun h => if_neg (by simp [h]), fun h => if_neg (by simp [h]), fun hc hx hb => hend.trans (endTask_logic hx hc hb),
      fun hc hx hb => hend.trans (endTask_safety hx hc hb), fun hx hb => hend.trans (endTask_open hx hb),
      fun hx => hend.trans (by simp [endTask, runThen, hx]), fun key hc hk => execYield_segment hr hc hk,
      fun key j hrd hsc hrk => ord_lt_backOrd hrd hsc hrk, fun hc hk => execYield_none hr hc hk,
      fun hc h => execRaise_landedOn hr hc h tag, fun _ h => execRaise_absent hr h tag,
      fun hc ht => execBar_done hr hc ht, execTaskNop_landed hr⟩
  case registers =>
    intro s c xr sr hc hr k q
    refine ⟨fun v h => ?_, ?_, fun h => execMfs_refused hr xr hc (sprRead_eq_none h ..), ?_⟩
    · have hv := sprRead_of_mem h
      exact ⟨(execMfs_wa hr hc hv).trans (congrArg _ (landedOn_self ..)),
        (execMfs_xr hr xr hc hv).trans (congrArg _ (landedOn_self ..))⟩
    · exact execMfs_cyc hr hc
    · refine ⟨execMts_flags hr xr hc, fun h => ?_, fun h => ?_, execMts_refused hr xr hc⟩
      all_goals refine (execMts_valid hr xr hc).trans ?_
      · rw [if_pos h]
      · rw [if_neg (ne_true_of_eq_false h), landedOn_self]

end Sys2Proof.Machine
end

section
/-!
PROOFS. The events of tasks (R100, R107, R114 to R117) and the instants of the timeline (R22 to R24, R30).
-/

namespace Sys2Proof.Machine

/-! ## Events of tasks -/

section
variable {s : State} {t : Nat}

/-- Every segment has arrived: the barrier opens. -/
theorem execBarrierOpen_met {n : Nat} (ht : t < 16) (hl : (getTask s t).live = true) (h : barrierMet s t = some n) :
    execBarrierOpen t s = .next (barrierOpen s t) := by
  rw [execBarrierOpen, if_pos ⟨ht, hl⟩, h]
  rfl

/-- The segments wait at different barriers: the task stops. -/
theorem execBarrierOpen_mixed (ht : t < 16) (hl : (getTask s t).live = true) (h : barrierMixed s t = true) :
    execBarrierOpen t s = .next (taskStop s t 0x0311) := by
  have hnone : (barrierMet s t).isSome = false := by
    simp only [barrierMixed, Bool.and_eq_true] at h
    simpa using h.1.2
  rw [execBarrierOpen, if_pos ⟨ht, hl⟩, hnone, if_neg (by decide), barrierJudge, hl, h]
  rfl

/-- A task at its budget stops, and goes on before that. -/
theorem execTaskBudgetExpiry_live (ht : t < 16 ∧ (t ≤ 1 ∨ 5 ≤ t)) (hl : (getTask s t).live = true) :
    execTaskBudgetExpiry t s = .next (if getF s R.TSK_T_BUDGET_NS 0 t ≤ taskCyc s t + (fresh 32 s).1 ∨
        t = 5 ∧ (getTask s t).relAt + getF s R.TSK_T_BUDGET_NS 0 t ≤ now s
      then taskStop (fresh 32 s).2 t 0x0310 else (fresh 32 s).2) := by
  rw [execTaskBudgetExpiry, if_pos ⟨ht.1, ht.2, hl⟩, budgetOver]
  simp only [Bool.or_eq_true, Bool.and_eq_true, decide_eq_true_eq, beq_iff_eq, ge_iff_le]

end

section
variable {s : State} {key u t a due : Nat} (hk : key < 64) (hp : (getSeg s key).ph = .inEcall u t a due)
include hk hp

/-- A synchronous call of a segment ends with what WA holds then. -/
theorem execSyncEcallComplete_some {w : DWord} (h : syncEnd s u t a due = some w) : execSyncEcallComplete key s =
    .next (scheduleAll (taskStat (setSeg s key
      { ph := .ready, ctx := { (getSeg s key).ctx with wa := w }, ord := backOrd s key }) (key / 4))) := by
  rw [execSyncEcallComplete, if_pos hk]
  dsimp only
  rw [hp]
  dsimp only
  rw [h]

/-- A synchronous call of a segment goes on. -/
theorem execSyncEcallComplete_none (h : syncEnd s u t a due = none) : execSyncEcallComplete key s = .next s := by
  rw [execSyncEcallComplete, if_pos hk]
  dsimp only
  rw [hp]
  dsimp only
  rw [h]

end

/-- The oldest fault record releases the FAULT task. -/
theorem execFaultTaskRelease_of {s : State} {r : FaultRec} {rest : List FaultRec} (hq : s.tsk.fq = r :: rest)
    (hl : (getTask s 6).live = false) (ho : tasksOn s = true)
    (hh : hasTask (setF { s with tsk := { s.tsk with fq := rest } } R.TSK_FQ_COUNT rest.length) 6 = true) :
    execFaultTaskRelease s = .next (scheduleAll (releaseTask
      (wrBs (setF { s with tsk := { s.tsk with fq := rest } } R.TSK_FQ_COUNT rest.length)
        (actSlot (setF { s with tsk := { s.tsk with fq := rest } } R.TSK_FQ_COUNT rest.length)).faultArea
        (faultDetail r ++ leBytes 8 r.stamp)) 6)) := by
  rw [execFaultTaskRelease, hq]
  dsimp only
  rw [if_neg (by simp [hl, ho]), if_pos hh]

/-- The oldest event entry releases its task. -/
theorem execEventTaskRelease_of {s : State} {t a : Nat} {e : EvEntry} {rest : List EvEntry} (ht : 7 ≤ t ∧ t ≤ 15)
    (hq : (getTask s t).evq = e :: rest) (hl : (getTask s t).live = false) (ho : tasksOn s = true) (hh : hasTask s t = true)
    (ha : evArea (setF (setTask s t { getTask s t with evq := rest }) R.TSK_T_STAT_QLEN rest.length 0 t) t = some a) :
    execEventTaskRelease t s = .next (scheduleAll (releaseTask
      (wrBs (setF (setTask s t { getTask s t with evq := rest }) R.TSK_T_STAT_QLEN rest.length 0 t) a (evBytes e)) t)) := by
  rw [execEventTaskRelease]
  dsimp only
  rw [hq]
  dsimp only
  rw [if_neg (by simp [hl, ho, hh]; omega), ha]

/-! ## The instants -/

/-- Action `n` of the timeline, noted as carried out. -/
def taken (s : State) (n : Nat) : State := { s with done := mput 0 s.done n (s.ticks + 1) }

/-- An action that has not been carried out at this edge is carried out. -/
theorem carry_of_undone {s : State} {n : Nat} (h : undone s n = true) (f : State → State) : carry s n f = f (taken s n) :=
  if_pos h

/-- A channel whose input of a class the class's task takes over. -/
def handed (cls : Nat) (c : Chan) : Chan :=
  if c.latched.used ∧ !c.latched.isOut ∧ c.latched.cls = cls then { c with tkVal := c.inVal, tkSt := c.inSt } else c

/-- The buffer of the latest input close, channel by channel. -/
theorem getChan_handBuffers (s : State) (cls n : Nat) : getChan (handBuffers s cls) n = handed cls (getChan s n) := by
  have hmap (l : NMap Chan) (f : Chan → Chan) (hf : f {} = {}) :
      mget (l.map fun x => (x.1, f x.2)) n {} = f (mget l n {}) := by
    induction l with
    | nil => exact hf.symm
    | cons x t ih =>
      by_cases hk : x.1 = n
      · simp [mget, hk]
      · simp [mget, hk]; exact ih
  exact hmap s.chn.chans (handed cls) rfl

/-- Settles O29, event by event and instant by instant. -/
theorem taskEventsAndTimeline : Obligations.TaskEventsAndTimeline := by
  refine ⟨fun s => ⟨fun t n => execBarrierOpen_met, fun t => execBarrierOpen_mixed, ?sync, ?fault, ?event, ?budget⟩, ?_⟩
  case sync =>
    intro key u t a due hk hp w back
    exact ⟨fun h1 h2 => execSyncEcallComplete_some hk hp (if_pos ⟨h1, h2⟩),
      fun h hd => execSyncEcallComplete_some hk hp ((if_neg h).trans (if_pos hd)),
      fun h hd => execSyncEcallComplete_none hk hp ((if_neg h).trans (if_neg (Nat.not_le.2 hd)))⟩
  case fault => exact fun r rest hq hl ho hh => execFaultTaskRelease_of hq hl ho hh
  case event => exact fun t e rest a ht hq hl ho hh ha => execEventTaskRelease_of ht hq hl ho hh ha
  case budget => exact fun t ht h hl => execTaskBudgetExpiry_live ⟨ht, h⟩ hl
  intro s take
  have hnext {x y : State} (h : x = y) : (Host.Outcome.next x : Res) = .next y := congrArg _ h
  refine ⟨?close, fun h => hnext (if_neg (ne_true_of_eq_false h)), fun h => hnext (if_neg (ne_true_of_eq_false h)),
    fun h1 h2 => hnext ?noRelease, fun p h => ⟨hnext (if_neg (ne_true_of_eq_false h)), hnext (if_neg (ne_true_of_eq_false h))⟩,
    ?release, ?cls, ?hand, ?deadline, fun p h hu => hnext ((if_pos h).trans (carry_of_undone hu _)), ?fastOut⟩
  case close =>
    intro hat hun x t0 cs s1 s2 s3 s4 s5 s6 s7
    have hexec : exec .inputClose s = .next (inputClose x) :=
      congrArg Host.Outcome.next ((if_pos hat).trans (carry_of_undone hun inputClose))
    have heq : inputClose x = if pairOn s7 ∧ role s7 = 1 ∧ getF s7 R.LNK_EPOCH_MAX_EPOCH > roleEpoch s7 then
      demote (setEpoch s7 (getF s7 R.LNK_EPOCH_MAX_EPOCH)) else s7 := rfl
    rw [hexec, heq]
    exact ⟨fun h => congrArg _ (if_neg (by rintro ⟨h1, h2, h3⟩; simp only [h1, Bool.true_eq_false, false_or] at h; omega)),
      fun h1 h2 h3 => congrArg _ (if_pos ⟨h1, h2, h3⟩)⟩
  case noRelease => rw [releaseDue, if_neg (ne_true_of_eq_false h1), if_neg (by simp [h2])]
  case release =>
    intro y hat hun x0 x hph hown habd hrel hskip hmig
    have hexec : releaseDue s = cycleRelease x0 := (if_pos hat).trans (carry_of_undone hun cycleRelease)
    refine hnext (hexec.trans ?_)
    have hstay : ¬(x.tsk.ph ≠ .running ∨ !owns x ∨ x.pair.abdAt.isSome ∨ lastStart x0 0 ≤ x.time.skipTo ∧ x.time.skipTo ≠ 0) := by
      simp [hph, hown, habd, hskip]
    exact (if_neg hstay).trans ((if_neg (Nat.not_lt.2 hmig)).trans
      (congrArg (fun z => scheduleAll (forEach (classesAt z (lastStart x0 0)) (releaseError z) classRelease)) (if_pos hrel)))
  case cls =>
    intro cls hf hh
    refine ⟨fun hl => ?_, fun hl => ?_⟩
    · rw [classRelease, if_neg (by simp [hf, hh]), if_neg (ne_true_of_eq_false hl)]
    · rw [classRelease, if_neg (by simp [hf, hh]), if_pos hl]
      exact ⟨by rw [setF_tsk, incF, setF_tsk], by rw [setF_cores, incF, setF_cores]⟩
  case hand =>
    intro cls n c
    have hc : c = handed cls (getChan s n) := getChan_handBuffers s cls n
    exact ⟨fun h1 h2 h3 => hc.trans (if_pos ⟨h1, by simp [h2], h3⟩), fun h => hc.trans (if_neg fun hin => h hin.2.2)⟩
  case deadline =>
    intro hat hun x0 x1 x t1 cs isS late s1 s2 s3 s4 s5
    have hexec : deadlineDue s = outputDeadline x0 := (if_pos hat).trans (carry_of_undone hun outputDeadline)
    refine hnext (hexec.trans ?_)
    clear_value x0
    unfold outputDeadline
    extract_lets
    rfl
  case fastOut =>
    intro p y h h' hun
    exact hnext ((if_pos h).trans ((if_pos h').trans (carry_of_undone hun _)))

end Sys2Proof.Machine
end

section
/-!
PROOFS. The key switch (R121 to R123), HALT and restart (R124 to R132), and the copies of RETAIN (R36).
-/

namespace Sys2Proof.Machine

/-! ## The key switch -/

/-- A position accepted: shown, KFAULT cleared, its event latched. -/
def keyShown (s : State) (code : Nat) : State :=
  let s0 := setF (setF (setF s R.TSK_KEY_POS code) R.TSK_KEY_RAW code) R.TSK_KEY_KFAULT 0
  latch { s0 with tsk := { s0.tsk with keyAcc := true } } .tsk 0 32

section
variable {s : State} {code : Nat} (hp : (keyShown s code).tsk.ph ≠ .none)
include hp

/-- Another position in force: what leaving TUNE, entering HALT, leaving HALT and WIPE do, in this order. -/
theorem keyAccept_moved (h : keyPos s ≠ code) {a b c : State}
    (ha : (if keyPos s = 1 then leaveTune (keyShown s code) else keyShown s code) = a)
    (hb : (if code = 2 ∧ keyPos s < 2 then haltAccepted a else a) = b)
    (hc : (if code < 2 ∧ keyPos s ≥ 2 then haltLeft b else b) = c) :
    keyAccept s code = if code = 3 then wipe c else c := by
  subst ha hb hc
  unfold keyAccept
  extract_lets old known s1 src s2 s3
  have hs3 : s3 = keyShown s code := if_neg h
  clear_value s3
  subst hs3
  exact (if_neg fun hnone => hp hnone.1).trans ((if_neg fun hnone => hp hnone.1).trans (if_neg h))

end

/-- Neither memory nor a core changes. -/
def KeepsMemCores (s t : State) : Prop := t.mem = s.mem ∧ t.cores = s.cores

/-- A report leaves memory and the cores. -/
theorem Reports.keepsMemCores {s t : State} (h : Reports s t) : KeepsMemCores s t := ⟨h.frame.1, h.frame.2.1⟩

/-- The restart that is chosen. -/
theorem keepsMemCores_chooseRestart (s : State) (cause : Nat) (f : Bool) : KeepsMemCores s (chooseRestart s cause f) := by
  unfold chooseRestart
  dsimp only
  split
  · exact ⟨rfl, rfl⟩
  · split
    · exact ⟨rfl, rfl⟩
    · exact (Reports.unitErr (s := s) .tsk 0 0x0317).keepsMemCores

/-- What start-up does at S8 with the key position. -/
theorem keepsMemCores_s8Act (s : State) : KeepsMemCores s (s8Act s) := by
  have hrole (x : State) : KeepsMemCores x (setRole x 4 0x0D00) :=
    (((Reports.setF ..).trans (Reports.setF ..)).trans (Reports.latch ..)).keepsMemCores
  unfold s8Act
  dsimp only
  split
  · split
    · exact ⟨rfl, rfl⟩
    · exact ⟨(hrole _).1, (hrole _).2⟩
  · split
    · split
      · exact ⟨rfl, rfl⟩
      · exact keepsMemCores_chooseRestart ..
    · exact ⟨rfl, rfl⟩

/-- A refused position. -/
theorem keepsMemCores_keyFault (s : State) : KeepsMemCores s (keyFault s) := by
  unfold keyFault
  extract_lets s1
  have h1 : KeepsMemCores s s1 := (((Reports.setF ..).trans (Reports.unitErr ..)).trans (Reports.latch ..)).keepsMemCores
  have h8 := keepsMemCores_s8Act s1
  split
  · exact ⟨h8.1.trans h1.1, h8.2.trans h1.2⟩
  · exact h1

/-- An accepted position other than WIPE from outside HALT. -/
theorem execKeyPositionAccept_accepted {s : State} {code : Nat} (hc : code ≤ 3) (h : code = 3 → wipeAllowed s = true) :
    execKeyPositionAccept code s = .next (keyAccept s code) := by
  rw [execKeyPositionAccept, if_neg (Nat.not_lt.2 hc), if_neg (by rintro ⟨h3, -, hw⟩; simp [h h3] at hw)]

/-- WIPE that is not permitted. -/
theorem execKeyPositionAccept_wipe_refused {s : State} (h : keyPos s ≠ 3) (hw : wipeAllowed s = false) :
    execKeyPositionAccept 3 s = .next (keyFault (setF s R.TSK_KEY_RAW 3)) := by
  rw [execKeyPositionAccept, if_neg (by decide), if_pos ⟨rfl, h, by simp [hw]⟩]

/-- WIPE that is not permitted, as the detection of the fault sees it. -/
theorem execKeyFaultDetect_wipe {s : State} (h : keyPos s ≠ 3) (hw : wipeAllowed s = false) :
    execKeyFaultDetect 3 s = .next (keyFault (setF s R.TSK_KEY_RAW 3)) := by
  rw [execKeyFaultDetect, if_neg (by decide), if_pos rfl, if_neg (by simp [h, hw])]

/-! ## HALT, restart, the copies of RETAIN -/

section
variable {s : State}

/-- Without a program the module stays halted. -/
theorem restart_no_program (w : Bool) (c : Nat) (f : Bool) (h : (actSlot s).gen = 0) :
    restart s w c f = unitErr (stopProgram { s with tsk := { s.tsk with due := none } }) .sys 0 0x0118 := if_pos h

/-- With a program, W1 to W5 lead to W6. -/
theorem restart_program {w f : Bool} {c : Nat} {s1 s2 : State}
    (h1 : stepW5 (stepW4 (stepW1 { s with tsk := { s.tsk with due := none } } (!w)) w) = s1)
    (h2 : setF (setB (setF (setB s1 R.TSK_RESTART_TYPE w) R.TSK_RESTART_CAUSE c) R.TSK_RESTART_FELLBACK f)
      R.TSK_KEY_WIPED 0 = s2) (h : (actSlot s).gen ≠ 0) :
    restart s w c f = stepW6 { s2 with tsk := { s2.tsk with ph := .units w, shadow := true } } := by
  subst h2 h1
  have hgen : (actSlot { s with tsk := { s.tsk with due := none } }).gen ≠ 0 := h
  unfold restart
  dsimp only at hgen ⊢
  rw [if_neg hgen]

/-- W6 of a restart whose units have left their boundaries. -/
theorem stepW6_done {w : Bool} (hp : s.tsk.ph = .units w) (h : w5Done s = true) : stepW6 s =
    scheduleAll { releaseTask s (if w then 1 else 0) with
      tsk := { (releaseTask s (if w then 1 else 0)).tsk with ph := .init w } } := by
  rw [stepW6, hp]
  exact if_pos h

/-- W6 of a restart that waits for a unit. -/
theorem stepW6_waits {w : Bool} (hp : s.tsk.ph = .units w) (h : w5Done s = false) : stepW6 s = s := by
  rw [stepW6, hp]
  exact if_neg (ne_true_of_eq_false h)

/-- The first cyclic release follows the INIT task at a C2 cycle start. -/
theorem execCyclicFirstRelease_due {w : Bool} (hp : s.tsk.ph = .init w) (hl : (getTask s (if w then 1 else 0)).live = false)
    (hf : (getTask s (if w then 1 else 0)).faulted = false) (hr : reaches s (period s 2) 0 = true) :
    execCyclicFirstRelease s = .next (firstRelease s) := by
  have hdue : w7Due s = true := by rw [w7Due, hp]; simp [hl, hf, hr]
  rw [execCyclicFirstRelease, if_pos hdue]

/-- TSK.CMD RESTART outside TUNE. -/
theorem restartCmd_key (w : Bool) (h : keyPos s ≠ 1) : restartCmd s w = cmdRes s (if w then 1 else 2) 0x0314 :=
  if_pos (by simp [inTune, h])

/-- TSK.CMD RESTART on a module that does not own the process. -/
theorem restartCmd_owner (w : Bool) (h : keyPos s = 1) (ho : owns s = false) :
    restartCmd s w = cmdRes s (if w then 1 else 2) 0x031D :=
  (if_neg (by simp [inTune, h])).trans (if_pos (by simp [ho]))

/-- TSK.CMD RESTART WARM without the warm condition. -/
theorem restartCmd_warm (h : keyPos s = 1) (ho : owns s = true) (hw : warmOk s = false) :
    restartCmd s true = cmdRes s 1 0x0317 :=
  (if_neg (by simp [inTune, h])).trans ((if_neg (by simp [ho])).trans (if_pos (by simp [hw])))

/-- TSK.CMD RESTART accepted. -/
theorem restartCmd_accepted {w : Bool} (h : keyPos s = 1) (ho : owns s = true) (hw : w = false ∨ warmOk s = true) :
    restartCmd s w = cmdRes { s with tsk := { s.tsk with due := some (w, 2, false) } } (if w then 1 else 2) 0x0300 :=
  (if_neg (by simp [inTune, h])).trans ((if_neg (by simp [ho])).trans (if_neg (by cases w <;> simp_all)))

end

/-- Settles O31, by position, step and command. -/
theorem keyStopAndRestart : Obligations.KeyStopAndRestart := by
  refine ⟨fun s code => ?key, fun s => ?stop⟩
  case key =>
    intro s0 a
    have haccept (h : keyPos s ≠ code) (hc : code ≤ 3) (hw : code = 3 → wipeAllowed s = true) {t : State}
        (ht : keyAccept s code = t) : exec (.keyPositionAccept code) s = .next t :=
      (execKeyPositionAccept_accepted hc hw).trans (congrArg _ ht)
    refine ⟨fun hp h hc => ?_, fun hp h hc => ?_, fun hp h hc => ?_, fun hp h hc => ?_, fun hp h hc => ?_,
      fun hp h hk hrole hc => ?_, fun h h0 h4 hc => ?_, fun hc h => ?_⟩
    · exact haccept (by omega) (by omega) (by omega) ((keyAccept_moved hp (by omega) (if_neg (by omega)) (if_neg (by omega))
        (if_neg (by omega))).trans (if_neg (by omega)))
    · exact haccept (by omega) (by omega) (by omega) ((keyAccept_moved hp (by omega) (if_pos h) (if_neg (by omega))
        (if_neg (by omega))).trans (if_neg (by omega)))
    · exact haccept (by omega) (by omega) (by omega) ((keyAccept_moved hp (by omega) (if_neg (by omega)) (if_pos ⟨hc, by omega⟩)
        (if_neg (by omega))).trans (if_neg (by omega)))
    · exact haccept (by omega) (by omega) (by omega) ((keyAccept_moved hp (by omega) (if_pos h) (if_pos ⟨hc, by omega⟩)
        (if_neg (by omega))).trans (if_neg (by omega)))
    · exact haccept (by omega) (by omega) (by omega) ((keyAccept_moved hp (by omega) (if_neg (by omega)) (if_neg (by omega))
        (if_pos ⟨hc, h⟩)).trans (if_neg (by omega)))
    · exact haccept (by omega) (by omega) (fun _ => by simpa [wipeAllowed, h, hk] using hrole) ((keyAccept_moved hp (by omega)
        (if_neg (by omega)) (if_neg (by omega)) (if_neg (by omega))).trans (if_pos hc))
    · subst hc
      exact execKeyPositionAccept_wipe_refused (by omega) (by simp [wipeAllowed, h, h0, h4])
    · subst hc
      have hw : wipeAllowed s = false := by
        have hk : keyPos s ≠ 2 := by omega
        simp [wipeAllowed, hk]
      have hkeep := keepsMemCores_keyFault (setF s R.TSK_KEY_RAW 3)
      exact ⟨_, execKeyPositionAccept_wipe_refused (by omega) hw, execKeyFaultDetect_wipe (by omega) hw, rfl, hkeep.1, hkeep.2⟩
  case stop =>
    refine ⟨fun h => congrArg Host.Outcome.next (if_pos h), fun h => congrArg Host.Outcome.next (if_neg (ne_true_of_eq_false h)),
      rfl, fun c f h => ?warm, fun c f h => ?cold, fun w c f h => restart_no_program w c f h, ?program,
      fun w => execCyclicFirstRelease_due, ?command, ?copy⟩
    case warm =>
      refine (?_ : execRestartWarm s = _)
      rw [execRestartWarm, h]
    case cold =>
      refine (?_ : execRestartCold s = _)
      rw [execRestartCold, h]
    case program =>
      intro w c f h s1 s2 s3
      have hr : restart s w c f = stepW6 s3 := restart_program (s1 := s1) (s2 := s2) rfl rfl h
      exact ⟨fun hd => hr.trans (stepW6_waits rfl hd), fun hd => hr.trans (stepW6_done rfl hd)⟩
    case command =>
      intro w i op res
      have hexec : exec i s = .next (restartCmd s w) := by cases w <;> rfl
      refine ⟨fun h => ?_, fun h ho => ?_, fun h ho hw hwarm => ?_, fun h ho hw => ?_⟩
      all_goals refine hexec.trans (congrArg _ ?_)
      · exact restartCmd_key w h
      · exact restartCmd_owner w h ho
      · subst hw; exact restartCmd_warm h ho hwarm
      · exact restartCmd_accepted h ho hw
    case copy =>
      intro p hp s1
      have hexec : exec (.retainPageCopy p) s = .next (if pagesFor s1 (copyBank s) = [] then copyDone s1 (stopImage s1) else s1) :=
        if_pos hp
      exact ⟨fun h => hexec.trans (congrArg _ (if_neg h)), fun h => hexec.trans (congrArg _ (if_pos h))⟩

end Sys2Proof.Machine
end

section
/-!
PROOFS. Online change (R133 to R136) and stored profiles (R137 to R141).
-/

namespace Sys2Proof.Machine

section
variable {s : State}

/-! ## The commands of an online change -/

/-- A command in a key position that does not permit it. -/
theorem olcCmd_key {keys : List Nat} (h : keys.contains (keyPos s) = false) (op a b : Nat) :
    olcCmd s op keys a b = cmdRes s op 0x0314 := if_pos (by rw [h]; rfl)

/-- A command in another state. -/
theorem olcCmd_state {keys : List Nat} {a : Nat} (h : keys.contains (keyPos s) = true) (ha : olc s ≠ a) (op b : Nat) :
    olcCmd s op keys a b = cmdRes s op 0x031D := (if_neg (by rw [h]; decide)).trans (if_pos (.inl ha))

/-- A command of the owner in its state. -/
theorem olcCmd_accepted {keys : List Nat} {a : Nat} (h : keys.contains (keyPos s) = true) (ha : olc s = a)
    (ho : owns s = true) (op b : Nat) : olcCmd s op keys a b = cmdRes (setOlc s b) op 0x0300 :=
  (if_neg (by rw [h]; decide)).trans (if_neg (by simp [ha, ho]))

/-- The code that a command leaves in CMD_RES. -/
theorem getF_cmdRes {code : Nat} (h : code < 2 ^ 16) (op : Nat) : getF (cmdRes s op code) R.TSK_CMD_RES_CODE = code := by
  rw [cmdRes, getF_setF_disjoint _ R.TSK_CMD_RES_OP R.TSK_CMD_RES_CODE op 0 0 0 0 rfl rfl (by decide) (by decide),
    getF_setF_same _ _ _ _ _ (by decide)]
  exact Nat.mod_eq_of_lt h

/-- REVERT of the owner in TUNE, confirmed to the standby. -/
theorem execTskRevert_accepted (hk : keyPos s = 1) (ho : owns s = true) (hs : olc s = 3) :
    execTskRevert s = .next (ctrlSend (cmdRes (setOlc s 4) 5 0x0300) .revert) := by
  have hcmd : olcCmd s 5 [1] 3 4 = cmdRes (setOlc s 4) 5 0x0300 := olcCmd_accepted (by rw [hk]; rfl) hs ho 5 4
  rw [execTskRevert, hcmd, if_pos (getF_cmdRes (by decide) 5)]

/-- REVERT outside TUNE. -/
theorem execTskRevert_key (hk : keyPos s ≠ 1) : execTskRevert s = .next (cmdRes s 5 0x0314) := by
  have hcmd : olcCmd s 5 [1] 3 4 = cmdRes s 5 0x0314 := olcCmd_key (by simpa using hk) 5 3 4
  rw [execTskRevert, hcmd, if_neg (by rw [getF_cmdRes (by decide) 5]; decide)]

/-- COMMIT of the owner: the old program's slot is free, and the standby hears of it. -/
theorem execTskCommit_accepted (hk : keyPos s < 3) (ho : owns s = true) (hs : olc s = 3) :
    execTskCommit s = .next (ctrlSend (freeOld (cmdRes (setOlc s 0) 4 0x0300)) .commit) := by
  have hcmd : olcCmd s 4 [0, 1, 2] 3 0 = cmdRes (setOlc s 0) 4 0x0300 :=
    olcCmd_accepted (by simp; omega) hs ho 4 0
  rw [execTskCommit, hcmd, if_pos (getF_cmdRes (by decide) 4)]

/-- The switch or revert point at a C2 cycle start. -/
theorem switchDue_of (ho : olc s = 2 ∨ olc s = 4) (hr : reaches s (period s 2) 0 = true)
    (hu : undone (deliveries s) 5 = true) :
    switchDue s = switchPoint (taken (deliveries s) 5) (olc (deliveries s) == 4) := by
  have hdue : ((olc s == 2 || olc s == 4) && atC2 s) = true := by
    rw [show atC2 s = true from hr, Bool.and_true, Bool.or_eq_true, beq_iff_eq, beq_iff_eq]
    exact ho
  rw [switchDue, if_pos hdue, carry_of_undone hu]
  rfl

/-! ## Stored profiles -/

section
variable {n : Nat} (hn : n < 4) (hk : keyPos s ≠ 3) (ho : owns s = true)
include hn

/-- SELECT of a profile number. -/
theorem execTskSelect_eq : execTskSelect n s = if keyPos s = 3 then .next (cmdRes s 6 0x0314)
    else if !owns s then .next (cmdRes s 6 0x031D) else if !(getProfile s n).stored then .next (cmdRes s 6 0x031E)
    else .next (if getB s R.TSK_PROF_SRCSEL then profRequest (cmdRes (setF s R.TSK_PROF_CMDVAL n) 6 0x0300) n
      else cmdRes (setF s R.TSK_PROF_CMDVAL n) 6 0x0300) := by
  rw [execTskSelect, Nat.mod_eq_of_lt hn]

/-- The profile pins with a new value. -/
theorem execProfilePinRequest_eq : execProfilePinRequest n s =
    if getB s R.TSK_PROF_SRCSEL || !owns s || keyPos s == 3 || !(getProfile s n).stored then .next (setF s R.TSK_PROF_PINS n)
    else .next (profRequest (setF s R.TSK_PROF_PINS n) n) := by
  rw [execProfilePinRequest, Nat.mod_eq_of_lt hn]

/-- SELECT in WIPE. -/
theorem execTskSelect_key (h : keyPos s = 3) : execTskSelect n s = .next (cmdRes s 6 0x0314) := by
  rw [execTskSelect_eq hn, if_pos h]

omit hn in
/-- STORE outside TUNE and HALT. -/
theorem execTskStore_key (h : keyPos s = 0 ∨ keyPos s = 3) : execTskStore n s = .next (cmdRes s 8 0x0314) :=
  if_pos (by omega)

/-- STORE while no profile switch runs. -/
theorem execTskStore_now (h : keyPos s = 1 ∨ keyPos s = 2) (hp : s.tsk.profSw = none) :
    execTskStore n s = .next (profStoreNow s n) := by
  rw [execTskStore, if_neg (by omega), hp, if_neg (by simp), Nat.mod_eq_of_lt hn]

/-- STORE while a profile switch runs. -/
theorem execTskStore_later (h : keyPos s = 1 ∨ keyPos s = 2) (hp : s.tsk.profSw.isSome = true) :
    execTskStore n s = .next { s with tsk := { s.tsk with profStore := some n } } := by
  rw [execTskStore, if_neg (by omega), hp, if_pos rfl, Nat.mod_eq_of_lt hn]

include hk ho

/-- SELECT of a profile that is not stored. -/
theorem execTskSelect_absent (h : (getProfile s n).stored = false) : execTskSelect n s = .next (cmdRes s 6 0x031E) := by
  rw [execTskSelect_eq hn, if_neg hk, if_neg (by simp [ho]), if_pos (by simp [h])]

/-- SELECT of a stored profile. -/
theorem execTskSelect_stored (h : (getProfile s n).stored = true) : execTskSelect n s =
    .next (if getB s R.TSK_PROF_SRCSEL then profRequest (cmdRes (setF s R.TSK_PROF_CMDVAL n) 6 0x0300) n
      else cmdRes (setF s R.TSK_PROF_CMDVAL n) 6 0x0300) := by
  rw [execTskSelect_eq hn, if_neg hk, if_neg (by simp [ho]), if_neg (by simp [h])]

/-- The pins name a stored profile: a request where they are the source. -/
theorem execProfilePinRequest_stored (h : (getProfile s n).stored = true) : execProfilePinRequest n s =
    .next (if getB s R.TSK_PROF_SRCSEL then setF s R.TSK_PROF_PINS n
      else profRequest (setF s R.TSK_PROF_PINS n) n) := by
  rw [execProfilePinRequest_eq hn]
  cases hb : getB s R.TSK_PROF_SRCSEL <;> simp [ho, hk, h]

end

/-- No unit is late. -/
theorem profLateRun_nil (h : s.tsk.profLate = []) : profLateRun s = { s with tsk := { s.tsk with profLate := [] } } := by
  rw [profLateRun, h]
  rfl

/-- A profile switch that starts once its late instances run. -/
theorem profSwitchStart_of {s1 : State} {n : Nat} (h : switchStarts s = true) (hl : profLateRun s = s1)
    (hq : s1.tsk.profReq = some n) (hn : n ≠ getF s1 R.TSK_PROF_ACT) (hp : (getProfile s1 n).stored = true) :
    profSwitchStart s = profStart_ s1 n := by
  rw [profSwitchStart, if_neg (by simp [h])]
  dsimp only
  rw [hl, hq]
  exact if_neg (by simp [hn, hp])

end

/-- Settles O32, command by command and instant by instant. -/
theorem onlineChangeAndProfiles : Obligations.OnlineChangeAndProfiles := by
  intro s res put state
  have hkeys4 (h : keyPos s < 4) : [0, 1, 2, 3].contains (keyPos s) = true := by simp; omega
  refine ⟨fun hk ho hs => ?_, fun hk => ⟨?_, execTskRevert_key hk⟩, fun hk hs => ?_, ?commit,
    fun hk ho hs => execTskRevert_accepted hk ho hs, fun hk ho hs => ?_, fun hk ho hs => ?_, ?points, fun n hn => ?profiles,
    ?start, fun w hw hlt hr => ?_⟩
  case commit =>
    intro hk ho hs x
    have hx : freeOld (cmdRes (setOlc s 0) 4 0x0300) = norSlots x := rfl
    refine (execTskCommit_accepted hk ho hs : execTskCommit s = _).trans ?_
    rw [hx]
    rfl
  · exact congrArg Host.Outcome.next (olcCmd_accepted (by rw [hk]; rfl) hs ho 3 2)
  · exact congrArg Host.Outcome.next (olcCmd_key (by simpa using hk) 3 1 2)
  · exact congrArg Host.Outcome.next (olcCmd_state (by rw [hk]; rfl) hs 3 2)
  · exact congrArg Host.Outcome.next ((if_pos hs).trans (olcCmd_accepted (hkeys4 hk) hs ho 7 3))
  · exact congrArg Host.Outcome.next ((if_neg (by show olc s ≠ 4; have : olc s = 2 := hs; omega)).trans
      (olcCmd_accepted (hkeys4 hk) hs ho 7 1))
  case points =>
    intro y x hr hu
    refine ⟨fun hs hy => ?_, fun hs hy => ?_⟩
    · refine congrArg Host.Outcome.next ((if_pos hs).trans ((switchDue_of (.inl hs) hr hu).trans ?_))
      rw [hy]
      rfl
    · refine congrArg Host.Outcome.next ((if_pos hs).trans ((switchDue_of (.inr hs) hr hu).trans ?_))
      rw [hy]
      rfl
  case profiles =>
    refine ⟨execTskSelect_key hn, fun hk ho hp => execTskSelect_absent hn hk ho hp, fun hk ho hp hb => ?_, fun hk ho hp hb => ?_,
      execTskStore_key, execTskStore_now hn, execTskStore_later hn⟩
    · exact ⟨(execTskSelect_stored hn hk ho hp).trans (by rw [hb]; rfl),
        (execProfilePinRequest_stored hn hk ho hp).trans (by rw [hb]; rfl)⟩
    · exact ⟨(execTskSelect_stored hn hk ho hp).trans (by rw [hb]; rfl),
        (execProfilePinRequest_stored hn hk ho hp).trans (by rw [hb]; rfl)⟩
  case start =>
    intro n x hr hs hl hq hn hp
    have hexec : exec .profileSwitchStart s = .next (profSwitchStart x) := congrArg Host.Outcome.next (if_pos hr)
    refine hexec.trans (congrArg _ ?_)
    clear_value x
    exact profSwitchStart_of hs (profLateRun_nil hl) hq hn hp
  · refine (?_ : execProfileSwitchRun s = _)
    rw [execProfileSwitchRun, hw]
    exact if_pos (by simp [hlt, hr])

end Sys2Proof.Machine
end

section
/-!
PROOFS. Requests on UNIT_CTL and the boundaries at which they complete (R143, R144).
-/

namespace Sys2Proof.Machine

section
variable {s : State} {b : Blk} {i : Nat}

/-- CONFIG and RUN of SYS wait for LIO and TIME to be out of RUN. -/
theorem configAllowed_iff : configAllowed s b = true ↔ (b = .sys → stOf s .lio < 2 ∧ stOf s .time < 2) := by
  simp only [configAllowed, Bool.or_eq_true, bne_iff_ne, ne_eq, Bool.and_eq_true, decide_eq_true_eq]
  tauto

/-- A write that passes its checks is a request. -/
theorem unitWrite_of_permitted {mg : Bool} {req : Nat} (hi : i < copies s b) (hk : mg = true → keyPos s = 1 ∨ keyPos s = 2)
    (hs : b = .saf → mg = true ∧ keyPos s = 2) (hp : b = .pair → role s = 0 ∨ role s = 4) (hr : req ≠ 0) :
    unitWrite s b i req mg = unitReq s b i req := by
  have hrole : roleRefused s b = false := by
    cases hb : b == Blk.pair with
    | false => simp [roleRefused, hb]
    | true =>
      have := hp (beq_iff_eq.1 hb)
      simpa [roleRefused, hb, or_iff_not_imp_left] using this
  have hmg : ¬(mg ∧ keyPos s ≠ 1 ∧ keyPos s ≠ 2) := fun h => by
    have := hk h.1
    omega
  rw [unitWrite, if_neg (by omega), if_neg fun h => by simp [hs h.1] at h, if_neg fun h => h.2 (hs h.1).2, if_neg hmg, hrole]
  rfl

/-! ## Requests (Table TSK-15) -/

/-- A request while BUSY. -/
theorem unitReq_busy {req : Nat} (hr : req ≠ 0) (h : getB s (hBusy b) i = true) : unitReq s b i req = setF s (hRes b) 2 i :=
  (if_neg hr).trans (if_pos h)

variable (h : getB s (hBusy b) i = false)
include h

/-- STOP in RUN begins a transition. -/
theorem unitReq_stop_run (hs : stOf s b i = 2) : unitReq s b i 1 = setF (setF s (hRes b) 0 i) (hBusy b) 1 i :=
  (if_neg (ne_true_of_eq_false h)).trans (if_pos hs)

/-- STOP out of RUN acts at once; TSK does not leave FAULT by it. -/
theorem unitReq_stop_idle (hs : stOf s b i ≠ 2) (hf : ¬(stOf s b i = 3 ∧ b = .tsk)) :
    unitReq s b i 1 = setF (cfgLand (setSt s b i 0) b i) (hRes b) 0 i :=
  (if_neg (ne_true_of_eq_false h)).trans ((if_neg hs).trans (if_neg hf))

/-- STOP of TSK in FAULT. -/
theorem unitReq_stop_tsk (hs : stOf s b i = 3) (hb : b = .tsk) : unitReq s b i 1 = setF s (hRes b) 1 i :=
  (if_neg (ne_true_of_eq_false h)).trans
    ((if_neg (by rw [hs]; decide)).trans (if_pos ⟨hs, hb⟩))

/-- CONFIG in STOP. -/
theorem unitReq_config_stop (hs : stOf s b i = 0) : unitReq s b i 2 =
    if configAllowed s b then setF (setSt s b i 1) (hRes b) 0 i else setF s (hRes b) 1 i :=
  (if_neg (ne_true_of_eq_false h)).trans
    ((if_neg (by rw [hs]; decide)).trans (if_neg (by rw [hs]; decide)))

/-- CONFIG in CONFIG. -/
theorem unitReq_config_config (hs : stOf s b i = 1) : unitReq s b i 2 = setF s (hRes b) 0 i :=
  (if_neg (ne_true_of_eq_false h)).trans ((if_neg (by rw [hs]; decide)).trans (if_pos hs))

/-- CONFIG in RUN and FAULT. -/
theorem unitReq_config_refused (hs : stOf s b i = 2 ∨ stOf s b i = 3) : unitReq s b i 2 = setF s (hRes b) 1 i :=
  (if_neg (ne_true_of_eq_false h)).trans (if_pos hs)

/-- RUN in FAULT. -/
theorem unitReq_run_fault (hs : stOf s b i = 3) : unitReq s b i 3 = setF s (hRes b) 1 i :=
  (if_neg (ne_true_of_eq_false h)).trans (if_pos hs)

/-- RUN in RUN. -/
theorem unitReq_run_run (hs : stOf s b i = 2) : unitReq s b i 3 = setF s (hRes b) 0 i :=
  (if_neg (ne_true_of_eq_false h)).trans ((if_neg (by rw [hs]; decide)).trans (if_pos hs))

/-- RUN of SYS while LIO or TIME is in RUN. -/
theorem unitReq_run_sys (hs : stOf s b i = 0) (hc : configAllowed s b = false) : unitReq s b i 3 = setF s (hRes b) 1 i :=
  (if_neg (ne_true_of_eq_false h)).trans ((if_neg (by rw [hs]; decide)).trans
    ((if_neg (by rw [hs]; decide)).trans (if_pos ⟨hs, by rw [hc]; rfl⟩)))

/-- RUN in STOP and CONFIG is a run request. -/
theorem unitReq_run_request (hs : stOf s b i < 2) (hc : stOf s b i = 0 → configAllowed s b = true) :
    unitReq s b i 3 = runRequest (setSt s b i 1) b i :=
  (if_neg (ne_true_of_eq_false h)).trans ((if_neg (by unfold stFAULT; omega)).trans
    ((if_neg (by unfold stRUN; omega)).trans (if_neg fun hn => by simp [hc hn.1] at hn)))

omit h in
/-- A run request with no conflict, refused by the check of its unit. -/
theorem runRequest_refused {y : State} {c : Nat} (hy : cfgLand s b i = y) (hm : mapCheck y b i = none)
    (hc : resConflict y b i = none) (hr : runCode y b i = some c) : runRequest s b i = runRefused y b i c := by
  subst hy
  unfold runRequest
  dsimp only
  rw [hm]
  dsimp only
  rw [hc]
  dsimp only
  rw [hr]

omit h in
/-- A run request with no conflict, accepted. -/
theorem runRequest_accepted {y : State} (hy : cfgLand s b i = y) (hm : mapCheck y b i = none)
    (hc : resConflict y b i = none) (hr : runCode y b i = none) : runRequest s b i =
      if b = .lio then lioRunStart (setF (setF (cfgLatch y b i) (hRes b) 0 i) (hBusy b) 1 i)
      else setF (setF (cfgLatch y b i) (hRes b) 0 i) (hBusy b) 1 i := by
  subst hy
  unfold runRequest
  dsimp only
  rw [hm]
  dsimp only
  rw [hc]
  dsimp only
  rw [hr]

end

/-! ## Boundaries -/

section
variable {s : State} {b : Blk} {i : Nat} (hi : i < copies s b) (h : getB s (hBusy b) i = true)
include hi h

/-- A pending STOP: at its boundary, or not yet. -/
theorem boundary_stop (hs : stOf s b i = 2) : boundary s b i = if stopDue s b then stopped s b i else s :=
  (if_neg (by simp [h, hi])).trans (if_pos hs)

/-- A pending RUN: at its boundary, or not yet. -/
theorem boundary_run (hs : stOf s b i ≠ 2) : boundary s b i = if runDue s b then intoRun s b i else s :=
  (if_neg (by simp [h, hi])).trans (if_neg hs)

end

/-- No word is kept for a unit: there is nothing to land. -/
theorem cfgLand_none {s : State} {b : Blk} {i : Nat} (h : ∀ w ∈ s.lateCfg, cfgOwner w.1 ≠ some (b, i)) : cfgLand s b i = s := by
  have hmine : s.lateCfg.filter (fun w => cfgOwner w.1 == some (b, i)) = [] :=
    List.filter_eq_nil_iff.2 fun w hw => by simpa using h w hw
  have hrest : s.lateCfg.filter (fun w => !(cfgOwner w.1 == some (b, i))) = s.lateCfg :=
    List.filter_eq_self.2 fun w hw => by simpa using h w hw
  rw [cfgLand]
  dsimp only
  rw [hmine, hrest]
  rfl

/-- Settles O33, request by request. -/
theorem unitRequests : Obligations.UnitRequests := by
  intro s b i mg hi hk res free
  have hfree : configAllowed s b = true ↔ free := configAllowed_iff
  refine ⟨fun hsaf hpair => ⟨fun hb => ?busy, fun hb => ?requests⟩, cfgLand_none, ?stopWaits, ?stops, ?runs, ?runWaits, ?_, rfl,
    rfl, ?_⟩
  case busy =>
    have hreq {req : Nat} (hr : req ≠ 0) : unitWrite s b i req mg = res s 2 :=
      (unitWrite_of_permitted hi hk hsaf hpair hr).trans (unitReq_busy hr hb)
    exact ⟨congrArg _ (hreq (by decide)), congrArg _ (hreq (by decide)), congrArg _ (hreq (by decide))⟩
  case requests =>
    have hstop {t : State} (ht : unitReq s b i 1 = t) : exec (.unitReqStop b i mg) s = .next t :=
      congrArg _ ((unitWrite_of_permitted hi hk hsaf hpair (by decide)).trans ht)
    have hconfig {t : State} (ht : unitReq s b i 2 = t) : exec (.unitReqConfig b i mg) s = .next t :=
      congrArg _ ((unitWrite_of_permitted hi hk hsaf hpair (by decide)).trans ht)
    have hrun {t : State} (ht : unitReq s b i 3 = t) : exec (.unitReqRun b i mg) s = .next t :=
      congrArg _ ((unitWrite_of_permitted hi hk hsaf hpair (by decide)).trans ht)
    refine ⟨fun h => hstop (unitReq_stop_run hb h), fun h => hstop (unitReq_stop_idle hb (by omega) (by omega)),
      fun h ht => hstop (unitReq_stop_idle hb (by omega) (by simp [ht])), fun h ht => hstop (unitReq_stop_tsk hb h ht),
      fun h hf => hconfig ((unitReq_config_stop hb h).trans (if_pos (hfree.2 hf))),
      fun h hf => ⟨hconfig ((unitReq_config_stop hb h).trans (if_neg fun hc => hf (hfree.1 hc))),
        hrun (unitReq_run_sys hb h (Bool.eq_false_iff.2 fun hc => hf (hfree.1 hc)))⟩,
      fun h => hconfig (unitReq_config_config hb h), fun h => hconfig (unitReq_config_refused hb h),
      fun h => hrun (unitReq_run_fault hb h), fun h => hrun (unitReq_run_run hb h), ?_⟩
    intro y w hs hf hm hc
    have hreq := unitReq_run_request hb hs fun h0 => hfree.2 (hf h0)
    exact ⟨fun hcode => hrun (hreq.trans (runRequest_accepted rfl hm hc hcode)),
      fun code hcode => hrun (hreq.trans (runRequest_refused rfl hm hc hcode))⟩
  case stopWaits =>
    intro hb hs hbs hr
    exact congrArg Host.Outcome.next ((boundary_stop hi hb hs).trans (if_neg (by simp [stopDue, hbs, hr])))
  case stops =>
    intro hb hs hbs y
    exact congrArg Host.Outcome.next ((boundary_stop hi hb hs).trans (if_pos (by simpa [stopDue] using hbs)))
  case runs => exact fun hb hs hr => congrArg Host.Outcome.next ((boundary_run hi hb hs).trans (if_pos hr))
  case runWaits =>
    exact fun hb hs hr => congrArg Host.Outcome.next ((boundary_run hi hb hs).trans (if_neg (ne_true_of_eq_false hr)))
  · intro hkey
    refine congrArg Host.Outcome.next ?_
    rw [unitWrite, if_neg (by simp [copies, Blk.count]), if_neg (by simp), if_pos ⟨rfl, hkey⟩]
  · intro h0 h4
    refine congrArg Host.Outcome.next ?_
    rw [unitWrite, if_neg (by simp [copies, Blk.count]), if_neg (by simp), if_neg (by simp), if_neg, if_pos]
    · simp [roleRefused, h0, h4]
    · rintro ⟨hm, h1, h2⟩
      have := hk hm
      omega

end Sys2Proof.Machine
end

section
/-!
PROOFS. The re-read of an invalidated channel entry that cannot be read (R34, R149).
-/

namespace Sys2Proof.Machine

/-- The first refused entry is kept in registers alone. -/
theorem Reports.badEntry (s : State) (n : Nat) : Reports s (badEntry s n) :=
  ite (ite (refl s) (setF ..)) ((setF ..).trans (setF ..))

/-- The count of pending re-reads stands in registers alone. -/
theorem Reports.refillDown (s : State) : Reports s (refillDown s) :=
  ite ((setF ..).trans (setF ..)) (setF ..)

/-- A re-read of an entry with an uncorrectable error ends with the cached copy and its instant as they were. -/
theorem getChan_reread_of_bad (s : State) (n : Nat) (hinv : (getChan s n).inv = true) (hbad : entryRead s n = none) :
    getChan (reread s n) n = { getChan s n with inv := false } := by
  have hstep : reread s n = refillDown (latch (badEntry
      (unitErrAt (setChan s n { getChan s n with inv := false }) .chn 0 0x0510 n []) n) .chn 0 4) := by
    rw [reread]; dsimp only; rw [if_pos hinv, hbad]
  have hrep : Reports (setChan s n { getChan s n with inv := false }) (reread s n) := by
    rw [hstep]
    exact (((Reports.unitErrAt ..).trans (Reports.badEntry ..)).trans (Reports.latch ..)).trans (Reports.refillDown ..)
  obtain ⟨-, -, -, -, hchn, -⟩ := hrep.frame
  rw [getChan, hchn]
  exact mget_mput_same ..

/-- A module whose channel 0 waits for its re-read, with an uncorrectable error in the first word of its table entry. -/
def badRereadState : State := { setChan State.reset 0 { inv := true } with bad := [0x02000000 / 8] }

/-- Refutes O38: a pending re-read that meets an uncorrectable error (R34) leaves the cached copy and its instant as they were
and records 0x0510; it does not take the entry. -/
theorem not_channelUnitCommands : ¬ Obligations.ChannelUnitCommands := by
  unfold Obligations.ChannelUnitCommands
  intro h
  obtain ⟨-, -, -, hreread, -⟩ := h badRereadState
  have hinv : (getChan badRereadState 0).inv = true := rfl
  have hbad : entryRead badRereadState 0 = none := if_pos (by decide)
  have htaken := Host.Outcome.next.inj ((hreread 0 hinv).2 (by decide))
  have hreadAt := congrArg (fun t => (getChan t 0).readAt) htaken
  dsimp only at hreadAt
  rw [getChan_reread_of_bad badRereadState 0 hinv hbad] at hreadAt
  exact absurd hreadAt (by decide)

end Sys2Proof.Machine
end

section
/-!
PROOFS. Frames, events and calls of the field links (R171 to R201).
-/

namespace Sys2Proof.Machine

/-- A condition that fails because its negation's Boolean holds. -/
theorem not_bnot_of_true {b : Bool} (h : b = true) : ¬ (!b) = true := by simp [h]

section
variable {s s1 : State} {p q : Nat} {fr : List Byte}

/-! ## Received frames -/

/-- A port in RUN discards an IN frame that fails R171. -/
theorem inFrameRx_discard {k : RxKind} (hp : p < nPort s) (hr : inRun s .lnkPort p = true) (hk : k = .badFcs ∨ k = .bad)
    (h : rxKind fr 2 = k) : execInFrameRx p fr s = .next (rxDiscard s p fr k) := by
  rw [execInFrameRx, if_neg (by simp [hp, hr])]
  rcases hk with rfl | rfl <;> rw [h]

/-- A port in RUN discards a FIN frame that fails R171. -/
theorem finFrameRx_discard {k : RxKind} (hp : p < nPort s) (hr : inRun s .lnkPort p = true) (hk : k = .badFcs ∨ k = .bad)
    (h : rxKind fr 4 = k) : execFinFrameRx p fr s = .next (rxDiscard s p fr k) := by
  rw [execFinFrameRx, if_neg (by simp [hp, hr])]
  rcases hk with rfl | rfl <;> rw [h]

/-- A port in RUN discards an ARSP frame that fails R171. -/
theorem arspRx_discard {k : RxKind} (hp : p < nPort s) (hr : inRun s .lnkPort p = true) (hk : k = .badFcs ∨ k = .bad)
    (h : rxKind fr 6 = k) : execArspRx p fr s = .next (rxDiscard s p fr k) := by
  rw [execArspRx, if_neg (by simp [hp, hr])]
  rcases hk with rfl | rfl <;> rw [h]

/-- An IN frame of a position without a station is one sent outside its slot. -/
theorem inFrameRx_of_unplaced (hp : p < nPort s) (hr : inRun s .lnkPort p = true) (h : rxKind fr 2 = .ok)
    (hq : 4 ≤ frF fr 25 1 ∨ stConfigured s (4 * p + frF fr 25 1) = false) :
    execInFrameRx p fr s = .next (overSend s p) := by
  rw [execInFrameRx, if_neg (by simp [hp, hr]), h]
  exact if_pos (by simpa using hq)

/-- An ARSP frame of a position without a station is one sent outside its grant. -/
theorem arspRx_of_unplaced (hp : p < nPort s) (hr : inRun s .lnkPort p = true) (h : rxKind fr 6 = .ok)
    (hq : 4 ≤ frF fr 25 1 ∨ stConfigured s (4 * p + frF fr 25 1) = false) :
    execArspRx p fr s = .next (overSend s p) := by
  rw [execArspRx, if_neg (by simp [hp, hr]), h]
  exact if_pos (by simpa using hq)

end

/-- Settles O39, frame by frame, event by event and call by call: every clause is one path through its command. -/
theorem fieldLinks : Obligations.FieldLinks := by
  unfold Obligations.FieldLinks
  refine ⟨fun s p hp hr => ⟨fun fr k hk => ⟨inFrameRx_discard hp hr hk, finFrameRx_discard hp hr hk, arspRx_discard hp hr hk⟩,
    ?inFrame, ?unplaced, ?fin, ?arsp, ?areq, ?iout, rfl, ?ident, ?init, ?acyc, ?down, ?up, ?phy, ?buf⟩,
    fun s s1 c i => ⟨?lnkAcyc, ?outnow, ?reinit, ?read⟩⟩
  case inFrame =>
    intro fr q s1 hfq hq hcfg i f t0 n hok
    have hunfold : exec (.inFrameRx p fr) s = execInFrameRx p fr s := rfl
    rw [hunfold, execInFrameRx, if_neg (by simp [hp, hr]), hok]
    dsimp only
    rw [hfq, if_neg (by simp [hcfg, hq])]
    refine ⟨fun hpos hlate => ?_, fun h => ?_, fun hgap hsl => ⟨fun hslot => ?_, fun hslot hep how hlen hdl hid => ?_⟩⟩
    · exact (if_pos hpos.ne').trans (congrArg _ (if_pos hlate))
    · by_cases hgap : (n + 65536 - f.cyc) % 65536 = 0
      · exact (if_neg (not_not.2 hgap)).trans (if_pos ((h.resolve_left (by omega)).2))
      · exact (if_pos hgap).trans (congrArg _ (if_neg (h.resolve_right (fun hz => hgap hz.1)).not_gt))
    · exact (if_neg (not_not.2 hgap)).trans ((if_neg (Nat.not_lt.2 hsl)).trans (if_pos (congrArg (!·) hslot)))
    · refine (if_neg (not_not.2 hgap)).trans ((if_neg (Nat.not_lt.2 hsl)).trans
        ((if_neg (not_bnot_of_true hslot)).trans ?_))
      rw [hep]
      exact (if_neg (not_or.2 ⟨Bool.false_ne_true, not_or.2 ⟨not_not.2 hlen, not_not.2 hdl⟩⟩)).trans
        ((if_neg (not_bnot_of_true how)).trans (if_neg (not_not.2 hid)))
  case unplaced =>
    rintro fr q rfl hq
    exact ⟨fun h => inFrameRx_of_unplaced hp hr h hq, fun h => arspRx_of_unplaced hp hr h hq⟩
  case fin =>
    intro fr q s1 hfq hq hcfg hnf hok i hlen tf tj hsub hgap hsl hslot hep hdl
    refine (if_neg (by simp [hp, hr])).trans ?_
    rw [hok]
    dsimp only
    rw [hfq, if_neg (by simp [hcfg, hq, hlen, i]), if_neg (by omega)]
    refine (if_neg (not_not.2 hgap)).trans ((if_neg (Nat.not_lt.2 hsl)).trans
        ((if_neg (not_bnot_of_true hslot)).trans ?_))
    rw [hep]
    exact if_neg (not_or.2 ⟨Bool.false_ne_true, not_not.2 hdl⟩)
  case arsp =>
    intro fr q hfq hq hcfg hok
    have hunfold : exec (.arspRx p fr) s = execArspRx p fr s := rfl
    rw [hunfold, execArspRx, if_neg (by simp [hp, hr]), hok]
    dsimp only
    rw [hfq, if_neg (by simp [hcfg, hq])]
    refine ⟨fun hg => by rw [hg], fun g r hg hfind => ?_⟩
    rw [hg]
    dsimp only
    rw [hfind]
    exact ⟨fun hlast => if_neg hlast, fun hmore => if_pos hmore⟩
  case areq =>
    intro r z hp hr hout hiout hnext hgap v x body tx aq
    have hsent : areqSend p z = _ := if_neg (by simp [hp, hr, hout, hiout])
    rw [hnext] at hsent
    exact congrArg Host.Outcome.next (hsent.trans (if_neg (not_bnot_of_true hgap)))
  case iout =>
    intro r rest b s1 z hp hr hout hiout hgap hbody hb tx busy
    refine (if_neg (by simp [hp, hr, hout])).trans ?_
    rw [hiout]
    refine (if_neg (by simp [hgap])).trans ?_
    rw [hbody]
    have hne : b.isEmpty = false := by simpa using hb
    dsimp only
    rw [hne]
    rfl
  case ident =>
    intro q hlist hpoll hopen hpolled
    refine (if_neg (by simp [hp, hr])).trans (congrArg _ ?_)
    rw [hlist]
    exact if_pos (by simp [hpoll, hopen, hpolled])
  case init =>
    rintro i hi rfl hst htime
    exact if_pos ⟨hi, hst, hr, htime⟩
  case acyc =>
    intro r haq hcls htmo
    refine (if_neg (by simp [hp, hr])).trans (congrArg _ ?_)
    rw [haq, List.filter_cons_of_pos (by simpa using htmo), List.filter_cons_of_neg (by simpa using htmo)]
    exact if_neg hcls
  case down => exact fun hup => if_neg (by simp [hp, hup])
  case up => exact if_neg (by omega)
  case phy => exact if_neg (by omega)
  case buf => exact if_neg (by omega)
  case lnkAcyc =>
    intro hcall svc s2 hsvc
    have hunfold : exec (.lnkAcyc i) s = execLnkAcyc i s := rfl
    rw [hunfold, execLnkAcyc, hcall]
    dsimp only
    rw [hsvc]
    refine ⟨fun h => if_pos h, fun sub idx alen tmo data tok s3 s4 s5 s6 s7 s8 h h3 h4 h5 h6 h7 h8 => ?_⟩
    refine (if_neg (by omega)).trans ?_
    simp only [h3, h4, h5, h6, h7, h8]
  case outnow =>
    intro hcall n s2 chs s3 hn hchs
    have hunfold : exec (.lnkOutnow i) s = execLnkOutnow i s := rfl
    rw [hunfold, execLnkOutnow, hcall]
    dsimp only
    rw [hn]
    refine ⟨fun h => if_pos h, fun h hall => (if_neg (by omega)).trans ?_⟩
    rw [hchs]
    refine if_neg ?_
    simp only [List.any_eq_true, Bool.or_eq_true, decide_eq_true_eq, Bool.not_eq_true', List.contains_eq_mem,
      decide_eq_false_iff_not, not_exists, not_and, not_or, not_not]
    exact fun ch hch => ⟨by have := (hall ch hch).1; omega, (hall ch hch).2⟩
  case reinit =>
    intro hcall
    have hunfold : exec (.lnkReinit i) s = execLnkReinit i s := rfl
    rw [hunfold, execLnkReinit, hcall]
    exact ⟨fun h => if_pos h, fun h => if_neg (not_not.2 h)⟩
  case read =>
    intro hcall
    have hunfold : exec (.lnkRead i) s = execLnkRead i s := rfl
    rw [hunfold, execLnkRead, hcall]

end Sys2Proof.Machine
end

section
/-!
PROOFS. The local I/O sequencer in RUN (R202 to R226).
-/

namespace Sys2Proof.Machine

section
variable {s : State}

/-- Without a pulse there is none to judge. -/
theorem pulseEndCheck_of_none (h : s.lio.pulse = none) : pulseEndCheck s = s := by
  rw [pulseEndCheck]; dsimp only; rw [h]

/-- Without a pulse a readback says nothing of one. -/
theorem pulseReadback_of_none (rb : Nat) (h : s.lio.pulse = none) : pulseReadback s rb = s := by
  rw [pulseReadback]; dsimp only; rw [h]

/-- A loop of one turn. -/
theorem forEach_singleton {α : Type} (x : α) (f : State → α → State) : forEach [x] s f = f s x := rfl

/-- No bit joins a register. -/
theorem getF_or_zero (f : Fld) (n : Nat) : getF s f ||| 0 * n = getF s f := by rw [Nat.zero_mul, Nat.or_zero]

end

/-- Settles O40, event by event: every clause is one path through its command in RUN. -/
theorem localPoints : Obligations.LocalPoints := by
  unfold Obligations.LocalPoints
  intro s hr
  refine ⟨?sample, ?apply, ?loopAo, fun v hv => ⟨?trip, ?retry, ?vsPulse⟩,
    fun n hn => ⟨?doPulse, ?overload, ?overtemp, ?openLoad, ?extv, ?doRetry⟩, ?wd, ?conversion,
    fun n hn => ⟨?aiOverload, ?shunt⟩, ⟨?step, ?cal, ?handover, ?selfcheck⟩, ?ao⟩
  case sample =>
    intro di rb hp
    refine (if_neg (not_bnot_of_true hr)).trans ?_
    rw [pulseEndCheck_of_none hp, pulseReadback_of_none _ hp]
    dsimp only
    rw [hp]
    rfl
  case apply =>
    intro n t v htaken hpair
    have hunfold : exec .localOutputApply s = execLocalOutputApply s := rfl
    rw [hunfold, execLocalOutputApply, if_neg (not_bnot_of_true hr), htaken, hpair]
    have hkeep (l) : ({ s.lio with taken := l, pairNext := [] } : LioSt) = { s.lio with taken := l } := by rw [← hpair]
    refine ⟨fun h => ?_, fun h => ?_⟩
    · rw [List.filter_cons_of_pos (by simpa using h), List.filter_cons_of_neg (by simpa using h)]
      exact congrArg (fun l => Host.Outcome.next (pointApply { s with lio := l } (getChan s n).latched.point v)) (hkeep [])
    · rw [List.filter_cons_of_neg (by simpa using h), List.filter_cons_of_pos (by simpa using h)]
      refine (congrArg (fun l => Host.Outcome.next { s with lio := l }) (hkeep [(n, t, v)])).trans ?_
      rw [← htaken]
  case loopAo =>
    intro n w rest v s1 hw hdue hsrc hown hval
    refine (if_neg (not_bnot_of_true hr)).trans (congrArg _ ?_)
    obtain ⟨x, hx, rfl, hrest⟩ : ∃ x, s.lio.loopW = [x] ∧ x.1 = n ∧ x.2 = w :: rest := ⟨(n, w :: rest), hw, rfl, rfl⟩
    have hfind : (w :: rest).find? (fun x => decide (x.1 + 2000 ≤ now s)) = some w :=
      List.find?_cons_of_pos (by simpa using hdue)
    rw [hx, forEach_singleton, hrest, hfind]
    refine (if_neg (by simp [hsrc, hown])).trans ?_
    rw [hval]
  case trip => exact fun hon => if_pos ⟨hv, hr, hon⟩
  case retry =>
    intro t ht
    have hunfold : exec (.vsRetry v) s = execVsRetry v s := rfl
    rw [hunfold, execVsRetry, ht]
    exact ⟨fun h => if_pos ⟨hv, hr, h⟩, fun h => if_neg (by omega)⟩
  case vsPulse =>
    intro hp hen hon hdue tested
    have hunfold : exec (.vsTestPulse v) s = execVsTestPulse v s := rfl
    rw [hunfold, execVsTestPulse, pulseEndCheck_of_none hp]
    exact if_pos ⟨hv, hr, hen, hon, hdue⟩
  case doPulse =>
    intro hp hen hrt hpin hcmd hnom hdue s1
    have hunfold : exec (.doTestPulse n) s = execDoTestPulse n s := rfl
    rw [hunfold, execDoTestPulse, pulseEndCheck_of_none hp]
    exact if_pos ⟨hn, hr, hen, congrArg (!·) hrt, hpin, .inl hcmd, hnom, hdue⟩
  case overload => exact fun hpin => if_pos ⟨hn, hpin⟩
  case overtemp => exact if_pos ⟨hn, hr⟩
  case openLoad => exact fun hen hrt => if_pos ⟨hn, hr, hen, congrArg (!·) hrt⟩
  case extv => exact fun h => if_pos ⟨hn, hr, h⟩
  case doRetry =>
    exact fun hoff hret hcmd htime => ⟨if_pos ⟨hn, hr, hoff, hret, hcmd, rfl, htime⟩,
      if_neg fun h => Bool.false_ne_true h.2.2.2.2.2.1⟩
  case wd =>
    intro k r hk hr
    have htmo : wdTmo s k = getF s R.LIO_DO_CFG_WD_TMO 0 k * period s 0 := by rw [wdTmo, if_pos hk]
    have hover : wdOver s k = decide (r + getF s R.LIO_DO_CFG_WD_TMO 0 k * period s 0 ≤ auxNs s) := by
      rw [wdOver, hr, Option.any_some, htmo]
    refine ⟨fun h => congrArg Host.Outcome.next (if_neg ?_), fun h => congrArg Host.Outcome.next ((if_pos ?_).trans ?_)⟩
    · simp only [hover, Bool.and_eq_true, decide_eq_true_eq]; omega
    · simp only [hover, Bool.and_eq_true, decide_eq_true_eq]; omega
    · rw [wdExpire]; dsimp only; rw [if_pos hk, if_pos hk]
  case conversion =>
    intro n code hn ht hrange
    refine (if_neg (by simp [hr]; omega)).trans ?_
    dsimp only
    simp only [hrange, false_and, if_false]
    rfl
  case aiOverload => exact fun h => if_pos ⟨hn, hr, h⟩
  case shunt =>
    intro t still ht hdue
    have hunfold : exec (.aiShuntRetest n still) s = execAiShuntRetest n still s := rfl
    rw [hunfold, execAiShuntRetest, ht]
    exact if_pos ⟨hn, hr, hdue⟩
  case step => exact fun hspare hph hreach => if_neg (by simp [hr, hspare, hph, hreach])
  case cal =>
    exact fun off gain hph hdue ho hg => (if_neg (by simp [hr, hph, hdue])).trans (if_neg (by omega))
  case handover =>
    intro d hph hk hov s1 s2 hmax hho
    refine (if_neg (by simp [hr, hph, hk, hov])).trans ((if_neg (by omega)).trans ?_)
    dsimp only
    rw [if_neg (by omega)]
  case selfcheck =>
    intro c j hfind s1
    have hunfold : exec (.converterSelfcheckFail c) s = execConverterSelfcheckFail c s := rfl
    rw [hunfold, execConverterSelfcheckFail, hfind]
    dsimp only
    rw [if_neg (not_bnot_of_true hr)]
    exact ⟨fun h => if_neg (by omega), fun h => if_pos h⟩
  case ao =>
    intro n uv na hn hmode hna hdev hd hw
    refine (if_neg (by simp [hr, hn])).trans ?_
    have hshort : decide (na.natAbs > 20000000) = false := decide_eq_false (by omega)
    have hvdev : decide ((uv * 3 - aoPin s n * 1000).natAbs > 300000) = false := decide_eq_false (by omega)
    have hgood : sat 3 ((getAo s n).good + 1) = min 3 ((getAo s n).good + 1) := by rw [sat]; split <;> omega
    simp only [hmode, hshort, hvdev, hd, hw, hgood, Bool.false_and, Bool.not_false, Bool.true_and, Bool.and_true,
      Bool.false_eq_true, if_false, if_true, Bool.false_or, ite_self, ge_iff_le, Nat.le_zero, OfNat.ofNat_ne_zero,
      decide_false, or_self, Nat.add_zero, getF_or_zero]

end Sys2Proof.Machine
end

section
/-!
PROOFS. The safety cycle (R233 to R235, R245, R258 to R261, R265).
-/

namespace Sys2Proof.Machine

section
variable {s : State}

/-- What the engine decides at t_end is sent by the owner, tagged with the output deadline. -/
def tendSent (y : State) (dl : Nat) : State :=
  if role y = 1 then
    syncSend1 { y with saf := { y.saf with sst := some (sstate y dl) }, pair := { y.pair with frames := [] } } 7 3 dl
      (.sstate (sstate y dl))
  else y

/-- t_end of a cycle in which the engine runs and its task was released. -/
theorem safTend_of_active (ha : safActive s = true) (hp : s.saf.pend = true) :
    safTend s = tendSent (tendJudge s (s.saf.cycAt + period s 3 - s.tl.tGuard)) (s.saf.cycAt + period s 3 - s.tl.tGuard) := by
  obtain ⟨hrun, hout⟩ : inRun s .saf = true ∧ outPath s = true := by simpa [safActive] using ha
  rw [safTend, if_neg (by simp [hout, hrun, hp])]
  dsimp only
  rw [if_pos hp, if_pos hrun]
  rfl

/-- t_end while the engine is stopped: the owner sends all the same. -/
theorem safTend_of_stopped (ho : outPath s = true) (hrun : inRun s .saf = false) (hp : s.saf.pend = false) :
    safTend s = tendSent s (lastStart s 3 + period s 3 - s.tl.tGuard) := by
  have hstop : ¬ inRun s .saf = true := Bool.eq_false_iff.1 hrun
  have hpend : ¬ s.saf.pend = true := Bool.eq_false_iff.1 hp
  rw [safTend, if_neg (by simp [ho, hrun])]
  dsimp only
  rw [if_neg hpend, if_neg hstop]
  rfl

/-- A core that still runs at t_end trips the engine. -/
theorem tendJudge_of_busy (dl : Nat) (h : s.saf.busyA = true ∨ s.saf.busyB = true) :
    tendJudge s dl = engineTrip s 0x13 0 := if_pos h

/-- Blocks that differ trip the engine with the offset of the first difference. -/
theorem tendJudge_of_diff {o : Nat} (dl : Nat) (ha : s.saf.busyA = false) (hb : s.saf.busyB = false)
    (hd : firstDiff (outBlock s 6) (outBlock s 7) = some o) : tendJudge s dl = engineTrip s 0x10 o := by
  rw [tendJudge, if_neg (by simp [ha, hb]), hd]

/-- The state in which the blocks of both cores agreed: the declared entries are what is sent. -/
def agreed (s : State) : State :=
  { s with saf := { s.saf with pend := false, blk := s.saf.outA.filter (s.saf.img.imgA.decl.contains ·.1) } }

/-- Blocks that agree are sent, and the one group is judged after its reset input. -/
theorem tendJudge_of_single_group {s2 : State} {g : Nat} {acc : List Nat} (dl : Nat) (ha : s.saf.busyA = false)
    (hb : s.saf.busyB = false) (hd : firstDiff (outBlock s 6) (outBlock s 7) = none) (hg : grpList s = [g])
    (hj : judgeResets (agreed s) (grpCfg s g).reset = (s2, acc)) (hg2 : grpList s2 = [g]) :
    tendJudge s dl = evalGroup s2 g dl (acc.contains g) := by
  have hgrp : grpList (agreed s) = [g] := hg
  have hcfg : grpCfg (agreed s) g = grpCfg s g := rfl
  rw [tendJudge, if_neg (by simp [ha, hb]), hd]
  change (let resets := ((grpList (agreed s)).map fun g => (grpCfg (agreed s) g).reset).foldl
            (fun l k => if l.contains k then l else l ++ [k]) []
          let r := resets.foldl (fun (a : State × List Nat) k =>
            ((judgeResets a.1 k).1, a.2 ++ (judgeResets a.1 k).2)) (agreed s, [])
          forEach (grpList r.1) r.1 (fun s g => evalGroup s g dl (r.2.contains g))) = _
  simp [hgrp, hcfg, hj, hg2, forEach_singleton]

end

/-- Settles O41, instant by instant. -/
theorem safetyCycle : Obligations.SafetyCycle := by
  unfold Obligations.SafetyCycle
  intro s take sent
  refine ⟨?idle, ?release, ?notTend, ?tend, ?stuck, ?watchdog, ?well⟩
  case idle => exact fun h => congrArg Host.Outcome.next (if_neg (Bool.eq_false_iff.1 h))
  case release =>
    intro y x hat hund
    have hstep : exec .safetyTaskRelease s = .next (safTaskRelease x) :=
      congrArg Host.Outcome.next ((if_pos hat).trans (carry_of_undone hund safTaskRelease))
    clear_value x
    refine ⟨fun ha => hstep.trans (congrArg _ (if_pos (congrArg (!·) ha))), fun ha hskip hlast => ?_, fun ha hskip => ?_⟩
    · exact hstep.trans (congrArg _ ((if_neg (not_bnot_of_true ha)).trans (if_pos ⟨hlast, hskip⟩)))
    · exact hstep.trans (congrArg _ ((if_neg (not_bnot_of_true ha)).trans (if_neg fun h => h.2 hskip)))
  case notTend => exact fun h => congrArg Host.Outcome.next (if_neg (Bool.eq_false_iff.1 h))
  case tend =>
    intro x send hat hund
    have hstep : exec .safetyTend s = .next (safTend x) :=
      congrArg Host.Outcome.next ((if_pos hat).trans (carry_of_undone hund safTend))
    have hsend (y : State) (dl : Nat) : Host.Outcome.next (tendSent y dl) = send y dl :=
      rfl
    clear_value x send
    refine ⟨fun ho => ?_, fun ho hrun hp => ?_, fun ha hp => ?_⟩
    · exact hstep.trans (congrArg _ (if_pos (.inl (congrArg (!·) ho))))
    · rw [hstep, ← hsend, safTend_of_stopped ho hrun hp]
    · intro dl
      have hout (y : State) (hy : tendJudge x dl = y) : exec .safetyTend s = send y dl := by
        rw [hstep, ← hsend, safTend_of_active ha hp, hy]
      refine ⟨fun hb => hout _ (tendJudge_of_busy dl hb), fun hA hB => ⟨fun o hd => ?_, fun hd => ?_⟩⟩
      · exact hout _ (tendJudge_of_diff dl hA hB hd)
      · exact fun g s2 acc hg hj hg2 => hout _ (tendJudge_of_single_group dl hA hB hd hg hj hg2)
  case stuck =>
    intro g r hrun hg hr hstuck hlong
    refine (if_neg (not_bnot_of_true hrun)).trans (congrArg (fun x => Host.Outcome.next (stuckLevel x)) ?_)
    rw [hg, forEach_singleton]
    dsimp only
    rw [hr]
    exact if_pos ⟨hlong, congrArg (!·) hstuck⟩
  case watchdog =>
    exact fun ha => ⟨fun h => ⟨if_pos ⟨ha, h⟩, if_pos ⟨ha, h⟩⟩, fun c h => if_neg fun hh => absurd hh.2 (by omega)⟩
  case well =>
    intro dev s1
    exact ⟨fun h => if_neg (by omega), fun h => if_pos h⟩

end Sys2Proof.Machine
end

section
/-!
PROOFS. The loop engine and the trace (R273 to R299).
-/

namespace Sys2Proof.Machine

section
variable {s s1 : State} {c : Nat} {x : Call}

/-- A call waits for the context's next sample. -/
def loopWaits (s : State) (c : Nat) (x : Call) : State := setLoop s c { getLoop s c with wait := (getLoop s c).wait ++ [x] }

/-- A call that the engine takes waits for the sample. -/
theorem loopTake_of_taken {fn : Nat} (h : takeCall s 0 c fn = some (x, s1)) : loopTake s c fn = loopWaits s1 c x := by
  rw [loopTake, h]; rfl

/-- An injection call that the engine takes waits for the sample. -/
theorem injTake_of_taken {start : Bool}
    (h : takeCallIf s 0 c 5 0 1 (fun op => if start then op != 0 else op == 0) = some (x, s1)) :
    injTake s c start = loopWaits s1 c x := by
  rw [injTake, h]; rfl

/-- The law and the set-point of a SETSP. -/
theorem loopCall_setsp {m : LSample} {sp vf af : Nat} {s1 s2 s3 : State} (hfn : x.fn = 0)
    (h1 : dsc (dscBegin s x) x 0 4 = (sp, s1)) (h2 : dsc s1 x 4 4 = (vf, s2)) (h3 : dsc s2 x 8 4 = (af, s3)) :
    loopCall s c x m =
      if getF (dscBegin s x) R.LOOP_L_LAW_SP_SRC c (lLaw (dscBegin s x) c) ≠ 0 then (dscBegin s x, 0x15, 0)
      else (setLoop s3 c { getLoop (dscBegin s x) c with sp := sp, vff := vf, aff := af }, 0, 0) := by
  rw [loopCall]
  generalize dscBegin s x = s0 at h1 ⊢
  rw [hfn]
  dsimp only
  rw [h1, h2, h3]
  rfl

/-- The bytes of a coefficient or a table word are written whole. -/
theorem coefWrite_of_allowed {mg : Bool} {o v : Nat} (hm : mg = true → inTune s = true)
    (h : inRun s .loopCtx (o / 0x400) = false ∨ o / 0x200 % 2 ≠ lBank s (o / 0x400)) :
    coefWrite s mg o v = setRawReg s (0x40420000 + o / 4 * 4) (v &&& loopBits (0x40420000 + o / 4 * 4)) := by
  rw [coefWrite, if_neg (by cases mg <;> simp_all), if_neg fun hh => ?_]
  obtain ⟨hrun, hbank⟩ := hh
  rcases h with h | h
  · exact absurd hrun (Bool.eq_false_iff.1 h)
  · exact h hbank

/-- STOP of a recording under way. -/
theorem trcStop_of_recording (hrun : inRun s .trc = true) (hst : trcState s = 1 ∨ trcState s = 2 ∨ trcState s = 4) :
    trcStop s = latch (setF (setF s R.TRC_STAT_STATE 3) R.TRC_STAT_SPILLING 0) .trc 0 2 := by
  have hblk : Blk.trc ≠ Blk.loopCtx := by decide
  have hlatch (x : State) : latch x .trc 0 2 = latchN 2 x .trc 0 2 := by rw [latch, if_neg hblk]
  exact (if_pos ⟨hrun, hst⟩).trans (hlatch _).symm

/-- A recorded entry copied to the spill region. -/
def spilled (s : State) (e : Nat) : State :=
  setF { s with trc := { s.trc with pend := [], spill := mput 0 s.trc.spill (getF s R.TRC_SPILL_WR_IDX) e } }
    R.TRC_SPILL_WR_IDX (getF s R.TRC_SPILL_WR_IDX + 1)

/-- The index after a copy that fits stays inside the region. -/
theorem spilled_index_lt {e : Nat} (hroom : getF s R.TRC_SPILL_WR_IDX + 1 < spillLen) :
    getF (spilled s e) R.TRC_SPILL_WR_IDX < spillLen := by
  rw [spilled, getF_setF_same _ _ _ _ _ (by decide)]
  exact (Nat.mod_le ..).trans_lt hroom

/-- One recorded entry that fits the spill region is copied. -/
theorem traceSpillCopy_of_single {e : Nat} (hrun : inRun s .trc = true) (htr : isTrace s = true) (hp : s.trc.pend = [e])
    (hroom : getF s R.TRC_SPILL_WR_IDX + 1 < spillLen) : execTraceSpillCopy s = .next (spilled s e) := by
  refine (if_neg (by simp [htr, hrun])).trans ?_
  rw [hp]
  have hlt : getF s R.TRC_SPILL_WR_IDX < spillLen := by omega
  have hmod : getF s R.TRC_SPILL_WR_IDX % spillLen = getF s R.TRC_SPILL_WR_IDX := Nat.mod_eq_of_lt hlt
  extract_lets wrap trc0 s1
  have hs1 : s1 = spilled s e := by
    have hidx (w : Nat) (hw : w = getF s R.TRC_SPILL_WR_IDX) :
        (if wrap then (w % spillLen + 1) % spillLen else w % spillLen + 1) = w + 1 := by
      rw [hw, hmod, Nat.mod_eq_of_lt hroom, ite_self]
    refine (if_neg fun h => absurd h.1 (Nat.not_le.2 hlt)).trans ?_
    exact congrArg₂ (fun k v => setF { s with trc := { s.trc with pend := [], spill := mput 0 s.trc.spill k e } }
      R.TRC_SPILL_WR_IDX v) hmod (hidx _ rfl)
  clear_value s1
  subst hs1
  exact congrArg Host.Outcome.next (if_neg fun h => absurd h.1 (Nat.not_le.2 (spilled_index_lt hroom)))

end

/-- Settles O43, command by command. -/
theorem loopEngineAndTrace : Obligations.LoopEngineAndTrace := by
  unfold Obligations.LoopEngineAndTrace
  refine ⟨fun s c => ⟨?noSample, ?sample, ?noUpdate, ?update, ?modeOut, ?calls, ?injStart, ?injStop, ?setsp, ?read, ?injEnd,
    ?ctx, ?coef, ?table⟩, fun s => ⟨?arm, ?force, ?stop, ?ctlTune, ?ctlNot, rfl, ?unit, ?spill⟩⟩
  case noSample => exact fun h => congrArg Host.Outcome.next (if_neg (Bool.eq_false_iff.1 h))
  case sample =>
    intro y x hat hund
    have hstep : exec (.loopSample c) s = .next (loopSample x c) :=
      congrArg Host.Outcome.next ((if_pos hat).trans (carry_of_undone hund fun s => loopSample s c))
    clear_value x
    refine ⟨fun hc hrun how => hstep.trans (congrArg _ (if_neg (by simp [hrun, how]; omega))), fun h => ?_⟩
    exact hstep.trans (congrArg _ (if_pos (by rcases h with h | h <;> simp [h])))
  case noUpdate =>
    exact fun h => congrArg Host.Outcome.next (if_neg (by simp [h]))
  case update =>
    intro m hsome hnext
    refine congrArg Host.Outcome.next ((if_pos hsome).trans ?_)
    rw [updateEnd, hnext]
  case modeOut =>
    intro m i hand so
    refine ⟨fun h => ?_, fun h hst => ?_⟩
    · rw [modeOut, h]
      exact ⟨rfl, rfl⟩
    · rw [modeOut, h]
      rw [if_neg (Bool.eq_false_iff.1 hst)]
      exact ⟨rfl, rfl⟩
  case calls =>
    intro p hp x s1 h
    simp only [List.mem_cons, List.not_mem_nil, or_false] at hp
    rcases hp with rfl | rfl | rfl | rfl <;> exact congrArg Host.Outcome.next (loopTake_of_taken h)
  case injStart => exact fun x s1 h => congrArg Host.Outcome.next (injTake_of_taken (start := true) h)
  case injStop => exact fun x s1 h => congrArg Host.Outcome.next (injTake_of_taken (start := false) h)
  case setsp =>
    intro x m sp vf af s1 s2 s3 hfn s0 h1 h2 h3
    have hcall := loopCall_setsp (c := c) (m := m) hfn h1 h2 h3
    exact ⟨fun h => hcall.trans (if_neg (not_not.2 h)), fun h => hcall.trans (if_pos h)⟩
  case read =>
    intro x s1 h
    have hunfold : exec (.loopRead c) s = execLoopRead c s := rfl
    rw [hunfold, execLoopRead, h]
  case injEnd =>
    intro j hj
    have hunfold : exec (.injectionEnd c) s = execInjectionEnd c s := rfl
    rw [hunfold, execInjectionEnd, hj]
    exact ⟨fun h => if_pos h, fun h => if_neg (Nat.not_le.2 h)⟩
  case ctx =>
    refine fun hc => ⟨if_neg (Nat.not_le.2 hc), fun htune hrun => ?_, fun htune => ?_⟩
    · exact (if_pos hc).trans (congrArg _ (if_pos ⟨htune, hrun⟩))
    · exact (if_pos hc).trans (congrArg _ (if_neg fun h => Bool.eq_false_iff.1 htune h.1))
  case coef =>
    intro o v ho b a put
    refine ⟨fun h => ⟨?_, fun htune => ?_⟩, fun hrun hb => ?_, fun htune => ?_⟩
    · exact (if_pos ho).trans (congrArg _ (coefWrite_of_allowed (by simp) h))
    · exact (if_pos ho).trans (congrArg _ (coefWrite_of_allowed (fun _ => htune) h))
    · exact (if_pos ho).trans (congrArg _ (if_pos ⟨hrun, hb⟩))
    · exact (if_pos ho).trans (congrArg _ (if_pos (by simp [htune])))
  case table =>
    exact fun o v ho => ⟨fun h => (if_pos ho).trans (congrArg _ (if_neg (Bool.eq_false_iff.1 h))),
      fun h => (if_pos ho).trans (congrArg _ (if_pos h))⟩
  case arm =>
    intro c x s1 op s2 h hop
    have hunfold : exec (.trigArm c) s = execTrigArm c s := rfl
    rw [hunfold, execTrigArm, h]
    dsimp only
    rw [hop]
    exact ⟨fun h => if_neg (by omega), fun h => if_pos h⟩
  case force =>
    intro c x s1 h
    have hunfold : exec (.trigForce c) s = execTrigForce c s := rfl
    rw [hunfold, execTrigForce, h]
  case stop =>
    intro c x s1 h
    have hunfold : exec (.trigStop c) s = execTrigStop c s := rfl
    rw [hunfold, execTrigStop, h]
  case ctlTune =>
    exact fun h => ⟨congrArg Host.Outcome.next (if_neg (not_bnot_of_true h)),
      congrArg Host.Outcome.next (if_neg (not_bnot_of_true h))⟩
  case ctlNot =>
    exact fun h => ⟨congrArg Host.Outcome.next (if_pos (congrArg (!·) h)), congrArg Host.Outcome.next (if_pos (congrArg (!·) h))⟩
  case unit =>
    refine fun hrun htr => ⟨?_, trcStop_of_recording hrun⟩
    rw [trcArm, if_neg (not_bnot_of_true hrun)]
    simp only [htr, true_and, Bool.true_and]
  case spill => exact fun e hrun htr hp hroom => traceSpillCopy_of_single hrun htr hp hroom

end Sys2Proof.Machine
end

section
/-!
PROOFS. Profile channels and valve axes (R300 to R316).
-/

namespace Sys2Proof.Machine

section
variable {s s1 : State} {g a : Nat} {x : Call}

/-! ## Profile channels -/

/-- A call that no lock of SS1 holds back waits for its sample. -/
theorem profTake_of_free (hg : x.inst = g) (h : (getGen s g).lock = false ∨ x.fn = 2) :
    profTake s x = setGen s g { getGen s g with wait := (getGen s g).wait ++ [(now s, x)] } := by
  subst hg
  exact if_neg (by rcases h with h | h <;> simp [h])

/-- While the lock of SS1 holds, a MOVE and a LIMITS end with PROFILE_LOCKED. -/
theorem profTake_of_locked (hg : x.inst = g) (h : (getGen s g).lock = true) (hf : x.fn < 2) :
    profTake s x = complete (latch s .profCh g 16) x 0x12 0 := by
  subst hg
  exact if_pos ⟨h, by omega⟩

/-- A planned call that the engine takes. -/
theorem profTakeFn_of_taken {fn : Nat} (h : takeCall s 1 g fn = some (x, s1)) : profTakeFn s g fn = profTake s1 x := by
  rw [profTakeFn, h]

/-- A channel at its sample, with nothing waiting. -/
def sampled (s : State) (g : Nat) : Gen := { getGen s g with wait := [], ss1 := none, at_ := now s }

/-- A sample with no call, no stop and no limit due publishes the plan in force. -/
theorem profSample_of_idle (hg : g < 128) (hrun : inRun s .profCh g = true) (how : owns s = true)
    (hat : reaches s (profTp s g) 0 = true) (hw : (getGen s g).wait = []) (hss : (getGen s g).ss1 = none)
    (hab : (getGen s g).above = none) :
    execProfSample g s = .next (profToLoops (genFlag (setGen
      (genFlag (genShow (setGen s g (sampled s g)) g (genAt (sampled s g) (now s))) g R.PROF_P_STAT_ARRIVED 0
        (decide ((sampled s g).tArr ≤ now s))) g { sampled s g with above := none }) g R.PROF_P_STAT_ABOVE_LIM 3 false)
      g (now s / profTp s g * profTp s g)) := by
  refine (if_neg (by simp [hg, hrun, how, hat])).trans ?_
  extract_lets t v m ss v1 due v2
  have hstop : ss = false := by simp only [ss, v, hss]
  have hgen : v2 = sampled s g := by
    have hv1 : v1 = v := if_neg (Bool.eq_false_iff.1 hstop)
    have hwait : v2 = { v1 with wait := [], at_ := t } := by simp only [v2, v, hw, List.filter_nil]
    rw [hwait, hv1, sampled, ← hss]
  have hdue : due = [] := by simp only [due, v, hw, List.filter_nil, List.map_nil]
  have hcalls : profCalls s g v2 due = (s, sampled s g, []) := by rw [hgen, hdue]; rfl
  have hget : getGen (setGen s g (sampled s g)) g = sampled s g := mget_mput_same ..
  have habove : (sampled s g).above = none := hab
  rw [hcalls, hstop]
  simp only [List.any_nil, Bool.or_false, Bool.false_eq_true, if_false, hget, habove]
  rfl

/-- From the arrival instant on, a position goal is reached. -/
theorem genAt_of_arrived {v : Gen} {t : Nat} (h : v.tArr ≤ t) (hg : v.goalV = false) : genAt v t = ⟨v.goal, 0, 0⟩ :=
  (if_neg (Nat.not_lt.2 h)).trans (if_neg (Bool.eq_false_iff.1 hg))

/-- From the arrival instant on, a speed goal is held. -/
theorem genAt_of_arrived_speed {v : Gen} {t : Nat} (h : v.tArr ≤ t) (hg : v.goalV = true) :
    (genAt v t).v = v.goal ∧ (genAt v t).a = 0 := by
  rw [genAt, if_neg (Nat.not_lt.2 h), if_pos hg]
  exact ⟨rfl, rfl⟩

/-! ## Axes -/

/-- A station in OPERATE or LOST leaves the axis as it is. -/
theorem axStationCheck_of_live (h : stState s (axStation s a) = 2 ∨ stState s (axStation s a) = 3) :
    axStationCheck s a = s :=
  if_neg (by rcases h with h | h <;> simp [h])

/-- The instant and the value of a launch, with what the axis does by its state. -/
theorem axisLaunch_of_live (ha : a < nAxis s) (hrun : inRun s .vaxAx a = true) (how : owns s = true)
    (hst : stState s (axStation s a) = 2 ∨ stState s (axStation s a) = 3) :
    (axSt s a = 2 → axisLaunch a s = axStream s a (axApply s a)) ∧
    (∀ w src, axSt s a = 1 → (getAxis s a).ready = true → (getAxis s a).stop = none →
      axWant s a (axApply s a) (sint 32 (getF s R.VAX_A_M_VAL a)) = (w, src) →
      axisLaunch a s = latch (setF (setF (setF (setF (setB (axSend (setAxis s a {}) a w 0 1 (axApply s a))
        R.VAX_A_STAT_SRC src a) R.VAX_A_LAG_VAL 0 a) R.VAX_A_STAT_CLAMPED 0 a) R.VAX_A_STAT_AXST 2 a)
        R.VAX_A_STAT_FCAUSE 0 a) .vaxAx a 2) ∧
    (axSt s a < 2 → (getAxis s a).ready = false ∨ (getAxis s a).stop ≠ none →
      axisLaunch a s = axHold s a (axApply s a) (sint 32 (getF s R.VAX_A_M_VAL a))) := by
  have hbody : axisLaunch a s = _ := if_neg (by simp [hrun, how]; omega)
  rw [axStationCheck_of_live hst] at hbody
  dsimp only at hbody
  refine ⟨fun h => ?_, fun w src h hr hs hw => ?_, fun h hno => ?_⟩
  · rw [hbody, h]
    rfl
  · rw [hbody, h]
    refine (if_pos (by simp [hr, hs])).trans ?_
    rw [hw]
  · rw [hbody]
    obtain h | h : axSt s a = 0 ∨ axSt s a = 1 := by omega
    · rw [h]
      rfl
    · rw [h]
      exact if_neg (by rcases hno with hr | hs <;> simp_all)

/-- A held axis with a waiting STOP ends it. -/
theorem axHold_of_stop {c : Call} {ta : Nat} {m : Int} (h : (getAxis s a).stop = some c) :
    axHold s a ta m = complete (axSend (setAxis s a { getAxis s a with stop := none }) a m
      (2 + getF s R.VAX_A_CFG_STILL a) 0 ta) c 0 0 := by
  rw [axHold, h]

/-- A held axis with nothing waiting that does not stand still sends nothing. -/
theorem axHold_of_idle {ta : Nat} {m : Int} (h : (getAxis s a).stop = none) (hs : (getAxis s a).still = none) :
    axHold s a ta m = s := by
  rw [axHold, h, hs]

end

/-- Settles O44, call by call and launch by launch. -/
theorem profilesAndAxes : Obligations.ProfilesAndAxes := by
  unfold Obligations.ProfilesAndAxes
  refine ⟨fun s g => ⟨?calls, ?plan, ?read, fun hg hrun how hat hw hss hab => profSample_of_idle hg hrun how hat hw hss hab,
    fun v t h hg => genAt_of_arrived h hg, fun v t h hg => genAt_of_arrived_speed h hg⟩,
    fun s a => ⟨?noLaunch, ?launch, ?start, ?stop, ?setref, ?shape, ?vaxRead, ?shapeWrite⟩⟩
  case calls =>
    intro p hp x s1 h hg hf v wait
    have htaken : exec (p.1 g) s = .next (profTake s1 x) := by
      simp only [List.mem_cons, List.not_mem_nil, or_false] at hp
      rcases hp with rfl | rfl | rfl <;> exact congrArg Host.Outcome.next (profTakeFn_of_taken h)
    refine ⟨fun hl => htaken.trans (congrArg _ (profTake_of_free hg ?_)),
      fun hl hlt => htaken.trans (congrArg _ (profTake_of_locked hg hl (hf ▸ hlt)))⟩
    rwa [hf]
  case plan =>
    intro x q h
    have hunfold : exec .profPlan s = execProfPlan s := rfl
    rw [hunfold, execProfPlan, h]
    exact ⟨fun hf => congrArg _ (if_pos hf), fun hf => congrArg _ (if_neg hf)⟩
  case read =>
    intro x s1 h
    have hunfold : exec (.profRead g) s = execProfRead g s := rfl
    rw [hunfold, execProfRead, h]
  case noLaunch => exact fun h => congrArg Host.Outcome.next (if_neg (Bool.eq_false_iff.1 h))
  case launch =>
    intro hat hund x hax hrun how hst ta m
    have hstep : exec (.axisLaunch a) s = .next (axisLaunch a x) :=
      congrArg Host.Outcome.next ((if_pos hat).trans (carry_of_undone hund (axisLaunch a)))
    clear_value x
    obtain ⟨hstream, hstart, hhold⟩ := axisLaunch_of_live hax hrun how hst
    refine ⟨fun h => hstep.trans (congrArg _ (hstream h)), fun w src h1 hr hs hw => ?_, fun h1 hr hs hstill => ?_,
      fun c h1 hs => ?_⟩
    · exact hstep.trans (congrArg _ (hstart w src h1 hr hs hw))
    · exact hstep.trans (congrArg _ ((hhold (by omega) (.inl hr)).trans (axHold_of_idle hs hstill)))
    · exact hstep.trans (congrArg _ ((hhold h1 (.inr (by simp [hs]))).trans (axHold_of_stop hs)))
  case start =>
    intro c s1 h
    have hunfold : exec (.vaxStart a) s = execVaxStart a s := rfl
    rw [hunfold, execVaxStart, h]
    dsimp only
    refine ⟨fun h1 => if_pos h1, fun h1 h2 => ?_, fun h1 h2 h3 => ?_, fun h1 h2 h3 h4 tok s3 htok => ?_⟩
    · exact (if_neg (not_not.2 h1)).trans (if_pos (congrArg (!·) h2))
    · exact (if_neg (not_not.2 h1)).trans ((if_neg (not_bnot_of_true h2)).trans (if_pos h3))
    · refine (if_neg (not_not.2 h1)).trans ((if_neg (not_bnot_of_true h2)).trans ((if_neg (not_not.2 h3)).trans
        ((if_neg (Bool.eq_false_iff.1 h4)).trans ?_)))
      rw [htok]
  case stop =>
    intro c s1 h
    have hunfold : exec (.vaxStop a) s = execVaxStop a s := rfl
    rw [hunfold, execVaxStop, h]
    dsimp only
    refine ⟨fun h1 => if_pos h1, fun h1 h2 => ?_, fun h1 h2 h3 => ?_⟩
    · exact (if_neg (not_not.2 h1)).trans (if_pos (.inl (congrArg (!·) h2)))
    · exact (if_neg (not_not.2 h1)).trans (if_neg (by simp [h2, h3]))
  case setref =>
    intro c s1 m s2 h hm
    have hunfold : exec (.setref a) s = execSetref a s := rfl
    rw [hunfold, execSetref, h]
    dsimp only
    refine ⟨fun h1 => if_pos h1, fun h1 h2 => (if_neg (not_not.2 h1)).trans ((if_neg (not_bnot_of_true h2)).trans ?_)⟩
    rw [hm]
  case shape =>
    intro c s1 k s2 h hk hlt
    have hunfold : exec (.shape a) s = execShape a s := rfl
    rw [hunfold, execShape, h]
    dsimp only
    rw [hk, Nat.mod_eq_of_lt hlt]
    refine ⟨fun h1 => if_pos h1, fun tab s3 h1 h2 => (if_neg (Bool.eq_false_iff.1 h1)).trans ?_⟩
    rw [h2]
  case vaxRead =>
    intro c s1 h
    have hunfold : exec (.vaxRead a) s = execVaxRead a s := rfl
    rw [hunfold, execVaxRead, h]
  case shapeWrite =>
    exact fun o v ho => ⟨fun h => (if_pos ho).trans (congrArg _ (if_pos h)),
      fun h => (if_pos ho).trans (congrArg _ (if_neg (Bool.eq_false_iff.1 h)))⟩

end Sys2Proof.Machine
end

section
/-!
PROOFS. The Basin solver: its calls and its own instants (R29, R323 to R346).
-/

namespace Sys2Proof.Machine

/-! ## The result that is written next -/

/-- The earlier of two results, the first one on a tie. -/
def earlier (a b : QpRes) : QpRes := if b.d < a.d then b else a

/-- The next result is the earliest one: the first of the list, with what comes before it. -/
theorem nextResult_of_cons {s : State} {r : QpRes} {l : List QpRes} (h : s.bsn.decided = r :: l) :
    nextResult s = some (l.foldl earlier r) := by
  rw [nextResult, h, List.foldl_cons]
  clear h
  induction l generalizing r with
  | nil => rfl
  | cons x t ih =>
    have hstep : (if x.d < r.d then some x else some r) = some (earlier r x) := (apply_ite some ..).symm
    rw [List.foldl_cons, List.foldl_cons, ← ih, ← hstep]

/-- The earliest of a list is one of its elements, and none is earlier. -/
theorem foldl_earlier_least (l : List QpRes) (r : QpRes) :
    l.foldl earlier r ∈ r :: l ∧ ∀ x ∈ r :: l, (l.foldl earlier r).d ≤ x.d := by
  induction l generalizing r with
  | nil => simp
  | cons y t ih =>
    obtain ⟨hmem, hle⟩ := ih (earlier r y)
    have hy : earlier r y = r ∨ earlier r y = y := by rw [earlier]; split <;> simp
    have hr : (earlier r y).d ≤ r.d ∧ (earlier r y).d ≤ y.d := by rw [earlier]; split <;> omega
    have hfold : ((t.foldl earlier (earlier r y)).d) ≤ (earlier r y).d := hle _ (by simp)
    refine ⟨?_, fun x hx => ?_⟩
    · rw [List.foldl_cons]
      obtain hm | hm := List.mem_cons.1 hmem
      · rw [hm]; rcases hy with hy | hy <;> simp [hy]
      · simp [hm]
    · rw [List.foldl_cons]
      simp only [List.mem_cons] at hx
      obtain rfl | rfl | hx := hx
      · omega
      · omega
      · exact hle x (by simp [hx])

/-- The result that is written next stands among the decided ones, and none of them has an earlier deadline. -/
theorem nextResult_least {s : State} {r : QpRes} (h : nextResult s = some r) :
    r ∈ s.bsn.decided ∧ ∀ x ∈ s.bsn.decided, r.d ≤ x.d := by
  cases hl : s.bsn.decided with
  | nil => rw [nextResult, hl] at h; cases h
  | cons y t =>
    rw [nextResult_of_cons hl] at h
    cases h
    exact foldl_earlier_least t y

section
variable {s s1 : State} {q : Nat} {c : Call}

/-- A solve that still waits for its decision instant. -/
theorem deadlineDecide_of_early {v : Solve} (hr : (getQp s q).run = some v) (hw : (getQp s q).wait = none)
    (h : now s + 4000 < v.d) : deadlineDecide s q = s := by
  rw [deadlineDecide, hr, hw]
  dsimp only
  rw [if_neg (by omega), hr]

/-- The decision of a solve whose instant has come, with no other one waiting. -/
theorem deadlineDecide_of_due {v : Solve} (hr : (getQp s q).run = some v) (hw : (getQp s q).wait = none)
    (h : v.d ≤ now s + 4000) : deadlineDecide s q = solveOver (completeAll (acceptOrShift
      (if getB s R.BSN_RUNNING_BUSY ∧ getF s R.BSN_RUNNING_CTX = q then unitOver s else s) q v 0 2) v.cancel 0) q := by
  rw [deadlineDecide, hr, hw]
  dsimp only
  rw [if_pos (by omega)]
  generalize solveOver _ q = s1
  cases (getQp s1 q).run <;> rfl

/-- A SOLVE whose deadline lies too far ahead, or that finds four others within 4 µs. -/
theorem solve_refused {d : Nat} {s2 s3 : State} {b : List Byte} (hc : takeCall s 3 q 0 = some (c, s1))
    (hd : dsc s1 c 0 8 = (d, s2)) (hb : engRd s2 (c.addr + 0x18) 32 = (b, s3)) :
    (now s1 + 60000000000 < d → execSolve q s = .next (complete s3 c 0x17 0)) ∧
    (d ≤ now s1 + 60000000000 →
      4 ≤ ((deadlines s3).filter (fun x => decide (x < d + 4000) && decide (d < x + 4000))).length →
      execSolve q s = .next (complete s3 c 0x16 0)) := by
  rw [execSolve, hc]
  dsimp only
  rw [hd]
  dsimp only
  rw [hb]
  exact ⟨fun h => if_pos h, fun h h4 => (if_neg (Nat.not_lt.2 h)).trans (if_pos h4)⟩

/-- A solve as the engine has read its operands. -/
def solveOf (c : Call) (d at_ : Nat) (b : List Byte) : Solve :=
  { call := c, d := d, at_ := at_, addrs := (List.range 7).map (fun i => leNat ((b.drop (4 * i)).take 4)),
    opt := leNat ((b.drop (4 * 7)).take 4) }

/-- A SOLVE that is in time and finds room starts where nothing runs, supersedes a solve that has not started or one that
waits, or is too early. -/
theorem solve_accepted {d : Nat} {s2 s3 : State} {b : List Byte} (hc : takeCall s 3 q 0 = some (c, s1))
    (hd : dsc s1 c 0 8 = (d, s2)) (hb : engRd s2 (c.addr + 0x18) 32 = (b, s3)) (hfar : d ≤ now s1 + 60000000000)
    (hroom : ((deadlines s3).filter (fun x => decide (x < d + 4000) && decide (d < x + 4000))).length < 4) :
    let v := solveOf c d (now s1) b
    let p := getQp s3 q
    let begun (x : State) := qShow (bsnStart (qShow (setQp x q { p with run := some v }) q)) q
    (p.run = none → d ≤ now s1 + 4000 →
      execSolve q s = .next (solveOver (acceptOrShift (setQp s3 q { p with run := some v }) q v 0 2) q)) ∧
    (p.run = none → now s1 + 4000 < d → execSolve q s = .next (begun s3)) ∧
    (∀ r, p.run = some r → r.started = false → now s1 + 4000 < d →
      execSolve q s = .next (begun (complete s3 r.call 7 0))) ∧
    (∀ r, p.run = some r → r.started = true → d ≤ r.d → execSolve q s = .next (complete s3 c 0x15 0)) ∧
    (∀ r, p.run = some r → r.started = true → r.d < d → p.wait = none →
      execSolve q s = .next (qShow (setQp s3 q { p with wait := some v }) q)) ∧
    (∀ r o, p.run = some r → r.started = true → r.d < d → p.wait = some o →
      execSolve q s = .next (qShow (setQp (complete s3 o.call 7 0) q { p with wait := some v }) q)) := by
  intro v p begun
  rw [execSolve, hc]
  dsimp only
  rw [hd]
  dsimp only
  rw [hb]
  dsimp only
  rw [if_neg (Nat.not_lt.2 hfar), if_neg (Nat.not_le.2 hroom)]
  refine ⟨fun hr h => ?_, fun hr h => ?_, fun r hr hst h => ?_, fun r hr hst h => ?_, fun r hr hst h hw => ?_,
    fun r o hr hst h hw => ?_⟩
  · rw [show (getQp s3 q).run = _ from hr]
    exact if_pos h
  · rw [show (getQp s3 q).run = _ from hr]
    exact if_neg (Nat.not_le.2 h)
  · rw [show (getQp s3 q).run = _ from hr]
    exact (if_pos (congrArg (!·) hst)).trans (if_neg (Nat.not_le.2 h))
  · rw [show (getQp s3 q).run = _ from hr]
    exact (if_neg (not_bnot_of_true hst)).trans (if_pos h)
  · rw [show (getQp s3 q).run = _ from hr]
    refine (if_neg (not_bnot_of_true hst)).trans ((if_neg (Nat.not_le.2 h)).trans ?_)
    rw [show (getQp s3 q).wait = _ from hw]
    rfl
  · rw [show (getQp s3 q).run = _ from hr]
    refine (if_neg (not_bnot_of_true hst)).trans ((if_neg (Nat.not_le.2 h)).trans ?_)
    rw [show (getQp s3 q).wait = _ from hw]
    rfl

/-- The one delivery that waits reaches its loop context once its deadline has come. -/
theorem bsnDeliver_of_single {s0 t : State} {d l x : Nat} (ht : bsnSettle s0 = t) (hd : t.bsn.dlv = [(d, l, x)]) :
    (d ≤ now t → bsnDeliver s0 = setLoop { t with bsn := { t.bsn with dlv := [] } } l
      { getLoop { t with bsn := { t.bsn with dlv := [] } } l with
        bnext := (getLoop { t with bsn := { t.bsn with dlv := [] } } l).bnext ++ [(d, x)] }) ∧
    (now t < d → bsnDeliver s0 = t) := by
  rw [bsnDeliver, ht, hd]
  refine ⟨fun h => ?_, fun h => ?_⟩
  · rw [List.filter_cons_of_pos (by simpa using h), List.filter_cons_of_neg (by simpa using h)]
    rfl
  · rw [List.filter_cons_of_neg (by simpa using h), List.filter_cons_of_pos (by simpa using h), List.filter_nil,
      List.filter_nil, ← hd]
    rfl

/-- A CANCEL withdraws the waiting solve; the running one at the end of its unit, or at once between units. -/
theorem cancel_taken (hc : takeCall s 3 q 1 = some (c, s1)) :
    let p := getQp s1 q
    let dropWait (x : State) := setQp (p.wait.elim x (fun o => withdraw x o 8 0)) q { p with wait := none }
    (p.run = none → execBsnCancel q s = .next (complete (qShow (dropWait s1) q) c 0 0)) ∧
    (∀ v, p.run = some v → execBsnCancel q s =
      if getB s1 R.BSN_RUNNING_BUSY ∧ getF s1 R.BSN_RUNNING_CTX = q then
        .next (qShow (setQp (dropWait s1) q { p with wait := none, run := some { v with cancel := v.cancel ++ [c] } }) q)
      else .next (complete (solveOver (dropWait (withdraw s1 v 8 0)) q) c 0 0)) := by
  intro p dropWait
  rw [execBsnCancel, hc]
  refine ⟨fun hr => ?_, fun v hr => ?_⟩ <;> simp only [p, dropWait] at hr ⊢ <;>
    cases (getQp s1 q).wait <;> simp only [hr] <;> rfl

end

/-- Settles O45, call by call and instant by instant. -/
theorem basinSolver : Obligations.BasinSolver := by
  unfold Obligations.BasinSolver
  refine ⟨fun s s1 c q => ⟨?solve, ?cancel, ?read⟩, fun s q hq => ⟨?idle, ?unit, ?decision, ?noResult, ?result, ?delivery,
    ?settle, ⟨?scratchStop, ?scratchIdle, ?scratchRun⟩, ?matrices⟩⟩
  case solve =>
    intro hc d s2 b s3 hd hb w v crowd
    obtain ⟨hlate, hfull⟩ := solve_refused hc hd hb
    refine ⟨hlate, hfull, fun h hfar hroom => ?_, fun h hroom hr => ?_⟩
    · obtain ⟨-, hfree, hsuper, hearly, hwait, hover⟩ := solve_accepted hc hd hb hfar hroom
      exact ⟨fun hr => hfree hr h, fun r hr hst => hsuper r hr hst h, fun r hr hst hle => hearly r hr hst hle,
        fun r hr hst hlt => ⟨fun hw => hwait r hr hst hlt hw, fun o hw => hover r o hr hst hlt hw⟩⟩
    · obtain ⟨hnow, -⟩ := solve_accepted hc hd hb (by omega) hroom
      exact hnow hr h
  case cancel =>
    intro hc p dropWait
    obtain ⟨hfree, hrun⟩ := cancel_taken hc
    exact ⟨hfree, fun v hr hb hq => (hrun v hr).trans (if_pos ⟨hb, hq⟩),
      fun v hr hno => (hrun v hr).trans (if_neg fun h => hno h.1 h.2)⟩
  case read =>
    intro hc
    have hunfold : exec (.bsnRead q) s = execBsnRead q s := rfl
    rw [hunfold, execBsnRead, hc]
  case idle => exact fun h => if_pos (congrArg (!·) h)
  case unit =>
    intro v hbusy hctx hrun s1
    have hunfold : exec .bsnUnit s = execBsnUnit s := rfl
    rw [hunfold, execBsnUnit, if_neg (not_bnot_of_true hbusy), hctx]
    dsimp only
    rw [hrun]
    refine ⟨fun h => if_pos h, fun h hcan => ?_, fun h hcan hr => ?_, fun h hcan hr => ?_⟩
    · exact (if_neg (Nat.not_lt.2 h)).trans (if_pos (by simpa using hcan))
    · exact (if_neg (Nat.not_lt.2 h)).trans ((if_neg (by simp [hcan])).trans (congrArg _ (if_neg (Bool.eq_false_iff.1 hr))))
    · exact (if_neg (Nat.not_lt.2 h)).trans ((if_neg (by simp [hcan])).trans (congrArg _ (if_pos hr)))
  case decision =>
    intro v hr hw
    refine ⟨fun h => congrArg Host.Outcome.next (deadlineDecide_of_early hr hw h), fun h hidle => ?_, fun h hbusy hctx => ?_⟩
    · have hdec := deadlineDecide_of_due hr hw h
      rw [if_neg fun hh => hidle hh.1 hh.2] at hdec
      exact congrArg Host.Outcome.next hdec
    · have hdec := deadlineDecide_of_due hr hw h
      rw [if_pos ⟨hbusy, hctx⟩] at hdec
      exact congrArg Host.Outcome.next hdec
  case noResult =>
    intro h
    have hnone : nextResult s = none := by rw [nextResult, h]; rfl
    have hunfold : exec .bsnResultWrite s = execBsnResultWrite s := rfl
    rw [hunfold, execBsnResultWrite, hnone]
  case result =>
    intro r h a s1 body o
    obtain ⟨hmem, hle⟩ := nextResult_least h
    refine ⟨hmem, hle, ?_⟩
    have hunfold : exec .bsnResultWrite s = execBsnResultWrite s := rfl
    rw [hunfold, execBsnResultWrite, h]
    rfl
  case delivery =>
    intro t d l x hd s1
    obtain ⟨hdue, hearly⟩ := bsnDeliver_of_single (s0 := launches s) (t := t) rfl hd
    exact ⟨fun h => congrArg Host.Outcome.next (hdue h), fun h => congrArg Host.Outcome.next (hearly h)⟩
  case settle =>
    intro hq hd
    have hkeys : forEach (mkeys s.bsn.qps) s deadlineDecide = s := by rw [hq]; rfl
    rw [bsnSettle, hkeys, hd]
    rfl
  case scratchStop =>
    exact fun h => (if_neg (Nat.not_le.2 hq)).trans (if_pos (congrArg (!·) h))
  case scratchIdle =>
    intro hrun hr hw
    refine (if_neg (Nat.not_le.2 hq)).trans ((if_neg (not_bnot_of_true hrun)).trans ?_)
    generalize latch (unitErr s .bsnCtx q 0x0C18) .bsn 0 1 = s1 at hr hw ⊢
    simp only [hr, hw]
    rfl
  case scratchRun =>
    intro v hrun hr hw
    refine (if_neg (Nat.not_le.2 hq)).trans ((if_neg (not_bnot_of_true hrun)).trans ?_)
    generalize latch (unitErr s .bsnCtx q 0x0C18) .bsn 0 1 = s1 at hr hw ⊢
    simp only [hr, hw]
    rfl
  case matrices =>
    intro hst hbusy fb mats s1 s2 hfb hm
    have hunfold : exec (.bsnMatrixCopyDone q) s = execBsnMatrixCopyDone q s := rfl
    rw [hunfold, execBsnMatrixCopyDone, if_neg (by simp [hst, hbusy, stCONFIG]; omega), hfb]
    dsimp only
    rw [hm]
    dsimp only
    refine ⟨fun code h => by rw [h], fun h => ?_⟩
    rw [h]
    dsimp only
    refine ⟨fun hn => by rw [hn], fun hh e i hn => ?_⟩
    rw [hn]
    exact ⟨fun hf => if_pos (congrArg (!·) hf), fun hf => if_neg (not_bnot_of_true hf)⟩

end Sys2Proof.Machine
end

section
/-!
PROOFS. SYNC frames and the SYNC link of the redundant pair (R347 to R372).
-/

namespace Sys2Proof.Machine

section
variable {s : State} {h : SyncHdr}

/-! ## What a frame passes first -/

/-- A pair that runs. -/
theorem pairOn_of (hp : getB s R.PAIR_CFG_PAIRED = true) (hr : inRun s .pair = true) : pairOn s = true := by
  rw [pairOn, hp, hr]; rfl

/-- A frame with a bad CRC or of another version is discarded and counted. -/
theorem syncAccept_bad (hon : pairOn s = true) (hb : h.good = false ∨ h.ver ≠ 1) :
    syncAccept s h = (none, incF s R.PAIR_FRCNT_CRCERR) :=
  (if_neg (not_bnot_of_true hon)).trans (if_pos (by rcases hb with hb | hb <;> simp [hb]))

/-- A frame of an earlier role epoch is discarded and counted. -/
theorem syncAccept_stale (hon : pairOn s = true) (hg : h.good = true) (hv : h.ver = 1) (he : h.epoch < roleEpoch s) :
    syncAccept s h = (none, incF s R.PAIR_FRCNT_STALE) :=
  (if_neg (not_bnot_of_true hon)).trans ((if_neg (by simp [hg, hv])).trans (if_pos he))

/-- A frame of the role epoch in force is accepted and changes nothing by itself. -/
theorem syncAccept_current (hon : pairOn s = true) (hg : h.good = true) (hv : h.ver = 1) (he : h.epoch = roleEpoch s) :
    syncAccept s h = (some s, s) := by
  rw [syncAccept, if_neg (not_bnot_of_true hon), if_neg (by simp [hg, hv]), if_neg (by omega)]
  have hgt : ¬ h.epoch > roleEpoch s := by omega
  dsimp only
  rw [if_neg fun hh => hgt hh.1, if_neg hgt]

/-- The frames of the SYNC link. -/
noncomputable def syncRows (h : SyncHdr) (b : HbBody) (recs : List TierRec) (fr by_ : Nat) (ok : Bool) (m : CtrlMsg) (rl : RelayMsg)
    (im : ImgBody) (f : SstFrame) : List Instr :=
  [.hbRx h b, .syncDataRx h recs, .syncMarkRx h fr by_ ok, .syncCtrlRx h m, .syncRelayRx h rl, .syncImgRx h im, .sstateRx h f]

/-- A frame that is not accepted leaves the state of its discard, whatever its kind. -/
theorem exec_syncRow_discarded {t : State} (hd : syncAccept s h = (none, t)) (b : HbBody) (recs : List TierRec)
    (fr by_ : Nat) (ok : Bool) (m : CtrlMsg) (rl : RelayMsg) (im : ImgBody) (f : SstFrame) :
    ∀ i ∈ syncRows h b recs fr by_ ok m rl im f, exec i s = .next t := by
  have h1 : execHbRx h b s = .next t := by rw [execHbRx, hd]
  have h2 : execSyncDataRx h recs s = .next t := by rw [execSyncDataRx, hd]
  have h3 : execSyncMarkRx h fr by_ ok s = .next t := by rw [execSyncMarkRx, hd]
  have h4 : execSyncCtrlRx h m s = .next t := by rw [execSyncCtrlRx, hd]
  have h5 : execSyncRelayRx h rl s = .next t := by rw [execSyncRelayRx, hd]
  have h6 : execSyncImgRx h im s = .next t := by rw [execSyncImgRx, hd]
  have h7 : execSstateRx h f s = .next t := by rw [execSstateRx, hd]
  intro i hi
  simp only [syncRows, List.mem_cons, List.not_mem_nil, or_false] at hi
  rcases hi with rfl | rfl | rfl | rfl | rfl | rfl | rfl
  · exact h1
  · exact h2
  · exact h3
  · exact h4
  · exact h5
  · exact h6
  · exact h7

/-- The end of a loss of the link: since when it is down, and what its SFP+ module shows. -/
def lossShown (s : State) : State :=
  let p := pick (setPair s { s.pair with downAt := some (tickNs s) })
  let q := pick p.2
  let t := setB (setB q.2 R.PAIR_SYNC_SFP p.1) R.PAIR_SYNC_LOS q.1
  if role t = 2 then resyncFail t else t

/-! ## The held safety record -/

/-- The groups' states and their stamp are those of the record taken over. -/
theorem recSstate_stamp_gst (r : SafRec) (f : SstFrame) : (recSstate r f).stamp = f.stamp ∧ (recSstate r f).gst = f.gst := by
  have hkeep {β : Type} (l : List β) (g : SafRec → β → SafRec) (hg : ∀ r x, (g r x).stamp = r.stamp ∧ (g r x).gst = r.gst)
      (r : SafRec) : (l.foldl g r).stamp = r.stamp ∧ (l.foldl g r).gst = r.gst := by
    induction l generalizing r with
    | nil => exact ⟨rfl, rfl⟩
    | cons x t ih => exact ⟨(ih _).1.trans (hg r x).1, (ih _).2.trans (hg r x).2⟩
  have hgroups : (recGroups r f.gst f.stamp).stamp = f.stamp ∧ (recGroups r f.gst f.stamp).gst = f.gst := by
    refine ⟨(hkeep f.gst _ (fun r x => ?_) _).1, rfl⟩
    split_ifs <;> exact ⟨rfl, rfl⟩
  have htss := hkeep f.tss1 (fun r x => { r with
    grps := mput {} r.grps x.1 { mget r.grps x.1 {} with tss1 := x.2, v0 := mget f.v0 x.1 0 } }) (fun _ _ => ⟨rfl, rfl⟩)
    (recGroups r f.gst f.stamp)
  have hcause := hkeep f.gst (fun r x => if x.2 ≠ 0 ∧ (mget r.gcause x.1 []).isEmpty then
    { r with gcause := mput [] r.gcause x.1 [2 ^ mget f.first x.1 0, mget f.first x.1 0] } else r)
    (fun r x => by split_ifs <;> exact ⟨rfl, rfl⟩)
  exact ⟨(hcause _).1.trans (htss.1.trans hgroups.1), (hcause _).2.trans (htss.2.trans hgroups.2)⟩

end

/-- Settles O46, frame by frame, then the link. -/
theorem syncFramesAndLink : Obligations.SyncFramesAndLink := by
  unfold Obligations.SyncFramesAndLink
  refine ⟨fun s h b recs fr by_ ok m rl im f hp hr => ⟨fun hb => ?bad, fun hg hv he => ?stale,
    fun hg hv he =>
      have hacc := syncAccept_current (pairOn_of hp hr) hg hv he
      ⟨?otherPair, ?hb, ?notReceiving, fun hrec => ⟨?data, ?mark, ?old, ?newer⟩, ?refused, ?ctrl, ?imgRole, ?img⟩,
    ?nor, ?noNor⟩, fun s => ⟨?noLink, ?unpaired, ?lost, rfl, ?up, ?within, ?after⟩⟩
  case bad => exact exec_syncRow_discarded (syncAccept_bad (pairOn_of hp hr) hb) b recs fr by_ ok m rl im f
  case stale => exact exec_syncRow_discarded (syncAccept_stale (pairOn_of hp hr) hg hv he) b recs fr by_ ok m rl im f
  case otherPair =>
    intro hid
    have hunfold : exec (.hbRx h b) s = execHbRx h b s := rfl
    rw [hunfold, execHbRx, hacc]
    exact if_pos hid
  case hb =>
    intro hid s3 s4 s5 s6 s7
    have hunfold : exec (.hbRx h b) s = execHbRx h b s := rfl
    rw [hunfold, execHbRx, hacc]
    refine (if_neg (not_not.2 hid)).trans ?_
    have hepoch : ¬ h.epoch > roleEpoch s := by omega
    have hgive : (if h.hs ∧ getB s7 R.PAIR_ROLE_HS_OWN ∧ h.epoch > roleEpoch s then hsGive s7 else s7) = s7 :=
      if_neg fun hh => hepoch hh.2.2
    exact congrArg (fun x => Host.Outcome.next (if role x = 2 ∧ h.role ≠ 1 ∧ h.role ≠ 5 then resyncFail x else x)) hgive
  case notReceiving =>
    refine fun hrec => ⟨?_, ?_, ?_⟩
    · have hdata : execSyncDataRx h recs s = .next s := by
        rw [execSyncDataRx, hacc]; exact if_pos (congrArg (!·) hrec)
      exact hdata
    · have hmark : execSyncMarkRx h fr by_ ok s = .next s := by
        rw [execSyncMarkRx, hacc]; exact if_pos (.inl (congrArg (!·) hrec))
      exact hmark
    · have hsst : execSstateRx h f s = .next s := by
        rw [execSstateRx, hacc]; exact if_pos (.inl (congrArg (!·) hrec))
      exact hsst
  case data =>
    have hunfold : exec (.syncDataRx h recs) s = execSyncDataRx h recs s := rfl
    rw [hunfold, execSyncDataRx, hacc]
    exact if_neg (not_bnot_of_true hrec)
  case mark =>
    intro st s2
    have hunfold : exec (.syncMarkRx h fr by_ ok) s = execSyncMarkRx h fr by_ ok s := rfl
    rw [hunfold, execSyncMarkRx, hacc]
    refine ⟨fun hno => if_pos ?_, fun ht hsnap hfr hby hok => ?_⟩
    · have hdcrc : ok = false → (!ok) = true := fun hok => congrArg (!·) hok
      tauto
    · have hpass : ¬ ((!receives s) = true ∨ h.tier > 2 ∨ st.snap ≠ h.snap ∨ st.frames ≠ fr ∨ st.bytes ≠ by_ ∨
          (!ok) = true) := by
        simp [hrec, hsnap, hfr, hby, hok]; omega
      exact ⟨fun hgen => (if_neg hpass).trans (if_pos (congrArg (!·) hgen)),
        fun hgen => (if_neg hpass).trans (if_neg (not_bnot_of_true hgen))⟩
  case old =>
    intro hold
    have hunfold : exec (.sstateRx h f) s = execSstateRx h f s := rfl
    rw [hunfold, execSstateRx, hacc]
    exact if_pos (.inr hold)
  case newer =>
    intro hnew r
    obtain ⟨hstamp, hgst⟩ := recSstate_stamp_gst s.saf.rcd f
    refine ⟨hstamp, hgst, ?_⟩
    have hunfold : exec (.sstateRx h f) s = execSstateRx h f s := rfl
    rw [hunfold, execSstateRx, hacc]
    exact if_neg (by simp [hrec, hnew])
  case refused =>
    refine fun href => ⟨?_, ?_, ?_⟩
    · have hctrl : execSyncCtrlRx h m s = .next s := by rw [execSyncCtrlRx, hacc]; exact if_pos href
      exact hctrl
    · have hrelay : execSyncRelayRx h rl s = .next s := by rw [execSyncRelayRx, hacc]; exact if_pos href
      exact hrelay
    · have himg : execSyncImgRx h im s = .next s := by rw [execSyncImgRx, hacc]; exact if_pos (.inr href)
      exact himg
  case ctrl =>
    refine fun href => ⟨?_, ?_⟩
    · have hctrl : execSyncCtrlRx h m s = .next (ctrlApply s m) := by
        rw [execSyncCtrlRx, hacc]; exact if_neg (Bool.eq_false_iff.1 href)
      exact hctrl
    · have hrelay : execSyncRelayRx h rl s = .next (relayTake s rl) := by
        rw [execSyncRelayRx, hacc]; exact if_neg (Bool.eq_false_iff.1 href)
      exact hrelay
  case imgRole =>
    intro hrole
    have hunfold : exec (.syncImgRx h im) s = execSyncImgRx h im s := rfl
    rw [hunfold, execSyncImgRx, hacc]
    exact if_pos (.inl hrole)
  case img =>
    intro hrole href pct s1 hpct him
    have hunfold : exec (.syncImgRx h im) s = execSyncImgRx h im s := rfl
    rw [hunfold, execSyncImgRx, hacc]
    refine (if_neg (by simp [hrole, href])).trans ?_
    rw [hpct, him, ← sat_eq_min]
  case nor => exact fun h => if_pos h
  case noNor => exact fun h => if_neg (Bool.eq_false_iff.1 h)
  case noLink => exact fun h => congrArg Host.Outcome.next (if_pos (congrArg (!·) h))
  case unpaired =>
    exact fun h hp => congrArg Host.Outcome.next ((if_neg (not_bnot_of_true h)).trans (if_pos (congrArg (!·) hp)))
  case lost =>
    intro hl hp h1 h2 h3 s1 sfp los s2 s3 hsfp hlos s4 hr1 hr4
    refine congrArg Host.Outcome.next ((if_neg (not_bnot_of_true hl)).trans ((if_neg (not_bnot_of_true hp)).trans ?_))
    rw [if_neg h1]
    have hhealth : healthFrom s1 false = s1 := if_pos (hr1 ▸ h1)
    have hkeep : (if role (healthFrom s1 false) = 3 then setB (healthFrom s1 false) R.PAIR_ROLE_HEALTHY false
        else healthFrom s1 false) = s1 := by rw [hhealth, if_neg (by omega)]
    refine (congrArg lossShown hkeep).trans ?_
    rw [lossShown, hsfp]
    dsimp only
    rw [hlos]
    have hstay : ¬ role s4 = 2 := hr4 ▸ h2
    exact if_neg hstay
  case up => exact fun h => if_pos (.inr (by rw [h]; rfl))
  case within =>
    intro t ht hlt
    exact if_pos (.inr (by rw [ht, Option.any_some, decide_eq_false (Nat.not_le.2 hlt)]; rfl))
  case after =>
    intro t ht hle hp hr
    have hdue : ¬ ((!pairOn s) = true ∨
        (!s.pair.downAt.any (fun t => decide (tickNs s ≥ t + 1000000000))) = true) := by
      rw [ht, Option.any_some, pairOn_of hp hr, decide_eq_true hle]; decide
    refine ⟨fun hrole => (if_neg hdue).trans (if_pos hrole), fun hrole => (if_neg hdue).trans ?_⟩
    exact (if_neg (by omega)).trans (if_pos hrole)

end Sys2Proof.Machine
end

section
/-!
PROOFS. What the reports of the pair leave of its own registers (Table MAP-5), and the roles of the pair (R347 to R368).
-/

namespace Sys2Proof.Machine

/-! ## Register words that stay -/

/-- The register word at an address stays as it is. -/
def Kept (a : Nat) (s t : State) : Prop := ∀ d, mget t.regs a d = mget s.regs a d

/-- A register word that no report of the pair, of the task unit or of the recorder writes. -/
@[reducible] def Quiet (a : Nat) : Prop :=
  (∀ b ∈ [Blk.pair, .tsk, .rcd], a ≠ (hErr b).addr 0 0 ∧ a ≠ (hDyn b).addr 0 0 ∧ a ≠ (hLat b).addr 0 0) ∧
  a ≠ R.REC_DROP_COUNT.addr 0 0 ∧ ∀ n < 16, a ≠ R.TSK_T_STAT_QLEN.addr 0 n

namespace Kept

variable {a : Nat} {s t u : State}

/-- No change. -/
theorem refl (a : Nat) (s : State) : Kept a s s := fun _ => rfl

/-- A change of anything but the registers. -/
theorem of_regs (h : t.regs = s.regs) : Kept a s t := fun d => by rw [h]

/-- One change after another. -/
theorem trans (h1 : Kept a s t) (h2 : Kept a t u) : Kept a s u := fun d => (h2 d).trans (h1 d)

/-- Either change. -/
theorem ite {p : Prop} [Decidable p] (h1 : Kept a s t) (h2 : Kept a s u) : Kept a s (if p then t else u) := by
  split
  · exact h1
  · exact h2

/-- A word at another address. -/
theorem setRegW {f : Fld} {i k : Nat} (v : Nat) (h : a ≠ f.addr i k) : Kept a s (setRegW s f i k v) :=
  fun _ => mget_mput_other _ _ _ _ _ _ h

/-- A field at another address. -/
theorem setF {f : Fld} {i k : Nat} (v : Nat) (h : a ≠ f.addr i k) : Kept a s (setF s f v i k) := setRegW _ h

/-- A field at the address reads as before. -/
theorem getF {f : Fld} {i k : Nat} (h : Kept (f.addr i k) s t) : getF t f i k = getF s f i k := by
  rw [Machine.getF, Machine.getF, regW, regW, h]

/-- A bit at the address reads as before. -/
theorem getB {f : Fld} {i k : Nat} (h : Kept (f.addr i k) s t) : getB t f i k = getB s f i k := by
  rw [Machine.getB, Machine.getB, h.getF]

/-- A task's run. -/
theorem setTask (n : Nat) (v : Task) : Kept a s (setTask s n v) := of_regs rfl

/-- The recorder's write queue, and its count of dropped requests. -/
theorem recPush (hq : Quiet a) (r : RecReq) : Kept a s (recPush s r) :=
  ite (of_regs rfl) (trans (of_regs (t := { s with recDrop := s.recDrop + 1 }) rfl) (setF _ hq.2.1))

/-- UNIT_ERR of a unit, with its record. -/
theorem unitErr (hq : Quiet a) {b : Blk} (hb : b ∈ [Blk.pair, .tsk, .rcd]) (code : Nat) : Kept a s (unitErr s b 0 code) := by
  obtain ⟨hunit, hdrop, hqlen⟩ := hq
  obtain ⟨herr, -, -⟩ := hunit b hb
  have hovr : a ≠ (hOvr b).addr 0 0 := herr
  exact trans (ite (setF _ herr) (setF _ hovr)) (recPush ⟨hunit, hdrop, hqlen⟩ _)

/-- Bits latched by a unit, with their event entry. -/
theorem latchN (hq : Quiet a) (n : Nat) {b : Blk} (hb : b ∈ [Blk.pair, .tsk, .rcd]) (m : Nat) :
    Kept a s (latchN n s b 0 m) := by
  have hlat {b : Blk} (hb : b ∈ [Blk.pair, .tsk, .rcd]) : a ≠ (hLat b).addr 0 0 := (hq.1 b hb).2.2
  induction n generalizing s b m with
  | zero => exact setF _ (hlat hb)
  | succ n ih =>
    have hbits : Kept a s (latBits s b 0 m) := setF _ (hlat hb)
    have hqlen : a ≠ R.TSK_T_STAT_QLEN.addr 0 (8 + Machine.getF s (hUser b) 0) := by
      have huser : Machine.getF s (hUser b) 0 < 2 ^ 3 := bits_lt ..
      exact hq.2.2 _ (by omega)
    unfold Machine.latchN
    refine ite hbits (ite (ite (ite ?_ ?_) hbits) (ite hbits ?_))
    · exact (hbits.trans (setTask _ _)).trans (setF _ hqlen)
    · exact ((hbits.trans (setTask _ _)).trans (unitErr hq (by decide) _)).trans (ih (by decide) 4)
    · exact hbits.trans (of_regs rfl)

/-- Momentary conditions of a unit. -/
theorem latch (hq : Quiet a) {b : Blk} (hb : b ∈ [Blk.pair, .tsk, .rcd]) (m : Nat) : Kept a s (latch s b 0 m) := by
  have hblk : b ≠ Blk.loopCtx := by rintro rfl; revert hb; decide
  rw [Machine.latch, if_neg hblk]
  exact latchN hq 2 hb m

/-- A level condition of a unit. -/
theorem level (hq : Quiet a) {b : Blk} (hb : b ∈ [Blk.pair, .tsk, .rcd]) (n : Nat) (on : Bool) :
    Kept a s (level s b 0 n on) := by
  have hdyn : a ≠ (hDyn b).addr 0 0 := (hq.1 b hb).2.1
  exact ite (refl a s) (ite ((setF _ hdyn).trans (latch hq hb _)) (setF _ hdyn))

end Kept

section
variable {s : State}

/-! ## The second heartbeat path -/

/-- A pulse on the second path leaves the role. -/
theorem role_hb2 (s : State) : role (hb2 s) = role s := by
  have hkept : Kept (R.PAIR_ROLE_ROLE.addr 0 0) s (hb2 s) := by
    have hquiet : Quiet (R.PAIR_ROLE_ROLE.addr 0 0) := by decide
    have hmiss (v : Nat) (x : State) : Kept (R.PAIR_ROLE_ROLE.addr 0 0) x (setF x R.PAIR_HB_P2_MISS v) := Kept.setF _ (by decide)
    have hok (x : State) : Kept (R.PAIR_ROLE_ROLE.addr 0 0) x (setB x R.PAIR_HB_P2_OK true) := Kept.setF _ (by decide)
    have hdeg (x : State) : Kept (R.PAIR_ROLE_ROLE.addr 0 0) x (setB x R.PAIR_HB_DEGRADED false) := Kept.setF _ (by decide)
    have hpair (x : State) (p : PairSt) : Kept (R.PAIR_ROLE_ROLE.addr 0 0) x (setPair x p) := Kept.of_regs rfl
    rw [hb2]
    have hclear (x : State) : Kept (R.PAIR_ROLE_ROLE.addr 0 0) x (level (setB x R.PAIR_HB_DEGRADED false) .pair 0 2 false) :=
      (hdeg _).trans (Kept.level hquiet (by decide) 2 false)
    exact (((hmiss _ _).trans (hok _)).trans (hpair _ _)).trans (Kept.ite (hclear _) (Kept.refl _ _))
  exact hkept.getF

/-- A pulse on the second path of a module that owns or is alone is the pulse alone. -/
theorem hbPulseRx_of_no_partner (hon : pairOn s = true) (hr : role s < 2) : execHbPulseRx s = .next (hb2 s) :=
  (if_neg (not_bnot_of_true hon)).trans (if_pos ((role_hb2 s).symm ▸ hr))

/-! ## The first heartbeat path -/

/-- The first path is shown silent. -/
def path1Lost (s : State) : State := setPair (setB s R.PAIR_HB_P1_OK false) { s.pair with n1 := 0 }

/-- The first path shows no heartbeat then. -/
theorem getB_path1Lost_p1 (s : State) : getB (path1Lost s) R.PAIR_HB_P1_OK = false := by
  have hzero : getF (setB s R.PAIR_HB_P1_OK false) R.PAIR_HB_P1_OK = 0 := getF_setF_same _ _ _ _ _ (by decide)
  exact bne_eq_false_iff_eq.2 hzero

/-- The second path shows what it showed. -/
theorem getB_path1Lost_p2 (s : State) : getB (path1Lost s) R.PAIR_HB_P2_OK = getB s R.PAIR_HB_P2_OK := by
  have hkeep : getF (setB s R.PAIR_HB_P1_OK false) R.PAIR_HB_P2_OK = getF s R.PAIR_HB_P2_OK :=
    getF_setF_disjoint _ _ _ _ _ _ _ _ (by decide) (by decide) (by decide) (by decide)
  exact congrArg (· != 0) hkeep

/-- Whether one path alone is left stays as shown. -/
theorem getB_path1Lost_degraded (s : State) : getB (path1Lost s) R.PAIR_HB_DEGRADED = getB s R.PAIR_HB_DEGRADED := by
  have hkeep : getF (setB s R.PAIR_HB_P1_OK false) R.PAIR_HB_DEGRADED = getF s R.PAIR_HB_DEGRADED :=
    getF_setF_disjoint _ _ _ _ _ _ _ _ (by decide) (by decide) (by decide) (by decide)
  exact congrArg (· != 0) hkeep

/-- Where the first path has been silent for four cycles: one path is left, or the partner is lost. -/
theorem hbPathSilent_due {t : Nat} (hon : pairOn s = true) (ht : s.pair.h1 = some t) (hd : t + 4 * period s 0 ≤ now s) :
    (getB s R.PAIR_HB_P2_OK = true → getB s R.PAIR_HB_DEGRADED = false → execHbPathSilent 1 s =
      .next (level (unitErr (setB (setPair (path1Lost s) { (path1Lost s).pair with degPath := 1 }) R.PAIR_HB_DEGRADED true)
        .pair 0 0x0D13) .pair 0 2 true)) ∧
    (getB s R.PAIR_HB_P2_OK = false → execHbPathSilent 1 s =
      .next (if role (healthFrom (setF (path1Lost s) R.PAIR_ROLE_PARTNER 7) false) = 1 ∨
          role (healthFrom (setF (path1Lost s) R.PAIR_ROLE_PARTNER 7) false) = 3
        then hsTake (healthFrom (setF (path1Lost s) R.PAIR_ROLE_PARTNER 7) false)
        else healthFrom (setF (path1Lost s) R.PAIR_ROLE_PARTNER 7) false)) := by
  have hpath : execHbPathSilent 1 s =
      if getB (path1Lost s) R.PAIR_HB_P1_OK || getB (path1Lost s) R.PAIR_HB_P2_OK then
        .next (if getB (path1Lost s) R.PAIR_HB_DEGRADED then path1Lost s
          else level (unitErr (setB (setPair (path1Lost s) { (path1Lost s).pair with degPath := 1 }) R.PAIR_HB_DEGRADED true)
            .pair 0 0x0D13) .pair 0 2 true)
      else .next (if role (healthFrom (setF (path1Lost s) R.PAIR_ROLE_PARTNER 7) false) = 1 ∨
          role (healthFrom (setF (path1Lost s) R.PAIR_ROLE_PARTNER 7) false) = 3
        then hsTake (healthFrom (setF (path1Lost s) R.PAIR_ROLE_PARTNER 7) false)
        else healthFrom (setF (path1Lost s) R.PAIR_ROLE_PARTNER 7) false) := by
    have hh1 : (if 1 = 1 then s.pair.h1 else s.pair.h2) = some t := ht
    rw [execHbPathSilent, hh1]
    exact if_neg (by simp [hon, hd])
  rw [hpath, getB_path1Lost_p1, getB_path1Lost_p2, getB_path1Lost_degraded]
  exact ⟨fun h2 hdeg => (if_pos (by simp [h2])).trans (congrArg _ (if_neg (Bool.eq_false_iff.1 hdeg))),
    fun h2 => if_neg (by simp [h2])⟩

/-! ## Claims and abdications -/

/-- A claim that may be made is carried to the interlock. -/
theorem claim_made {k lvl : Nat} (hon : pairOn s = true) (hk : claimKind s = some k) (hc : getB s R.PAIR_ILK_IN_CLEAR = true)
    (hs : getB s R.PAIR_MISMATCH_SIDE = false) (hkey : keyPos s < 2) (how : s.pair.ownWait = false) :
    execClaim lvl s = .next (claimStep s k lvl) := by
  rw [execClaim, hk]
  exact if_neg (by simp [hon, hc, hs, how]; omega)

/-- With the interlock input silent the claimant owns. -/
theorem claimStep_of_free {k lvl : Nat} (h : lvl ≠ 1) :
    claimStep s k lvl = ownBy (setIlkOut (ilkLevel (raiseEpoch s) lvl) true) k := if_pos h

/-- With the interlock input asserted side B leaves it at that. -/
theorem claimStep_collision_b {k : Nat} (h : getB (ilkLevel (raiseEpoch s) 1) R.PAIR_ROLE_SIDE = true) :
    claimStep s k 1 = ilkLevel (raiseEpoch s) 1 := if_pos h

/-- With the interlock input asserted side A claims and waits. -/
theorem claimStep_collision_a {k : Nat} (h : getB (ilkLevel (raiseEpoch s) 1) R.PAIR_ROLE_SIDE = false) :
    claimStep s k 1 = setIlkOut (setPair (ilkLevel (raiseEpoch s) 1)
      { (ilkLevel (raiseEpoch s) 1).pair with ownWait := true, claim := some k }) true := if_neg (Bool.eq_false_iff.1 h)

/-- The new causes of abdication. -/
def newCauses (s : State) : Nat := abdBits s &&& (0x1F ^^^ s.pair.seen)

/-- The causes present are noted. -/
def causesSeen (s : State) : State := setPair s { s.pair with seen := abdBits s }

/-- What an owner with no abdication under way makes of the causes. -/
theorem judgeAbd_of_owner (hr : role s = 1) (ha : s.pair.abdAt = none) :
    (newCauses s = 0 → judgeAbd s = causesSeen s) ∧
    (newCauses s ≠ 0 → healthyStandby (causesSeen s) = true → judgeAbd s = setPair (causesSeen s)
      { (causesSeen s).pair with abd := some (((List.range 5).find? (fun i => bitOf (newCauses s) i)).getD 0 + 1) }) ∧
    (newCauses s ≠ 0 → healthyStandby (causesSeen s) = false →
      judgeAbd s = recCond (causesSeen s) 0x0D14 0 0 (leBytes 1 (newCauses s))) := by
  have hnone : ¬ (causesSeen s).pair.abdAt.isSome = true := by simp [causesSeen, setPair, ha]
  have howner : ¬ role s ≠ 1 := not_not.2 hr
  refine ⟨fun h => (if_neg howner).trans (if_pos (.inl h)), fun h hh => ?_, fun h hh => ?_⟩
  · exact (if_neg howner).trans ((if_neg (not_or.2 ⟨h, hnone⟩)).trans (if_pos hh))
  · exact (if_neg howner).trans ((if_neg (not_or.2 ⟨h, hnone⟩)).trans (if_neg (Bool.eq_false_iff.1 hh)))

/-- A value with a bit set is not 0. -/
theorem ne_zero_of_bitOf {v i : Nat} (h : bitOf v i = true) : v ≠ 0 := by
  rintro rfl
  simp [bitOf] at h

/-- The lowest bit that is set. -/
theorem find?_bitOf_lowest {v n i : Nat} (hi : i < n) (hb : bitOf v i = true) (hlow : ∀ j, j < i → bitOf v j = false) :
    (List.range n).find? (fun i => bitOf v i) = some i := by
  rw [List.find?_range_eq_some]
  exact ⟨hb, List.mem_range.2 hi, fun j hj => by simp [hlow j hj]⟩

/-- A word of PAIR does not depend on what the unit keeps besides its registers. -/
theorem getB_setPair (t : State) (p : PairSt) (f : Fld) : getB (setPair t p) f = getB t f := rfl

/-- The result of a PAIR command leaves what the unit keeps besides its registers. -/
theorem pair_pairRes (op code : Nat) : (pairRes s op code).pair = s.pair := by rw [pairRes, setF_pair, setF_pair]

/-- The result of a PAIR command leaves the host-service class. -/
theorem getB_pairRes_hsOwn (op code : Nat) : getB (pairRes s op code) R.PAIR_ROLE_HS_OWN = getB s R.PAIR_ROLE_HS_OWN := by
  have hkept : Kept (R.PAIR_ROLE_HS_OWN.addr 0 0) s (pairRes s op code) :=
    (Kept.setF _ (by decide)).trans (Kept.setF _ (by decide))
  exact hkept.getB

end

/-- Settles O47, event by event and command by command. -/
theorem pairRoles : Obligations.PairRoles := by
  unfold Obligations.PairRoles
  intro s hp hr
  have hon := pairOn_of hp hr
  refine ⟨hbPulseRx_of_no_partner hon, ?silent, ?noListen, ?listen, ?noClaim, ?claim, ?ilk, ?ilkFree, ?noTakeover, ?takeover,
    ?notOwner, ?abdication, ?noStandby, ?switchover, ?resync, ?hsMove, ?noSettle, ?settle, ?noDrop, ?drop⟩
  case silent =>
    intro t ht
    refine ⟨fun h => ?_, fun h => hbPathSilent_due hon ht h⟩
    have hh1 : (if 1 = 1 then s.pair.h1 else s.pair.h2) = some t := ht
    have hunfold : exec (.hbPathSilent 1) s = execHbPathSilent 1 s := rfl
    rw [hunfold, execHbPathSilent, hh1]
    exact if_pos (by simp [hon, h])
  case noListen => exact fun h => if_pos (.inr (.inl (congrArg (!·) h)))
  case listen =>
    intro hl ht hb
    exact (if_neg (by simp [hon, hl, ht])).trans (congrArg _ (if_neg hb))
  case noClaim =>
    intro lvl h
    have hunfold : exec (.claim lvl) s = execClaim lvl s := rfl
    rw [hunfold, execClaim, h]
  case claim =>
    intro k lvl hk hc hs hkey how s1
    have hmade : exec (.claim lvl) s = .next (claimStep s k lvl) := claim_made hon hk hc hs hkey how
    refine ⟨fun h h2 => ?_, fun h h2 => ?_, fun h hside => ?_, fun h hside => ?_⟩
    · exact hmade.trans (congrArg _ ((claimStep_of_free h).trans (if_neg h2)))
    · exact hmade.trans (congrArg _ ((claimStep_of_free h).trans (if_pos h2)))
    · subst h
      exact hmade.trans (congrArg _ (claimStep_collision_b hside))
    · subst h
      exact hmade.trans (congrArg _ (claimStep_collision_a hside))
  case ilk =>
    intro s1 hp1
    have hs1 : ilkLevel s 1 = s1 := rfl
    have hunfold : exec (.ilkInChange 1) s = execIlkInChange 1 s := rfl
    rw [hunfold, execIlkInChange, hs1]
    clear_value s1
    exact (if_neg fun h => h.2 rfl).trans (congrArg _ (if_pos hp1))
  case ilkFree =>
    intro s1 hp1 how k hk
    have hunfold : exec (.ilkInChange 0) s = execIlkInChange 0 s := rfl
    have hs1 : ilkLevel s 0 = s1 := rfl
    rw [hunfold, execIlkInChange, hs1]
    clear_value s1
    dsimp only
    rw [if_pos hp1, if_pos ⟨how, by decide⟩, hk]
  case noTakeover => exact fun h lvl => congrArg Host.Outcome.next (if_neg (Bool.eq_false_iff.1 h))
  case takeover =>
    intro hd lvl s1
    have hmade : exec (.takeover lvl) s = .next (claimStep s 2 lvl) := congrArg Host.Outcome.next (if_pos hd)
    refine ⟨fun h => ?_, fun h hside => ?_, fun h hside => ?_⟩
    · exact hmade.trans (congrArg _ ((claimStep_of_free h).trans (if_pos rfl)))
    · subst h
      exact hmade.trans (congrArg _ (claimStep_collision_b hside))
    · subst h
      exact hmade.trans (congrArg _ (claimStep_collision_a hside))
  case notOwner =>
    exact fun h => ⟨(if_pos hon).trans (congrArg _ (if_pos h)), if_pos (.inr h)⟩
  case abdication =>
    intro hr ha new s1
    have hstep : exec .abdication s = .next (judgeAbd s) := if_pos hon
    obtain ⟨hnone, hhealthy, hlost⟩ := judgeAbd_of_owner hr ha
    refine ⟨fun h => hstep.trans (congrArg _ (hnone h)), fun i hi hb hlow hh => ?_,
      fun h hh => hstep.trans (congrArg _ (hlost h hh))⟩
    have hfind : (List.range 5).find? (bitOf (newCauses s)) = some i := find?_bitOf_lowest hi hb hlow
    refine hstep.trans (congrArg _ ((hhealthy (ne_zero_of_bitOf hb) hh).trans ?_))
    rw [hfind]
    rfl
  case noStandby =>
    exact fun hr hh => (if_neg (by simp [hon, hr])).trans (if_pos (congrArg (!·) hh))
  case switchover =>
    intro hr hh
    have hmay : ¬ ((!pairOn s) = true ∨ role s ≠ 1) := by simp [hon, hr]
    have hunfold : exec .switchover s = execSwitchover s := rfl
    rw [hunfold, execSwitchover, if_neg hmay, if_neg (not_bnot_of_true hh), planSwitch, pair_pairRes, pairRes]
  case resync =>
    intro ok
    refine ⟨fun h => if_pos (.inr h), fun h => ?_, fun h => ?_⟩
    · exact (if_neg (by simp [hon, h])).trans (if_pos h)
    · exact (if_neg (by rcases h with h | h <;> simp [hon, h])).trans (if_neg (by omega))
  case hsMove =>
    intro s2 hr2
    refine ⟨fun h => if_pos (.inr (.inr (congrArg (!·) h))), fun h => ?_⟩
    have hs2 : setPair (pairRes s 3 0x0D00) { s.pair with ctrlTx := s.pair.ctrlTx ++ [.hsMove] } = s2 := by rw [pairRes]
    clear_value s2
    have hown : getB s2 R.PAIR_ROLE_HS_OWN = getB s R.PAIR_ROLE_HS_OWN := by
      rw [← hs2, getB_setPair, getB_pairRes_hsOwn]
    have hmay : ¬ ((!pairOn s) = true ∨ (role s ≠ 1 ∧ role s ≠ 3) ∨ (!getB s R.PAIR_SYNC_LINK) = true) := by
      rcases hr2 with hr2 | hr2 <;> simp [hon, h, hr2]
    have hunfold : exec .hsMove s = execHsMove s := rfl
    rw [hunfold, execHsMove, if_neg hmay, hown]
    dsimp only
    rw [pair_pairRes, hs2]
  case noSettle =>
    intro h
    have hunfold : exec .hsSettleExpiry s = execHsSettleExpiry s := rfl
    rw [hunfold, execHsSettleExpiry, h]
  case settle =>
    intro t ht hside hown hdue
    have hunfold : exec .hsSettleExpiry s = execHsSettleExpiry s := rfl
    rw [hunfold, execHsSettleExpiry, ht]
    exact if_pos ⟨hon, hside, congrArg (!·) hown, hdue⟩
  case noDrop =>
    intro h
    have hunfold : exec .abdicateIlkDrop s = execAbdicateIlkDrop s := rfl
    rw [hunfold, execAbdicateIlkDrop, h]
  case drop =>
    intro d
    have hunfold : exec .abdicateIlkDrop s = execAbdicateIlkDrop s := rfl
    rw [hunfold, execAbdicateIlkDrop]
    refine ⟨fun h => ?_, fun h hsnap hlt => ?_, fun h hle => ?_⟩
    · rw [h]
      exact if_neg fun hh : false = true ∧ _ => Bool.false_ne_true hh.1
    · rw [h]
      exact if_pos ⟨rfl, congrArg (!·) (decide_eq_false fun hh => absurd hh.1 (Nat.not_le.2 hsnap)), hlt⟩
    · rw [h]
      exact if_neg fun hh => absurd hh.2.2 (Nat.not_lt.2 hle)

end Sys2Proof.Machine
end

section
/-!
PROOFS. Calls to TIME and the instants of time (R372 to R397).
-/

namespace Sys2Proof.Machine

section
variable {s s1 : State} {n : Nat} {c : Call}

/-! ## The calls -/

/-- TPEDGE of a list of one edge. -/
theorem tpedgeList_one {op mode : Nat} {b : List Byte} {s2 s3 s4 : State}
    (hc : timeCall s n 0 (fun x => x == 0 || decide (x > 2)) = some (c, op, s1)) (hm : dsc s1 c 1 1 = (mode, s2))
    (hn : dsc s2 c 2 2 = (1, s3)) (hb : engRd s3 (c.addr + 0x18) 16 = (b, s4)) (hop : op ≤ 2) (hmode : mode ≤ 1) :
    let e := (leNat (b.take 8), leNat ((b.drop 8).take 1) % 2 == 1)
    let v := getTp s4 n
    let keep := if mode = 1 then tpKeep v e.1 else v.edges
    exec (.tpedgeList n) s =
      if e.1 < c.since + 2000 then .next (complete s4 c 0x10 0)
      else if !rising (if tpRouted s4 n then 100000 else 16) ((keep ++ [e]).map Prod.fst) then .next (complete s4 c 0x11 0)
      else if mode = 0 ∧ v.per.isSome ∨ (keep ++ [e]).length > 16 then .next (complete s4 c 0x13 0)
      else .next (complete (setTp s4 n { v with edges := keep ++ [e], per := none, k := 0 }) c 0 0) := by
  intro e v keep
  have hunfold : exec (.tpedgeList n) s = execTpedgeList n s := rfl
  rw [hunfold, execTpedgeList, hc]
  dsimp only
  rw [hm]
  dsimp only
  rw [hn]
  dsimp only
  have hone : min 1 16 = 1 := rfl
  rw [hone, Nat.mul_one, hb]
  exact if_neg (by omega)

/-- TPEDGE of a list with an operation, a mode or a count that Table TIM-7 does not have. -/
theorem tpedgeList_malformed {op mode cnt : Nat} {b : List Byte} {s2 s3 s4 : State}
    (hc : timeCall s n 0 (fun x => x == 0 || decide (x > 2)) = some (c, op, s1)) (hm : dsc s1 c 1 1 = (mode, s2))
    (hn : dsc s2 c 2 2 = (cnt, s3)) (hb : engRd s3 (c.addr + 0x18) (16 * min cnt 16) = (b, s4))
    (h : 2 < op ∨ 1 < mode ∨ cnt = 0 ∨ 16 < cnt) : exec (.tpedgeList n) s = .next (complete s4 c 0x1B 0) := by
  have hunfold : exec (.tpedgeList n) s = execTpedgeList n s := rfl
  rw [hunfold, execTpedgeList, hc]
  dsimp only
  rw [hm]
  dsimp only
  rw [hn]
  dsimp only
  rw [hb]
  exact if_pos h

/-- TPEDGE of a periodic schedule, by its operands. -/
theorem tpedgePeriodic_read {op mode cnt st p h : Nat} {s2 s3 s4 s5 s6 : State}
    (hc : timeCall s n 0 (fun x => x == 1) = some (c, op, s1)) (hm : dsc s1 c 1 1 = (mode, s2))
    (hn : dsc s2 c 2 2 = (cnt, s3)) (hst : dsc s3 c 8 8 = (st, s4)) (hp : dsc s4 c 16 4 = (p, s5))
    (hh : dsc s5 c 20 4 = (h, s6)) :
    let v := getTp s6 n
    let keep := if mode = 1 then tpKeep v st else v.edges
    exec (.tpedgePeriodic n) s =
      if mode > 1 then .next (complete s6 c 0x1B 0)
      else if st < c.since + 2000 then .next (complete s6 c 0x10 0)
      else if !rising (if tpRouted s6 n then 100000 else 16) (keep.map Prod.fst ++ [st]) then .next (complete s6 c 0x11 0)
      else if p < 32 ∨ h < 16 ∨ h + 16 ≥ p ∨ (tpRouted s6 n ∧ p < 200000) then .next (complete s6 c 0x12 0)
      else if mode = 0 ∧ v.per.isSome then .next (complete s6 c 0x13 0)
      else .next (complete (setTp s6 n { edges := keep, per := some (st, p, h, cnt), k := 0 }) c 0 0) := by
  intro v keep
  have hunfold : exec (.tpedgePeriodic n) s = execTpedgePeriodic n s := rfl
  rw [hunfold, execTpedgePeriodic, hc]
  dsimp only
  rw [hm]
  dsimp only
  rw [hn]
  dsimp only
  rw [hst]
  dsimp only
  rw [hp]
  dsimp only
  rw [hh]

/-- TCREAD of at most 16 entries. -/
theorem tcread_read {op mx : Nat} {s2 : State} (hc : timeCall s n 1 (fun _ => true) = some (c, op, s1))
    (hm : dsc s1 c 0 2 = (mx, s2)) (h0 : 0 < mx) (h16 : mx ≤ 16) :
    let l := (getTc s2 n).take mx
    let lv := (l.zip (List.range l.length)).foldl (fun b p => if p.1.2 then b + 2 ^ p.2 else b) 0
    exec (.tcread n) s = .next (complete (setTc (wrBs (dscOut s2 c 2 2 lv) (c.addr + 0x18)
      (l.flatMap (fun p => leBytes 8 p.1))) n ((getTc s2 n).drop mx)) c 0 l.length) := by
  intro l lv
  have hunfold : exec (.tcread n) s = execTcread n s := rfl
  rw [hunfold, execTcread, hc]
  dsimp only
  rw [hm]
  exact if_neg (by omega)

/-- OFFSET by its operands. -/
theorem offset_read {op th st : Nat} {s2 s3 : State} (hc : timeCall s 0 2 (fun _ => true) = some (c, op, s1))
    (hth : dsc s1 c 0 8 = (th, s2)) (hst : dsc s2 c 8 8 = (st, s3)) :
    exec .offset s =
      if !(getF s1 R.TIME_STATE_SRC == 3) ∧ (srcPri s3 3 = 0 ∨ (getSrc s3 3).valid) then .next (complete s3 c 0x16 0)
      else if st + 1000000000 < c.since then .next (complete s3 c 0x17 0)
      else if (s3.time.prgAt.any fun t => decide (c.since < t + 10000000)) then .next (complete s3 c 0x18 0)
      else .next (complete (timeSample { s3 with time := { s3.time with prgAt := some c.since } } 3 (sint 64 th * 65536)) c 0 0) := by
  have hunfold : exec .offset s = execOffset s := rfl
  rw [hunfold, execOffset, hc]
  dsimp only
  rw [hth]
  dsimp only
  rw [hst]
  dsimp only
  cases s3.time.prgAt with
  | none => rw [Option.any_none]
  | some t => rw [Option.any_some]

/-- ALARM of an operation other than CANCEL, by its operands. -/
theorem alarmArm_read {op t p : Nat} {s2 s3 : State} (hc : timeCall s n 3 (fun x => x != 1) = some (c, op, s1))
    (ht : dsc s1 c 8 8 = (t, s2)) (hp : dsc s2 c 16 4 = (p, s3)) :
    exec (.alarmArm n) s =
      if op > 1 then .next (complete s3 c 0x1B 0)
      else if !hasTask s3 7 then .next (complete s3 c 0x15 0)
      else if t < c.since + 2000 then .next (complete s3 c 0x14 0)
      else .next (complete (setAlarm s3 n (some (t, p))) c 0 0) := by
  have hunfold : exec (.alarmArm n) s = execAlarmArm n s := rfl
  rw [hunfold, execAlarmArm, hc]
  dsimp only
  rw [ht]
  dsimp only
  rw [hp]

/-! ## The instants -/

/-- A step that waits and may be made at once is due. -/
theorem stepDue_of_free {d : Int} {t : Nat} (h : s.time.step = some (d, t)) (hf : stepFree s = true) : stepDue s = true := by
  rw [stepDue, h]
  exact (congrArg (· || _) hf).trans (Bool.true_or _)

/-- A step that waits for an output deadline is due there, after the instant it waits for. -/
theorem stepDue_of_waiting {d : Int} {t : Nat} (h : s.time.step = some (d, t)) (hf : stepFree s = false) :
    stepDue s = (decide (now s > t) && reaches s (period s 2) s.tl.tGuard) := by
  rw [stepDue, h]
  exact (congrArg (· || _) hf).trans (Bool.false_or _)

/-- A step in flight is made. -/
theorem timeStep_of_some {d : Int} {t : Nat} (h : s.time.step = some (d, t)) : timeStep s = doStep s d := by
  rw [timeStep, h]

end

/-- Settles O49, call by call and instant by instant: every clause is one path through its command. -/
theorem timeCallsAndInstants : Obligations.TimeCallsAndInstants := by
  unfold Obligations.TimeCallsAndInstants
  refine ⟨fun s s1 c n op => ⟨?list, ?periodic, ?cancel, ?tcread, ?offset, ?alarm, ?alarmCancel⟩,
    fun s n => ⟨?expiry, ?edge, ?capture, ?noStep, ?free, ?early, ?atDeadline, ?source, ?holds, ?holdover, rfl⟩⟩
  case list =>
    intro hc mode cnt b s2 s3 s4 hm hn hb
    refine ⟨tpedgeList_malformed hc hm hn hb, fun hop hmode hcnt => ?_⟩
    subst hcnt
    have hread := tpedgeList_one hc hm hn hb hop hmode
    intro e v keep gap
    refine ⟨fun h => hread.trans (if_pos h), fun hle hr => ?_, fun hle hr => ⟨fun h => ?_, fun hper hlen => ?_⟩⟩
    · exact hread.trans ((if_neg (Nat.not_lt.2 hle)).trans (if_pos (congrArg (!·) hr)))
    · have hfull : mode = 0 ∧ v.per.isSome = true ∨ (keep ++ [e]).length > 16 := by
        rw [List.length_append, List.length_singleton]
        exact h.imp_right Nat.lt_succ_of_le
      exact hread.trans ((if_neg (Nat.not_lt.2 hle)).trans ((if_neg (not_bnot_of_true hr)).trans (if_pos hfull)))
    · have hfree : ¬ (mode = 0 ∧ v.per.isSome = true ∨ (keep ++ [e]).length > 16) := by
        rw [List.length_append, List.length_singleton]
        rintro (⟨h0, hsome⟩ | h)
        · rcases hper with h1 | h1
          · omega
          · simp [h1] at hsome
        · omega
      exact hread.trans ((if_neg (Nat.not_lt.2 hle)).trans ((if_neg (not_bnot_of_true hr)).trans (if_neg hfree)))
  case periodic =>
    intro hc mode cnt st p h s2 s3 s4 s5 s6 hm hn hst hp hh
    have hread := tpedgePeriodic_read hc hm hn hst hp hh
    intro v keep ok
    refine ⟨fun hmode => hread.trans (if_pos hmode), fun hmode hlt => ?_, fun hmode hle hok => ?_,
      fun hmode hle hok => ⟨fun hbad => ?_, fun hp1 hh1 hp2 hper => ?_⟩⟩
    · exact hread.trans ((if_neg (by omega)).trans (if_pos hlt))
    · exact hread.trans ((if_neg (by omega)).trans ((if_neg (by omega)).trans (if_pos (congrArg (!·) hok))))
    · exact hread.trans ((if_neg (by omega)).trans ((if_neg (by omega)).trans ((if_neg (not_bnot_of_true hok)).trans
        (if_pos (by omega)))))
    · have hfree : ¬ (mode = 0 ∧ v.per.isSome = true) := by
        rintro ⟨h0, hsome⟩
        rcases hper with h1 | h1
        · omega
        · simp [h1] at hsome
      exact hread.trans ((if_neg (by omega)).trans ((if_neg (by omega)).trans ((if_neg (not_bnot_of_true hok)).trans
        ((if_neg (by omega)).trans (if_neg hfree)))))
  case cancel =>
    intro hc mode s2 hm
    have hread : exec (.tpedgeCancel n) s = .next (if mode > 1 then complete s2 c 0x1B 0
        else complete (tpLevel (setTp s2 n {}) n (getB s2 R.TIME_TP_CFG_IDLE_LVL 0 n)) c 0 0) := by
      have hunfold : exec (.tpedgeCancel n) s = execTpedgeCancel n s := rfl
      rw [hunfold, execTpedgeCancel, hc]
      dsimp only
      rw [hm]
    exact ⟨fun h => hread.trans (congrArg _ (if_pos h)), fun h => hread.trans (congrArg _ (if_neg (by omega)))⟩
  case tcread =>
    intro hc mx s2 hm
    refine ⟨fun h => ?_, fun t lvl rest h0 h16 htake hdrop => ?_, fun h0 h16 hnil => ?_⟩
    · have hunfold : exec (.tcread n) s = execTcread n s := rfl
      rw [hunfold, execTcread, hc]
      dsimp only
      rw [hm]
      exact if_pos h
    · have hread := tcread_read hc hm h0 h16
      dsimp only at hread
      rw [htake, hdrop] at hread
      cases lvl <;> exact hread
    · have hread := tcread_read hc hm h0 h16
      dsimp only at hread
      rw [hnil, List.take_nil, List.drop_nil] at hread
      exact hread
  case offset =>
    intro hc th st s2 s3 hth hst use
    have hread := offset_read hc hth hst
    refine ⟨fun hu h => hread.trans (if_pos ⟨congrArg (!·) hu, h⟩), fun hok => ?_⟩
    have hopen : ¬ ((!use) = true ∧ (srcPri s3 3 = 0 ∨ (getSrc s3 3).valid = true)) := by
      rcases hok with hu | ⟨hpri, hv⟩
      · simp [hu]
      · simp [hpri, hv]
    refine ⟨fun h => hread.trans ((if_neg hopen).trans (if_pos h)), fun hle => ⟨fun t ht hlt => ?_, fun h => ?_⟩⟩
    · have hrecent : (s3.time.prgAt.any fun t => decide (c.since < t + 10000000)) = true := by
        rw [ht, Option.any_some]; exact decide_eq_true hlt
      exact hread.trans ((if_neg hopen).trans ((if_neg (Nat.not_lt.2 hle)).trans (if_pos hrecent)))
    · have hold : ¬ (s3.time.prgAt.any fun t => decide (c.since < t + 10000000)) = true := by
        rcases h with h | ⟨t, h, ht⟩
        · rw [h, Option.any_none]; exact Bool.false_ne_true
        · rw [h, Option.any_some]; exact fun hd => absurd (of_decide_eq_true hd) (Nat.not_lt.2 ht)
      exact hread.trans ((if_neg hopen).trans ((if_neg (Nat.not_lt.2 hle)).trans (if_neg hold)))
  case alarm =>
    intro hc t p s2 s3 ht hp
    have hread := alarmArm_read hc ht hp
    refine ⟨fun h => hread.trans (if_pos h), fun h0 h => ?_, fun h0 h => ⟨fun hlt => ?_, fun hle => ?_⟩⟩
    · exact hread.trans ((if_neg (by omega)).trans (if_pos (congrArg (!·) h)))
    · exact hread.trans ((if_neg (by omega)).trans ((if_neg (not_bnot_of_true h)).trans (if_pos hlt)))
    · exact hread.trans ((if_neg (by omega)).trans ((if_neg (not_bnot_of_true h)).trans (if_neg (Nat.not_lt.2 hle))))
  case alarmCancel =>
    intro hc
    have hunfold : exec (.alarmCancel n) s = execAlarmCancel n s := rfl
    rw [hunfold, execAlarmCancel, hc]
  case expiry =>
    intro u
    have hstep : exec (.alarmExpiry n) s = .next (alarmExpiry n u) := rfl
    refine ⟨fun h => ?_, fun t p h => ⟨fun hlt => ?_, fun hle hp => ?_, fun hle hp => ?_⟩⟩ <;> rw [hstep, alarmExpiry, h]
    · exact congrArg _ (if_pos hlt)
    · subst hp
      exact congrArg _ (if_neg (Nat.not_lt.2 hle))
    · exact congrArg _ ((if_neg (Nat.not_lt.2 hle)).trans (congrArg _ (if_neg hp)))
  case edge =>
    intro u
    have hstep : exec (.tpEdgeOut n) s = .next (tpEdge n u) := rfl
    refine ⟨fun h => ?_, fun t lvl h => ⟨fun hlt => ?_, fun hle hn => ?_⟩⟩ <;> rw [hstep, tpEdge, h]
    · exact congrArg _ (if_neg fun hh => absurd hh.2 (Nat.not_le.2 hlt))
    · exact congrArg _ (if_pos ⟨hn, hle⟩)
  case capture =>
    intro lvl hn s1 on
    have hstep : exec (.tcCapture n lvl) s = .next (if on then (if (getTc s1 n).length < 16
        then setTc s1 n (getTc s1 n ++ [(now (samples s), lvl)])
        else latch (unitErrAt (incF s1 R.TIME_TC_STAT_DROPPED 0 n) .time 0 0x0E19 n []) .time 0 128) else s1) :=
      congrArg Host.Outcome.next (if_neg (Nat.not_le.2 hn))
    refine ⟨fun hoff => ?_, fun hon hlt => ?_, fun hon hle => ?_⟩
    · exact hstep.trans (congrArg _ (if_neg (Bool.eq_false_iff.1 hoff)))
    · exact hstep.trans (congrArg _ ((if_pos hon).trans (if_pos hlt)))
    · exact hstep.trans (congrArg _ ((if_pos hon).trans (if_neg (Nat.not_lt.2 hle))))
  case noStep =>
    intro h
    have hdue : stepDue s = false := by rw [stepDue, h]
    exact congrArg Host.Outcome.next (if_neg (Bool.eq_false_iff.1 hdue))
  case free =>
    intro d t h hf
    have htarget : (if stepFree s then s else launches s) = s := if_pos hf
    refine congrArg Host.Outcome.next ((if_pos (stepDue_of_free h hf)).trans ?_)
    rw [htarget, timeStep_of_some h]
  case early =>
    intro d t h hf hwait
    have hdue : stepDue s = false := by
      rw [stepDue_of_waiting h hf]
      rcases hwait with hle | hr
      · simp [hle]
      · simp [hr]
    exact congrArg Host.Outcome.next (if_neg (Bool.eq_false_iff.1 hdue))
  case atDeadline =>
    intro d t d2 t2 h hf hlt hr hl
    have hdue : stepDue s = true := by
      rw [stepDue_of_waiting h hf]
      simp [hlt, hr]
    have htarget : (if stepFree s then s else launches s) = launches s := if_neg (Bool.eq_false_iff.1 hf)
    refine congrArg Host.Outcome.next ((if_pos hdue).trans ?_)
    rw [htarget, timeStep_of_some hl]
  case source =>
    intro k t hk1 hk3 hat
    have hunfold : exec (.sourceTimeout k) s = execSourceTimeout k s := rfl
    rw [hunfold, execSourceTimeout]
    dsimp only
    rw [hat]
    dsimp only
    refine ⟨fun h => if_pos (.inl h), fun h => ⟨fun hsrc => ?_, fun hsrc hb => ?_, fun hsrc hb hservo => ?_⟩⟩
    · exact (if_neg (by omega)).trans (if_pos hsrc)
    · exact (if_neg (by omega)).trans ((if_neg (not_not.2 hsrc)).trans (congrArg _ (if_neg fun hh => hb hh.1)))
    · refine (if_neg (by omega)).trans ((if_neg (not_not.2 hsrc)).trans ?_)
      rw [hb]
      exact congrArg _ (if_pos ⟨rfl, hservo⟩)
  case holds => exact fun h => if_neg fun hh => h hh.1
  case holdover => exact fun h hle => if_pos ⟨h, hle⟩

end Sys2Proof.Machine
end

section
/-!
PROOFS. PTP messages on a port (R384 to R389).
-/

namespace Sys2Proof.Machine

section
variable {s : State} {p : Nat} {m : PtpMsg}

/-- Every message that the port does not take is discarded and counted. -/
theorem ptpRx_discarded (h : ptpTakes s p m = false) : ∀ i ∈ [Instr.ptpSyncRx p m, .ptpFollowUpRx p m, .ptpDelayRespRx p m,
    .ptpPdelayRx p m, .ptpAnnounceRx p m, .ptpDelayReqRx p m], exec i s = .next (incF s R.TIME_PTP_CNT_DISC) := by
  have hnot : (!ptpTakes s p m) = true := congrArg (!·) h
  have hor (b : Bool) : (!ptpTakes s p m || b) = true := by rw [hnot, Bool.true_or]
  intro i hi
  simp only [List.mem_cons, List.not_mem_nil, or_false] at hi
  rcases hi with rfl | rfl | rfl | rfl | rfl | rfl
  · exact if_pos (hor _)
  · exact if_pos hnot
  · exact if_pos (hor _)
  · exact if_pos (hor _)
  · exact if_pos hnot
  · exact if_pos (hor _)

/-- A message that is taken passes the first test of its command, where the second condition fails too. -/
theorem not_discarded {b : Bool} (h : ptpTakes s p m = true) (hb : b = false) : ¬ (!ptpTakes s p m || b) = true := by
  simp [h, hb]

/-- A Follow_Up of the Sync that the port holds. -/
theorem ptpFollowUpRx_of_sync {y : PtpMsg} {t2 : Nat} (ht : ptpTakes s p m = true) (hy : (getPtp s p).sync = some (y, t2))
    (hst : ptpState s p = 9) (hseq : y.seq = m.seq) (hsrc : y.src = m.src) (hport : y.srcPort = m.srcPort) :
    let ms : Int := (((t2 : Int) - (m.ts : Int)) * 65536) - y.corr - m.corr
    let s1 := setPtp s p { getPtp s p with sync := none, ms := some ms }
    ((getPtp s p).dly = none → exec (.ptpFollowUpRx p m) s = .next s1) ∧
    ∀ d, (getPtp s p).dly = some d → exec (.ptpFollowUpRx p m) s = .next (timeSample s1 1 (ms - d)) := by
  have hunfold : exec (.ptpFollowUpRx p m) s = execPtpFollowUpRx p m s := rfl
  rw [hunfold, execPtpFollowUpRx, if_neg (not_bnot_of_true ht)]
  dsimp only
  rw [hy]
  dsimp only
  rw [if_neg (by simp [hst, hseq, hsrc, hport])]
  refine ⟨fun h => ?_, fun d h => ?_⟩ <;> rw [h]

/-- A Delay_Resp to the port's own request. -/
theorem ptpDelayRespRx_of_own {q t3 : Nat} {ms : Int} (ht : ptpTakes s p m = true) (hreq : (getPtp s p).req = some (q, t3))
    (hms : (getPtp s p).ms = some ms) (hown : m.own = true) (hq : q = m.seq) (he2e : getB s R.TIME_PTP_CFG_DELAY = false) :
    let sm : Int := ((m.ts : Int) - (t3 : Int)) * 65536 - m.corr
    exec (.ptpDelayRespRx p m) s = .next (ptpDelay (setPtp s p { getPtp s p with req := none }) p ((ms + sm) / 2)) := by
  have hunfold : exec (.ptpDelayRespRx p m) s = execPtpDelayRespRx p m s := rfl
  rw [hunfold, execPtpDelayRespRx, if_neg (not_discarded ht he2e)]
  dsimp only
  rw [hreq, hms]
  exact if_neg (by simp [hown, hq])

/-- An Announce of the first foreign master of a port. -/
theorem ptpAnnounceRx_first (ht : ptpTakes s p m = true) (hsrc : m.src ≠ s.time.clockId) (hsteps : m.steps < 255)
    (hnil : (getPtp s p).foreign = []) : exec (.ptpAnnounceRx p m) s =
      .next (ptpDecide (setPtp s p { getPtp s p with foreign := [{ ann := m, n := 1, at_ := now s }] })) := by
  have hunfold : exec (.ptpAnnounceRx p m) s = execPtpAnnounceRx p m s := rfl
  rw [hunfold, execPtpAnnounceRx, if_neg (not_bnot_of_true ht), if_neg (not_or.2 ⟨hsrc, Nat.not_le.2 hsteps⟩)]
  dsimp only
  rw [hnil, List.find?_nil]
  rfl

end

/-- Settles O50, message by message: what the port takes, and what it sends. -/
theorem ptpMessages : Obligations.PtpMessages := by
  unfold Obligations.PtpMessages
  refine fun s p m => ⟨ptpRx_discarded, fun ht => ⟨?syncOneStep, ?syncState, ?syncParent, ?delayP2P, ?sync, ?noSync,
    fun y t2 d hy hst hseq hsrc hport => ?followUp, fun q t3 ms => ptpDelayRespRx_of_own ht, ?pdelay, ?ownAnnounce,
    ptpAnnounceRx_first ht, ?delayReq⟩, ?tx, ?off, ?request⟩
  case syncOneStep => exact fun h => if_pos (by simp [h])
  case syncState => exact fun h hst => (if_neg (not_discarded ht (congrArg (!·) h))).trans (if_pos (.inl hst))
  case syncParent =>
    exact fun h hp => (if_neg (not_discarded ht (congrArg (!·) h))).trans (if_pos (.inr (congrArg (!·) hp)))
  case delayP2P => exact fun h => if_pos (by simp [h])
  case sync =>
    exact fun h hst hp => (if_neg (not_discarded ht (congrArg (!·) h))).trans
      (if_neg (not_or.2 ⟨not_not.2 hst, not_bnot_of_true hp⟩))
  case noSync =>
    intro h
    have hunfold : exec (.ptpFollowUpRx p m) s = execPtpFollowUpRx p m s := rfl
    rw [hunfold, execPtpFollowUpRx, if_neg (not_bnot_of_true ht)]
    dsimp only
    rw [h]
  case followUp =>
    obtain ⟨hnone, hsome⟩ := ptpFollowUpRx_of_sync ht hy hst hseq hsrc hport
    exact ⟨hnone, hsome d⟩
  case pdelay =>
    intro hk h
    have hunfold : exec (.ptpPdelayRx p m) s = execPtpPdelayRx p m s := rfl
    rw [hunfold, execPtpPdelayRx, if_neg (not_discarded ht (congrArg (!·) h))]
    dsimp only
    rw [hk]
    rfl
  case ownAnnounce => exact fun h => (if_neg (not_bnot_of_true ht)).trans (if_pos h)
  case delayReq => exact fun h hst => (if_neg (not_discarded ht h)).trans (if_neg (not_not.2 hst))
  case tx =>
    intro t v
    refine ⟨fun h => ?_, fun hon hst => ⟨?_, fun hother => ?_⟩⟩
    · have hidle : (!ptpOn t p) = true ∨ ptpState t p ≠ 6 := h.imp_left (congrArg (!·))
      exact ⟨if_pos hidle, if_pos hidle⟩
    · exact if_neg (not_or.2 ⟨not_bnot_of_true hon, not_not.2 hst⟩)
    · have hunfold : exec (.ptpAnnounceTx p) s = execPtpAnnounceTx p s := rfl
      rw [hunfold, execPtpAnnounceTx]
      refine (if_neg (not_or.2 ⟨not_bnot_of_true hon, not_not.2 hst⟩)).trans ?_
      dsimp only
      rw [if_neg hother]
  case off => exact fun h => if_pos (.inl (congrArg (!·) h))
  case request =>
    intro hon hst he2e
    have hunfold : exec (.ptpDelayReqTx p) s = execPtpDelayReqTx p s := rfl
    rw [hunfold, execPtpDelayReqTx, he2e]
    exact if_neg (not_or.2 ⟨not_bnot_of_true hon, fun h => absurd hst h.2⟩)

end Sys2Proof.Machine
end

section
/-!
PROOFS. The CAN channels: their calls, their bus and their counters (R398 to R426).
-/

namespace Sys2Proof.Machine

section
variable {s s1 : State} {k : Nat} {c : Call}

/-! ## The calls -/

/-- CAN_TX, with its operand. -/
theorem canTx_read {f : CanFrame} {m : Nat} {s2 : State} (hc : takeCall s 5 k 0 = some (c, s1))
    (hf : canOperand s1 c = (f, m, s2)) : exec (.canTx k) s =
      if canFrameBad s2 k f then .next (complete s2 c 0x14 0)
      else if getB s2 R.CAN_C_ERR_ASLEEP k then .next (complete s2 c 0x18 0)
      else .next (setCan s2 k { getCan s2 k with fifo := (getCan s2 k).fifo ++ [{ call := c, frame := f }] }) := by
  have hunfold : exec (.canTx k) s = execCanTx k s := rfl
  rw [hunfold, execCanTx, hc]
  dsimp only
  rw [hf]

/-- EXPRESS of a good frame to a mailbox of an awake channel that is not in transmission. -/
theorem express_accepted {f : CanFrame} {m : Nat} {s2 : State} (hc : takeCall s 5 k 1 = some (c, s1))
    (hf : canOperand s1 c = (f, m, s2)) (hm : m ≤ 3) (hbad : canFrameBad s2 k f = false)
    (hawake : getB s2 R.CAN_C_ERR_ASLEEP k = false) (hcur : (getCan s2 k).cur ≠ some (some m)) :
    let s3 := setCan s2 k { getCan s2 k with mbox := mput none (getCan s2 k).mbox m (some { call := c, frame := f }) }
    (mget (getCan s2 k).mbox m none = none → exec (.express k) s = .next s3) ∧
    ∀ old, mget (getCan s2 k).mbox m none = some old → exec (.express k) s = .next (complete s3 old.call 7 0) := by
  have hunfold : exec (.express k) s = execExpress k s := rfl
  rw [hunfold, execExpress, hc]
  dsimp only
  rw [hf]
  dsimp only
  rw [if_neg (Nat.not_lt.2 hm), if_neg (Bool.eq_false_iff.1 hbad), if_neg (Bool.eq_false_iff.1 hawake), if_neg hcur]
  refine ⟨fun h => ?_, fun old h => ?_⟩
  · rw [h]
  · rw [h]
    rfl

/-- EXPRESS that is refused. -/
theorem express_refused {f : CanFrame} {m : Nat} {s2 : State} (hc : takeCall s 5 k 1 = some (c, s1))
    (hf : canOperand s1 c = (f, m, s2)) :
    (3 < m → exec (.express k) s = .next (complete s2 c 0x1B 0)) ∧
    (m ≤ 3 → canFrameBad s2 k f = true → exec (.express k) s = .next (complete s2 c 0x14 0)) ∧
    (m ≤ 3 → canFrameBad s2 k f = false → getB s2 R.CAN_C_ERR_ASLEEP k = false →
      (getCan s2 k).cur = some (some m) → exec (.express k) s = .next (complete s2 c 0x12 0)) := by
  have hunfold : exec (.express k) s = execExpress k s := rfl
  rw [hunfold, execExpress, hc]
  dsimp only
  rw [hf]
  refine ⟨fun h => if_pos h, fun h hbad => (if_neg (Nat.not_lt.2 h)).trans (if_pos hbad), fun h hbad hawake hcur => ?_⟩
  exact (if_neg (Nat.not_lt.2 h)).trans ((if_neg (Bool.eq_false_iff.1 hbad)).trans
    ((if_neg (Bool.eq_false_iff.1 hawake)).trans (if_pos hcur)))

/-- ABORT, by the frame that its ticket names. -/
theorem canAbort_read {t : Nat} {s2 : State} (hc : takeCall s 5 k 2 = some (c, s1)) (ht : dsc s1 c 0 4 = (t, s2)) :
    (canFind (getCan s2 k) t = none → exec (.canAbort k) s = .next (complete s2 c 0x13 0)) ∧
    ∀ i x, canFind (getCan s2 k) t = some (none, i, x) → (getCan s2 k).cur ≠ some none → exec (.canAbort k) s =
      .next (complete (complete (setCan s2 k { getCan s2 k with fifo := (getCan s2 k).fifo.eraseIdx i }) x.call 8 0) c 0 0) := by
  have hunfold : exec (.canAbort k) s = execCanAbort k s := rfl
  rw [hunfold, execCanAbort, hc]
  dsimp only
  rw [ht]
  dsimp only
  refine ⟨fun h => ?_, fun i x h hcur => ?_⟩
  · rw [h]
  · rw [h]
    exact if_neg fun hh => hcur hh.1

/-- RXREAD, by the number of records that it may take. -/
theorem rxread_read {mx : Nat} {s2 : State} (hc : takeCall s 5 k 3 = some (c, s1)) (hm : dsc s1 c 0 2 = (mx, s2)) :
    exec (.rxread k) s =
      if mx = 0 ∨ mx > 16 then .next (complete s2 c 0x1B 0)
      else .next (complete (wrBs (setCan s2 k { getCan s2 k with rx := (getCan s2 k).rx.drop mx }) (c.addr + 0x18)
        (((getCan s2 k).rx.take mx).flatMap canRecord)) c 0 ((getCan s2 k).rx.take mx).length) := by
  have hunfold : exec (.rxread k) s = execRxread k s := rfl
  rw [hunfold, execRxread, hc]
  dsimp only
  rw [hm]

/-- SLEEP of an operation other than the local wake, by what the channel holds. -/
theorem canSleep_read {op : Nat} {s2 : State} (hc : takeCallIf s 5 k 4 0 1 (fun op => op != 1) = some (c, s1))
    (hop : dsc s1 c 0 1 = (op, s2)) : exec (.canSleep k) s =
      if op > 1 then .next (complete s2 c 0x1B 0)
      else if getB s2 R.CAN_C_ERR_ASLEEP k then .next (complete s2 c 0 0)
      else if !(getCan s2 k).fifo.isEmpty || mbxBits (getCan s2 k) != 0 then .next (complete s2 c 0x17 0)
      else .next (setCan s2 k { getCan s2 k with sleep := (getCan s2 k).sleep ++ [c] }) := by
  have hunfold : exec (.canSleep k) s = execCanSleep k s := rfl
  rw [hunfold, execCanSleep, hc]
  dsimp only
  rw [hop]

/-! ## The bus -/

/-- The three ends of an attempt. -/
theorem canTxDone_of_cur {x : CanTx} {w : CanCh} (h : canCur (getCan s k) = some (x, w)) :
    exec (.canTxDone k .lost) s = .next (canFail s k) ∧
    exec (.canTxDone k (.err true false)) s = .next (canFail (canErrs s k ((getCan s k).tec + 8) (getCan s k).rec_) k) ∧
    exec (.canTxDone k .ok) s = .next (completeAll (complete (dscOut (canErrs (setCan s k w) k ((getCan s k).tec - 1)
      (getCan s k).rec_) x.call 8 4 (getCan s k).sof) x.call 0 (min 32767 x.n)) x.abort 0x13) := by
  have hunfold (e : CanEnd) : exec (.canTxDone k e) s = execCanTxDone k e s := rfl
  refine ⟨?_, ?_, ?_⟩ <;> rw [hunfold, execCanTxDone]
  · dsimp only
    rw [h]
  · dsimp only
    rw [h]
    dsimp only
    rw [if_neg Bool.false_ne_true, Bool.true_or, if_pos rfl]
  · dsimp only
    rw [h, ← sat_eq_min]

/-- A frame that a channel may receive is of a length, an identifier and a format that it takes. -/
theorem canFrame_taken {f : CanFrame} (hfd : f.fdf = false ∨ (f.rtr = false ∧ getB s R.CAN_C_CFG_FD_EN k = true))
    (hlen : canLenOk f.fdf f.len = true) (hid : f.id < 2048) :
    (!canOnBus s k || (f.fdf && (f.rtr || !getB s R.CAN_C_CFG_FD_EN k)) || !canLenOk f.fdf f.len || decide (f.id ≥ 2 ^ 29) ||
      (!f.ide && decide (f.id ≥ 2048))) = !canOnBus s k := by
  have hformat : (f.fdf && (f.rtr || !getB s R.CAN_C_CFG_FD_EN k)) = false := by
    rcases hfd with h | ⟨h1, h2⟩
    · simp [h]
    · simp [h1, h2]
  have h29 : decide (f.id ≥ 2 ^ 29) = false := decide_eq_false (by omega)
  have h11 : decide (f.id ≥ 2048) = false := decide_eq_false (by omega)
  rw [hformat, hlen, h29, h11]
  simp

/-- The state of a channel on the bus as a good frame of another node comes in: the receive error count is one less. -/
def canHeard (s : State) (k : Nat) : State := canErrs s k (getCan s k).tec ((getCan s k).rec_ - 1)

/-- A good frame of another node on a channel that is on the bus, by the filter that takes it. -/
theorem canFrameRx_of_good {f : CanFrame} {ago : Nat}
    (hfd : f.fdf = false ∨ (f.rtr = false ∧ getB s R.CAN_C_CFG_FD_EN k = true)) (hlen : canLenOk f.fdf f.len = true)
    (hlisten : getB s R.CAN_C_CFG_LISTEN k = false) (hrest : getB s R.CAN_C_CFG_REST k = false) (hid : f.id < 2048)
    (hrec : (getCan s k).rec_ ≤ 127) (hown : canOwnId (canHeard s k) k f = false) (hon : canOnBus s k = true) :
    (canFilter (canHeard s k) k f = none →
      exec (.canFrameRx k f ago) s = .next (incF (canHeard s k) R.CAN_C_CNT_NOMATCH k)) ∧
    ∀ i, canFilter (canHeard s k) k f = some i → exec (.canFrameRx k f ago) s =
      if getB (canHeard s k) R.CAN_C_FMASK_ACT k i then .next (canHeard s k)
      else if (getCan (canHeard s k) k).rx.length ≥ 256
        then .next (latch (unitErr (incF (canHeard s k) R.CAN_C_CNT_OVF k) .canCh k 0x0F16) .canCh k 8)
      else .next (latch (setCan (canHeard s k) k { getCan (canHeard s k) k with rx := (getCan (canHeard s k) k).rx ++
        [{ frame := f, filter := i, conflict := false
           stamp := (canCount (canHeard s k) + 2 ^ 32 - ago % 2 ^ 32) % 2 ^ 32 }] }) .canCh k 32) := by
  have hunfold : exec (.canFrameRx k f ago) s = execCanFrameRx k f ago s := rfl
  have hactive : ¬ (getB s R.CAN_C_CFG_LISTEN k || getB s R.CAN_C_CFG_REST k) = true := by simp [hlisten, hrest]
  rw [hunfold, execCanFrameRx, canFrame_taken hfd hlen hid, if_neg (not_bnot_of_true hon)]
  dsimp only
  rw [if_neg hactive, if_neg (Nat.not_lt.2 hrec)]
  dsimp only
  rw [← canHeard, hown]
  refine ⟨fun h => ?_, fun i h => ?_⟩
  · rw [if_neg Bool.false_ne_true, h]
  · rw [if_neg Bool.false_ne_true, h]

end

/-- Settles O51, call by call and event by event. -/
theorem canChannels : Obligations.CanChannels := by
  unfold Obligations.CanChannels
  refine ⟨fun s s1 c k => ⟨?tx, ?express, fun hc t s2 ht => canAbort_read hc ht, ?rxread, ?sleep, ?wakeCall⟩,
    fun s k hk => ⟨?cannotSend, ?arbitration, ?nothing, fun x w h => canTxDone_of_cur h, ?frame, ?recovery, ?noRecovery,
      ?asleep, ?wake, ?integrated, ?awake, ?busError, ?snapshot, ?noSnapshot, rfl⟩⟩
  case tx =>
    intro hc f m s2 hf
    have hread := canTx_read hc hf
    refine ⟨fun h => hread.trans (if_pos h), fun hb h => ?_, fun hb h => ?_⟩
    · exact hread.trans ((if_neg (Bool.eq_false_iff.1 hb)).trans (if_pos h))
    · exact hread.trans ((if_neg (Bool.eq_false_iff.1 hb)).trans (if_neg (Bool.eq_false_iff.1 h)))
  case express =>
    intro hc f m s2 hf
    obtain ⟨hill, hbad, hbusy⟩ := express_refused hc hf
    refine ⟨hill, hbad, fun hm hb ha => ⟨hbusy hm hb ha, fun hcur => ?_, fun old hcur => ?_⟩⟩
    · exact (express_accepted hc hf hm hb ha hcur).1
    · exact (express_accepted hc hf hm hb ha hcur).2 old
  case rxread =>
    intro hc mx s2 hm
    exact ⟨fun h => (rxread_read hc hm).trans (if_pos h), fun h1 h16 => (rxread_read hc hm).trans (if_neg (by omega))⟩
  case sleep =>
    intro hc op s2 hop
    have hread := canSleep_read hc hop
    refine ⟨fun h => hread.trans (if_pos h), fun h0 ha => ?_, fun h0 ha => ⟨fun hf => ?_, fun hf hm => ?_⟩⟩
    · exact hread.trans ((if_neg (by omega)).trans (if_pos ha))
    · exact hread.trans ((if_neg (by omega)).trans ((if_neg (Bool.eq_false_iff.1 ha)).trans (if_pos (by simp [hf]))))
    · exact hread.trans ((if_neg (by omega)).trans ((if_neg (Bool.eq_false_iff.1 ha)).trans (if_neg (by simp [hf, hm]))))
  case wakeCall =>
    intro hc
    have hunfold : exec (.canWakeLocal k) s = execCanWakeLocal k s := rfl
    rw [hunfold, execCanWakeLocal, hc]
    dsimp only
    refine ⟨fun h => if_pos (congrArg (!·) h), fun h hw => ?_⟩
    rw [if_neg (not_bnot_of_true h), if_pos hw]
  case cannotSend => exact fun h => if_pos (by simp [h])
  case arbitration =>
    intro hsend hcur
    have hunfold : exec (.canArbitration k) s = execCanArbitration k s := rfl
    rw [hunfold, execCanArbitration]
    dsimp only
    rw [if_neg (by simp [hsend, hcur])]
    refine ⟨fun h => ?_, fun h => ?_⟩ <;> rw [h]
  case nothing =>
    intro h e
    have hunfold : exec (.canTxDone k e) s = execCanTxDone k e s := rfl
    rw [hunfold, execCanTxDone]
    dsimp only
    rw [h]
  case frame =>
    intro f ago hfd hlen hlisten hrest hid hrec hown
    have hunfold : exec (.canFrameRx k f ago) s = execCanFrameRx k f ago s := rfl
    refine ⟨fun h => ?_, fun hon => ?_⟩
    · rw [hunfold, execCanFrameRx, canFrame_taken hfd hlen hid]
      exact if_pos (congrArg (!·) h)
    · obtain ⟨hnone, hsome⟩ := canFrameRx_of_good (ago := ago) hfd hlen hlisten hrest hid hrec hown hon
      refine ⟨hnone, fun i hi => ⟨fun ha => (hsome i hi).trans (if_pos ha), fun ha => ⟨fun hfull => ?_, fun hroom => ?_⟩⟩⟩
      · exact (hsome i hi).trans ((if_neg (Bool.eq_false_iff.1 ha)).trans (if_pos hfull))
      · exact (hsome i hi).trans ((if_neg (Bool.eq_false_iff.1 ha)).trans (if_neg (Nat.not_le.2 hroom)))
  case recovery => exact fun hr hst => if_pos ⟨hk, hr, hst⟩
  case noRecovery => exact fun h => if_neg fun hh => h hh.2.2
  case asleep => exact fun hr hsl => if_neg (by simp [hr, hsl])
  case wake =>
    intro hr ha hw e
    have hunfold : exec (.canWake k e) s = execCanWake k e s := rfl
    rw [hunfold, execCanWake, if_neg (by simp [hk, hr, ha, hw])]
    refine ⟨fun h => ?_, fun w h => ?_⟩ <;> rw [h]
  case integrated => exact fun hst hb => (if_neg (Nat.not_le.2 hk)).trans (if_pos ⟨hst, hb⟩)
  case awake =>
    intro hst hw
    have hrun : inRun s .canCh k = true := beq_iff_eq.2 hst
    have hnot : ¬ (stOf s .canCh k = 1 ∧ getB s (hBusy .canCh) k = true) := by simp [hst]
    exact (if_neg (Nat.not_le.2 hk)).trans ((if_neg hnot).trans (if_pos ⟨hrun, hw⟩))
  case busError =>
    intro hon hl hr
    have hcounts : ¬ (!canOnBus s k || getB s R.CAN_C_CFG_LISTEN k || getB s R.CAN_C_CFG_REST k) = true := by
      simp [hon, hl, hr]
    rw [← sat_eq_min, ← sat_eq_min]
    exact ⟨if_neg hcounts, if_neg hcounts, if_neg hcounts⟩
  case snapshot =>
    intro hr hu
    have htake : carry s 2048 canSnapshot = canSnapshot (taken s 2048) := carry_of_undone hu _
    refine congrArg Host.Outcome.next ((if_pos hr).trans (htake.trans ?_))
    rfl
  case noSnapshot => exact fun h => congrArg Host.Outcome.next (if_neg (Bool.eq_false_iff.1 h))

end Sys2Proof.Machine
end

section
/-!
PROOFS. Host ports, sessions, the Modbus server and datagrams (R409 to R421).
-/

namespace Sys2Proof.Machine

section
variable {s : State} {n addr fp : Nat} {tls : TlsHello}

/-! ## Sessions -/

/-- A frame of a port that is enabled. -/
theorem hostFrameRx_enabled (hn : n < 4) (hen : getB s R.HOST_Pn_CFG_EN 0 n = true) (svc : Nat) :
    exec (.hostFrameRx n svc) s = .next (if !offers s n svc then incF s R.HOST_Pn_LINK_DISC 0 n
      else if svc = 4 ∨ svc = 5 then { s with host := { s.host with echo := some (n, svc) } } else s) :=
  if_pos ⟨hn, hen⟩

/-- A connection to the management port of an enabled host port, with TLS 1.3, from an address that is not blocked. -/
theorem sessionConnect_tls (hn : n < 3) (hen : getB s R.HOST_Pn_CFG_EN 0 n = true)
    (hport : tls.tcp = getF s R.HOST_CFG_MGMT_PORT) (hblock : mget s.host.blocks addr 0 ≤ tickNs s) (htls : tlsOk tls = true) :
    (certOk s tls = false ∨ privOf s fp = none → exec (.sessionConnect n addr tls fp) s = .next (authFail s addr)) ∧
    ∀ p, certOk s tls = true → privOf s fp = some p →
      (3 ≤ p → n ≠ 2 → getB s R.HOST_CFG_ENG_PLANES = false → exec (.sessionConnect n addr tls fp) s = .next s) ∧
      (p < 3 ∨ n = 2 →
        (getF s R.HOST_CFG_MAXSESS ≤ s.host.sess.length →
          exec (.sessionConnect n addr tls fp) s = .next (answer s 0 0x1018 0 [])) ∧
        ∀ k, s.host.sess.length < getF s R.HOST_CFG_MAXSESS →
          (List.range 8).find? (fun k => (getSess s k).priv == 0) = some k → exec (.sessionConnect n addr tls fp) s =
            .next (setSess s k { port := n, addr := addr, fp := fp, priv := p, last := tickNs s })) := by
  have hunfold : exec (.sessionConnect n addr tls fp) s = execSessionConnect n addr tls fp s := rfl
  rw [hunfold, execSessionConnect, if_neg (by simp [hen]; omega), if_neg (by simp [hport]; omega),
    if_neg (not_or.2 ⟨Nat.not_lt.2 hblock, not_bnot_of_true htls⟩)]
  refine ⟨fun h => ?_, fun p hcert hp => ?_⟩
  · have hnone : (if certOk s tls = true then privOf s fp else none) = none := by
      rcases h with h | h
      · exact if_neg (Bool.eq_false_iff.1 h)
      · rw [h, ite_self]
    rw [hnone]
  · rw [if_pos hcert, hp]
    refine ⟨fun h3 h2 hpl => if_pos ⟨h3, h2, congrArg (!·) hpl⟩, fun hpriv => ⟨fun hfull => ?_, fun k hroom hk => ?_⟩⟩
    · refine (if_neg (by omega)).trans ?_
      rw [if_neg (Nat.not_lt.2 hfull)]
    · refine (if_neg (by omega)).trans ?_
      rw [if_pos hroom, hk]

end

section
variable {s : State} {conn unit fn : Nat}

/-! ## The Modbus server -/

/-- The function codes of R419. -/
def mbFns : List Nat := [1, 2, 3, 4, 5, 6, 16]

/-- A request to a closed server is not answered; it is counted where the service is switched off. -/
theorem mbReq_closed {k : Nat} {f : State → State} (ho : mbOpen s { conn := conn, unit := unit, fn := 0 } = false) :
    mbReq s { conn := conn, unit := unit, fn := k } fn f =
      if getB s R.HOST_Pn_CFG_EN 0 3 = true ∧ getB s R.HOST_CFG_MB_EN = false then incF s R.HOST_Pn_LINK_DISC 0 3 else s := by
  have hoffers : offers s 3 2 = getB s R.HOST_CFG_MB_EN := Bool.true_and _
  have hclosed : mbReq s { conn := conn, unit := unit, fn := k } fn f = closedSvc s 2 := if_pos (congrArg (!·) ho)
  rw [hclosed, closedSvc, hoffers]
  cases getB s R.HOST_Pn_CFG_EN 0 3 <;> cases getB s R.HOST_CFG_MB_EN <;> rfl

/-- A function code that the server does not have is exception 1. -/
theorem mbReq_unknown {k : Nat} {f : State → State} (ho : mbOpen s { conn := conn, unit := unit, fn := 0 } = true)
    (hk : k ∉ mbFns) : mbReq s { conn := conn, unit := unit, fn := k } fn f = mbAnswer s k 1 [] := by
  have hno : mbFns.contains k = false := Bool.eq_false_iff.2 fun h => hk (List.contains_iff_mem.1 h)
  exact (if_neg (not_bnot_of_true ho)).trans (if_pos (congrArg (!·) hno))

/-- A request of a function that the server has. -/
theorem mbReq_known {f : State → State} (ho : mbOpen s { conn := conn, unit := unit, fn := 0 } = true) (hfn : fn ∈ mbFns) :
    mbReq s { conn := conn, unit := unit, fn := fn } fn f = f s := by
  have hyes : mbFns.contains fn = true := List.contains_iff_mem.2 hfn
  exact (if_neg (not_bnot_of_true ho)).trans ((if_neg (not_bnot_of_true hyes)).trans (if_neg (not_not.2 rfl)))

/-- A read of a function that the server has. -/
theorem mbRead_known {tbl a n lim : Nat} (ho : mbOpen s { conn := conn, unit := unit, fn := 0 } = true) (hfn : fn ∈ mbFns) :
    (n = 0 ∨ lim < n → mbRead s { conn := conn, unit := unit, fn := fn } fn tbl a n lim = mbAnswer s fn 3 []) ∧
    (0 < n → n ≤ lim →
      (mbCover n s tbl a n = none →
        mbRead s { conn := conn, unit := unit, fn := fn } fn tbl a n lim = mbAnswer s fn 2 []) ∧
      ∀ l, mbCover n s tbl a n = some l → mbRead s { conn := conn, unit := unit, fn := fn } fn tbl a n lim =
        mbAnswer s fn 0 (l.flatMap (fun p => mbWords p.2 (mget s.host.mbVals p.1 0)))) := by
  rw [mbRead, mbReq_known ho hfn]
  refine ⟨fun hbad => if_pos hbad, fun h0 hlim => ?_⟩
  rw [if_neg (by omega)]
  refine ⟨fun hc => ?_, fun l hc => ?_⟩ <;> rw [hc]

/-- A read that is an instruction. -/
theorem exec_mbRead_known {i : Instr} {tbl a n lim : Nat} (ho : mbOpen s { conn := conn, unit := unit, fn := 0 } = true)
    (hfn : fn ∈ mbFns) (hi : exec i s = .next (mbRead s { conn := conn, unit := unit, fn := fn } fn tbl a n lim)) :
    (n = 0 ∨ lim < n → exec i s = .next (mbAnswer s fn 3 [])) ∧
    (0 < n → n ≤ lim →
      (mbCover n s tbl a n = none → exec i s = .next (mbAnswer s fn 2 [])) ∧
      ∀ l, mbCover n s tbl a n = some l → exec i s =
        .next (mbAnswer s fn 0 (l.flatMap (fun p => mbWords p.2 (mget s.host.mbVals p.1 0))))) := by
  obtain ⟨hbad, hgood⟩ := mbRead_known (tbl := tbl) (a := a) (n := n) (lim := lim) ho hfn
  rw [hi]
  exact ⟨fun h => congrArg _ (hbad h), fun h0 hlim => ⟨fun h => congrArg _ ((hgood h0 hlim).1 h),
    fun l h => congrArg _ ((hgood h0 hlim).2 l h)⟩⟩

/-- A write of points that the range covers whole. -/
theorem mbWrite_covered {tbl a : Nat} {ws : List Nat} {l : List (Nat × MbPoint)}
    (hc : mbCover ws.length s tbl a ws.length = some l) :
    ((∃ p ∈ l, p.2.src ≠ 2 ∨ p.2.wr = false) → mbWrite fn tbl a ws s = mbAnswer s fn 2 []) ∧
    ((∀ p ∈ l, p.2.src = 2 ∧ p.2.wr = true) →
      (getB s R.HOST_MB_GATE_GATE = false →
        mbWrite fn tbl a ws s = latch (unitErr (mbAnswer s fn 4 []) .host 0 0x101B) .host 0 4) ∧
      (getB s R.HOST_MB_GATE_GATE = true → mbWrite fn tbl a ws s = hostWait s true 0 fn (mbParts l ws))) := by
  rw [mbWrite, hc]
  refine ⟨fun ⟨p, hp, hbad⟩ => ?_, fun hall => ?_⟩
  · exact if_pos (List.any_eq_true.2 ⟨p, hp, by simpa using hbad⟩)
  · have hgood : ¬ (l.any fun p => p.2.src != 2 || !p.2.wr) = true := by
      simpa using fun i p hp => hall (i, p) hp
    exact ⟨fun hg => (if_neg hgood).trans (if_pos (congrArg (!·) hg)),
      fun hg => (if_neg hgood).trans (if_neg (not_bnot_of_true hg))⟩

end

/-- A datagram to the closed service is counted. -/
theorem closedSvc_nmea_off {s : State} (hen : getB s R.HOST_Pn_CFG_EN 0 3 = true) (hoff : getB s R.HOST_CFG_NMEA_EN = false) :
    closedSvc s 3 = incF s R.HOST_Pn_LINK_DISC 0 3 := by
  have hoffers : offers s 3 3 = getB s R.HOST_CFG_NMEA_EN := Bool.true_and _
  rw [closedSvc, hoffers, hen, hoff]
  rfl

/-- Nothing is counted on a port that is switched off. -/
theorem closedSvc_port_off {s : State} {svc : Nat} (hoff : getB s R.HOST_Pn_CFG_EN 0 3 = false) : closedSvc s svc = s := by
  rw [closedSvc, hoff]
  rfl

/-- A write that waits alone. -/
theorem relayTimeout_single {s : State} {w : HostW} (hw : s.host.waits = [w]) :
    exec (.relayTimeout w.id) s =
      if tickNs s < w.at_ + 4 * period s 1 then .next s
      else if w.mb then .next (mbAnswer { s with host := { s.host with waits := [] } } w.fn 6 [])
      else .next (answer { s with host := { s.host with waits := [], reqId := w.rid } } 3 0x101A 0 []) := by
  have hunfold : exec (.relayTimeout w.id) s = execRelayTimeout w.id s := rfl
  have hfind : [w].find? (fun x => x.id == w.id) = some w := by simp
  have hfilter : [w].filter (fun x => x.id != w.id) = [] := by simp
  rw [hunfold, execRelayTimeout, hw, hfind]
  dsimp only
  rw [hfilter]

/-- Settles O52, event by event and request by request. -/
theorem sessionsAndServers : Obligations.SessionsAndServers := by
  unfold Obligations.SessionsAndServers
  refine ⟨fun s n hn => ⟨fun h => if_pos ⟨hn, h⟩, if_pos hn, fun svc hen => ⟨?notOffered, ?offered, ?echo⟩,
    fun addr tls fp => ⟨fun h => if_pos (.inr (congrArg (!·) h)), fun hen => ⟨?wrongPort, fun h3 hport => ⟨?blocked,
      fun hb ht => sessionConnect_tls h3 hen hport hb ht⟩⟩⟩, ?noSession, ?session, ?block⟩,
    fun s conn unit fn a n v vs => ⟨?closed, fun ho => ⟨?unknown, ?reads, ?coilBad, ?coil, ?multipleBad, ?multiple,
      ?uncovered, ?covered⟩, ?relay, ?nmea⟩⟩
  case notOffered => exact fun h => (hostFrameRx_enabled hn hen svc).trans (congrArg _ (if_pos (congrArg (!·) h)))
  case offered =>
    intro h hsvc
    have hother : ¬ (svc = 4 ∨ svc = 5) := by omega
    exact (hostFrameRx_enabled hn hen svc).trans (congrArg _ ((if_neg (not_bnot_of_true h)).trans (if_neg hother)))
  case echo =>
    intro h
    have hoffers : offers s n svc = true := by rcases h with rfl | rfl <;> rfl
    exact (hostFrameRx_enabled hn hen svc).trans (congrArg _ ((if_neg (not_bnot_of_true hoffers)).trans (if_pos h)))
  case wrongPort =>
    exact fun h => (if_neg (by simp [hen]; omega)).trans (if_pos h)
  case blocked =>
    exact fun h => (if_neg (by simp [hen]; omega)).trans ((if_neg (by simp [hport]; omega)).trans
      (if_pos (h.imp_right (congrArg (!·)))))
  case noSession => exact fun k h => ⟨if_neg (not_not.2 h), if_neg fun hh => hh.1 h⟩
  case session =>
    exact fun k h => ⟨if_pos h, fun hle => if_pos ⟨h, hle⟩, fun hlt => if_neg fun hh => absurd hh.2 (Nat.not_le.2 hlt)⟩
  case block =>
    exact fun addr h => ⟨fun hle => if_pos ⟨h, hle⟩, fun hlt => if_neg fun hh => absurd hh.2 (Nat.not_le.2 hlt)⟩
  case closed =>
    intro ho r hr
    simp only [List.mem_cons, List.not_mem_nil, or_false] at hr
    rcases hr with rfl | rfl | rfl | rfl | rfl | rfl | rfl <;> exact congrArg Host.Outcome.next (mbReq_closed ho)
  case unknown =>
    intro hfn r hr
    simp only [List.mem_cons, List.not_mem_nil, or_false] at hr
    rcases hr with rfl | rfl | rfl | rfl | rfl | rfl | rfl <;> exact congrArg Host.Outcome.next (mbReq_unknown ho hfn)
  case reads =>
    intro r hr
    simp only [List.mem_cons, List.not_mem_nil, or_false] at hr
    rcases hr with rfl | rfl | rfl | rfl
    · exact exec_mbRead_known (fn := 1) (lim := 2000) ho (by decide) rfl
    · exact exec_mbRead_known (fn := 2) (lim := 2000) ho (by decide) rfl
    · exact exec_mbRead_known (fn := 3) (lim := 125) ho (by decide) rfl
    · exact exec_mbRead_known (fn := 4) (lim := 125) ho (by decide) rfl
  case coilBad =>
    intro h1 h0
    exact congrArg Host.Outcome.next ((mbReq_known ho (by decide)).trans (if_pos ⟨h1, h0⟩))
  case coil =>
    intro h
    exact congrArg Host.Outcome.next ((mbReq_known ho (by decide)).trans (if_neg (by omega)))
  case multipleBad =>
    intro h
    exact congrArg Host.Outcome.next ((mbReq_known ho (by decide)).trans (if_pos h.symm))
  case multiple =>
    intro hlen hne
    exact congrArg Host.Outcome.next ((mbReq_known ho (by decide)).trans (if_neg (not_or.2 ⟨hne, Nat.not_lt.2 hlen⟩)))
  case uncovered =>
    intro h
    refine congrArg Host.Outcome.next ((mbReq_known ho (by decide)).trans ?_)
    have hc : mbCover [v].length s 3 a [v].length = none := h
    rw [mbWrite, hc]
  case covered =>
    intro l hl
    obtain ⟨hbad, hgood⟩ := mbWrite_covered (fn := 6) (ws := [v]) hl
    have hstep : exec (.modbusWriteRegister { conn := conn, unit := unit, fn := 6 } a v) s = .next (mbWrite 6 3 a [v] s) :=
      congrArg Host.Outcome.next (mbReq_known ho (by decide))
    exact ⟨fun h => hstep.trans (congrArg _ (hbad h)), fun h => ⟨fun hg => hstep.trans (congrArg _ ((hgood h).1 hg)),
      fun hg => hstep.trans (congrArg _ ((hgood h).2 hg))⟩⟩
  case relay =>
    intro id w hw hid s1
    subst hid
    refine ⟨fun h => (relayTimeout_single hw).trans (if_pos h), fun h => (relayTimeout_single hw).trans ?_⟩
    exact (if_neg (Nat.not_lt.2 h)).trans (apply_ite Host.Outcome.next ..).symm
  case nmea =>
    intro g hdr len tags xs
    refine ⟨fun hoff hen => ?_, fun hon hbad => ?_, fun x hx hon hen hserve hg hhdr hlen => ?_⟩
    · exact (if_pos (.inl (congrArg (!·) hoff))).trans (congrArg _ (closedSvc_nmea_off hen hoff))
    · by_cases hen : getB s R.HOST_Pn_CFG_EN 0 3 = true
      · refine (if_neg (by simp [hon, hen])).trans (if_pos (.inr ?_))
        rcases hbad with h | h | h
        · exact .inr (.inl (congrArg (!·) h))
        · exact .inr (.inr h)
        · exact .inl h
      · have hoff : getB s R.HOST_Pn_CFG_EN 0 3 = false := Bool.eq_false_iff.2 hen
        exact (if_pos (.inr (congrArg (!·) hoff))).trans (congrArg _ (closedSvc_port_off hoff))
    · subst hx
      refine (if_neg (by simp [hon, hen])).trans ((if_neg (by simp [hserve, hhdr]; omega)).trans ?_)
      exact congrArg _ (forEach_singleton ..)

end Sys2Proof.Machine
end

section
/-!
PROOFS. The requests of the management protocol (R415 to R418).
-/

namespace Sys2Proof.Machine

section
variable {s : State} {k : Nat} {h : MgHdr} {r : MgReq}

/-- The state in which a session's idle time has begun anew. -/
def touched (s : State) (k : Nat) : State := setSess s k { getSess s k with last := tickNs s }

/-- The state in which a request has been taken: its answer will echo its number. -/
def asked (s : State) (k id : Nat) : State :=
  { touched s k with host := { (touched s k).host with reqId := id } }

/-- A session keeps its privilege as its idle time begins anew. -/
theorem priv_touched : (getSess (touched s k) k).priv = (getSess s k).priv := by
  have hsess : getSess (touched s k) k = { getSess s k with last := tickNs s } := mget_mput_same ..
  rw [hsess]

/-- A request that comes while an earlier one has not been answered waits. -/
theorem mgGet_waits (hopen : (getSess s k).priv ≠ 0) (hw : mgWaits s k = true ∨ (getSess s k).q ≠ []) :
    mgGet k h r s = setSess s k { getSess s k with last := tickNs s, q := (getSess s k).q ++ [(h, r)] } := by
  have hbusy : (mgWaits s k || !(getSess s k).q.isEmpty) = true := by
    rcases hw with hw | hw
    · rw [hw, Bool.true_or]
    · simp [hw]
  exact (if_neg hopen).trans (if_pos hbusy)

/-- A request that comes when every earlier one has been answered is carried out. -/
theorem mgGet_now (hopen : (getSess s k).priv ≠ 0) (hw : mgWaits s k = false) (hq : (getSess s k).q = []) :
    mgGet k h r s = mgDo k h r (touched s k) := by
  have hfree : ¬ (mgWaits s k || !(getSess s k).q.isEmpty) = true := by simp [hw, hq]
  exact (if_neg hopen).trans (if_neg hfree)

section
variable {op need : Nat} {f : State → State}

/-- A malformed request. -/
theorem request_malformed (hbad : h.op ≠ op ∨ h.rsv ≠ 0 ∨ 65560 < h.len) :
    request (touched s k) k h op need f = answer (asked s k h.id) h.op 0x1019 0 [] :=
  if_pos hbad

/-- A well-formed request below the privilege of its operation. -/
theorem request_denied (hop : h.op = op) (hrsv : h.rsv = 0) (hlen : h.len ≤ 65560) (hp : (getSess s k).priv < need) :
    request (touched s k) k h op need f = answer (asked s k h.id) op 0x1013 0 [] := by
  have hdenied : (getSess (touched s k) k).priv < need := priv_touched.trans_lt hp
  exact (if_neg (by omega)).trans (if_pos hdenied)

/-- A well-formed request with the privilege of its operation. -/
theorem request_granted (hop : h.op = op) (hrsv : h.rsv = 0) (hlen : h.len ≤ 65560) (hp : need ≤ (getSess s k).priv) :
    request (touched s k) k h op need f = f (asked s k h.id) := by
  have hgranted : ¬ (getSess (touched s k) k).priv < need := Nat.not_lt.2 (hp.trans_eq priv_touched.symm)
  exact (if_neg (by omega)).trans (if_neg hgranted)

end

end

section
variable {t : State} {k e a kind total slot key sig : Nat} {bs : List Byte} {saf : Bool} {img : LoadImg} {op : Nat}

/-! ## The operations on the state in which the request has been taken -/

/-- Words of a write that are all taken. -/
theorem mgWrite_done {ok : Nat → Bool} {u : State} {rec_ : State → State}
    (hw : mgWords ok (bs.length / 4) t a bs = (u, none)) :
    mgWrite ok t op a bs rec_ = rec_ (answer u op 0x1000 (bs.length / 4) []) := by
  rw [mgWrite, hw]

/-- Words of a write up to one that is refused. -/
theorem mgWrite_refused {ok : Nat → Bool} {u : State} {rec_ : State → State} {x c : Nat}
    (hw : mgWords ok (bs.length / 4) t a bs = (u, some (x, c))) : mgWrite ok t op a bs rec_ = answer u op c x [] := by
  rw [mgWrite, hw]

/-- Data of a write holds at least one word. -/
theorem length_of_wordsOk (h : wordsOk a bs = true) : bs ≠ [] ∧ ∃ n, bs.length / 4 = n + 1 := by
  simp only [wordsOk, Bool.and_eq_true, decide_eq_true_eq] at h
  obtain ⟨⟨⟨-, h4⟩, -⟩, -⟩ := h
  refine ⟨fun hnil => ?_, bs.length / 4 - 1, by omega⟩
  rw [hnil, List.length_nil] at h4
  omega

/-- The first of the words decides: its address, its own refusal, or the words behind it. -/
theorem mgWords_first {ok : Nat → Bool} {n : Nat} (hne : bs ≠ []) :
    (ok a = false → mgWords ok (n + 1) t a bs = (t, some (a, 0x1014))) ∧
    (∀ u c, ok a = true → mgWord t a (bs.take 4) = (u, some c) → mgWords ok (n + 1) t a bs = (u, some (a, c))) ∧
    (∀ u, ok a = true → mgWord t a (bs.take 4) = (u, none) →
      mgWords ok (n + 1) t a bs = mgWords ok n u (a + 4) (bs.drop 4)) := by
  rw [mgWords, if_neg hne]
  refine ⟨fun h => if_pos (congrArg (!·) h), fun u c h hw => ?_, fun u h hw => ?_⟩ <;>
    rw [if_neg (not_bnot_of_true h), hw]

/-- A Process operation that is granted. -/
theorem asLoad_granted {f : State → State} (h : kind = 2 ∨ (e = roleEpoch t ∧ owns t = true)) :
    asLoad t op kind e f = f t := by
  rw [asLoad]
  split
  · rfl
  · next hk =>
    obtain ⟨he, ho⟩ := h.resolve_left hk
    rw [asProcess, if_neg (not_not.2 he), if_neg (not_bnot_of_true ho)]

/-- LOAD_BEGIN on an epoch or a module that R417 refuses. -/
theorem asLoad_refused {f : State → State} (hk : kind ≠ 2) :
    (e ≠ roleEpoch t → asLoad t op kind e f = answer t op 0x1010 0 []) ∧
    (e = roleEpoch t → owns t = false → asLoad t op kind e f = answer t op 0x1011 0 []) := by
  rw [asLoad, if_neg hk, asProcess]
  exact ⟨fun he => if_pos he, fun he ho => (if_neg (not_not.2 he)).trans (if_pos (congrArg (!·) ho))⟩

/-- LOAD_DATA of a load, by its owner and its range. -/
theorem doLoadData_of_load {l : LoadSt} (hl : t.host.load = some l) (h : l.kind = 2 ∨ (e = roleEpoch t ∧ owns t = true)) :
    doLoadData k e a bs t =
      if l.sess ≠ k ∨ a ≠ l.data.length ∨ a + bs.length > l.total ∨ bs.length > 65536 then answer t 6 0x1017 0 []
      else answer (mgmtChange (setF { t with host := { t.host with load := some { l with data := l.data ++ bs } } }
        R.HOST_LOAD_PCT ((l.data.length + bs.length) * 100 / max l.total 1)) k 6) 6 0x1000 0 [] := by
  rw [doLoadData, hl]
  exact asLoad_granted h

/-- LOAD_END of a load whose bytes are all there. -/
theorem doLoadEnd_of_load {l : LoadSt} (hl : t.host.load = some l) (h : l.kind = 2 ∨ (e = roleEpoch t ∧ owns t = true)) :
    (l.sess ≠ k → doLoadEnd k e sig img t = answer t 7 0x1017 0 []) ∧
    (l.sess = k → l.data.length = l.total →
      let s1 := latch (loadEnd t) .host 0 16
      let x := withSig sig l.data img
      (imgKind img ≠ l.kind → doLoadEnd k e sig img t = answer s1 7 0x1016 0 []) ∧
      (imgKind img = l.kind →
        (∀ st code, loadRefusal s1 l.total sig x = some (st, code) → doLoadEnd k e sig img t = answer s1 7 st code []) ∧
        (loadRefusal s1 l.total sig x = none →
          doLoadEnd k e sig img t = answer (mgmtChange (loadTake s1 sig x) k 7) 7 0x1000 0 []))) := by
  rw [doLoadEnd, hl]
  dsimp only
  rw [asLoad_granted h]
  refine ⟨fun hs => if_pos (.inl hs), fun hs hlen => ?_⟩
  rw [if_neg (not_or.2 ⟨not_not.2 hs, not_not.2 hlen⟩)]
  refine ⟨fun hk => if_pos hk, fun hk => ?_⟩
  rw [if_neg (not_not.2 hk)]
  refine ⟨fun st code hr => ?_, fun hr => ?_⟩ <;> rw [hr]

end

/-- Settles O53, operation by operation: the request's header first, then the operation's own checks in their order. -/
theorem managementRequests : Obligations.ManagementRequests := by
  unfold Obligations.ManagementRequests
  intro s k id e rsv len a n kind total slot key sig bs on saf img hopen t0 t hd rows
  refine ⟨fun o hw r hr => ?waits, fun hw hq => ⟨fun o r hr hbad => ?malformed, fun hrsv hlen => ⟨fun r hr hp => ?denied,
    fun hpriv => ?granted⟩⟩⟩
  case waits =>
    simp only [rows, List.mem_cons, List.not_mem_nil, or_false] at hr
    rcases hr with rfl | rfl | rfl | rfl | rfl | rfl | rfl | rfl | rfl <;>
      exact congrArg Host.Outcome.next (mgGet_waits hopen hw)
  case malformed =>
    simp only [rows, List.mem_cons, List.not_mem_nil, or_false] at hr
    rcases hr with rfl | rfl | rfl | rfl | rfl | rfl | rfl | rfl | rfl <;>
      exact congrArg Host.Outcome.next ((mgGet_now hopen hw hq).trans (request_malformed hbad))
  case denied =>
    simp only [rows, List.mem_cons, List.not_mem_nil, or_false] at hr
    rcases hr with rfl | rfl | rfl | rfl | rfl | rfl | rfl | rfl | rfl <;>
      exact congrArg Host.Outcome.next ((mgGet_now hopen hw hq).trans (request_denied rfl hrsv hlen hp))
  case granted =>
    have hgrant {i : Instr} {h : MgHdr} {r : MgReq} {op need : Nat} {f : State → State} (hi : exec i s = .next (mgGet k h r s))
        (hdo : mgDo k h r (touched s k) = request (touched s k) k h op need f) (hop : h.op = op) (hr : h.rsv = rsv)
        (hl : h.len = len) (hid : h.id = id) (hneed : need ≤ 4) : exec i s = .next (f t) := by
      subst hid
      exact hi.trans (congrArg _ ((mgGet_now hopen hw hq).trans
        (hdo.trans (request_granted hop (hr.trans hrsv) (by omega) (by omega)))))
    have hHello : exec (.hello k (hd 1) len) s = .next (doHello t) := hgrant rfl rfl rfl rfl rfl rfl (by decide)
    have hRead : exec (.read k (hd 2) len a n) s = .next (doRead a n t) := hgrant rfl rfl rfl rfl rfl rfl (by decide)
    have hWrite : exec (.write k e (hd 3) len a bs) s = .next (doWrite k e a bs t) :=
      hgrant rfl rfl rfl rfl rfl rfl (by decide)
    have hLwrite : exec (.lwrite k (hd 4) len a bs) s = .next (doLwrite k a bs t) :=
      hgrant rfl rfl rfl rfl rfl rfl (by decide)
    have hBegin : exec (.loadBegin k e (hd 5) len kind total) s = .next (doLoadBegin k e kind total t) :=
      hgrant rfl rfl rfl rfl rfl rfl (by decide)
    have hData : exec (.loadData k e (hd 6) len a bs) s = .next (doLoadData k e a bs t) :=
      hgrant rfl rfl rfl rfl rfl rfl (by decide)
    have hEnd : exec (.loadEnd k e (hd 7) len sig img) s = .next (doLoadEnd k e sig img t) :=
      hgrant rfl rfl rfl rfl rfl rfl (by decide)
    have hSubscribe : exec (.subscribe k (hd 8) len on) s = .next (doSubscribe k on t) :=
      hgrant rfl rfl rfl rfl rfl rfl (by decide)
    have hKeyset : exec (.keyset k (hd 10) len slot key saf sig) s = .next (doKeyset k slot key saf sig t) :=
      hgrant rfl rfl rfl rfl rfl rfl (by decide)
    clear_value t
    rw [hHello, hRead, hWrite, hLwrite, hBegin, hData, hEnd, hSubscribe, hKeyset]
    refine ⟨rfl, fun h => congrArg _ (if_pos h), fun h0 h1 => congrArg _ (if_neg (by omega)), fun h => ⟨?_, ?_⟩,
      fun hok => ⟨?epoch, ?written, ?writeRefused, ?notOwner, ?relayed, ?notLocal, ?wordRefused, ?word, ?words⟩,
      fun h => congrArg _ (if_pos h), ?beginEpoch, ?beginOwner, ?begin, ?noLoad, fun l hl hclass => ⟨?foreign, ?data, ?ended⟩,
      ?notServing, ?subscribe, fun h => congrArg _ (if_pos h), ?keyNotHalt, fun hslot hhalt => ⟨?keyNone, ?key⟩⟩
    · exact congrArg _ (if_pos (congrArg (!·) h))
    · exact congrArg _ (if_pos (congrArg (!·) h))
    case epoch => exact fun he => congrArg _ ((if_neg (not_bnot_of_true hok)).trans (if_pos he))
    case written =>
      exact fun u he ho hw => congrArg _ ((if_neg (not_bnot_of_true hok)).trans ((if_neg (not_not.2 he)).trans
        ((if_pos ho).trans (mgWrite_done hw))))
    case writeRefused =>
      exact fun u x c he ho hw => congrArg _ ((if_neg (not_bnot_of_true hok)).trans ((if_neg (not_not.2 he)).trans
        ((if_pos ho).trans (mgWrite_refused hw))))
    case notOwner =>
      exact fun he ho hs => congrArg _ ((if_neg (not_bnot_of_true hok)).trans ((if_neg (not_not.2 he)).trans
        ((if_neg (Bool.eq_false_iff.1 ho)).trans (if_neg fun hh => Bool.eq_false_iff.1 hs hh.1))))
    case relayed =>
      exact fun he ho hs hd => congrArg _ ((if_neg (not_bnot_of_true hok)).trans ((if_neg (not_not.2 he)).trans
        ((if_neg (Bool.eq_false_iff.1 ho)).trans (if_pos ⟨hs, hd⟩))))
    case notLocal =>
      obtain ⟨hne, m, hm⟩ := length_of_wordsOk hok
      exact fun h => congrArg _ ((if_neg (not_bnot_of_true hok)).trans (mgWrite_refused (hm ▸ (mgWords_first hne).1 h)))
    case wordRefused =>
      obtain ⟨hne, m, hm⟩ := length_of_wordsOk hok
      exact fun u c h hw => congrArg _ ((if_neg (not_bnot_of_true hok)).trans
        (mgWrite_refused (hm ▸ (mgWords_first hne).2.1 u c h hw)))
    case word =>
      intro u h hlen hw
      obtain ⟨hne, -⟩ := length_of_wordsOk hok
      have hone : bs.length / 4 = 1 := by omega
      have hwords : mgWords localReg (bs.length / 4) t a bs = (u, none) := by
        rw [hone]
        exact (mgWords_first hne).2.2 u h hw
      have hwrite : mgWrite localReg t 4 a bs (fun s => mgmtChange s k 4) = mgmtChange (answer u 4 0x1000 1 []) k 4 := by
        rw [mgWrite_done hwords, hone]
      exact congrArg _ ((if_neg (not_bnot_of_true hok)).trans hwrite)
    case words => exact fun u hw => congrArg _ ((if_neg (not_bnot_of_true hok)).trans (mgWrite_done hw))
    case beginEpoch => exact fun hk he => congrArg _ ((if_neg (by omega)).trans ((asLoad_refused (by omega)).1 he))
    case beginOwner => exact fun hk he ho => congrArg _ ((if_neg (by omega)).trans ((asLoad_refused (by omega)).2 he ho))
    case begin =>
      intro h
      have hgranted : doLoadBegin k e kind total t = _ :=
        (if_neg (by omega)).trans (asLoad_granted (h.imp_right And.right))
      exact ⟨fun hl => congrArg _ (hgranted.trans (if_pos hl)),
        fun hl => congrArg _ (hgranted.trans (if_neg (by rw [hl]; exact Bool.false_ne_true)))⟩
    case noLoad =>
      intro hl
      rw [doLoadData, doLoadEnd, hl]
      exact ⟨rfl, rfl⟩
    case foreign =>
      exact fun hs => ⟨congrArg _ ((doLoadData_of_load hl hclass).trans (if_pos (.inl hs))),
        congrArg _ ((doLoadEnd_of_load hl hclass).1 hs)⟩
    case data =>
      exact fun hs ha hle hlen => congrArg _ ((doLoadData_of_load hl hclass).trans (if_neg (by omega)))
    case ended =>
      intro hs hlen s1 x
      obtain ⟨hkind, hjudged⟩ := (doLoadEnd_of_load (sig := sig) (img := img) hl hclass).2 hs hlen
      exact ⟨fun hk => congrArg _ (hkind hk), fun hk => ⟨fun st code hr => congrArg _ ((hjudged hk).1 st code hr),
        fun hr => congrArg _ ((hjudged hk).2 hr)⟩⟩
    case notServing => exact fun h => congrArg _ (if_pos (congrArg (!·) h))
    case subscribe => exact fun h => congrArg _ (if_neg (not_bnot_of_true h))
    case keyNotHalt => exact fun hslot hh => congrArg _ ((if_neg (by omega)).trans (if_pos hh))
    case keyNone =>
      intro hnil
      refine congrArg _ ((if_neg (by omega)).trans ((if_neg (not_not.2 hhalt)).trans (if_pos ?_)))
      rw [hnil]
      rfl
    case key =>
      rintro ⟨x, hx, hne, hval⟩
      have hsigned : (t.mram.keys.any fun y => y.1 != slot && y.2 == 1 + 2 * sig + b2n saf) = true :=
        List.any_eq_true.2 ⟨x, hx, by rw [hval]; simp [hne, b2n]⟩
      exact congrArg _ ((if_neg (by omega)).trans ((if_neg (not_not.2 hhalt)).trans (if_neg (not_bnot_of_true hsigned))))

end Sys2Proof.Machine
end

section
/-!
PROOFS. The recorder: conditions, statistics, records and the operating second (R426 to R435).
-/

namespace Sys2Proof.Machine

/-- Actions of which only one changes the state, which the others leave as it is before and after that one. -/
theorem forEach_of_one {α : Type} {l : List α} {i : α} {s : State} {f : State → α → State} (hi : i ∈ l) (hl : l.Nodup)
    (hbefore : ∀ j ∈ l, j ≠ i → f s j = s) (hafter : ∀ j ∈ l, j ≠ i → f (f s i) j = f s i) : forEach l s f = f s i := by
  induction l with
  | nil => simp at hi
  | cons x t ih =>
    have hcons : forEach (x :: t) s f = forEach t (f s x) f := rfl
    obtain ⟨hx, ht⟩ := List.nodup_cons.1 hl
    rw [hcons]
    by_cases hxi : x = i
    · subst hxi
      exact forEach_const _ _ _ fun j hj => hafter j (by simp [hj]) fun h => hx (h ▸ hj)
    · have hit : i ∈ t := (List.mem_cons.1 hi).resolve_left fun h => hxi h.symm
      rw [hbefore x (by simp) hxi]
      exact ih hit ht (fun j hj => hbefore j (by simp [hj])) fun j hj => hafter j (by simp [hj])

section
variable {s s1 : State} {c : Call} {i : Nat}

/-- COND, with its three operands. -/
theorem cond_read {code n : Nat} {d : List Byte} {s2 s3 s4 : State} (hc : takeCall s 7 0 0 = some (c, s1))
    (hcode : dsc s1 c 0 2 = (code, s2)) (hn : dsc s2 c 2 2 = (n, s3)) (hd : engRd s3 (c.addr + 0x18) 20 = (d, s4)) :
    exec .cond s =
      if code < 0x1180 ∨ code > 0x11FF then .next (complete s4 c 0x12 0)
      else if s4.recQ.length ≥ 64 then .next (complete s4 c 3 0)
      else .next (recPush s4 { typ := 1, key := code, inst := n, origin := 1, ptp := now s4,
                               unsync := getB s4 R.TIME_STATE_UNSYNC, detail := d, opsec := s4.mram.opsec, sub := opSub s4,
                               call := some c }) := by
  have hunfold : exec .cond s = execCond s := rfl
  rw [hunfold, execCond, hc]
  dsimp only
  rw [hcode]
  dsimp only
  rw [hn]
  dsimp only
  rw [hd]

/-- A statistic of kind 7 with the number `n` is declared. -/
def statDeclared (s : State) (n : Nat) : Bool :=
  (List.range 64).any (fun i => getB s R.REC_S_SRC_EN 0 i && getF s R.REC_S_SRC_KIND 0 i == 7 && getF s R.REC_S_SRC_ID 0 i == n)

/-- STAT, with its number and its sample. -/
theorem stat_read {n x : Nat} {s2 s3 : State} (hc : takeCall s 7 0 1 = some (c, s1)) (hn : dsc s1 c 0 1 = (n, s2))
    (hx : dsc s2 c 4 4 = (x, s3)) : exec .stat s =
      if statDeclared s3 n then .next (complete (statSample s3 7 n (f64of32 x)) c 0 0) else .next (complete s3 c 0x11 0) := by
  have hunfold : exec .stat s = execStat s := rfl
  rw [hunfold, execStat, hc]
  dsimp only
  rw [hn]
  dsimp only
  rw [hx]
  rfl

/-- The recorder at work, with nothing dropped, writes the front of its queue. -/
theorem recordWrite_front {r : RecReq} {t : List RecReq} (hscan : getB s R.REC_STAT_SCANNED = true) (hst : stOf s .rcd ≠ 3)
    (hdrop : s.recDrop = 0) (hq : s.recQ = r :: t) : exec .recordWrite s =
      .next (if r.typ = 1 then notifyLast (recOne { s with recQ := t } r) else recOne { s with recQ := t } r) := by
  have hwork : exec .recordWrite s = .next (recWrite s) := if_pos (by rw [hscan]; simp [hst, stFAULT])
  rw [hwork, recWrite, if_neg fun h => h.1 hdrop, hq]

/-- A request that is folded. -/
theorem recOne_fold {r : RecReq} {k : Nat} (hk : recFold s r = some k) (hc : r.call = some c) :
    recOne s r = complete (recRefold s k r) c 0 1 := by
  rw [recOne, hk]
  dsimp only
  rw [hc]

/-- A request that makes a record of its own. -/
theorem recOne_new {r : RecReq} (hk : recFold s r = none) :
    (∀ c, r.call = some c → recOne s r = complete (recNew s r) c 0 0) ∧ (r.call = none → recOne s r = recNew s r) := by
  rw [recOne, hk]
  dsimp only
  refine ⟨fun c hc => ?_, fun hc => ?_⟩ <;> rw [hc]

/-- What the end of an interval does to statistic `i`. -/
def intervalEnd (s : State) (i : Nat) : State :=
  let at_ := mget s.statAt i 0
  if !inRun s .rcd || !getB s R.REC_S_SRC_EN 0 i || decide (at_ = 0) || decide (now s < at_) || decide (statIv s i = 0) then s
  else
    let nxt := at_ + ((now s - at_) / statIv s i + 1) * statIv s i
    let s1 := recPush s { typ := 2, kind := getF s R.REC_S_SRC_KIND 0 i, key := getF s R.REC_S_SRC_ID 0 i,
                          opsec := s.mram.opsec, sub := opSub s, detail := statBody (mget s.stats i {}) }
    { s1 with stats := mput {} s1.stats i {}, statAt := mput 0 s1.statAt i nxt }

/-- The interval of a statistic that is not declared, or whose boundary has not come, goes on. -/
theorem intervalEnd_of_running (h : getB s R.REC_S_SRC_EN 0 i = false ∨ now s < mget s.statAt i 0) : intervalEnd s i = s := by
  refine if_pos ?_
  rcases h with h | h
  · simp [h]
  · simp [h]

/-- The interval of a declared statistic whose boundary has come ends. -/
theorem intervalEnd_of_due (hrun : inRun s .rcd = true) (hen : getB s R.REC_S_SRC_EN 0 i = true)
    (hset : 0 < mget s.statAt i 0) (hdue : mget s.statAt i 0 ≤ now s) (hiv : 0 < statIv s i) (hroom : s.recQ.length < 64) :
    intervalEnd s i = { s with
      recQ := s.recQ ++ [{ typ := 2, kind := getF s R.REC_S_SRC_KIND 0 i, key := getF s R.REC_S_SRC_ID 0 i
                           opsec := s.mram.opsec, sub := opSub s, detail := statBody (mget s.stats i {}) }]
      stats := mput {} s.stats i {}
      statAt := mput 0 s.statAt i (mget s.statAt i 0 + ((now s - mget s.statAt i 0) / statIv s i + 1) * statIv s i) } := by
  have hset' : decide (mget s.statAt i 0 = 0) = false := decide_eq_false (Nat.pos_iff_ne_zero.1 hset)
  have hdue' : decide (now s < mget s.statAt i 0) = false := decide_eq_false (Nat.not_lt.2 hdue)
  have hiv' : decide (statIv s i = 0) = false := decide_eq_false (Nat.pos_iff_ne_zero.1 hiv)
  rw [intervalEnd]
  dsimp only
  rw [hrun, hen, hset', hdue', hiv', if_neg (by decide), recPush, if_pos hroom]

end

/-- Settles O54, command by command. -/
theorem recorderCommands : Obligations.RecorderCommands := by
  unfold Obligations.RecorderCommands
  refine fun s s1 c => ⟨?cond, ?stat, ?idle, fun hscan hst hdrop => ⟨?empty, fun r t hq => ⟨?fold, ?new, ?other⟩⟩, ?running,
    ?ended, rfl⟩
  case cond =>
    intro hc code i d s2 s3 s4 hcode hi hd
    have hread := cond_read hc hcode hi hd
    refine ⟨fun h => hread.trans (if_pos h), fun hlo hhi => ⟨fun h => ?_, fun h => ?_⟩⟩
    · exact hread.trans ((if_neg (by omega)).trans (if_pos h))
    · exact hread.trans ((if_neg (by omega)).trans (if_neg (Nat.not_le.2 h)))
  case stat =>
    intro hc n x s2 s3 hn hx
    refine ⟨fun ⟨i, hi, hen, hkind, hid⟩ => (stat_read hc hn hx).trans (if_pos ?_),
      fun hoff => (stat_read hc hn hx).trans (if_neg ?_)⟩
    · exact List.any_eq_true.2 ⟨i, List.mem_range.2 hi, by rw [hen, hkind, hid]; simp⟩
    · intro h
      obtain ⟨i, hi, hon⟩ := List.any_eq_true.1 h
      rw [hoff i (List.mem_range.1 hi)] at hon
      exact Bool.false_ne_true hon
  case idle =>
    intro h
    refine if_neg ?_
    rcases h with h | h
    · simp [h]
    · simp [h, stFAULT]
  case empty =>
    intro hq
    have hwork : exec .recordWrite s = .next (recWrite s) := if_pos (by rw [hscan]; simp [hst, stFAULT])
    rw [hwork, recWrite, if_neg fun h => h.1 hdrop, hq]
  case fold =>
    intro k hk htyp hc
    rw [recordWrite_front hscan hst hdrop hq, if_pos htyp, recOne_fold hk hc]
  case new =>
    intro hk htyp hc
    rw [recordWrite_front hscan hst hdrop hq, if_pos htyp, (recOne_new hk).1 c hc]
  case other =>
    intro hk htyp hc
    rw [recordWrite_front hscan hst hdrop hq, if_neg htyp, (recOne_new hk).2 hc]
  case running =>
    intro h
    have hall : exec .statIntervalEnd s = .next (forEach (List.range 64) s intervalEnd) := rfl
    rw [hall, forEach_const _ _ _ fun i hi => intervalEnd_of_running (h i (List.mem_range.1 hi))]
  case ended =>
    intro i hi hrun hen hset hdue hiv hroom hothers r at_
    have hall : exec .statIntervalEnd s = .next (forEach (List.range 64) s intervalEnd) := rfl
    have hone := intervalEnd_of_due hrun hen hset hdue hiv hroom
    have hregs : (intervalEnd s i).regs = s.regs := by rw [hone]
    have hoff (j : Nat) (hj : j ∈ List.range 64) (hji : j ≠ i) : getB (intervalEnd s i) R.REC_S_SRC_EN 0 j = false := by
      rw [getB, getF_of_regs_eq hregs]
      exact hothers j (List.mem_range.1 hj) hji
    rw [hall, forEach_of_one (List.mem_range.2 hi) List.nodup_range
      (fun j hj hji => intervalEnd_of_running (.inl (hothers j (List.mem_range.1 hj) hji)))
      (fun j hj hji => intervalEnd_of_running (.inl (hoff j hj hji))), hone]

end Sys2Proof.Machine
end

section
/-!
PROOFS. The Stillwater panel (R436 to R441).
-/

namespace Sys2Proof.Machine

section
variable {s : State} {r v : Nat} {t : Int}

/-- A request for a region while the queue has room. -/
theorem pnlRequest_of_room {full : Bool} (h : s.pnl.q.length < 8) :
    pnlRequest s r full = updRes (setPq s (s.pnl.q ++ [(r, full)])) 0x1200 false :=
  if_pos h

/-- A request for a region while the queue is full and no update runs. -/
theorem pnlRequest_of_full {full : Bool} (h : 8 ≤ s.pnl.q.length) (hrun : s.pnl.run = none) :
    (∀ i, s.pnl.q.findIdx? (fun e => e.1 == r) = some i →
      pnlRequest s r full = updRes (setPq s (s.pnl.q.set i (r, full))) 0x1200 true) ∧
    (s.pnl.q.findIdx? (fun e => e.1 == r) = none →
      pnlRequest s r full = latch (unitErr (updRes s 0x1210 false) .pnl 0 0x1210) .pnl 0 2) := by
  have hfrom : (if s.pnl.run.isSome = true then 1 else 0) = 0 := if_neg (by simp [hrun])
  rw [pnlRequest, if_neg (Nat.not_lt.2 h), hfrom]
  dsimp only
  rw [List.drop_zero]
  refine ⟨fun i hi => ?_, fun hi => ?_⟩
  · rw [hi]
    simp only [Nat.zero_add]
  · rw [hi]

/-- A request by PNL.UPD for a region of the program. -/
theorem pnlUpd_of_program (hrun : inRun s .pnl = true) (hon : rgnOn s (v % 8) = true)
    (hsrc : getF s R.PNL_RSIZE_SRC 0 (v % 8) = 6) : exec (.pnlUpd v) s = .next (pnlRequest s (v % 8) (bitOf v 3)) := by
  refine (if_neg (not_bnot_of_true hrun)).trans (if_pos ?_)
  rw [hon, hsrc]
  rfl

/-- A redraw of a region of the module without pixels to drive, the first one. -/
theorem panelRedraw_first (hrun : inRun s .pnl = true) (hr : r < 8) (hon : rgnOn s r = true)
    (hsrc : getF s R.PNL_RSIZE_SRC 0 r ≤ 5) (hboot : s.pnl.boot = false) (hdraw : mget s.pnl.drawAt r 0 = 0)
    (hnone : rgnWords s r = []) : exec (.panelRedraw r) s =
      .next (pnlRequest { s with pnl := { s.pnl with drawAt := mput 0 s.pnl.drawAt r (tickNs s) } } r false) := by
  have hunfold : exec (.panelRedraw r) s = execPanelRedraw r s := rfl
  have hdraws : ¬ (r ≥ 8 ∨ (!inRun s .pnl) = true ∨ (!rgnOn s r) = true ∨ getF s R.PNL_RSIZE_SRC 0 r > 5 ∨
      s.pnl.boot = true) := by
    simp only [hrun, hon, hboot, Bool.not_true, Bool.false_eq_true, false_or, or_false, not_or]
    omega
  rw [hunfold, execPanelRedraw, if_neg hdraws, if_neg fun h => h.1 hdraw, hnone]
  rfl

/-- An update that starts on an idle, warm panel or is taken up again on a cold one. -/
theorem panelUpdate_idle (hrun : inRun s .pnl = true) (hidle : s.pnl.run = none) (hpf : s.pwr.pf = false) :
    exec (.panelUpdate t) s = .next (if getB s R.PNL_STAT_COLD then s else pnlStart s t) ∧
    exec (.panelColdRecheck t) s = .next
      (if !getB s R.PNL_STAT_COLD || decide (tickNs s < s.pnl.coldAt + 10000000000) then s else pnlStart s t) := by
  have hupdate : exec (.panelUpdate t) s = execPanelUpdate t s := rfl
  have hrecheck : exec (.panelColdRecheck t) s = execPanelColdRecheck t s := rfl
  rw [hupdate, execPanelUpdate, hrecheck, execPanelColdRecheck, hrun, hidle, hpf, Option.isSome_none]
  simp only [Bool.not_true, Bool.false_or, Bool.or_false]
  exact ⟨(apply_ite ..).symm, (apply_ite ..).symm⟩

/-- An update of a region that begins on a panel that is too cold. -/
theorem pnlStart_of_cold {e : Nat × Bool} {q : List (Nat × Bool)} (hq : s.pnl.q = e :: q) (ht : t < -150) :
    let s0 := setF { s with pnl := { s.pnl with coldAt := tickNs s } } R.PNL_TEMP_VAL (pat 16 t)
    getB s0 R.PNL_STAT_COLD = false →
      pnlStart s t = level (unitErr (setB s0 R.PNL_STAT_COLD true) .pnl 0 0x1211) .pnl 0 2 true := by
  intro s0 hc
  rw [pnlStart, hq]
  exact (if_pos ht).trans (if_neg (Bool.eq_false_iff.1 hc))

/-- The end of an update, by its region. -/
theorem panelUpdateDone_of_run {px : NMap Nat} {e : Nat × Bool} {q : List (Nat × Bool)} (hrun : s.pnl.run = some px)
    (hq : s.pnl.q = e :: q) :
    (tickNs s < s.pnl.doneAt → exec .panelUpdateDone s = .next s) ∧
    (s.pnl.doneAt ≤ tickNs s → rgnWords s e.1 = [] → exec .panelUpdateDone s = .next (pnlPop (latch (setDirty s
      (if bitOf s.mram.panelDirty e.1 then s.mram.panelDirty - 2 ^ e.1 else s.mram.panelDirty) s.mram.panelDisch) .pnl 0 1))) := by
  have hunfold : exec .panelUpdateDone s = execPanelUpdateDone s := rfl
  rw [hunfold, execPanelUpdateDone, hrun, hq]
  refine ⟨fun h => if_pos h, fun h hnone => (if_neg (Nat.not_lt.2 h)).trans ?_⟩
  rw [hnone]
  rfl

end

/-- Settles O55, command by command. -/
theorem panelCommands : Obligations.PanelCommands := by
  unfold Obligations.PanelCommands
  refine fun s v r t => ⟨?stopped, fun hrun hon hsrc => ⟨?room, ?full⟩, ?foreign, ?redraw, fun hrun hidle hpf => ⟨?cold, ?warm⟩,
    ?noRun, fun px e q hrun hq => (panelUpdateDone_of_run hrun hq).1, fun px e q hrun hq => (panelUpdateDone_of_run hrun hq).2,
    ?supply, ?bootDischarge, fun hboot => ⟨?noDischarge, ?discharge⟩⟩
  case stopped =>
    intro h
    have hno : (!inRun s .pnl) = true := congrArg (!·) h
    exact ⟨if_pos hno, if_pos (.inr (.inl hno)), if_pos (by simp [h])⟩
  case room => exact fun h => (pnlUpd_of_program hrun hon hsrc).trans (congrArg _ (pnlRequest_of_room h))
  case full =>
    exact fun h hidle => ⟨fun i hi => (pnlUpd_of_program hrun hon hsrc).trans (congrArg _ ((pnlRequest_of_full h hidle).1 i hi)),
      fun hi => (pnlUpd_of_program hrun hon hsrc).trans (congrArg _ ((pnlRequest_of_full h hidle).2 hi))⟩
  case foreign =>
    intro hrun h
    refine (if_neg (not_bnot_of_true hrun)).trans (if_neg ?_)
    rcases h with h | h
    · simp [h]
    · simp [h]
  case redraw =>
    exact fun hrun hr hon hsrc hboot hdraw hnone => panelRedraw_first hrun hr hon hsrc hboot hdraw hnone
  case cold =>
    intro hc
    obtain ⟨hupdate, hrecheck⟩ := panelUpdate_idle (t := t) hrun hidle hpf
    refine ⟨hupdate.trans (congrArg _ (if_pos hc)), fun h => ?_, fun h => ?_⟩
    · exact hrecheck.trans (congrArg _ (if_pos (by rw [decide_eq_true h, Bool.or_true])))
    · exact hrecheck.trans (congrArg _ (if_neg (by rw [hc, decide_eq_false (Nat.not_lt.2 h)]; exact Bool.false_ne_true)))
  case warm =>
    intro hw
    obtain ⟨hupdate, hrecheck⟩ := panelUpdate_idle (t := t) hrun hidle hpf
    have hstart := hupdate.trans (congrArg _ (if_neg (Bool.eq_false_iff.1 hw)))
    refine ⟨hrecheck.trans (congrArg _ (if_pos (by rw [hw]; rfl))), hstart, fun hq => ?_, fun e q hq ht => ?_⟩
    · exact hstart.trans (congrArg _ (by rw [pnlStart, hq]))
    · intro s0 hc
      exact hstart.trans (congrArg _ (pnlStart_of_cold hq ht hc))
  case noRun =>
    intro h
    have hunfold : exec .panelUpdateDone s = execPanelUpdateDone s := rfl
    refine ⟨?_, if_pos (by rw [h]; rfl)⟩
    rw [hunfold, execPanelUpdateDone, h]
  case supply => exact fun px h => if_neg (by rw [h]; exact Bool.false_ne_true)
  case bootDischarge => exact fun hb hq hd => if_pos (by rw [hb, hq, hd]; rfl)
  case noDischarge =>
    intro h
    refine (if_neg (by rw [hboot]; exact Bool.false_ne_true)).trans (if_neg ?_)
    rcases h with h | h | h
    · simp [h]
    · simp [h]
    · rw [decide_eq_false (Nat.not_le.2 h), Bool.and_false]
      exact Bool.false_ne_true
  case discharge =>
    intro hq hst h
    refine (if_neg (by rw [hboot]; exact Bool.false_ne_true)).trans (if_pos ?_)
    rw [hq, decide_eq_true h]
    simp [hst]

end Sys2Proof.Machine
end

section
/-!
PROOFS. Feeds, temperature, clocks, idle states and SYS.CMD (R442 to R456).
-/

namespace Sys2Proof.Machine

section
variable {s : State} {t u : Nat}

/-! ## Feeds and temperature -/

/-- What a report leaves of the power sequence. -/
theorem Reports.pwr {s t : State} (h : Reports s t) : t.pwr = s.pwr := by
  obtain ⟨_, _, _, _, _, _, rfl⟩ := h
  rfl

/-- Feed A as it is lost. -/
def feedALost (s : State) : State :=
  level (unitErr (incF (setB s R.PWR_FEED_A_OK false) R.PWR_FEEDLOSS_A) .pwr 0 0x0210) .pwr 0 0 true

/-- Feed B as it is lost. -/
def feedBLost (s : State) : State :=
  level (unitErr (incF (setB s R.PWR_FEED_B_OK false) R.PWR_FEEDLOSS_B) .pwr 0 0x0210) .pwr 0 1 true

/-- A feed that is lost, on a module that was fed: the power-fail sequence runs where it is not fed any more. -/
theorem feedLost_of_fed {f : Nat} {s1 : State} (hfed : fed s = true) (hs1 : feedLost s f = s1) :
    (fed s1 = true → exec (.feedLost f) s = .next s1) ∧ (fed s1 = false → exec (.feedLost f) s = .next (powerFail s1 1)) := by
  subst hs1
  refine ⟨fun h => congrArg Host.Outcome.next (if_neg ?_), fun h => congrArg Host.Outcome.next (if_pos ?_)⟩
  · rw [h, Bool.not_true, Bool.and_false]
    exact Bool.false_ne_true
  · rw [hfed, h]
    rfl

/-- Feed A of a module that has it. -/
theorem feedLost_a (h : getB s R.PWR_FEED_A_OK = true) : feedLost s 0 = feedALost s := by
  rw [feedLost, if_pos rfl, if_pos h, feedALost]

/-- Feed B of a module that has it. -/
theorem feedLost_b (h : getB s R.PWR_FEED_B_OK = true) : feedLost s 1 = feedBLost s := by
  rw [feedLost, if_neg Nat.one_ne_zero, if_pos rfl, if_pos h, feedBLost]

/-- A feed that is lost already. -/
theorem feedLost_absent (h : getB s R.PWR_FEED_A_OK = false) : exec (.feedLost 0) s = .next s := by
  have hsame : feedLost s 0 = s := by rw [feedLost, if_pos rfl, if_neg (Bool.eq_false_iff.1 h)]
  have hstep : exec (.feedLost 0) s = .next (if fed s && !fed (feedLost s 0) then powerFail (feedLost s 0) 1 else feedLost s 0) :=
    rfl
  rw [hstep, hsame, Bool.and_not_self, if_neg Bool.false_ne_true]

/-- A feed that is good again, after `a`: a module held in reset starts. -/
theorem feedGood_of {f : Nat} {a : State} (hstep : exec (.feedGood f) s = .next (if a.pwr.inRst then startUp a else a))
    (hpwr : a.pwr = s.pwr) :
    (s.pwr.inRst = false → exec (.feedGood f) s = .next a) ∧ (s.pwr.inRst = true → exec (.feedGood f) s = .next (startUp a)) := by
  rw [hstep, hpwr]
  exact ⟨fun h => congrArg _ (if_neg (Bool.eq_false_iff.1 h)), fun h => congrArg _ (if_pos h)⟩

/-- Feed A good again. -/
theorem feedGood_a {a : State} (ha : level (setB s R.PWR_FEED_A_OK true) .pwr 0 0 false = a) :
    (s.pwr.inRst = false → exec (.feedGood 0) s = .next a) ∧ (s.pwr.inRst = true → exec (.feedGood 0) s = .next (startUp a)) := by
  have hunfold : exec (.feedGood 0) s = execFeedGood 0 s := rfl
  refine feedGood_of ?_ (ha ▸ Reports.pwr ((Reports.setF ..).trans (Reports.level ..)))
  rw [hunfold, execFeedGood, if_pos rfl, ha]

/-- Feed B good again. -/
theorem feedGood_b {b : State} (hb : level (setB s R.PWR_FEED_B_OK true) .pwr 0 1 false = b) :
    (s.pwr.inRst = false → exec (.feedGood 1) s = .next b) ∧ (s.pwr.inRst = true → exec (.feedGood 1) s = .next (startUp b)) := by
  have hunfold : exec (.feedGood 1) s = execFeedGood 1 s := rfl
  refine feedGood_of ?_ (hb ▸ Reports.pwr ((Reports.setF ..).trans (Reports.level ..)))
  rw [hunfold, execFeedGood, if_neg Nat.one_ne_zero, if_pos rfl, hb]

/-! ## Idle states -/

/-- The entry of an idle unit into state `st`. -/
def napped (s : State) (u : Nat) (x : State) : State :=
  { x with pwr := { x.pwr with idleAt := mput 0 x.pwr.idleAt u (tickNs s + 1) } }

/-- A unit with nothing to do enters the idle state that is chosen for it. -/
theorem idleEntry_of_idle (hu : u ≤ 10) (hidle : unitIdle s u = true) (hpf : s.pwr.pf = false) (hst : idleState s u = 0)
    (hboot : getF s R.SYS_BOOT_STEP = 8) (hph : s.tsk.ph ≠ .none) :
    (idleChoice s u = 0 → exec (.idleEntry u) s = .next s) ∧
    (idleChoice s u = 1 → exec (.idleEntry u) s = .next (napped s u (setIdle s u 1))) ∧
    (idleChoice s u = 3 → exec (.idleEntry u) s = .next (napped s u (incF (setIdle s u 3) R.PWR_NAPS_COUNT))) := by
  have hunfold : exec (.idleEntry u) s = execIdleEntry u s := rfl
  have hmay : ¬ (u > 10 ∨ idleState s u ≠ 0 ∨ (!unitIdle s u) = true ∨ s.pwr.pf = true ∨ getF s R.SYS_BOOT_STEP < 8 ∨
      (s.tsk.ph = .none ∧ role s ≤ 1)) := by
    rw [hst, hidle, hpf, hboot]
    simp only [ne_eq, not_true_eq_false, Bool.not_true, Bool.false_eq_true, hph, false_and, false_or, or_false, not_or]
    omega
  rw [hunfold, execIdleEntry, if_neg hmay]
  dsimp only
  refine ⟨fun h => if_pos h, fun h => ?_, fun h => ?_⟩
  · rw [h]
    rfl
  · rw [h]
    rfl

/-- A unit leaves state 1 or 2 as soon as it has entered it. -/
theorem idleExit_of_shallow (hu : u ≤ 10) (hst : idleState s u = 1 ∨ idleState s u = 2)
    (hin : mget s.pwr.idleAt u 0 ≤ tickNs s + 1) : exec (.idleExit u) s = .next { setIdle s u 0 with
      pwr := { (setIdle s u 0).pwr with idleAt := mput 0 (setIdle s u 0).pwr.idleAt u 0 } } := by
  have hentry : idleIn (idleState s u) = 0 := by rcases hst with h | h <;> rw [h] <;> rfl
  refine (if_neg (by omega)).trans (if_neg ?_)
  rw [hentry]
  omega

/-! ## SYS.CMD -/

/-- SYS.CMD by the program, outside HALT, and where it acts. -/
theorem sysCmd_cases {op : Nat} {f : State → State} :
    sysCmd s false op f = setF (setF s R.SYS_CMD_RES_CODE 0x0117) R.SYS_CMD_RES_OP op ∧
    (keyPos s ≠ 2 → sysCmd s true op f = setF (setF s R.SYS_CMD_RES_CODE 0x0116) R.SYS_CMD_RES_OP op) ∧
    (keyPos s = 2 →
      sysCmd s true op f = f (latch (setF (setF s R.SYS_CMD_RES_CODE 0x0100) R.SYS_CMD_RES_OP op) .sys 0 8)) :=
  ⟨rfl, fun h => if_pos h, fun h => if_neg (not_not.2 h)⟩

/-- An operation that management commands in HALT acts on the state `x` in which its result is shown. -/
theorem sysCmd_done {i : Instr} {op : Nat} {f : State → State} {x : State} (hi : exec i s = .next (sysCmd s true op f))
    (hk : keyPos s = 2) (hx : latch (setF (setF s R.SYS_CMD_RES_CODE 0x0100) R.SYS_CMD_RES_OP op) .sys 0 8 = x) :
    exec i s = .next (f x) :=
  hx ▸ hi.trans (congrArg _ (sysCmd_cases.2.2 hk))

end

/-- Settles O56, event by event and command by command. -/
theorem powerAndSystemCommands : Obligations.PowerAndSystemCommands := by
  unfold Obligations.PowerAndSystemCommands
  refine ⟨fun s t u => ⟨?lostA, feedLost_absent, ?lostB, ?good, rfl, fun h => if_pos h,
    fun h => if_neg (by omega), fun h => if_pos h, fun h => if_neg (by omega), fun h => if_pos h, ?cooled, ?hot,
    fun h => congrArg _ (if_pos h), ?held, ?reset, rfl, ?noWait, ?wait, ?busy, ?idle, ?awake, ?exit⟩,
    fun s => ⟨?byProgram, ?notHalt, ?inHalt⟩⟩
  case lostA =>
    intro h s1
    have hs1 : feedLost s 0 = s1 := feedLost_a h
    clear_value s1
    exact feedLost_of_fed (by rw [fed, h, Bool.true_or]) hs1
  case lostB =>
    intro h s1
    have hs1 : feedLost s 1 = s1 := feedLost_b h
    clear_value s1
    exact feedLost_of_fed (by rw [fed, h, Bool.or_true]) hs1
  case good =>
    intro a b
    have ha := feedGood_a (s := s) (a := a) rfl
    have hb := feedGood_b (s := s) (b := b) rfl
    exact ⟨fun h => ⟨ha.1 h, hb.1 h⟩, fun h => ⟨ha.2 h, hb.2 h⟩⟩
  case cooled =>
    exact fun h hin => (if_neg (by omega)).trans (congrArg _ (if_neg fun hh => Bool.eq_false_iff.1 hin hh.1))
  case hot => exact fun h hin hhot => (if_neg (by omega)).trans (congrArg _ (if_pos ⟨hin, hhot⟩))
  case held => exact fun h => ⟨congrArg _ (if_pos h), if_pos (.inl h)⟩
  case reset =>
    intro h
    have hout : ¬ s.pwr.inRst = true := Bool.eq_false_iff.1 h
    exact ⟨congrArg _ (if_neg hout), if_neg (by simp [h]), if_neg (by simp [h])⟩
  case noWait =>
    intro h
    have hunfold : exec .syncWaitExpiry s = execSyncWaitExpiry s := rfl
    rw [hunfold, execSyncWaitExpiry, h]
  case wait =>
    intro w h
    have hunfold : exec .syncWaitExpiry s = execSyncWaitExpiry s := rfl
    rw [hunfold, execSyncWaitExpiry, h]
    exact ⟨fun hs => congrArg _ (if_pos (.inl hs)), fun hle => congrArg _ (if_pos (.inr hle)),
      fun hs hlt => congrArg _ (if_neg (not_or.2 ⟨hs, Nat.not_le.2 hlt⟩))⟩
  case busy =>
    intro hu h
    refine if_pos ?_
    rcases h with h | h | h
    · exact .inr (.inr (.inl (congrArg (!·) h)))
    · exact .inr (.inr (.inr (.inl h)))
    · exact .inr (.inl h)
  case idle =>
    intro hu hidle hpf hst hboot hph nap
    obtain ⟨hnone, hone, hdeep⟩ := idleEntry_of_idle hu hidle hpf hst hboot hph
    exact ⟨hnone, hone, fun h _ => hdeep h⟩
  case awake => exact fun h => if_pos (.inr h)
  case exit => exact fun hu hst hin => idleExit_of_shallow hu hst hin
  case byProgram =>
    intro r hr
    simp only [List.mem_cons, List.not_mem_nil, or_false] at hr
    rcases hr with rfl | rfl | rfl | rfl | rfl <;> exact congrArg Host.Outcome.next sysCmd_cases.1
  case notHalt =>
    intro hk r hr
    simp only [List.mem_cons, List.not_mem_nil, or_false] at hr
    rcases hr with rfl | rfl | rfl | rfl | rfl <;> exact congrArg Host.Outcome.next (sysCmd_cases.2.1 hk)
  case inHalt =>
    intro hk
    refine ⟨?_, ?_, ?_, ?_, ?_⟩
    · exact sysCmd_done (f := fun s => moduleReset s 5) rfl hk rfl
    all_goals intro x
    · have hconv := sysCmd_done (i := .convClear true) (x := x) rfl hk rfl
      exact hconv
    · have ha := sysCmd_done (i := .fwSelectA true) (x := x) rfl hk rfl
      exact ha
    · have hb := sysCmd_done (i := .fwSelectB true) (x := x) rfl hk rfl
      exact hb
    · have hclear := sysCmd_done (i := .fwClear true) (x := x) rfl hk rfl
      exact hclear

end Sys2Proof.Machine
end

section
/-!
PROOFS. Where every engine call succeeds (R99, Table ORD-7).
-/

namespace Sys2Proof.Machine

section
variable {s s1 t : State} {c : Call} {i res : Nat} {x : Instr}

/-! ## The completion word of a call that ends with success -/

/-- A command whose last act completes the call leaves the call's word. -/
theorem ends_of_complete (h : exec x s = .next (complete t c 0 res)) :
    ∃ t, exec x s = .next t ∧ rdN t (c.addr + 8) 8 = cmplWord c.ticket (engCode c.unit) res := by
  have hcode : engCode c.unit + 0 = engCode c.unit := Nat.add_zero _
  exact ⟨_, h, (complete_word t c 0 res).trans (congrArg (cmplWord c.ticket · res) hcode)⟩

/-! ## Calls that end later: where they wait -/

/-- A call waits with its loop context. -/
theorem wait_loopWaits : (getLoop (loopWaits s i c) i).wait = (getLoop s i).wait ++ [c] := by
  rw [loopWaits, setLoop, getLoop, mget_mput_same]

/-- A profile channel just replaced. -/
theorem getGen_setGen {v : Gen} : getGen (setGen s i v) i = v := mget_mput_same ..

/-- An axis just replaced. -/
theorem getAxis_setAxis {v : Axis} : getAxis (setAxis s i v) i = v := mget_mput_same ..

/-- A port just replaced. -/
theorem getPort_setPort {v : PortSt} : getPort (setPort s i v) i = v := mget_mput_same ..

/-- A station just replaced. -/
theorem getSta_setSta {v : Sta} : getSta (setSta s i v) i = v := mget_mput_same ..

/-- A register leaves the axes. -/
theorem getAxis_setF {f : Fld} {v j k : Nat} : getAxis (setF s f v j k) i = getAxis s i := rfl

/-- A CAN channel just replaced. -/
theorem getCan_setCan {v : CanCh} : getCan (setCan s i v) i = v := by
  have hrep : Reports { s with can := { s.can with chs := mput {} s.can.chs i v } } (setCan s i v) :=
    ((Reports.setF ..).trans ((Reports.setF ..).trans (Reports.setF ..))).trans (Reports.level ..)
  have hcan : (setCan s i v).can.chs = mput {} s.can.chs i v := by
    obtain ⟨_, _, _, _, _, _, heq⟩ := hrep
    rw [heq]
  rw [getCan, hcan, mget_mput_same]

/-- A Basin context just replaced. -/
theorem getQp_setQp {v : QpSt} : getQp (setQp s i v) i = v := mget_mput_same ..

/-- What a Basin context shows leaves the contexts. -/
theorem getQp_qShow {q : Nat} : getQp (qShow s q) i = getQp s i := rfl

/-- The running solve of context `q` has started. -/
def solveStarted (s : State) (q : Nat) : State :=
  setQp s q { getQp s q with run := (getQp s q).run.map (fun v => { v with started := true }) }

/-- The unit of context `q` is the one at work. -/
def unitBegun (s : State) (q at_ : Nat) : State :=
  let s2 := setF (setF s R.BSN_RUNNING_BUSY 1) R.BSN_RUNNING_CTX q
  { s2 with bsn := { s2.bsn with unitAt := at_ } }

/-- Which unit is at work leaves the contexts. -/
theorem getQp_unitBegun {q at_ : Nat} : getQp (unitBegun s q at_) i = getQp s i := rfl

/-- The start of the next unit is that of no context, or of one. -/
theorem bsnStart_cases : bsnStart s = s ∨ ∃ q, bsnStart s = qShow (unitBegun (solveStarted s q) q (now s)) q := by
  rw [bsnStart]
  split
  · exact .inl rfl
  · split
    · exact .inl rfl
    · next q _ => exact .inr ⟨q, rfl⟩

/-- The mark that a solve has started leaves its call and its deadline. -/
theorem run_solveStarted {q : Nat} {v : Solve} (h : (getQp s i).run = some v) :
    ∃ w, (getQp (solveStarted s q) i).run = some w ∧ w.call = v.call ∧ w.d = v.d := by
  by_cases hq : q = i
  · subst hq
    refine ⟨{ v with started := true }, ?_, rfl, rfl⟩
    rw [solveStarted, getQp_setQp]
    dsimp only
    rw [h, Option.map_some]
  · refine ⟨v, ?_, rfl, rfl⟩
    have hother : getQp (solveStarted s q) i = getQp s i := mget_mput_other _ _ _ _ _ _ (Ne.symm hq)
    rw [hother, h]

/-- The start of the next unit leaves the call and the deadline of the running solve of a context. -/
theorem run_bsnStart {v : Solve} (h : (getQp s i).run = some v) :
    ∃ w, (getQp (bsnStart s) i).run = some w ∧ w.call = v.call ∧ w.d = v.d := by
  rcases bsnStart_cases (s := s) with hs | ⟨q, hs⟩
  · exact ⟨v, by rw [hs, h], rfl, rfl⟩
  · rw [hs, getQp_qShow, getQp_unitBegun]
    exact run_solveStarted h

/-- A solve that has begun is the running one of its context. -/
theorem run_begun {p : QpSt} {v : Solve} :
    ∃ w, (getQp (qShow (bsnStart (qShow (setQp s i { p with run := some v }) i)) i) i).run = some w ∧ w.call = v.call ∧
      w.d = v.d := by
  rw [getQp_qShow]
  refine run_bsnStart ?_
  rw [getQp_qShow, getQp_setQp]

end

section
variable {s s1 : State} {c : Call} {i : Nat}

/-! ## The calls one by one -/

/-- One instant alone is in order. -/
theorem rising_singleton (g a : Nat) : rising g [a] = true := rfl

/-- OUTNOW for channels that are all outputs of its station. -/
theorem lnkOutnow_accepted {n : Nat} {s2 : State} {r : List Nat × State} (hc : takeCall s 4 i 1 = some (c, s1))
    (hn : dsc s1 c 0 4 = (n, s2)) (h1 : 1 ≤ n) (h32 : n ≤ 32) (hr : ioutChans s2 c n = r)
    (hall : ∀ ch ∈ r.1, ch < nChan r.2 ∧ ch ∈ stChans r.2 i true false ++ stChans r.2 i true true) :
    exec (.lnkOutnow i) s = .next (setPort r.2 (i / 4)
      { getPort r.2 (i / 4) with iout := (getPort r.2 (i / 4)).iout ++ [⟨c, i % 4, r.1⟩] }) := by
  have hunfold : exec (.lnkOutnow i) s = execLnkOutnow i s := rfl
  have hgood : ¬ (r.1.any fun ch => decide (ch ≥ nChan r.2) ||
      !(stChans r.2 i true false ++ stChans r.2 i true true).contains ch) = true := by
    rw [List.any_eq_true]
    rintro ⟨ch, hch, hbad⟩
    obtain ⟨hlt, hmem⟩ := hall ch hch
    rw [List.contains_iff_mem.2 hmem, decide_eq_false (Nat.not_le.2 hlt)] at hbad
    exact Bool.false_ne_true hbad
  rw [hunfold, execLnkOutnow, hc]
  dsimp only
  rw [hn]
  dsimp only
  rw [if_neg (by omega), hr]
  exact if_neg hgood

/-- START of an axis that may start leaves its request for the table download. -/
theorem vaxStart_accepted (hc : takeCall s 2 i 0 = some (c, s1)) (hst : axSt s1 i = 0)
    (href : getB s1 R.VAX_A_STAT_REFOK i = true) (hsta : stState s1 (axStation s1 i) = 2)
    (hv : vmaxHigh s1 i (getGen s1 (axProf s1 i)).limV = false) :
    ∃ t r, exec (.vaxStart i) s = .next (aqAdmit t (axStation s1 i / 4) r) ∧ (getAxis t i).start = some c ∧ r.svc = 6 ∧
      r.axis = some i := by
  have hunfold : exec (.vaxStart i) s = execVaxStart i s := rfl
  have hstart : (getAxis (nextToken (setF (setAxis s1 i { getAxis s1 i with start := some c, ready := false })
      R.VAX_A_STAT_AXST 1 i) (axStation s1 i / 4)).2 i).start = some c := by
    have haxis : getAxis (nextToken (setF (setAxis s1 i { getAxis s1 i with start := some c, ready := false })
        R.VAX_A_STAT_AXST 1 i) (axStation s1 i / 4)).2 i =
        getAxis (setAxis s1 i { getAxis s1 i with start := some c, ready := false }) i := rfl
    rw [haxis, getAxis_setAxis]
  rw [hunfold, execVaxStart, hc]
  dsimp only
  rw [if_neg (not_not.2 hst), if_neg (not_bnot_of_true href), if_neg (not_not.2 hsta), if_neg (Bool.eq_false_iff.1 hv)]
  exact ⟨_, _, rfl, hstart, rfl, rfl⟩

/-- ACYC of a READ or a WRITE leaves its request for the port. -/
theorem lnkAcyc_accepted {svc : Nat} {s2 : State} (hc : takeCall s 4 i 0 = some (c, s1)) (hsvc : dsc s1 c 0 1 = (svc, s2))
    (h : svc = 4 ∨ svc = 5) :
    ∃ t r, exec (.lnkAcyc i) s = .next (aqAdmit t (i / 4) r) ∧ r.call = some c ∧ r.pos = i % 4 ∧ r.svc = svc := by
  have hunfold : exec (.lnkAcyc i) s = execLnkAcyc i s := rfl
  rw [hunfold, execLnkAcyc, hc]
  dsimp only
  rw [hsvc]
  dsimp only
  rw [if_neg (by omega)]
  exact ⟨_, _, rfl, rfl, rfl, rfl⟩

/-- TPEDGE of one edge on a timed output with nothing pending. -/
theorem tpedgeList_first {b : List Byte} {s2 s3 s4 : State}
    (hc : timeCall s i 0 (fun x => x == 0 || decide (x > 2)) = some (c, 0, s1)) (hm : dsc s1 c 1 1 = (0, s2))
    (hn : dsc s2 c 2 2 = (1, s3)) (hb : engRd s3 (c.addr + 0x18) 16 = (b, s4)) (hle : c.since + 2000 ≤ leNat (b.take 8))
    (hedges : (getTp s4 i).edges = []) (hper : (getTp s4 i).per = none) :
    ∃ t, exec (.tpedgeList i) s = .next t ∧ rdN t (c.addr + 8) 8 = cmplWord c.ticket (engCode c.unit) 0 := by
  have hread := tpedgeList_one hc hm hn hb (Nat.zero_le 2) (Nat.zero_le 1)
  dsimp only at hread
  rw [if_neg Nat.zero_ne_one, hedges, List.nil_append, List.map_singleton, rising_singleton, if_neg (Nat.not_lt.2 hle),
    if_neg (not_bnot_of_true rfl), hper, if_neg (by simp)] at hread
  exact ends_of_complete hread

/-- TPEDGE of a periodic schedule on a timed output with nothing pending. -/
theorem tpedgePeriodic_first {cnt st p h : Nat} {s2 s3 s4 s5 s6 : State}
    (hc : timeCall s i 0 (fun x => x == 1) = some (c, 1, s1)) (hm : dsc s1 c 1 1 = (0, s2))
    (hn : dsc s2 c 2 2 = (cnt, s3)) (hst : dsc s3 c 8 8 = (st, s4)) (hp : dsc s4 c 16 4 = (p, s5))
    (hh : dsc s5 c 20 4 = (h, s6)) (hle : c.since + 2000 ≤ st) (hp1 : 200000 ≤ p) (hh1 : 16 ≤ h) (hph : h + 16 < p)
    (hedges : (getTp s6 i).edges = []) (hper : (getTp s6 i).per = none) :
    ∃ t, exec (.tpedgePeriodic i) s = .next t ∧ rdN t (c.addr + 8) 8 = cmplWord c.ticket (engCode c.unit) 0 := by
  have hread := tpedgePeriodic_read hc hm hn hst hp hh
  dsimp only at hread
  rw [if_neg (by omega), if_neg Nat.zero_ne_one, hedges, List.map_nil, List.nil_append, rising_singleton,
    if_neg (Nat.not_lt.2 hle), if_neg (not_bnot_of_true rfl), if_neg (by omega), hper, if_neg (by simp)] at hread
  exact ends_of_complete hread

/-- The request of a COND call. -/
def condReq (s : State) (c : Call) (code n : Nat) (d : List Byte) : RecReq :=
  { typ := 1, key := code, inst := n, origin := 1, ptp := now s, unsync := getB s R.TIME_STATE_UNSYNC, detail := d,
    opsec := s.mram.opsec, sub := opSub s, call := some c }

/-- COND of a program's code while the write queue has room: the request stands last in the queue. -/
theorem cond_accepted {code n : Nat} {d : List Byte} {s2 s3 s4 : State} (hc : takeCall s 7 0 0 = some (c, s1))
    (hcode : dsc s1 c 0 2 = (code, s2)) (hn : dsc s2 c 2 2 = (n, s3)) (hd : engRd s3 (c.addr + 0x18) 20 = (d, s4))
    (hlo : 0x1180 ≤ code) (hhi : code ≤ 0x11FF) (hroom : s4.recQ.length < 64) :
    exec .cond s = .next { s4 with recQ := s4.recQ ++ [condReq s4 c code n d] } := by
  refine (cond_read hc hcode hn hd).trans ((if_neg (by omega)).trans ((if_neg (Nat.not_le.2 hroom)).trans ?_))
  rw [recPush, if_pos hroom, condReq]

/-- STAT of a declared statistic. -/
theorem stat_declared {n x : Nat} {s2 s3 : State} (hc : takeCall s 7 0 1 = some (c, s1)) (hn : dsc s1 c 0 1 = (n, s2))
    (hx : dsc s2 c 4 4 = (x, s3)) (hdecl : ∃ j, j < 64 ∧ getB s3 R.REC_S_SRC_EN 0 j = true ∧
      getF s3 R.REC_S_SRC_KIND 0 j = 7 ∧ getF s3 R.REC_S_SRC_ID 0 j = n) :
    exec .stat s = .next (complete (statSample s3 7 n (f64of32 x)) c 0 0) := by
  obtain ⟨j, hj, hen, hkind, hid⟩ := hdecl
  have hany : statDeclared s3 n = true := List.any_eq_true.2 ⟨j, List.mem_range.2 hj, by rw [hen, hkind, hid]; simp⟩
  exact (stat_read hc hn hx).trans (if_pos hany)

/-- A call whose command ends with its completion, in whatever state. -/
theorem call_ends {x : Instr} {r : Res} {res : Nat} (hx : exec x s = r) (hr : ∃ t, r = .next (complete t c 0 res)) :
    ∃ t, exec x s = .next t ∧ rdN t (c.addr + 8) 8 = cmplWord c.ticket (engCode c.unit) res := by
  obtain ⟨t, ht⟩ := hr
  exact ends_of_complete (hx.trans ht)

end

/-- Settles O58, call by call: each command's success path ends with the completion word, or with the call where it waits. -/
theorem engineCallsSucceed : Obligations.EngineCallsSucceed := by
  unfold Obligations.EngineCallsSucceed
  intro s s1 c i ends
  refine ⟨?loopRead, ?loopWait, ?inject, ?trigArm, ?trigForce, ?trigStop, ?prof, ?profRead, fun hc => vaxStart_accepted hc,
    ?vaxStop, ?setref, ?shape, ?vaxRead, ?solve, ?bsnCancel, ?bsnRead, fun hc => lnkAcyc_accepted hc Prod.mk.eta.symm, ?outnow,
    ?reinit, ?lnkRead, ?canTx, ?express, ?canAbort, ?rxread, ?canSleep, ?canWake, ?tpCancel, ?tpList, ?tpPeriodic, ?tcread,
    ?offset, ?alarm, ?alarmCancel, ?cond, ?stat⟩
  case loopRead =>
    intro hc
    have hunfold : exec (.loopRead i) s = execLoopRead i s := rfl
    refine call_ends hunfold ?_
    rw [execLoopRead, hc]
    exact ⟨_, rfl⟩
  case loopWait =>
    intro p hp hc
    simp only [List.mem_cons, List.not_mem_nil, or_false] at hp
    rcases hp with rfl | rfl | rfl | rfl <;>
      exact ⟨_, congrArg Host.Outcome.next (loopTake_of_taken hc), wait_loopWaits⟩
  case inject =>
    intro p hp hc
    simp only [List.mem_cons, List.not_mem_nil, or_false] at hp
    rcases hp with rfl | rfl
    · exact ⟨_, congrArg Host.Outcome.next (injTake_of_taken (start := true) hc), wait_loopWaits⟩
    · exact ⟨_, congrArg Host.Outcome.next (injTake_of_taken (start := false) hc), wait_loopWaits⟩
  case trigArm =>
    intro hc hop
    have hunfold : exec (.trigArm i) s = execTrigArm i s := rfl
    refine call_ends hunfold ?_
    rw [execTrigArm, hc]
    exact ⟨_, if_neg (Nat.not_lt.2 (hop.le.trans (Nat.zero_le 2)))⟩
  case trigForce =>
    intro hc
    have hunfold : exec (.trigForce i) s = execTrigForce i s := rfl
    refine call_ends hunfold ?_
    rw [execTrigForce, hc]
    exact ⟨_, rfl⟩
  case trigStop =>
    intro hc
    have hunfold : exec (.trigStop i) s = execTrigStop i s := rfl
    refine call_ends hunfold ?_
    rw [execTrigStop, hc]
    exact ⟨_, rfl⟩
  case prof =>
    intro p hp hc hg hf hl
    have htaken {fn : Nat} (h : takeCall s 1 i fn = some (c, s1)) : profTakeFn s i fn =
        setGen s1 i { getGen s1 i with wait := (getGen s1 i).wait ++ [(now s1, c)] } :=
      (profTakeFn_of_taken h).trans (profTake_of_free hg (.inl hl))
    simp only [List.mem_cons, List.not_mem_nil, or_false] at hp
    rcases hp with rfl | rfl | rfl <;>
      exact ⟨_, congrArg Host.Outcome.next (htaken hc), congrArg Gen.wait getGen_setGen⟩
  case profRead =>
    intro hc
    have hunfold : exec (.profRead i) s = execProfRead i s := rfl
    refine call_ends hunfold ?_
    rw [execProfRead, hc]
    dsimp only
    rw [profRead]
    exact ⟨_, rfl⟩
  case vaxStop =>
    intro hc hst hrest hlag
    have hunfold : exec (.vaxStop i) s = execVaxStop i s := rfl
    refine ⟨setF (setAxis s1 i { stop := some c }) R.VAX_A_STAT_AXST 0 i, ?_, ?_⟩
    rw [hunfold, execVaxStop, hc]
    · exact (if_neg (not_not.2 hst)).trans (if_neg (not_or.2 ⟨not_bnot_of_true hrest, not_not.2 hlag⟩))
    · rw [getAxis_setF, getAxis_setAxis]
  case setref =>
    intro hc hst hrest
    have hunfold : exec (.setref i) s = execSetref i s := rfl
    refine call_ends hunfold ?_
    rw [execSetref, hc]
    exact ⟨_, (if_neg (not_not.2 hst)).trans (if_neg (not_bnot_of_true hrest))⟩
  case shape =>
    intro hc hk huse
    have hunfold : exec (.shape i) s = execShape i s := rfl
    refine call_ends hunfold ?_
    rw [execShape, hc]
    dsimp only
    rw [Nat.mod_eq_of_lt hk]
    exact ⟨_, if_neg (Bool.eq_false_iff.1 huse)⟩
  case vaxRead =>
    intro hc
    have hunfold : exec (.vaxRead i) s = execVaxRead i s := rfl
    refine call_ends hunfold ?_
    rw [execVaxRead, hc]
    exact ⟨_, rfl⟩
  case solve =>
    intro hc d s2 hlate hfar hroom hrun
    have hexec : exec (.solve i) s = execSolve i s := rfl
    have hsolve := (solve_accepted (s1 := s1) hc (Prod.mk.eta (p := dsc s1 c 0 8)).symm Prod.mk.eta.symm hfar hroom).2.1 hrun hlate
    obtain ⟨w, hw, hcall, hd⟩ := run_begun
    exact ⟨_, w, hexec.trans hsolve, hw, hcall, hd⟩
  case bsnCancel =>
    intro hc hrun
    have hunfold : exec (.bsnCancel i) s = execBsnCancel i s := rfl
    refine call_ends hunfold ?_
    rw [execBsnCancel, hc]
    dsimp only
    rw [hrun]
    exact ⟨_, rfl⟩
  case bsnRead =>
    intro hc
    have hunfold : exec (.bsnRead i) s = execBsnRead i s := rfl
    refine call_ends hunfold ?_
    rw [execBsnRead, hc]
    exact ⟨_, rfl⟩
  case outnow =>
    intro hc n r h1 h32 hall
    exact ⟨_, lnkOutnow_accepted hc Prod.mk.eta.symm h1 h32 rfl hall, by rw [getPort_setPort]⟩
  case reinit =>
    intro hc hst
    have hunfold : exec (.lnkReinit i) s = execLnkReinit i s := rfl
    refine ⟨setSta (enterInit s1 i) i { getSta (enterInit s1 i) i with reinit := some c }, ?_, by rw [getSta_setSta]⟩
    rw [hunfold, execLnkReinit, hc]
    exact if_neg (not_not.2 hst)
  case lnkRead =>
    intro hc
    have hunfold : exec (.lnkRead i) s = execLnkRead i s := rfl
    refine call_ends hunfold ?_
    rw [execLnkRead, hc]
    exact ⟨_, rfl⟩
  case canTx =>
    intro hc r hb ha
    have hr : canOperand s1 c = r := rfl
    clear_value r
    obtain ⟨f, m, s2⟩ := r
    have hqueued := (canTx_read hc hr).trans ((if_neg (Bool.eq_false_iff.1 hb)).trans (if_neg (Bool.eq_false_iff.1 ha)))
    exact ⟨_, hqueued, by rw [getCan_setCan]⟩
  case express =>
    intro hc r hm hb ha hcur hold
    have hr : canOperand s1 c = r := rfl
    clear_value r
    obtain ⟨f, m, s2⟩ := r
    refine ⟨_, (express_accepted hc hr hm hb ha hcur).1 hold, ?_⟩
    rw [getCan_setCan, mget_mput_same]
  case canAbort =>
    exact fun k x hc hf hcur => ends_of_complete ((canAbort_read hc Prod.mk.eta.symm).2 k x hf hcur)
  case rxread =>
    exact fun hc h1 h16 => ends_of_complete ((rxread_read hc Prod.mk.eta.symm).trans (if_neg (by omega)))
  case canSleep =>
    intro hc s2 hop ha hf hm
    refine ⟨_, (canSleep_read hc Prod.mk.eta.symm).trans ((if_neg (by omega)).trans ((if_neg (Bool.eq_false_iff.1 ha)).trans
      (if_neg (by simp [s2, hf, hm])))), by rw [getCan_setCan]⟩
  case canWake =>
    intro hc ha
    have hunfold : exec (.canWakeLocal i) s = execCanWakeLocal i s := rfl
    refine call_ends hunfold ?_
    rw [execCanWakeLocal, hc]
    exact ⟨_, if_pos (congrArg (!·) ha)⟩
  case tpCancel =>
    intro op hc hm
    have hunfold : exec (.tpedgeCancel i) s = execTpedgeCancel i s := rfl
    refine call_ends hunfold ?_
    rw [execTpedgeCancel, hc]
    exact ⟨_, congrArg _ (if_neg (Nat.not_lt.2 hm))⟩
  case tpList =>
    intro hc s2 s3 e hm hn hle hedges hper
    exact tpedgeList_first hc (Prod.ext hm rfl) (Prod.ext hn rfl) Prod.mk.eta.symm hle hedges hper
  case tpPeriodic =>
    intro hc m n b p h hm hst hp hh hph hedges hper
    exact tpedgePeriodic_first hc (Prod.ext hm rfl) Prod.mk.eta.symm Prod.mk.eta.symm Prod.mk.eta.symm Prod.mk.eta.symm
      hst hp hh hph hedges hper
  case tcread =>
    exact fun op hc h1 h16 => ends_of_complete (tcread_read hc Prod.mk.eta.symm h1 h16)
  case offset =>
    intro op hc a b hsrc hfar hprg
    refine ends_of_complete ((offset_read hc Prod.mk.eta.symm Prod.mk.eta.symm).trans ((if_neg ?_).trans ((if_neg ?_).trans
      (if_neg ?_))))
    · simp [hsrc]
    · exact Nat.not_lt.2 hfar
    · rw [hprg, Option.any_none]
      exact Bool.false_ne_true
  case alarm =>
    intro hc t p htask hle
    exact ends_of_complete ((alarmArm_read hc Prod.mk.eta.symm Prod.mk.eta.symm).trans ((if_neg (by decide)).trans
      ((if_neg (not_bnot_of_true htask)).trans (if_neg (Nat.not_lt.2 hle)))))
  case alarmCancel =>
    intro op hc
    have hunfold : exec (.alarmCancel i) s = execAlarmCancel i s := rfl
    refine call_ends hunfold ?_
    rw [execAlarmCancel, hc]
    exact ⟨_, rfl⟩
  case cond =>
    intro hc k n hlo hhi hroom
    have hk : dsc s1 c 0 2 = k := rfl
    have hn : dsc k.2 c 2 2 = n := rfl
    clear_value n k
    exact ⟨_, _, cond_accepted hc hk hn Prod.mk.eta.symm hlo hhi hroom, List.mem_append_right _ (List.mem_singleton_self _),
      rfl, rfl, rfl⟩
  case stat =>
    intro hc n x hdecl
    have hn : dsc s1 c 0 1 = n := rfl
    have hx : dsc n.2 c 4 4 = x := rfl
    clear_value x n
    exact ends_of_complete (stat_declared hc hn hx hdecl)

end Sys2Proof.Machine
end

section
/-!
PROOFS. Where a heartbeat, an abdication, a local write and the recorder's commands have their effect.
-/

namespace Sys2Proof.Machine

/-! ## An accepted heartbeat of the partner (R351, R352) -/

/-- The role, the partner's role and what the last heartbeat brought stay as they are, and it is the same instant. -/
def HbKeeps (s t : State) : Prop :=
  (role t = role s ∧ getF t R.PAIR_ROLE_PARTNER = getF s R.PAIR_ROLE_PARTNER) ∧
  (t.pair.hb = s.pair.hb ∧ t.pair.heard = s.pair.heard ∧ t.pair.h1 = s.pair.h1) ∧ now t = now s

/-- The word of PAIR that shows the roles. -/
abbrev roleWord : Nat := R.PAIR_ROLE_ROLE.addr 0 0

namespace HbKeeps

variable {s t u : State}

/-- No change. -/
theorem refl (s : State) : HbKeeps s s := ⟨⟨rfl, rfl⟩, ⟨rfl, rfl, rfl⟩, rfl⟩

/-- One change after another. -/
theorem trans (h1 : HbKeeps s t) (h2 : HbKeeps t u) : HbKeeps s u := by
  obtain ⟨⟨hr, hp⟩, ⟨hhb, hheard, hh1⟩, hnow⟩ := h1
  obtain ⟨⟨hr', hp'⟩, ⟨hhb', hheard', hh1'⟩, hnow'⟩ := h2
  exact ⟨⟨hr'.trans hr, hp'.trans hp⟩, ⟨hhb'.trans hhb, hheard'.trans hheard, hh1'.trans hh1⟩, hnow'.trans hnow⟩

/-- Either change. -/
theorem ite {p : Prop} [Decidable p] (h1 : HbKeeps s t) (h2 : HbKeeps s u) : HbKeeps s (if p then t else u) := by
  split
  · exact h1
  · exact h2

/-- A report that leaves the word of the roles. -/
theorem of_reports (hk : Kept roleWord s t) (hr : Reports s t) : HbKeeps s t := by
  have hpartner : Kept (R.PAIR_ROLE_PARTNER.addr 0 0) s t := hk
  refine ⟨⟨hk.getF, hpartner.getF⟩, ?_⟩
  obtain ⟨_, _, _, _, _, _, rfl⟩ := hr
  exact ⟨⟨rfl, rfl, rfl⟩, rfl⟩

/-- A field of another word. -/
theorem setF {f : Fld} {i k : Nat} (v : Nat) (h : roleWord ≠ f.addr i k) : HbKeeps s (setF s f v i k) :=
  of_reports (Kept.setF v h) (Reports.setF ..)

/-- The health of the standby and the host-service class, which stand beside the two roles in their word. -/
theorem setFlag {f : Fld} (v : Nat) (hf : f = R.PAIR_ROLE_HEALTHY ∨ f = R.PAIR_ROLE_HS_OWN) :
    HbKeeps s (Machine.setF s f v) := by
  refine ⟨⟨?_, ?_⟩, ⟨rfl, rfl, rfl⟩, rfl⟩ <;> rcases hf with rfl | rfl <;>
    exact getF_setF_disjoint _ _ _ _ _ _ _ _ (by decide) (by decide) (by decide) (by decide)

/-- A momentary condition of the pair. -/
theorem latch (m : Nat) : HbKeeps s (latch s .pair 0 m) := of_reports (Kept.latch (by decide) (by decide) m) (Reports.latch ..)

/-- A level condition of the pair. -/
theorem level (n : Nat) (on : Bool) : HbKeeps s (level s .pair 0 n on) :=
  of_reports (Kept.level (by decide) (by decide) n on) (Reports.level ..)

/-- UNIT_ERR of the pair. -/
theorem unitErr (code : Nat) : HbKeeps s (unitErr s .pair 0 code) :=
  of_reports (Kept.unitErr (by decide) (by decide) code) (Reports.unitErr ..)

/-- What the pair keeps besides the last heartbeat. -/
theorem setPair {p : PairSt} (hhb : p.hb = s.pair.hb) (hheard : p.heard = s.pair.heard) (hh1 : p.h1 = s.pair.h1) :
    HbKeeps s (setPair s p) :=
  ⟨⟨rfl, rfl⟩, ⟨hhb, hheard, hh1⟩, rfl⟩

end HbKeeps

section
variable {s : State} {h : SyncHdr} {b : HbBody}

/-- The check of the partner's configuration. -/
theorem HbKeeps.pairCheck (s : State) (h : SyncHdr) (b : HbBody) : HbKeeps s (pairCheck s h b) := by
  unfold Machine.pairCheck
  extract_lets v i p f d new s1 s2 s3 s4 any
  have hflags : HbKeeps s s1 := (((((setF _ (by decide)).trans (setF _ (by decide))).trans (setF _ (by decide))).trans
    (setF _ (by decide))).trans (setF _ (by decide)))
  have hvariant : HbKeeps s1 s2 := ite (unitErr _) (refl _)
  have hid : HbKeeps s2 s3 := ite (unitErr _) (refl _)
  have hside : HbKeeps s3 s4 := ite (unitErr _) (refl _)
  have hevent : HbKeeps s4 (if any = true then Machine.latch s4 .pair 0 256 else s4) := ite (latch _) (refl _)
  have ⟨_, ⟨hhb, hheard, hh1⟩, _⟩ := hevent
  exact (((hflags.trans hvariant).trans hid).trans hside).trans (hevent.trans (setPair hhb.symm hheard.symm hh1.symm))

/-- The health of the standby as an owner shows it. -/
theorem HbKeeps.healthFrom (s : State) (on : Bool) : HbKeeps s (healthFrom s on) := by
  unfold Machine.healthFrom
  exact ite (refl s) ((setFlag _ (.inl rfl)).trans (ite (latch _) (refl _)))

/-- An acknowledged snapshot. -/
theorem HbKeeps.setStamp64 {lo hi : Fld} (v : Nat) (hlo : roleWord ≠ lo.addr 0 0) (hhi : roleWord ≠ hi.addr 0 0) :
    HbKeeps s (setStamp64 s lo hi v) :=
  (setF _ hlo).trans (setF _ hhi)

/-- The resynchronisation that a standby asks for. -/
theorem HbKeeps.resyncServe (s : State) (b : HbBody) : HbKeeps s (resyncServe s b) := by
  unfold Machine.resyncServe
  exact ite (refl s) (ite ((setPair rfl rfl rfl).trans (setF _ (by decide)))
    (ite ((setF _ (by decide)).trans (setF _ (by decide))) (refl s)))

/-- The states of the safety groups. -/
theorem HbKeeps.hbGroups (s : State) (h : SyncHdr) (b : HbBody) : HbKeeps s (hbGroups s h b) := by
  unfold Machine.hbGroups
  exact ite (refl s) ⟨⟨rfl, rfl⟩, ⟨rfl, rfl, rfl⟩, rfl⟩

/-- The host-service class given up. -/
theorem HbKeeps.hsGive (s : State) : HbKeeps s (hsGive s) := by
  unfold Machine.hsGive
  exact ite (refl s) (((setFlag _ (.inr rfl)).trans (setF _ (by decide))).trans (latch _))

/-- The degraded mark ends. -/
theorem HbKeeps.degradedClear (s : State) (p n : Nat) : HbKeeps s (degradedClear s p n) := by
  unfold Machine.degradedClear
  exact ite ((setF _ (by decide)).trans (level _ _)) (refl s)

/-- The first path shows its heartbeat. -/
def path1Heard (s : State) : State :=
  setB (setF s R.PAIR_HB_P1_MISS (sat 255 (getF s R.PAIR_HB_P1_MISS + missed s s.pair.h1))) R.PAIR_HB_P1_OK true

/-- The instant of the heartbeat on the first path. -/
def path1At (s : State) : State :=
  setPair (path1Heard s) { (path1Heard s).pair with
    h1 := some (now (path1Heard s)), n1 := consec s.pair.n1 (missed s s.pair.h1) }

/-- A heartbeat on the first path is noted at its instant, and leaves the role. -/
theorem hb1_noted (s : State) : role (hb1 s) = role s ∧ (hb1 s).pair.h1 = some (now s) := by
  have hstages : hb1 s = degradedClear (path1At s) 1 (path1At s).pair.n1 := rfl
  have hpath : HbKeeps s (path1Heard s) := (HbKeeps.setF _ (by decide)).trans (HbKeeps.setF _ (by decide))
  obtain ⟨⟨hrole, -⟩, -, hnow⟩ := hpath
  obtain ⟨⟨hrole', -⟩, ⟨-, -, hh1⟩, -⟩ := HbKeeps.degradedClear (path1At s) 1 (path1At s).pair.n1
  rw [hstages]
  refine ⟨hrole'.trans hrole, hh1.trans ?_⟩
  rw [← hnow]
  rfl

/-- What a heartbeat brings is held. -/
def hbHeld (s : State) (h : SyncHdr) (b : HbBody) : State :=
  setPair s { s.pair with hb := some b, heard := true, ogen := if h.role = 1 then h.gen else s.pair.ogen
                          abdRx := s.pair.abdRx || (b.abd && role s == 3)
                          abdRxAt := if s.pair.abdRx then s.pair.abdRxAt else tickNs s
                          abdD := if s.pair.abdRx then s.pair.abdD else h.snap }

/-- What follows from a heartbeat that is held: the standby's health, its acknowledgements, the groups' states, the
host-service class, the end of a resynchronisation without an owner. -/
def hbServed (e : Nat) (s : State) (h : SyncHdr) (b : HbBody) : State :=
  let s5 := healthFrom s (b.healthy && !s.pair.refused)
  let s6 := if role s5 = 1 then setSnapB (setSnapS (setSnapF s5 (max (snapF s5) b.ackF)) (max (snapS s5) b.ackS)) b.ackB else s5
  let s7 := hbGroups (resyncServe s6 b) h b
  let s8 := if h.hs ∧ getB s7 R.PAIR_ROLE_HS_OWN ∧ h.epoch > e then hsGive s7 else s7
  if role s8 = 2 ∧ h.role ≠ 1 ∧ h.role ≠ 5 then resyncFail s8 else s8

/-- What follows from a heartbeat leaves what it brought, but on a module that is being resynchronised. -/
theorem HbKeeps.hbServed {e : Nat} (hrole : role s ≠ 2) : HbKeeps s (hbServed e s h b) := by
  unfold Machine.hbServed
  extract_lets s5 s6 s7 s8
  have hhealth : HbKeeps s s5 := healthFrom ..
  have hack : HbKeeps s5 s6 := ite (((setStamp64 _ (by decide) (by decide)).trans (setStamp64 _ (by decide) (by decide))).trans
    (setStamp64 _ (by decide) (by decide))) (refl _)
  have hgroups : HbKeeps s6 s7 := (resyncServe ..).trans (hbGroups ..)
  have hclass : HbKeeps s7 s8 := ite (hsGive _) (refl _)
  have hall : HbKeeps s s8 := ((hhealth.trans hack).trans hgroups).trans hclass
  rw [if_neg fun hfail => hrole (hall.1.1.symm.trans hfail.1)]
  exact hall

/-- A heartbeat of the pair's partner that passes R349 is kept, with its role. -/
theorem hbRx_kept (hon : pairOn s = true) (hg : h.good = true) (hv : h.ver = 1) (he : h.epoch = roleEpoch s)
    (hid : b.pairId = getF s R.PAIR_ID_ID) (hrole : role s ≠ 2) :
    ∃ t, exec (.hbRx h b) s = .next t ∧ t.pair.hb = some b ∧ t.pair.heard = true ∧ t.pair.h1 = some (now s) ∧
      getF t R.PAIR_ROLE_PARTNER = h.role % 8 := by
  have hstep : exec (.hbRx h b) s = .next (hbServed (roleEpoch s)
      (hbHeld (setF (hb1 (pairCheck s h b)) R.PAIR_ROLE_PARTNER h.role) h b) h b) := by
    have hunfold : exec (.hbRx h b) s = execHbRx h b s := rfl
    rw [hunfold, execHbRx, syncAccept_current hon hg hv he]
    exact if_neg (not_not.2 hid)
  obtain ⟨⟨hrole2, -⟩, -, hnow⟩ := HbKeeps.pairCheck s h b
  obtain ⟨hrole3, hh1⟩ := hb1_noted (pairCheck s h b)
  have hshown : role (setF (hb1 (pairCheck s h b)) R.PAIR_ROLE_PARTNER h.role) = role (hb1 (pairCheck s h b)) :=
    getF_setF_disjoint _ _ _ _ _ _ _ _ (by decide) (by decide) (by decide) (by decide)
  have hpartner : getF (setF (hb1 (pairCheck s h b)) R.PAIR_ROLE_PARTNER h.role) R.PAIR_ROLE_PARTNER = h.role % 2 ^ 3 :=
    getF_setF_same _ _ _ _ _ (by decide)
  generalize hs3 : setF (hb1 (pairCheck s h b)) R.PAIR_ROLE_PARTNER h.role = s3 at hstep hshown hpartner
  have hat : s3.pair.h1 = some (now s) := by
    rw [← hs3, ← hnow]
    exact hh1
  have hheld : role (hbHeld s3 h b) ≠ 2 := fun h2 => hrole ((hrole2.symm.trans hrole3.symm).trans (hshown.symm.trans h2))
  obtain ⟨⟨-, hp⟩, ⟨hhb, hheard, hh⟩, -⟩ := HbKeeps.hbServed (e := roleEpoch s) (h := h) (b := b) hheld
  exact ⟨_, hstep, hhb, hheard, hh.trans hat, hp.trans hpartner⟩

end

/-! ## A record in its slot (R428, R429) -/

/-- The records are those of before. -/
def SameRecs (s t : State) : Prop := t.mram.recs = s.mram.recs

/-- A report leaves the records. -/
theorem SameRecs.of_reports {s t : State} (h : Reports s t) : SameRecs s t := by
  obtain ⟨_, _, _, _, _, _, rfl⟩ := h
  rfl

/-- A byte written leaves the records. -/
theorem SameRecs.wrB (s : State) (a : Nat) (x : Byte) : SameRecs s (wrB s a x) := by
  have htouch (u : State) : (touchPage u a).mram = u.mram := by unfold touchPage; split <;> rfl
  have hmark (u : State) : (markDirty u a).mram.recs = u.mram.recs := rfl
  unfold Machine.wrB
  extract_lets s1 s2
  have hs2 : s2.mram = s.mram := (apply_ite State.mram ..).trans (by rw [htouch]; exact ite_self _)
  unfold SameRecs
  split
  · rw [hmark, hs2]
  · rw [hs2]

/-- Bytes written leave the records. -/
theorem SameRecs.wrBs (bs : List Byte) (s : State) (a : Nat) : SameRecs s (wrBs s a bs) := by
  induction bs generalizing s a with
  | nil => rfl
  | cons x t ih => exact (ih (Machine.wrB s a x) (a + 1)).trans (SameRecs.wrB s a x)

/-- The number of the next record. -/
abbrev seqWord : Nat := R.REC_SEQ_VAL.addr 0 0

/-- The records and the number of the next one are those of before. -/
def RecsKept (s t : State) : Prop := SameRecs s t ∧ Kept seqWord s t

namespace RecsKept

variable {s t u : State}

/-- No change. -/
theorem refl (s : State) : RecsKept s s := ⟨rfl, Kept.refl _ s⟩

/-- One change after another. -/
theorem trans (h1 : RecsKept s t) (h2 : RecsKept t u) : RecsKept s u := ⟨Eq.trans h2.1 h1.1, h1.2.trans h2.2⟩

/-- Either change. -/
theorem ite {p : Prop} [Decidable p] (h1 : RecsKept s t) (h2 : RecsKept s u) : RecsKept s (if p then t else u) := by
  split
  · exact h1
  · exact h2

/-- A field of another word. -/
theorem setF {f : Fld} {i k : Nat} (v : Nat) (h : seqWord ≠ f.addr i k) : RecsKept s (setF s f v i k) :=
  ⟨rfl, Kept.setF v h⟩

/-- A momentary condition of the recorder. -/
theorem latch (m : Nat) : RecsKept s (latch s .rcd 0 m) :=
  ⟨SameRecs.of_reports (Reports.latch ..), Kept.latch (by decide) (by decide) m⟩

/-- A level condition of the recorder. -/
theorem level (n : Nat) (on : Bool) : RecsKept s (level s .rcd 0 n on) :=
  ⟨SameRecs.of_reports (Reports.level ..), Kept.level (by decide) (by decide) n on⟩

/-- A completed call. -/
theorem complete (s : State) (c : Call) (code res : Nat) : RecsKept s (complete s c code res) :=
  ⟨SameRecs.wrBs .., Kept.of_regs (BytesOnly.wrBs ..).regs⟩

/-- A record that is published. -/
theorem notifyLast (s : State) : RecsKept s (notifyLast s) := by
  unfold Machine.notifyLast notify
  exact ite ⟨rfl, Kept.refl _ _⟩ ⟨rfl, Kept.refl _ _⟩

end RecsKept

/-- A record with its number in a slot, and the number advanced. -/
def RecWritten (s : State) (k : Nat) (bs : List Byte) (seq : Nat) : Prop := getRec s k = bs ∧ getF s R.REC_SEQ_VAL = seq

/-- A written record stays as long as the records and their number do. -/
theorem RecWritten.of_kept {s t : State} {k seq : Nat} {bs : List Byte} (h : RecWritten s k bs seq) (hk : RecsKept s t) :
    RecWritten t k bs seq := by
  obtain ⟨hrec, hseq⟩ := h
  obtain ⟨hrecs, hword⟩ := hk
  refine ⟨?_, hword.getF.trans hseq⟩
  rw [getRec, hrecs]
  exact hrec

/-- A record is written with its number, and the number advances. -/
theorem recNew_writes (s : State) (r : RecReq) :
    RecWritten (recNew s r) (recSlot s) (recBytes s r (getF s R.REC_SEQ_VAL)) ((getF s R.REC_SEQ_VAL + 1) % 2 ^ 32) := by
  unfold recNew
  extract_lets k s1 s' n s2 src s3
  have hslot : getRec s1 k = recBytes s r (getF s R.REC_SEQ_VAL) :=
    mget_mput_same [] s.mram.recs k (recBytes s r (getF s R.REC_SEQ_VAL))
  have hwritten : RecWritten s1 k (recBytes s r (getF s R.REC_SEQ_VAL)) ((getF s R.REC_SEQ_VAL + 1) % 2 ^ 32) :=
    ⟨hslot, getF_setF_same _ _ _ _ _ (by decide)⟩
  have hpoint : RecsKept s1 s2 := RecsKept.ite
    ((RecsKept.setF _ (by decide)).trans (RecsKept.ite (RecsKept.level _ _) (RecsKept.refl _)))
    (RecsKept.ite (((RecsKept.setF _ (by decide)).trans (RecsKept.setF _ (by decide))).trans (RecsKept.level _ _))
      (RecsKept.setF _ (by decide)))
  have hlast : RecsKept s2 s3 := RecsKept.ite ⟨rfl, Kept.refl _ _⟩ (RecsKept.refl _)
  have hmapped : RecsKept s3 (if r.typ = 3 then latch (setB s3 R.REC_STAT_MAPPED true) .rcd 0 8 else s3) :=
    RecsKept.ite ((RecsKept.setF _ (by decide)).trans (RecsKept.latch _)) (RecsKept.refl _)
  exact hwritten.of_kept ((hpoint.trans hlast).trans hmapped)

/-- The front of the write queue that is not folded is in its slot, with the next number. -/
theorem recordWrite_writes {s : State} {r : RecReq} {t : List RecReq} (hscan : getB s R.REC_STAT_SCANNED = true)
    (hst : stOf s .rcd ≠ 3) (hdrop : s.recDrop = 0) (hq : s.recQ = r :: t) (hfold : recFold { s with recQ := t } r = none) :
    ∃ u, exec .recordWrite s = .next u ∧ getRec u (recSlot s) = recBytes s r (getF s R.REC_SEQ_VAL) ∧
      getF u R.REC_SEQ_VAL = (getF s R.REC_SEQ_VAL + 1) % 2 ^ 32 := by
  have hnew := recNew_writes { s with recQ := t } r
  have hone : RecsKept (recNew { s with recQ := t } r) (recOne { s with recQ := t } r) := by
    obtain ⟨hcall, hnone⟩ := recOne_new hfold
    cases hc : r.call with
    | none => rw [hnone hc]; exact RecsKept.refl _
    | some c => rw [hcall c hc]; exact RecsKept.complete ..
  exact ⟨_, recordWrite_front hscan hst hdrop hq,
    hnew.of_kept (hone.trans (RecsKept.ite (RecsKept.notifyLast _) (RecsKept.refl _)))⟩

/-! ## The intervals of the statistics (R432) -/

/-- Time, REC's state and the declarations of the statistics are those of before. -/
def DeclKept (s t : State) : Prop :=
  now t = now s ∧ Kept ((hState .rcd).addr 0 0) s t ∧
  ∀ j < 64, Kept (R.REC_S_SRC_EN.addr 0 j) s t ∧ Kept (R.REC_S_INT_SEC.addr 0 j) s t

/-- The boundary of statistic `i` has come. -/
def IntervalDue (s : State) (i : Nat) : Prop :=
  getB s R.REC_S_SRC_EN 0 i = true ∧ 0 < mget s.statAt i 0 ∧ mget s.statAt i 0 ≤ now s ∧ 0 < statIv s i

/-- Statistic `i` has started the interval that holds the instant, with no samples. -/
def IntervalFresh (s t : State) (i : Nat) : Prop :=
  now s < mget t.statAt i 0 ∧ mget t.statAt i 0 ≤ now s + statIv s i ∧ mget t.stats i {} = {}

/-- Statistic `i` is that of before. -/
def SameStat (s t : State) (i : Nat) : Prop := mget t.statAt i 0 = mget s.statAt i 0 ∧ mget t.stats i {} = mget s.stats i {}

namespace DeclKept

variable {s t u : State} {i : Nat}

/-- No change. -/
theorem refl (s : State) : DeclKept s s := ⟨rfl, Kept.refl _ s, fun _ _ => ⟨Kept.refl _ s, Kept.refl _ s⟩⟩

/-- One change after another. -/
theorem trans (h1 : DeclKept s t) (h2 : DeclKept t u) : DeclKept s u :=
  ⟨h2.1.trans h1.1, h1.2.1.trans h2.2.1, fun j hj => ⟨(h1.2.2 j hj).1.trans (h2.2.2 j hj).1, (h1.2.2 j hj).2.trans (h2.2.2 j hj).2⟩⟩

/-- The interval of a statistic is as long as before. -/
theorem statIv (h : DeclKept s t) (hi : i < 64) : statIv t i = Machine.statIv s i := by
  obtain ⟨-, -, hdecl⟩ := h
  rw [Machine.statIv, Machine.statIv, (hdecl i hi).2.getF]

/-- A statistic is declared where it was. -/
theorem declared (h : DeclKept s t) (hi : i < 64) : getB t R.REC_S_SRC_EN 0 i = getB s R.REC_S_SRC_EN 0 i := by
  obtain ⟨-, -, hdecl⟩ := h
  exact (hdecl i hi).1.getB

/-- REC is in RUN where it was. -/
theorem inRun (h : DeclKept s t) : inRun t .rcd = Machine.inRun s .rcd := by
  obtain ⟨-, hstate, -⟩ := h
  rw [Machine.inRun, Machine.inRun, stOf, stOf, hstate.getF]

/-- A request for the write queue. -/
theorem recPush (r : RecReq) : DeclKept s (recPush s r) := by
  have hdrop (j : Nat) : R.REC_S_SRC_EN.addr 0 j ≠ R.REC_DROP_COUNT.addr 0 0 ∧
      R.REC_S_INT_SEC.addr 0 j ≠ R.REC_DROP_COUNT.addr 0 0 := by
    simp only [Fld.addr, R.REC_S_SRC_EN, R.REC_S_INT_SEC, R.REC_DROP_COUNT]
    omega
  have hkept {a : Nat} (ha : a ≠ R.REC_DROP_COUNT.addr 0 0) : Kept a s (Machine.recPush s r) :=
    Kept.ite (Kept.of_regs rfl) (Kept.trans (Kept.of_regs (t := { s with recDrop := s.recDrop + 1 }) rfl) (Kept.setF _ ha))
  refine ⟨?_, hkept (by decide), fun j _ => ⟨hkept (hdrop j).1, hkept (hdrop j).2⟩⟩
  unfold Machine.recPush
  split <;> rfl

end DeclKept

/-- The end of one interval changes nothing but what its statistic holds and the write queue. -/
theorem intervalEnd_frame (s : State) (i : Nat) :
    DeclKept s (intervalEnd s i) ∧ ∀ j, j ≠ i → SameStat s (intervalEnd s i) j := by
  unfold intervalEnd
  extract_lets at_ nxt s1
  split
  · exact ⟨DeclKept.refl s, fun j _ => ⟨rfl, rfl⟩⟩
  · have hpush : DeclKept s s1 := DeclKept.recPush _
    have hsame : s1.statAt = s.statAt ∧ s1.stats = s.stats := by
      simp only [s1]
      unfold recPush
      split <;> exact ⟨rfl, rfl⟩
    obtain ⟨hat, hstats⟩ := hsame
    refine ⟨hpush, fun j hj => ⟨?_, ?_⟩⟩
    · rw [← hat]
      exact mget_mput_other 0 0 s1.statAt i j nxt hj
    · rw [← hstats]
      exact mget_mput_other ({} : StatAcc) {} s1.stats i j {} hj

/-- The instant after a number of whole intervals that lies beyond `t`, and no further than one interval. -/
theorem next_boundary {at_ t iv : Nat} (hle : at_ ≤ t) (hiv : 0 < iv) :
    t < at_ + ((t - at_) / iv + 1) * iv ∧ at_ + ((t - at_) / iv + 1) * iv ≤ t + iv := by
  have hdiv : (t - at_) / iv * iv ≤ t - at_ := Nat.div_mul_le_self _ _
  have hmod : t - at_ < ((t - at_) / iv + 1) * iv := Nat.lt_mul_of_div_lt (Nat.lt_succ_self _) hiv
  rw [Nat.add_mul, Nat.one_mul] at *
  omega

/-- A statistic whose boundary has come starts the interval that holds the instant. -/
theorem intervalEnd_fresh {s : State} {i : Nat} (hrun : inRun s .rcd = true) (hdue : IntervalDue s i) :
    IntervalFresh s (intervalEnd s i) i := by
  obtain ⟨hen, hset, hle, hiv⟩ := hdue
  have hset' : decide (mget s.statAt i 0 = 0) = false := decide_eq_false (Nat.pos_iff_ne_zero.1 hset)
  have hdue' : decide (now s < mget s.statAt i 0) = false := decide_eq_false (Nat.not_lt.2 hle)
  have hiv' : decide (statIv s i = 0) = false := decide_eq_false (Nat.pos_iff_ne_zero.1 hiv)
  obtain ⟨hafter, hwithin⟩ := next_boundary hle hiv
  rw [intervalEnd]
  dsimp only
  rw [hrun, hen, hset', hdue', hiv', if_neg (by decide)]
  have hat (m : NMap Nat) (v : Nat) : mget (mput 0 m i v) i 0 = v := mget_mput_same ..
  have hnone (m : NMap StatAcc) : mget (mput {} m i {}) i {} = ({} : StatAcc) := mget_mput_same ..
  refine ⟨?_, ?_, ?_⟩ <;> dsimp only
  · rw [hat]
    exact hafter
  · rw [hat]
    exact hwithin
  · rw [hnone]

/-- Every statistic of a list whose boundary has come starts a new interval, and the others go on. -/
theorem forEach_intervalEnd {l : List Nat} (hnd : l.Nodup) (hl : ∀ i ∈ l, i < 64) (s : State) (hrun : inRun s .rcd = true) :
    DeclKept s (forEach l s intervalEnd) ∧ (∀ i, i ∉ l → SameStat s (forEach l s intervalEnd) i) ∧
    ∀ i ∈ l, IntervalDue s i → IntervalFresh s (forEach l s intervalEnd) i := by
  induction l generalizing s with
  | nil => exact ⟨DeclKept.refl s, fun i _ => ⟨rfl, rfl⟩, fun i hi => absurd hi (List.not_mem_nil)⟩
  | cons x t ih =>
    obtain ⟨hx, ht⟩ := List.nodup_cons.1 hnd
    obtain ⟨hkept, hothers⟩ := intervalEnd_frame s x
    obtain ⟨hkept', hrest, hfresh⟩ := ih ht (fun i hi => hl i (List.mem_cons_of_mem x hi)) (intervalEnd s x) (hkept.inRun.trans hrun)
    have hcons : forEach (x :: t) s intervalEnd = forEach t (intervalEnd s x) intervalEnd := rfl
    rw [hcons]
    refine ⟨hkept.trans hkept', fun i hi => ?_, fun i hi hdue => ?_⟩
    · obtain ⟨hix, hit⟩ := not_or.1 (mt List.mem_cons.2 hi)
      obtain ⟨hat, hst⟩ := hothers i hix
      obtain ⟨hat', hst'⟩ := hrest i hit
      exact ⟨hat'.trans hat, hst'.trans hst⟩
    · by_cases hix : i = x
      · subst hix
        obtain ⟨hafter, hwithin, hnone⟩ := intervalEnd_fresh hrun hdue
        obtain ⟨hat, hst⟩ := hrest i hx
        exact ⟨hat ▸ hafter, hat ▸ hwithin, hst.trans hnone⟩
      · have hi64 : i < 64 := hl i hi
        obtain ⟨hen, hset, hle, hiv⟩ := hdue
        obtain ⟨hat, -⟩ := hothers i hix
        have hdue' : IntervalDue (intervalEnd s x) i :=
          ⟨(hkept.declared hi64).trans hen, by rw [hat]; exact hset, by rw [hat, hkept.1]; exact hle,
            by rw [hkept.statIv hi64]; exact hiv⟩
        have hit : i ∈ t := (List.mem_cons.1 hi).resolve_left hix
        obtain ⟨hafter, hwithin, hnone⟩ := hfresh i hit hdue'
        rw [hkept.1] at hafter
        rw [hkept.1, hkept.statIv hi64] at hwithin
        exact ⟨hafter, hwithin, hnone⟩

/-! ## The operating second (R426) -/

/-- Only the statistics have changed. -/
def OnlyStats (s t : State) : Prop := ∃ x, t = { s with stats := x }

/-- A sample changes the statistics alone. -/
theorem OnlyStats.statSample (s : State) (kind id x : Nat) : OnlyStats s (statSample s kind id x) := by
  unfold Machine.statSample
  split
  · exact ⟨s.stats, rfl⟩
  · refine forEach_keeps (P := OnlyStats s) (fun t i _ ht => ?_) ⟨s.stats, rfl⟩
    obtain ⟨y, rfl⟩ := ht
    split
    · exact ⟨_, rfl⟩
    · exact ⟨y, rfl⟩

/-- LWRITE of one word that its register takes. -/
theorem lwrite_one {s u : State} {k id a : Nat} {bs : List Byte} (hpriv : 3 ≤ (getSess s k).priv) (hw : mgWaits s k = false)
    (hq : (getSess s k).q = []) (hloc : localReg a = true) (ha : a % 4 = 0) (hlen : bs.length = 4)
    (hword : mgWord (asked s k id) a bs = (u, none)) :
    exec (.lwrite k { op := 4, id := id } (8 + bs.length) a bs) s = .next (mgmtChange (answer u 4 0x1000 1 []) k 4) := by
  have hshort : 8 + bs.length ≤ 65560 := by omega
  have hstep : exec (.lwrite k { op := 4, id := id } (8 + bs.length) a bs) s = .next (doLwrite k a bs (asked s k id)) :=
    congrArg Host.Outcome.next ((mgGet_now (by omega) hw hq).trans
      (request_granted (op := 4) (need := 3) (f := doLwrite k a bs) rfl rfl hshort hpriv))
  have hok : wordsOk a bs = true := by
    rw [wordsOk, hlen, ha]
    decide
  have hne : bs ≠ [] := fun hnil => by rw [hnil] at hlen; cases hlen
  have hone : bs.length / 4 = 1 := by rw [hlen]
  have htake : bs.take 4 = bs := List.take_of_length_le hlen.le
  have hwords : mgWords localReg (bs.length / 4) (asked s k id) a bs = (u, none) := by
    rw [hone]
    exact (mgWords_first hne).2.2 u hloc (by rw [htake]; exact hword)
  have hwrite : mgWrite localReg (asked s k id) 4 a bs (fun s => mgmtChange s k 4) =
      mgmtChange (answer u 4 0x1000 1 []) k 4 := by
    rw [mgWrite_done hwords, hone]
  exact hstep.trans (congrArg _ ((if_neg (not_bnot_of_true hok)).trans hwrite))

/-- A new cause on an owner with a healthy standby leaves an abdication with the number of one of the five causes. -/
theorem abdication_planned {s : State} (hon : pairOn s = true) (hr : role s = 1) (ha : s.pair.abdAt = none)
    (hnew : newCauses s ≠ 0) (hh : healthyStandby (causesSeen s) = true) :
    ∃ t n, exec .abdication s = .next t ∧ t.pair.abd = some n ∧ 1 ≤ n ∧ n ≤ 5 ∧ t.pair.seen = abdBits s := by
  have hstep : exec .abdication s = .next (judgeAbd s) := if_pos hon
  have hlow : ((List.range 5).find? (fun i => bitOf (newCauses s) i)).getD 0 < 5 := by
    cases hf : (List.range 5).find? (fun i => bitOf (newCauses s) i) with
    | none => decide
    | some i => exact List.mem_range.1 (List.mem_of_find?_eq_some hf)
  exact ⟨_, _, hstep.trans (congrArg _ ((judgeAbd_of_owner hr ha).2.1 hnew hh)), rfl, Nat.le_add_left .., hlow, rfl⟩

/-- Settles O59, command by command. -/
theorem heartbeatLwriteAndRecorderComplete : Obligations.HeartbeatLwriteAndRecorderComplete := by
  unfold Obligations.HeartbeatLwriteAndRecorderComplete
  refine fun s s1 c => ⟨fun h b hon hg hv he hid hr => hbRx_kept hon hg hv he hid hr,
    fun hon hr ha hnew hh => abdication_planned hon hr ha hnew hh, ?lwrite, ?cond, ?stat,
    fun r t hscan hst hdrop hq hfold => recordWrite_writes hscan hst hdrop hq hfold, ?intervals, ?second⟩
  case lwrite =>
    intro k id a bs u hpriv hw hq hloc ha hlen t0 hword
    exact lwrite_one hpriv hw hq hloc ha hlen hword
  case cond =>
    intro hc k n d hlo hhi hroom
    have hk : dsc s1 c 0 2 = k := rfl
    have hn : dsc k.2 c 2 2 = n := rfl
    have hd : engRd n.2 (c.addr + 0x18) 20 = d := rfl
    clear_value d n k
    exact ⟨_, _, cond_accepted hc hk hn hd hlo hhi hroom, rfl, rfl, rfl, rfl, rfl, rfl, rfl⟩
  case stat =>
    intro hc n x hdecl
    have hn : dsc s1 c 0 1 = n := rfl
    have hx : dsc n.2 c 4 4 = x := rfl
    clear_value x n
    exact stat_declared hc hn hx hdecl
  case intervals =>
    intro hrun
    have hall : exec .statIntervalEnd s = .next (forEach (List.range 64) s intervalEnd) := rfl
    obtain ⟨-, -, hfresh⟩ := forEach_intervalEnd List.nodup_range (fun i hi => List.mem_range.1 hi) s hrun
    exact ⟨_, hall, fun i hi hen hset hle hiv => hfresh i (List.mem_range.2 hi) ⟨hen, hset, hle, hiv⟩⟩
  case second =>
    have hstats : OnlyStats { s with mram := { s.mram with opsec := (s.mram.opsec + 1) % 2 ^ 32 }, opAt := s.ticks }
        (forEach [0, 1, 2, 3] { s with mram := { s.mram with opsec := (s.mram.opsec + 1) % 2 ^ 32 }, opAt := s.ticks }
          (fun s i => statSample s 8 i (fdiv f64 (f64i (sint 16 (getF s R.PWR_TEMP_T 0 i))) (f64i 10)))) := by
      refine forEach_keeps (fun t i _ ht => ?_) ⟨s.stats, rfl⟩
      obtain ⟨y, rfl⟩ := ht
      obtain ⟨z, hz⟩ := OnlyStats.statSample _ 8 i _
      exact ⟨z, hz⟩
    obtain ⟨x, hx⟩ := hstats
    exact ⟨_, congrArg Host.Outcome.next hx, rfl, rfl, rfl, rfl⟩

end Sys2Proof.Machine
end
